-- ==== Sys2Proof/Word.lean ====
section
/-!
DEFINITION. Sys2Proof/Word.lean: the word types and the one shape of a sparse table. Every other helper stands in
Sys2Proof/Machine/Table.lean and Sys2Proof/Machine/Bits.lean.
-/
namespace Sys2Proof

/-- One byte. -/
abbrev Byte := BitVec 8
/-- A 32-bit word: a host-visible register, a Furrow instruction word, a PARAM word. -/
abbrev W32 := BitVec 32
/-- A 64-bit word: a scalar register of a Furrow engine (05, Table 5.1). -/
abbrev W64 := BitVec 64
/-- A vector register of a Furrow engine: VLEN is 4,096 (05, Table 5.1; 07 R153). -/
abbrev VReg := BitVec 4096
/-- A 64-byte submission or admin entry (02 R23), byte 0 in bits [7:0]. -/
abbrev Entry := BitVec 512
/-- A 32-byte record: a notice (02 R54), an event record (16 R346), a fault history record (15 R310),
a region descriptor (14, Table 14.4). Byte 0 in bits [7:0]. -/
abbrev Rec32 := BitVec 256

/-- A sparse table: keys strictly rising, no entry equal to what an unlisted key reads as. -/
abbrev Tbl (α : Type) := List (Nat × α)

end Sys2Proof
end

