-- ==== Sys2Proof/Config.lean ====
section
/-!
DEFINITION. Sys2Proof/Config.lean: what an implementation fixes, and the free values: constants with no body, so that no
proof can see what they are. Each is named in the assumption log.
-/
namespace Sys2Proof

/-- The two orderable parts (00 R1). The part is plain data of the state. -/
inductive Part where
  | kq128
  | kq96
deriving DecidableEq, Repr, Inhabited

namespace Config

/-- The n-th free value of width w that a run meets: what the spec leaves open. The step applies it to the
counter `free` of the device. -/
opaque freeBits : (w : Nat) → Nat → BitVec w

/-- The ML-DSA-87 public key that signs SRL bundles (03 R79): 2,592 bytes as a little-endian number. -/
opaque srlKey : Nat

/-- ML-DSA.Verify_internal of FIPS 204 for a set (03, Table 3.9), a public key, M' and a signature of the set's length: 0 it verifies, or the
reason of 09 R202 that it does not: 1 the hint's encoding, 2 a bound, 3 the commitment. -/
opaque mldsaVerify : (set : Nat) → (pk msg sig : List Byte) → Fin 4

/-! The cores of the schemes that the standards of 00, Table 0.4 define and the spec does not (09): each answers a number whose low bytes, lowest first,
are the value (assumption 147). -/

/-- K-PKE of FIPS 203 by set (03, Table 3.9): the encapsulation key of a seed d; the ciphertext of a message and its coins under a key; the message that
the key of a seed d decrypts from a ciphertext. -/
opaque kpkeKey : (set : Nat) → (seed : List Byte) → Nat
opaque kpkeEnc : (set : Nat) → (ek msg coins : List Byte) → Nat
opaque kpkeDec : (set : Nat) → (seed ct : List Byte) → Nat

/-- ML-DSA of FIPS 204 by set: the public key of a seed; the signature of M' with rnd, and the further attempts of its rejection loop. -/
opaque mldsaKey : (set : Nat) → (seed : List Byte) → Nat
opaque mldsaSign : (set : Nat) → (seed msg rnd : List Byte) → Nat
opaque mldsaRetries : (set : Nat) → (seed msg rnd : List Byte) → Nat

/-- SLH-DSA of FIPS 205 by set: PK.root of SK.seed and PK.seed; the signature of M' with opt_rand; whether a signature leads to PK.root. -/
opaque slhRoot : (set : Nat) → (skSeed pkSeed : List Byte) → Nat
opaque slhSign : (set : Nat) → (key msg optRand : List Byte) → Nat
opaque slhVerify : (set : Nat) → (pk msg sig : List Byte) → Bool

/-- Hash-based signatures of RFC 8554 and RFC 8391 by kind (family and type codes), of a tree named by its public bytes: the hash of the one-time public
key of leaf i; the randomizer of a message; the one-time signature of a message; the leaf that a one-time signature leads to; the parent of
two nodes; the message digest of XMSS. For a lower HSS tree: its SEED and I. -/
opaque otsLeaf : (kind : Nat) → (seed pub : List Byte) → (i : Nat) → Nat
opaque otsRandom : (kind : Nat) → (seed pub : List Byte) → (i : Nat) → (msg : List Byte) → Nat
opaque otsSign : (kind : Nat) → (seed pub : List Byte) → (i : Nat) → (c msg : List Byte) → Nat
opaque otsRoot : (kind : Nat) → (pub : List Byte) → (i : Nat) → (c msg sig : List Byte) → Nat
opaque treeNode : (kind : Nat) → (pub : List Byte) → (node : Nat) → (left right : List Byte) → Nat
opaque xmssDigest : (kind : Nat) → (r root : List Byte) → (i : Nat) → (msg : List Byte) → Nat
opaque hssChild : (kind : Nat) → (seed pub : List Byte) → (level tree : Nat) → Nat

/-- HQC and Classic McEliece by family and set: the public key of a secret key; the secret key of 32 random bytes (McEliece); the ciphertext
and the shared secret of an encapsulation with 64 random bytes; the shared secret of a decapsulation, implicit rejection included. -/
opaque codePublic : (family set : Nat) → (key : List Byte) → Nat
opaque codePrivate : (set : Nat) → (seed : List Byte) → Nat
opaque codeEnc : (family set : Nat) → (pk random : List Byte) → Nat
opaque codeSecret : (family set : Nat) → (pk random : List Byte) → Nat
opaque codeDec : (family set : Nat) → (key ct : List Byte) → Nat

/-- Two probable primes of bits / 2 bits each, found from randomness (FIPS 186-5 A.1.3). -/
opaque rsaPrimes : (bits : Nat) → (random : List Byte) → Nat × Nat

/-- X.509 certificates (09, Table 9.8): the subject's public key, as its FAMILY, PARAM_SET and bytes, none when the encoding is broken; whether its
signature verifies under such a key; whether a device time lies within its validity. -/
opaque certKey : (cert : List Byte) → Option (Nat × Nat × List Byte)
opaque certSigned : (cert : List Byte) → (family set : Nat) → (pk : List Byte) → Bool
opaque certInDate : (cert : List Byte) → (time : Nat) → Bool

/-- Fused identity: the device serial number (00, Table 0.4 Device Serial Number; 20 R421). -/
opaque serial : BitVec 64
/-- The fused device identity of 32 bytes (17 R356, 19 R397). -/
opaque identity : BitVec 256
/-- Fused into the custody die, and the response of its physically unclonable source (13, Table 13.1 DUR). -/
opaque fuseSecret : BitVec 256
opaque pufResponse : BitVec 256
/-- Fused into both dies when the package is assembled: the 256-bit pairing key, and the two die identifiers (01 R11; their width is not given). -/
opaque pairKey : List (BitVec 8)
opaque custodyDie : List (BitVec 8)
opaque computeDie : List (BitVec 8)
/-- The firmware version that board-management reads report (20, Table 20.11). -/
opaque firmwareVersion : BitVec 32

/-- Standard Routine Library images are no part of the spec: text length, entry point and data section of a routine's
variant at a masking order, in a version of the bundle (03 R61, 05 R112). -/
opaque srlText : (version routine order : Nat) → Nat
opaque srlEntry : (version routine order : Nat) → Nat
opaque srlData : (version routine order : Nat) → List Byte

end Config
end Sys2Proof
end

