-- ==== Sys2Proof/Machine/DeviceEngine.lean ====
section
/-!
DEFINITION. Sys2Proof/Machine/DeviceEngine.lean: the state of one Furrow engine (05, 06, 07, 08), of a Lateral, of the long-integer
units (10) and of the bulk digest engines (11), as plain data.
-/
namespace Sys2Proof.Machine

/-- One vector register with its share tag (07 R153, R158; 08 R173): 0 unshared, else the number of shares less one. -/
structure VShare where
  bits : VReg := 0
  tag : Nat := 0
deriving DecidableEq, Repr

/-- An outstanding rld (06 R133). -/
structure RldOut where
  rsv : Nat
  opm : Nat
  len : Nat
deriving DecidableEq, Repr

/-- One DMA descriptor (06, Table 6.7). -/
structure DmaDesc where
  opm : Nat
  len : Nat
  write : Bool
  unbuf : Bool
  rsv : Nat
deriving DecidableEq, Repr

/-- An outstanding DMA list (06 R135). -/
structure DmaList where
  ident : Nat
  descs : List DmaDesc
deriving DecidableEq, Repr

/-- What a key request has come to (06 R141, R142). -/
inductive KeyOutcome where
  | waiting
  | delivered (bytes : Nat) (leaf : Option Nat)
  | refused (status detail : Nat)
  | discarded
deriving DecidableEq, Repr

/-- A lease an engine holds (01 R14, R15; 08 R186): the key's shares wait in the lease store. -/
structure Lease where
  handle : Nat
  allot : Nat
  usage : Nat := 0
  bytes : List Byte := []
  shares : Nat := 1
  /-- The 64 bytes of attributes that came with it (13 R273). -/
  attr : List Byte := []
  uses : Nat := 0
  ends : Nat := 0
  /-- Its shares have been used and are still to be refreshed (08 R186). -/
  stale : Bool := false
  /-- Of a key given to a command: it was revoked since (01 R16). -/
  revoked : Bool := false
  /-- What its routine knows of the key (DESIGN CHOICE, assumption 148): attribute block, length of the material, generation. -/
  kind : List Byte := []
  /-- It came with a leaf. -/
  leafed : Bool := false
deriving DecidableEq, Repr

/-- An outstanding key request of a command (06 R141, Table 6.12). -/
structure KeyReqOut where
  ident : Nat
  /-- The engine whose request it is: it may outlive a save (06 R138). -/
  eng : Nat := 0
  request : Nat
  handle : Nat
  usage : Nat
  dest : Nat
  outcome : KeyOutcome := .waiting
  /-- The leased key it is served with once its shares can be refreshed (08, Table 8.7). -/
  fromLease : Option Lease := none
  /-- Bytes of share data received so far, by fragments (08 R185). -/
  received : List Byte := []
deriving DecidableEq, Repr

/-- An outstanding job of a command (06 R141): unit 0 LIU, 1 digest; its status word once it has ended. -/
structure JobOut where
  ident : Nat
  unit : Nat
  word : Option Nat := none
  /-- Operand-memory ranges the job will still write (06 R132; 10 R227; 11 Table 11.9). -/
  writes : List (Nat × Nat) := []
  /-- A digest job whose lengths differ from DECL_LEN: the status that jwait ends the command with (11 R244). -/
  ends : Option (Nat × Nat) := none
deriving DecidableEq, Repr

/-- A delivered key's place in operand memory (08 R187): `step` bytes apart lie its shares. -/
structure KeyArea where
  base : Nat
  len : Nat
  shares : Nat
  handle : Nat
  stateful : Bool := false
  /-- 64-byte offsets within a share that the routine has written since the delivery. -/
  written : List Nat := []
deriving DecidableEq, Repr

/-- The architectural state of the command that an engine runs: what a preemption saves and a restore brings back
(05 R120, R123, R124; 06 R138; 07). -/
structure EngArch where
  /-- x1 to x31; x0 is not held (06 R128). -/
  x : Tbl W64 := []
  /-- v0 to v31 with their tags; la0 to la7 are v(4k) to v(4k+3) (07 R168). -/
  v : Tbl VShare := []
  /-- p0 to p7, 512 bits each (07, Table 7.1). -/
  p : Tbl (BitVec 512) := []
  /-- m0 to m3 (07, Table 7.1). -/
  m : Tbl W64 := []
  pc : Nat := 0
  textLen : Nat := 0
  intrap : Bool := false
  stream : Bool := false
  cause : Nat := 0
  epc : Nat := 0
  tval : Nat := 0
  tvec : Nat := 0
  vl : Nat := 0
  vtype : Nat := 0
  vresume : Nat := 0
  shares : Nat := 0
  allot : Nat := 0
  routine : Nat := 0
  param : Nat := 0
  arg0 : Nat := 0
  arg1 : Nat := 0
  arg2 : Nat := 0
  inlen : Nat := 0
  outmax : Nat := 0
  keyh : Nat := 0
  ctxw : Nat := 0
  inaddr : Nat := 0
  outaddr : Nat := 0
  auxaddr : Nat := 0
  outcap : Nat := 0
  inavail : Nat := 0
  incons : Nat := 0
  cycles : Nat := 0
  leaf : Nat := 0
  /-- Operand memory of 256 KiB, an unlisted byte reads 0 (05 R112). -/
  opm : Tbl Byte := []
  rlds : List RldOut := []
  lists : List DmaList := []
  keys : List KeyReqOut := []
  jobs : List JobOut := []
  /-- Waiting in an ent since this device time (06 R143). -/
  entWait : Option Nat := none
  /-- Class and amount of the request that the ent has sent and that is not yet answered. -/
  entAsked : Option (Nat × Nat) := none
  /-- DRBG bytes delivered for the ent that waits, not yet taken. -/
  entBytes : List Byte := []
  areas : List KeyArea := []
  /-- The keys given to this command: it completes with the stateless ones when they are revoked (01 R16). -/
  given : List Lease := []
  /-- The DRBG output that its ents have taken, in order. -/
  drawn : List Byte := []
  /-- The routine wrote to the context window (05 R112). -/
  ctxWritten : Bool := false
  needsRandom : Bool := false
  /-- What the engine waits for while ES_CYCLES stands still (05 R121): 1 a key or entropy, 2 the mask generator (08, Table 8.7). -/
  paused : Nat := 0
  /-- A Contained fault of the engine was met at this instruction boundary: nothing more is issued (15 R311). -/
  faulted : Bool := false
  /-- Engine cycles since the last dispatch (05 R122). -/
  sliceCycles : Nat := 0
deriving DecidableEq, Repr

/-- The mask generator of an engine (08 R181 to R183, Table 8.12). -/
structure MaskGen where
  state : BitVec 1600 := 0
  /-- Blocks produced since the last seed (R182). -/
  blocks : Nat := 0
  /-- Bits produced and not yet drawn, the next one lowest, and how many. -/
  fifo : Nat := 0
  fifoBits : Nat := 0
  seeded : Bool := false
  atLimit : Bool := false
  reqPending : Bool := false
deriving DecidableEq, Repr

/-- An image resident in an engine's instruction memory (05 R111, R112). -/
structure Resident where
  routine : Nat
  version : Nat
  order : Nat
  pages : Nat
deriving DecidableEq, Repr

/-- ENG_STATUS.STATE (05, Table 5.11). -/
inductive EngState where
  | absent
  | spare
  | idle
  | running
  | saving
  | restoring
  | fenced
  | underTest
deriving DecidableEq, Repr

/-- One physical engine (05). -/
structure Engine where
  st : EngState := .idle
  allot : Nat := 0
  shares : Nat := 0
  routine : Nat := 0
  param : Nat := 0
  slot : Option Nat := none
  /-- The allotment of the last command (05 R118, Table 5.5; 14 R290). -/
  lastAllot : Option Nat := none
  resident : List Resident := []
  arch : EngArch := {}
  leases : List Lease := []
  mg : MaskGen := {}
  busy : Nat := 0
  /-- A fence that waits for the end of the command (05, Table 5.9). -/
  fenceDue : Bool := false
  /-- A preemption has been requested while a trap handler runs: it is taken at the tret (05, Table 5.8 step 1; 06, Table 6.15). -/
  preemptDue : Bool := false
  /-- Key requests of ended commands whose answers are still to come and are scrubbed (06 R145): request, handle and allotment. -/
  gone : List (Nat × Nat × Nat) := []
deriving DecidableEq, Repr

/-- One line of a Lateral's store buffer (05, Table 5.3): its command and engine, its bytes. -/
structure SbLine where
  line : Nat
  slot : Nat
  eng : Nat
  bytes : Tbl Byte
deriving DecidableEq, Repr

/-- A Lateral (05, Tables 5.3 and 5.12). -/
structure Lateral where
  /-- Command slots on the ready list, in order of release (R117). -/
  ready : List Nat := []
  sb : List SbLine := []
  sbHigh : Nat := 0
  imprecise : Nat := 0
  /-- The engine whose save or restore runs (R122). -/
  busyWith : Option Nat := none
  /-- Deficit round robin: credit of each allotment in engine cycles, and the allotment served last (14 R289). -/
  credit : Tbl Int := []
  lastServed : Nat := 0
  /-- Engine time of each allotment here, in cycles, in the current 1 ms window (14 R289). -/
  window : Tbl Nat := []
  windowStart : Nat := 0
  /-- Spares on their way into service, each with the engine it replaces (15 R312). -/
  spareFor : List (Nat × Nat) := []
deriving DecidableEq, Repr

/-- A slot of an LIU: 8,192 bits and its form (10 R230, R231). -/
structure LiuSlot where
  val : BitVec 8192 := 0
  mont : Bool := false
deriving DecidableEq, Repr

/-- One command word of an LIU job (10, Table 10.2). -/
structure LiuCmd where
  op : Nat
  dst : Nat := 0
  src1 : Nat := 0
  src2 : Nat := 0
  opm : Nat := 0
  len : Nat := 0
  be : Bool := false
  /-- A reserved bit of the word is non-zero. -/
  dirty : Bool := false
  /-- The bytes a LOAD reads, copied at issue (R226). -/
  bytes : List Byte := []
deriving DecidableEq, Repr

/-- An LIU job (10 R226): its header and command words as copied at issue. -/
structure LiuJob where
  ident : Nat
  count : Nat := 0
  release : Bool := false
  /-- The header breaks its form (R228), or the descriptor is misaligned. -/
  badHeader : Bool := false
  /-- The descriptor passes the end of operand memory. -/
  badRange : Bool := false
  cmds : List LiuCmd := []
  arrived : Bool := false
  pos : Nat := 0
  cycles : Nat := 0
  /-- RESULT, REASON and INDEX, once the job has come to an end (Table 10.4). -/
  outcome : Option (Nat × Nat × Nat) := none
  /-- When the multiplier or adder accepts the next command, and when each slot's last writer finishes, in cycles from
  the start of the job (R234). -/
  mulFree : Nat := 0
  addFree : Nat := 0
  moveFree : Nat := 0
  fence : Nat := 0
  finish : Nat := 0
  slotDone : Tbl Nat := []
  slotRead : Tbl Nat := []
deriving DecidableEq, Repr

/-- One long-integer unit (10). -/
structure Liu where
  allot : Nat := 0
  eng : Nat := 0
  saved : Bool := false
  bound : Option Nat := none
  modulus : Nat := 0
  n : Nat := 0
  slots : Tbl LiuSlot := []
  queue : List LiuJob := []
  /-- A job of the binding ended REFUSED or MALFORMED and its jwait has not run (R229). -/
  failed : Option Nat := none
  katDue : Bool := false
  busy : Nat := 0
  fenceDue : Bool := false
  /-- A Contained fault of the LIU was met: it runs nothing and takes no binding until it is fenced (10, Table 10.11). -/
  faulted : Bool := false
deriving DecidableEq, Repr

/-- One segment of a digest job (11, Table 11.1). -/
structure DigSegment where
  kind : Nat
  addr : Nat
  len : Nat
  bytes : List Byte := []
deriving DecidableEq, Repr

/-- The running state of a stream (11 R242). -/
structure DigState where
  alg : Nat := 0
  cshake : Bool := false
  /-- The bytes absorbed so far: with the algorithm they fix the chaining state. -/
  absorbed : List Byte := []
deriving DecidableEq, Repr

/-- A running state as exported to a save slot (11 R242, Table 11.5): its wrap counter, the command's serial number, the generation of stream and
slot. -/
structure DigSave where
  state : DigState := {}
  count : Nat := 0
  serial : Nat := 0
  gen : Nat := 0
deriving DecidableEq, Repr

/-- A bulk digest job (11 R238): its header and segments as copied at issue. -/
structure DigJob where
  slot : Nat
  eng : Nat
  ident : Nat
  alg : Nat := 0
  start : Bool := false
  finish : Bool := false
  compare : Bool := false
  cshake : Bool := false
  importB : Bool := false
  exportB : Bool := false
  stream : Nat := 0
  outOpm : Nat := 0
  outLen : Nat := 0
  blobOpm : Nat := 0
  declLen : Nat := 0
  segs : List DigSegment := []
  /-- What the arrival check finds in the descriptor: its header, a segment, a range (R240). -/
  badHeader : Bool := false
  badSegment : Bool := false
  badRange : Bool := false
  expect : List Byte := []
  blob : List Byte := []
  queued : Nat := 0
  /-- An earlier job of the command failed and its jwait has not run: this one is not run (R241). -/
  skip : Bool := false
  /-- The running state of a running job; of a preempted one what its slot holds (R242, R246). -/
  state : Option DigState := none
  save : Option DigSave := none
  /-- The bytes that the job's state held when it began, and bytes of the segments absorbed so far. -/
  before : Nat := 0
  donePos : Nat := 0
  preempts : Nat := 0
  cycles : Nat := 0
deriving DecidableEq, Repr

/-- One bulk digest engine (11, Table 11.10). -/
structure Dig where
  st : Nat := 0
  busyFlag : Bool := false
  done : Bool := false
  earlyRead : Bool := false
  matched : Bool := false
  short : Bool := false
  long : Bool := false
  access : Bool := false
  alg : Nat := 0
  cshake : Bool := false
  compare : Bool := false
  outLen : Nat := 0
  len : Nat := 0
  srcLen : Nat := 0
  src : Nat := 0
  expect : List Byte := []
  result : List Byte := []
  allot : Nat := 0
  eng : Nat := 0
  busy : Nat := 0
  job : Option DigJob := none
  /-- When the running job last started (R246). -/
  started : Nat := 0
  fenceDue : Bool := false
  /-- A Contained fault of the digest engine was met: its job is discarded, and it takes no other until it is fenced (11, Table 11.9). -/
  faulted : Bool := false
deriving DecidableEq, Repr

end Sys2Proof.Machine
end

