-- ==== Sys2Proof/Machine/DeviceHost.lean ====
section
/-!
DEFINITION. Sys2Proof/Machine/DeviceHost.lean: the state of the host interface (02), of commands and routines (03), of session contexts,
Weirs and the Reservoir (04), of allotments and Headgates (14), as plain data.
-/
namespace Sys2Proof.Machine

/-- A submission queue (02 R28 to R30, R35, R38, Tables 2.7, 2.8, 2.22). -/
structure SubQueue where
  present : Bool := false
  depth : Nat := 0
  base : Nat := 0
  cqId : Nat := 0
  free : Bool := false
  disable : Bool := false
  idle : Bool := false
  error : Bool := false
  cause : Nat := 0
  failAddr : Nat := 0
  fetchIdx : Nat := 0
  pend : Bool := false
  scanning : Bool := false
  rescan : Bool := false
  /-- Entries of the burst read outstanding; 0 when none is. -/
  burst : Nat := 0
  consumed : Nat := 0
  posted : Nat := 0
  /-- Command slots of the batch under assembly, first member first (R48). -/
  batch : List Nat := []
  /-- QUEUE_ERROR is still to be posted, after the completions (R47, R53). -/
  errorDue : Bool := false
deriving DecidableEq, Repr

/-- A completion entry that waits for room (02 R34), or a written one: 16 bytes. -/
abbrev CqEntry := BitVec 128

/-- A completion queue (02 R32 to R34, R57, R438, Tables 2.7, 2.8, 2.21). -/
structure CompQueue where
  present : Bool := false
  depth : Nat := 0
  base : Nat := 0
  vector : Nat := 0
  irqEn : Bool := false
  coalCount : Nat := 0
  coalTime : Nat := 0
  head : Nat := 0
  tail : Nat := 0
  written : Nat := 0
  error : Bool := false
  cause : Nat := 0
  failAddr : Nat := 0
  unsig : Nat := 0
  oldest : Nat := 0
  /-- Entries that wait for room, each with its command slot and submission queue number. -/
  waiting : List (CqEntry × Nat × Nat) := []
deriving DecidableEq, Repr

/-- What an executing admin command waits for (02 R36, R38; 03 R80, R83; 01 R16; and others). -/
inductive AdmWait where
  | none
  | queueIdle (sq : Nat)
  | boundGone (routine version : Nat)
  | aborts (slots : List Nat) (count : Nat)
  | revoke (revokeId : Nat)
  | context (ctx : Nat)
  | buffer (buf : Nat)
  | unitOp (cls index op : Nat)
  | exchange
  | entropy
  | migration (request : Nat)
  | replicate (member handle : Nat)
  | rehome
  | retain
  | profile
  | mode
  | unitKeys
  | ring
deriving DecidableEq, Repr

/-- The admin queue pair of an allotment (02 R36, Tables 2.18 to 2.21). -/
structure AdmQueue where
  sqBase : Nat := 0
  cqBase : Nat := 0
  enable : Bool := false
  idle : Bool := true
  error : Bool := false
  irqEn : Bool := false
  depthLog2 : Nat := 4
  vector : Nat := 0
  fetchIdx : Nat := 0
  head : Nat := 0
  tail : Nat := 0
  cause : Nat := 0
  failAddr : Nat := 0
  scanning : Bool := false
  rescan : Bool := false
  burst : Nat := 0
  /-- Consumed admin entries with the order of their consumption (04 R92), the one that executes first. -/
  cmds : List (Nat × Entry) := []
  /-- What the first of them waits for once it has started. -/
  waits : AdmWait := .none
  /-- Completion entries that wait for room. -/
  cqWaiting : List CqEntry := []
  /-- The completion ring has failed; a QUEUE_ERROR follows the completions of the consumed commands (R53). -/
  cqBad : Bool := false
  errorDue : Bool := false
deriving DecidableEq, Repr

/-- The notice ring of an allotment (02 R54, R55, Tables 2.23 to 2.25). -/
structure NoticeRing where
  base : Nat := 0
  enable : Bool := false
  error : Bool := false
  depthLog2 : Nat := 4
  vector : Nat := 0
  irqEn : Bool := false
  head : Nat := 0
  tail : Nat := 0
  lost : Nat := 0
  seq : Nat := 0
  held : List Rec32 := []
  dropped : Nat := 0
deriving DecidableEq, Repr

/-- One MSI-X vector (02 R56): address, data, mask bit (1 after reset), pending bit. -/
structure MsixVec where
  addr : Nat := 0
  data : Nat := 0
  mask : Bool := true
  pending : Bool := false
deriving DecidableEq, Repr

/-- A teardown in progress (14 R291, Table 14.2). -/
structure Teardown where
  start : Nat
  viaPf : Bool
  contexts : Nat
deriving DecidableEq, Repr

/-- One Reservoir buffer of an allotment (04 R103): place within the partition, size, recorded length. -/
structure RsvBuf where
  place : Nat
  sizeLog2 : Nat
  len : Nat := 0
  /-- RSV_FREE has executed when so many commands had been consumed, and waits for those of them that use the buffer (04, Table 4.10). -/
  freeAt : Option Nat := none
deriving DecidableEq, Repr

/-- One allotment: its page (02), quotas and policy (14), buffers (04), windows (16), digest save slots (11). -/
structure Allot where
  ready : Bool := false
  badDoorbell : Bool := false
  flr : Option Teardown := none
  sqQuota : Nat := 0
  cqQuota : Nat := 0
  adm : AdmQueue := {}
  ntc : NoticeRing := {}
  msixEnable : Bool := false
  funcMask : Bool := false
  vecs : Tbl MsixVec := []
  wstSel : Nat := 0
  inflightQuota : Nat := 0
  mayUse : Nat := 0
  dedicated : Nat := 0
  weight : Nat := 0
  /-- Engine time since the last read of ALLOT_ENGTIME, in ENG_CLK cycles. -/
  engTime : Nat := 0
  ctxQuota : Nat := 0
  rsvPart : Nat := 0
  cisQuota : Nat := 0
  bufs : Tbl RsvBuf := []
  bufGen : Tbl Nat := []
  saveSlots : Nat := 0
  digSlots : Nat := 0
  digSlotsHigh : Nat := 0
  wrapCount : Nat := 0
  wrapFloor : Nat := 0
  /-- The states that host-kind blobs under the present key stand for, by wrap counter (11 R243). -/
  blobs : Tbl DigState := []
  /-- Closed by hold expiry since the last sweep: count and lowest number (04 R108). -/
  expired : Nat := 0
  expiredLow : Nat := 0
  replayCount : Nat := 0
  /-- Event window (16 R349): AREA, cursor, VALID, END, GAP, record latched. -/
  evwArea : Bool := false
  evwCursor : Nat := 0
  evwValid : Bool := false
  evwEnd : Bool := false
  evwGap : Bool := false
  evwData : Rec32 := 0
  /-- 64-bit register whose low word was read, and its high word (21 R430). -/
  latch64 : Option (Nat × Nat) := none
deriving DecidableEq, Repr

/-- The attributes that admission and the waits of a command use (03 R81, Table 3.16; 06, Table 6.17), of an SRL
or an owner routine. -/
structure RoutineAttr where
  routine : Nat := 0
  version : Nat := 0
  order : Nat := 0
  usage : Nat := 0
  takesKey : Bool := false
  keyOptional : Bool := false
  takesCtx : Bool := false
  needsRandom : Bool := false
  stream : Bool := false
  outFixed : Bool := false
  outSize : Nat := 0
  /-- The routine fills a key-store target (03 R76): KEY_HANDLE, or ARGS0 of 0x0D04. -/
  fillsTarget : Bool := false
  auxLen : Nat := 0
  cost : Nat := 0
  textLen : Nat := 0
  entry : Nat := 0
  paramMask : Nat := 0
  minLen : Nat := 0
  maxLen : Nat := 0
deriving DecidableEq, Repr

/-- An owner routine in the program store (03 R78 to R81). -/
structure OwnerRoutine where
  attr : RoutineAttr
  allotMask : Nat
  digest : BitVec 256
  /-- Bytes of the image in the program store, its text and its data section (06 R149). -/
  size : Nat := 0
  text : List Byte := []
  dataBytes : List Byte := []
  /-- A replacement waits for the commands bound to the old image (R80). -/
  waitingOld : Bool := false
deriving DecidableEq, Repr

/-- An image replaced or removed that bound commands still run (03 R60, R80). -/
structure OldImage where
  routine : Nat
  version : Nat
  size : Nat
  text : List Byte
  dataBytes : List Byte
deriving DecidableEq, Repr

/-- The stage of a command (03, Table 3.4). -/
inductive Phase where
  | waiting
  | line
  | ready
  | running
  | saved
  | draining
  | checked
  | ended
deriving DecidableEq, Repr

/-- What a command's end has staged for the commit (03 R68; 06 R145; 13 R271). -/
structure Staged where
  outLen : Nat
  detail : Nat
  /-- The context window as the routine left it, when it takes a context (05 R112). -/
  window : Option (List Byte) := none
deriving DecidableEq, Repr

/-- The record of a preempted command (05 R123, R124). -/
structure SaveRec where
  arch : EngArch := {}
  gen : Nat
  /-- Its slot of the allotment's save area (R125). -/
  slot : Nat := 0
  /-- The engine has written it and is free; until then the state is the engine's. -/
  complete : Bool
deriving DecidableEq, Repr

/-- A command in flight (02 R27, R30; 03, Table 3.4). -/
structure Cmd where
  entry : Entry
  allot : Nat
  sq : Nat
  order : Nat
  batch : Option (Nat × Nat) := none
  /-- Members of its batch, once the batch is closed; the form its first member's bits select, and BARRIER on any member
  (Table 2.10). -/
  batchSize : Nat := 0
  batchOne : Bool := false
  batchErr : Bool := false
  batchBarrier : Bool := false
  phase : Phase := .waiting
  attr : RoutineAttr := {}
  cost : Nat := 0
  since : Nat := 0
  weir : Nat := 0
  started : Bool := false
  lateral : Nat := 0
  readyAt : Nat := 0
  front : Bool := false
  engine : Option Nat := none
  stageBase : Nat := 0
  stageSize : Nat := 0
  inDone : Bool := false
  inArrived : Nat := 0
  /-- The bytes of a streamed input that have arrived. -/
  input : List Byte := []
  fetched : Bool := false
  staged : Option Staged := none
  saved : Option SaveRec := none
  /-- The generation of its save record, as the Sluice keeps it (05 R124). -/
  saveGen : Nat := 0
  status : Nat := 0
  detail : Nat := 0
  outLen : Nat := 0
  replays : Nat := 0
  /-- Contained faults met (15 R315): a replay, or a commit that starts again, each. -/
  contained : Nat := 0
  /-- The fault whose replay awaits the command's completion (15 R316): SEQ. -/
  replayFor : Option Nat := none
  /-- A stateful leaf reserved to the command: handle and index (03 R68, 09 R207). -/
  leaf : Option (Nat × Nat) := none
  /-- The key-store target of the command, bound by CREATE (13 R275): handle. -/
  target : Option Nat := none
  /-- The engine that it ran on last; 0xFFFF before it runs. -/
  ranOn : Nat := 0xFFFF
  /-- Waiting for entropy since, before it joins its line (03 R71). -/
  entropySince : Option Nat := none
  /-- A commit that a fault interrupted starts again from the staged result (03 R70). -/
  commitBegun : Bool := false
  /-- It has sent the request for the key that KEY_HANDLE names (09 R208). -/
  keyAsked : Bool := false
  /-- Streams 0 to 3 of its digest jobs that hold a slot (11 R242). -/
  streams : Tbl DigSave := []
  /-- The generation that the digest block has recorded of each stream's slot (11 R243). -/
  digGens : Tbl Nat := []
deriving DecidableEq, Repr

/-- States of a session context (04, Table 4.1). -/
inductive CtxState where
  | free
  | opened
  | active
  | held
  | migrating
  | closed
deriving DecidableEq, Repr

/-- A session context (04 R87 to R91, Tables 4.1 to 4.3). -/
structure Ctx where
  st : CtxState := .free
  allot : Nat := 0
  label : Nat := 0
  lastRoutine : Nat := 0
  resumeCount : Nat := 0
  clientOk : Bool := false
  mka : Bool := false
  ephemeral : Bool := false
  migratedIn : Bool := false
  migratedOut : Bool := false
  lost : Bool := false
  hybrid : Bool := false
  born : Nat := 0
  holdTime : Nat := 0
  holdExpiry : Nat := 0
  heldAt : Nat := 0
  lastUse : Nat := 0
  commands : Nat := 0
  /-- The 960 secret bytes, an unlisted byte reads 0 (R87, R90). -/
  secret : Tbl Byte := []
  /-- The state before a migration and the hold time that remained (Table 4.2, R94). -/
  before : CtxState := .free
  holdLeft : Nat := 0
  /-- FREE, and it holds a migration offer as pending, unusable (17 R360). -/
  pending : Bool := false
  /-- A free 0x0C03 and a free 0x0C05 are still due (Table 4.7). -/
  free3 : Bool := false
  free5 : Bool := false
deriving DecidableEq, Repr

/-- A Weir (04 R96 to R99, Tables 4.17, 4.18). LEVEL is in 1/1,024 unit. -/
structure Weir where
  rate : Nat := 0
  burst : Nat := 0
  maxWait : Nat := 0
  allot : Nat := 0
  en : Bool := false
  unlimited : Bool := false
  sRate : Option Nat := none
  sBurst : Option Nat := none
  sWait : Option Nat := none
  level : Int := 0
  rem : Nat := 0
  last : Nat := 0
  /-- Slots in the line, first to join first. -/
  line : List Nat := []
  shed : Nat := 0
  charged : Nat := 0
  /-- Commands shed in the one-second interval under way, and the allotment whose they were (R108). -/
  shedSec : Nat := 0
  shedAllot : Nat := 0
deriving DecidableEq, Repr

/-- The Reservoir (04 R100 to R106, Tables 4.9, 4.16). -/
structure Reservoir where
  /-- 16 GiB, byte addressed; an unlisted byte reads 0. -/
  mem : Tbl Byte := []
  trained : Bool := false
  selfRefresh : Bool := false
  retired : Nat := 0
  spares : Nat := 16384
  retiredPages : List Nat := []
  /-- Times of the corrected reads of each page within 24 h (R105). -/
  corrTimes : Tbl (List Nat) := []
  opPage : Nat := 0
  opRetire : Bool := false
  opBusy : Bool := false
  opErr : Bool := false
  /-- Bit n: the key of allotment n is loaded; bit 64: the device key (R102). -/
  keys : Nat := 0
  /-- State-wrapping keys (bit n) and save-area keys (bit n) loaded (01, Table 1.5). -/
  wrapKeys : Nat := 0
  saveKeys : Nat := 0
  /-- What the key registers hold, under 4 times the allotment (64 for the device) and the key class (01, Table 1.5 UNIT_KEY_LOAD). -/
  keyRegs : Tbl (List Byte) := []
  /-- The key of the admin staging during a debug pause; none outside one (19 R401). -/
  pauseKey : List Byte := []
deriving DecidableEq, Repr

/-- Who made an access that waits at a closed gate (14 R298, R299). -/
inductive AccessOf where
  | ring (a sq : Nat)
  /-- The write-back of a CONTROL word (02 R27): of a submission queue, or of the admin ring. -/
  | writeBack (a : Nat) (sq : Option Nat)
  | completion (a cq : Nat)
  | notice (a : Nat)
  | input (slot : Nat)
  | aux (slot : Nat)
  | output (slot : Nat)
  | engine (slot : Nat)
  | line (lat slot : Nat)
  | digest (slot unit : Nat)
  | createRing (a : Nat)
  /-- Of the admin queue (02 R36): a read of its submission ring, a write of its completion ring, an operand or a result. -/
  | admRing (a : Nat)
  | admCqe (a : Nat)
  | admData (a : Nat)
  /-- A steward core's own (01 R8), with its request ID and its bytes: those to write, or what host memory holds. -/
  | steward (core : Nat) (host : Bool) (ident : Nat) (data : List Byte)
  /-- Of the Sealed Store exchange (13 R283). -/
  | exchange
  /-- A Watershed frame that goes out to a member, or comes in on a port (17). -/
  | frameOut (member : Nat) (bytes : List Byte)
  | frameIn (port : Nat) (bytes : List Byte)
deriving DecidableEq, Repr

/-- An access that waits at a closed gate. -/
structure GateWait where
  who : AccessOf
  addr : Nat
  len : Nat
  kind : Nat
  arrived : Nat
deriving DecidableEq, Repr

/-- A Headgate (14 R294 to R300, Table 14.9). -/
structure Gate where
  close : Bool := false
  drained : Bool := false
  /-- Regions whose descriptor failed its parity and was not rewritten (Table 14.5). -/
  badRegions : List Nat := []
  regions : Tbl Rec32 := []
  waiting : List GateWait := []
  written : Nat := 0
  reports : Nat := 0
  droppedReports : Nat := 0
  viol : Nat := 0
  timeouts : Nat := 0
deriving DecidableEq, Repr

end Sys2Proof.Machine
end

