-- ==== Sys2Proof/Machine/DeviceCustody.lean ====
section
/-!
DEFINITION. Sys2Proof/Machine/DeviceCustody.lean: the state of the Flume (01), the Wellhead (12), the Cistern and the Sealed Store
(13), the fault collector (15), the Levee and the event recorder (16), the Watershed (17), modes and profiles (18),
bring-up (19), board management and TAPs (20), as plain data.
-/
namespace Sys2Proof.Machine

/-- What the custody die orders of the compute die (01, Table 1.5 FAULT_ACTION). -/
inductive FaultOrder where
  | fence (cls index : Nat) (seq : Nat)
  | replay (slot : Nat) (seq : Nat)
  | lowFlow
  | stop (seq : Nat)
deriving DecidableEq, Repr

/-- A fault as it is raised (15 R305, Table 15.4). -/
structure FaultIn where
  source : Nat
  unit : Nat := 0xFFFF
  slot : Option Nat := none
  syndrome : Nat := 0
  injected : Bool := false
  test : Bool := false
  time : Nat := 0
deriving DecidableEq, Repr

/-- One (offset, value, mask) triple of an overlay (01, Table 1.5; 18 R382). -/
structure Triple where
  offset : Nat
  value : Nat
  mask : Nat
deriving DecidableEq, Repr

/-- A key request (13, Table 13.7). `request` is the engine's request 0 to 3, or 4 more than the command slot for the COMMIT and ABANDON that
the device sends itself; `slot` is the command's slot, by which the custody die finds what the device knows of the command. -/
structure KeyReq where
  handle : Nat
  eng : Nat := 0
  allot : Nat := 0
  order : Nat := 0
  stateful : Bool := false
  det : Bool := false
  usage : Nat := 0
  request : Nat := 0
  family : Nat := 0
  variant : Nat := 0
  param : Nat := 0
  slot : Nat := 0
  /-- Of a state routine, which reads a stateful key's leaves and takes none (09 R209; DESIGN CHOICE, assumption 145). -/
  reads : Bool := false
deriving DecidableEq, Repr

/-- A Flume message (01, Table 1.5) with the fields its purpose names. `info` of a KEY_DELIVER is what a routine knows of the key it is given, and no
field of the message (DESIGN CHOICE, assumption 148). -/
inductive Msg where
  | train (compute : Bool) (boot : Nat)
  | keyRequest (op : Nat) (r : KeyReq)
  | keyDeliver (eng request fragment : Nat) (last : Bool) (shares : Nat) (leaf : Option Nat) (lease : Nat) (data info : List Byte)
  | keyRefuse (eng request status detail : Nat)
  | keyRevoke (handle ident : Nat)
  | keyRevokeAck (ident : Nat)
  | unitKeyLoad (allot cls : Nat) (key : List Byte)
  | regRead (offset fn ident : Nat)
  | regWrite (offset fn value ident : Nat)
  | regReply (ident value : Nat) (ok : Bool)
  | entropyRequest (consumer cls amount : Nat) (reseed : Bool)
  | entropyDeliver (consumer cls : Nat) (data : List Byte)
  | faultReport (f : FaultIn)
  | faultAction (o : FaultOrder)
  | modeApply (mode phase : Nat) (triples : List Triple) (last : Bool)
  | modeDone (mode phase : Nat)
  | evrAppend (rec : Rec32)
  /-- Sender's state and the last SEQ it received; from the custody die device time too, from the compute die 0. -/
  | heartbeat (time state lastSeq : Nat)
  /-- A steward access (R8): core, address, bytes, whether of host memory, request ID; what is written. -/
  | stwRead (core addr len : Nat) (host : Bool) (ident : Nat)
  | stwWrite (core addr : Nat) (host : Bool) (ident : Nat) (data : List Byte)
  | stwReply (ident : Nat) (ok : Bool) (data : List Byte)
deriving DecidableEq, Repr

/-- A message that its transmitter keeps for its receiver (01 R10, R12): its SEQ, the sublink that carries it, whether it is a retransmission,
whether its last transmission was lost, and whether its tag has been checked: it is then acknowledged at link level, out of the replay
buffer, and held in the receiver's reorder window until its turn. -/
structure Flight where
  seq : Nat
  msg : Msg
  sub : Nat := 0
  retry : Bool := false
  lost : Bool := false
  arrived : Bool := false
  sent : Nat := 0
deriving DecidableEq, Repr

/-- One sublink of the Flume (01, Table 1.6). `lastRx` is when the custody die last received a message on it, `lastRxCompute` when the compute
die did. -/
structure Sublink where
  up : Bool := false
  fenced : Bool := false
  retraining : Bool := false
  retrainFails : Nat := 0
  tagFails : List Nat := []
  lastRx : Nat := 0
  lastRxCompute : Nat := 0
deriving DecidableEq, Repr

/-- A key lease the custody die granted (01 R14). -/
structure LeaseRec where
  handle : Nat
  eng : Nat
  allot : Nat
  ends : Nat
deriving DecidableEq, Repr

/-- A revoke that awaits its acknowledgement (01 R16): its admin command's allotment. -/
structure RevokeRec where
  ident : Nat
  handle : Nat
  allot : Nat
deriving DecidableEq, Repr

/-- A register access that the proxy carries (21 R432, R433), or one of the compute die that waits behind a proxied write of its function. -/
structure ProxyAcc where
  ident : Nat
  fn : Nat
  offset : Nat
  write : Bool
  since : Nat
  value : Nat := 0
  /-- Not proxied: it waits its turn. -/
  here : Bool := false
deriving DecidableEq, Repr

/-- The Flume and the clock of the custody die (01). -/
structure Flume where
  boot : Nat := 0
  trained : Bool := false
  /-- In a full training: the custody die has sent its TRAIN, and has received that of the compute die. -/
  training : Bool := false
  trainSeen : Bool := false
  /-- The Flume key of the last full training, and the keys that each direction takes from it (R11). -/
  key : List Byte := []
  keyC2K : List Byte := []
  keyK2C : List Byte := []
  toCustody : List Flight := []
  toCompute : List Flight := []
  seqCustody : Nat := 0
  seqCompute : Nat := 0
  rxCustody : Nat := 0
  rxCompute : Nat := 0
  sub0 : Sublink := {}
  sub1 : Sublink := {}
  downSince : Option Nat := none
  sbStop : Bool := false
  sbClear : Bool := false
  sbFatal : Bool := false
  presentCompute : Bool := false
  presentCustody : Bool := false
  clearing : Bool := false
  leases : List LeaseRec := []
  revokes : List RevokeRec := []
  nextRevoke : Nat := 0
  proxies : List ProxyAcc := []
  nextProxy : Nat := 0
  nextRequest : Nat := 0
  fallback : Bool := false
  lastBeat : Nat := 0
  /-- Device time as the compute die has it: as its last heartbeat carried it, and its own count since (R19). -/
  computeTime : Nat := 0
  /-- SB_CLEAR was asserted then; the custody die holds it for 40 µs (R17). -/
  clearFrom : Nat := 0
  /-- Counts of device time since the last one that slewing left out or doubled (R19). -/
  slew : Nat := 0
deriving DecidableEq, Repr

/-- A Wellhead source: main or fallback (12 R255, R256). -/
structure Source where
  inService : Bool := false
  retired : Bool := false
  failTimes : List Nat := []
  testing : Option Nat := none
  /-- A failure was met in the test run under way (Table 12.6). -/
  testBad : Bool := false
deriving DecidableEq, Repr

/-- A request that waits for a DRBG instance (12 R259): its consumer, class, bytes, arrival, and whether it asks for
prediction resistance (R258). -/
structure EntReq where
  consumer : Nat
  cls : Nat
  amount : Nat
  since : Nat
  reseed : Bool := false
deriving DecidableEq, Repr

/-- The working state of a CTR_DRBG: Key and V (12 R258). It never leaves its instance. -/
structure DrbgState where
  key : List Byte := []
  v : List Byte := []
deriving DecidableEq, Repr

/-- A DRBG instance (12 R258, Table 12.8): STATE 0 not instantiated, 1 serving, 2 stopped for lack of a source, 3 fenced. -/
structure Drbg where
  st : Nat := 0
  requests : Nat := 0
  reseeds : Nat := 0
  queue : List EntReq := []
  work : DrbgState := {}
deriving DecidableEq, Repr

/-- The Wellhead (12). -/
structure Wellhead where
  main : Source := {}
  fb : Source := {}
  feed : Nat := 0
  noSource : Bool := false
  /-- Samples absorbed into the conditioner block under way (R252). -/
  block : Nat := 0
  pool : Nat := 0
  inst : Tbl Drbg := []
  failsMainRct : Nat := 0
  failsMainApt : Nat := 0
  failsFbRct : Nat := 0
  failsFbApt : Nat := 0
  testPass : Bool := false
  testErr : Bool := false
  injGroup : Nat := 0
  injFb : Bool := false
  injErr : Bool := false
  /-- Failures still to be injected: stream, and whether of the adaptive-proportion test (R262). -/
  injPend : List (Nat × Bool) := []
  drbgSel : Nat := 0
  waitHigh : Tbl Nat := []
  rawGroup : Nat := 0
  rawFb : Bool := false
  rawBusy : Bool := false
  rawDone : Bool := false
  rawErr : Bool := false
  rawCursor : Nat := 0
  rawBuf : BitVec 65536 := 0
  /-- No source in service since, and whether a test run began it (R260). -/
  outage : Option Nat := none
  outageTest : Bool := false
deriving DecidableEq, Repr

/-- The attribute block of a key (13 R268, R269, Table 13.3). -/
structure KeyAttr where
  usage : Nat := 0
  maskOrder : Nat := 0
  stateful : Bool := false
  exportable : Bool := false
  deterministicOk : Bool := false
  persistent : Bool := false
  allotBound : Bool := false
  allot : Nat := 0
  /-- 0 free, 1 allocated and empty, 2 target bound, 3 full. -/
  st : Nat := 0
  family : Nat := 0
  variant : Nat := 0
  paramSet : Nat := 0
  len : Nat := 0
  nextLeaf : Nat := 0
  extra : Nat := 0
deriving DecidableEq, Repr

/-- An MRAM copy of a persistent slot (13 R270, Table 13.4): attribute block, shares A and B, GEN, TAG. -/
structure SlotCopy where
  block : List Byte
  a : List Byte
  b : List Byte
  gen : Nat
  tag : List Byte
deriving DecidableEq, Repr

/-- A Cistern slot (13 R268 to R272, R275): attributes, material, target binding, copies. -/
structure CisSlot where
  attr : KeyAttr := {}
  /-- The SRAM record of a slot that is not persistent: two XOR shares of its material (R268). -/
  shareA : List Byte := []
  shareB : List Byte := []
  /-- The MRAM copies of a persistent slot; none is one whose bytes are all zero (R270). -/
  copy0 : Option SlotCopy := none
  copy1 : Option SlotCopy := none
  gen : Nat := 0
  /-- Both copies of a persistent slot fail their tags (R272). -/
  unreadable : Bool := false
  /-- One of the two copies fails its tag (R272). -/
  copyBad : Bool := false
  /-- The copy in force, 0 or 1, of a persistent slot (R271). -/
  copy : Nat := 0
  /-- The command slot that a CREATE bound, and its transfer key K_t (R275). -/
  boundReq : Option Nat := none
  kt : List Byte := []
  /-- Index of the tree object of a stateful key (R284). -/
  tree : Nat := 0
deriving DecidableEq, Repr

/-- A Sealed Store object (13 R277, R280): its place, in 128-byte units of the data blocks, and what lies behind its header there: W, the material
wrapped under K_OBJ, or a tree object's body in clear. -/
structure SsObj where
  attr : KeyAttr := {}
  pos : Nat := 0
  units : Nat := 1
  gen : Nat := 0
  /-- Material bytes, 0 for an object that holds none. -/
  len : Nat := 0
  body : List Byte := []
  /-- The command slot that a CREATE bound, and its transfer key K_t (R275). -/
  boundReq : Option Nat := none
  kt : List Byte := []
  /-- The tree object of a stateful key (09 R205). -/
  tree : Bool := false
deriving DecidableEq, Repr

/-- An exchange slot of the Sealed Store in use (13 R283, Table 13.14): the block, whether it is stored or fetched. -/
structure XSlot where
  block : Nat
  store : Bool
  posted : Nat
  retried : Bool := false
deriving DecidableEq, Repr

/-- A key request that waits for Sealed Store blocks (13 R283): the block it needs next, those to come after it, and the leaf that is reserved
already, of a signature that waits for its tree object (09, Table 9.4). -/
structure SsWait where
  block : Nat
  more : List Nat := []
  leaf : Option Nat := none
  op : Nat
  req : KeyReq
  since : Nat
deriving DecidableEq, Repr

/-- What a Sealed Store change answers once it is committed or abandoned: an admin command of an allotment with its DETAIL, the
acknowledgement of a COMMIT, an admin command that then revokes a handle, a replica's acknowledgement, or nothing but the end of a
destroyed replica. -/
inductive SsThen where
  | admin (a det : Nat)
  | ack (r : KeyReq)
  | revoke (a handle : Nat) (destroyed : Bool)
  | repl (member target : Nat)
  | destroyed (handle : Nat)
deriving DecidableEq, Repr

/-- A Sealed Store change before its commit point (13 R281, Table 13.12): objects that it places or removes, Cistern slots that it
writes, directory blocks that it starts, blocks still to be sent under step 2, those sent and not confirmed, those that go through
the journal. -/
structure SsChange where
  puts : List (Nat × Option SsObj) := []
  slots : List (Nat × CisSlot × List Byte) := []
  dirs : List (Nat × Nat) := []
  toStore : List Nat := []
  stored : List Nat := []
  live : List Nat := []
  since : Nat := 0
  finish : SsThen
deriving DecidableEq, Repr

/-- The staged bytes of a COMMIT as the custody die reads them with STW_READ (13 R275): where they lie, what they take in all, what has come. -/
structure StagedRead where
  req : KeyReq
  at_ : Nat
  need : Nat
  got : List Byte := []
deriving DecidableEq, Repr

/-- The Cistern and its roots (13). -/
structure Cistern where
  slots : Tbl CisSlot := []
  /-- The Device Unique Root, or the Test Root, and the master key in the custody key registers; empty when not in place. The Cistern key and the
  Sealed Store keys are what they derive (R264). -/
  dur : List Byte := []
  master : List Byte := []
  /-- The two XOR shares of the KER in battery-island RAM, and the check value of it in MRAM (R264, R266). -/
  kerA : List Byte := []
  kerB : List Byte := []
  kerCheck : List Byte := []
  kerPresent : Bool := false
  durOk : Bool := false
  testRoot : Bool := false
  kerOk : Bool := false
  pufTries : Nat := 0
  updates : Nat := 0
  leaves : Nat := 0
  burned : Nat := 0
  /-- Leaves burned by a reset and not yet recorded: allotment, handle, leaf (09, Table 9.4). -/
  lost : List (Nat × Nat × Nat) := []
  /-- Key requests that wait for entropy for a slot update or a transfer key (R271), oldest first: OP and request. -/
  waiting : List (Nat × KeyReq) := []
  /-- COMMITs whose staged bytes are being read. -/
  staged : List StagedRead := []
deriving DecidableEq, Repr

/-- The Sealed Store (13 R280 to R283, Table 13.19). -/
structure Sealed where
  attached : Bool := false
  rootOk : Bool := false
  recovering : Bool := false
  blocks : Nat := 0
  dataBlocks : Nat := 0
  treeGen : Nat := 0
  iova : Nat := 0
  nslots : Nat := 0
  /-- Objects by allotment × 2^25 + index. -/
  objs : Tbl SsObj := []
  /-- Directory blocks by allotment × 2^17 + index ÷ 256. -/
  dirs : Tbl Nat := []
  /-- Blocks, of data and of nodes, that hold live data. -/
  written : List Nat := []
  /-- The key cache: unwrapped objects as two XOR shares, least recently used first (R280). -/
  cache : List (Nat × List Byte × List Byte) := []
  /-- Node blocks whose nodes the Reservoir's node cache holds, least recently used first (R280). -/
  nodes : List Nat := []
  change : Option SsChange := none
  journal : Nat := 0
  /-- Journaled blocks of the last batch that the host has not confirmed, and those of them still to be sent. -/
  batch : List Nat := []
  toSend : List Nat := []
  xslots : Tbl XSlot := []
  waiting : List SsWait := []
  slotsHigh : Nat := 0
deriving DecidableEq, Repr

/-- A unit that can be fenced (15 R311 to R313, R325), by class and index. -/
structure UnitRec where
  fenced : Bool := false
  retired : Bool := false
  testing : Bool := false
  /-- The TEST since it was fenced passed; the last TEST passed (FLT_UNIT_OP.PASS). -/
  passed : Bool := false
  lastPass : Bool := false
  byOwner : Bool := false
  fences : List Nat := []
  /-- SEQ of the fault that fenced it. -/
  seq : Nat := 0
  /-- The test that runs was asked for by the owner; a fault was met in it (R309). -/
  ownerTest : Bool := false
  testFailed : Bool := false
deriving DecidableEq, Repr

/-- A Fatal fault being handled (15 R318, Table 15.7). -/
structure FatalRec where
  source : Nat
  seq : Nat
  since : Nat
  drain : Bool
  /-- 0 classified, 1 stop ordered and draining, 2 stopped and dwelling, 3 stopped for good, 4 reset and coming back. -/
  stage : Nat := 0
  dwellFrom : Nat := 0
  resetCustody : Bool := false
  double : Bool := false
deriving DecidableEq, Repr

/-- A notice that waits for the completions of commands that its event affected (02 R47; 15 R316): the slots still to be freed. -/
structure NoticeDue where
  allot : Nat
  code : Nat
  sev : Nat
  time : Nat
  p0 : Nat := 0
  p1 : Nat := 0
  p2 : Nat := 0
  p3 : Nat := 0
  slots : List Nat
deriving DecidableEq, Repr

/-- The fault collector (15). -/
structure Faults where
  cPend : Nat := 0
  uPend : Nat := 0
  seq : Nat := 0
  history : List Rec32 := []
  histAge : Nat := 0
  lastFatal : Rec32 := 0
  countF : Nat := 0
  countC : Nat := 0
  countU : Nat := 0
  fatal : Option FatalRec := none
  /-- Corrected records appended in this second, by source (R310). -/
  perSource : Tbl Nat := []
  /-- C bits that CACK_US acknowledges: group and due time (R308). -/
  acks : List (Nat × Nat) := []
  units : Tbl UnitRec := []
  thermWarn : Bool := false
  /-- Source 0x8C raised since the reset of the compute die (20, Table 20.11). -/
  thermCrit : Bool := false
  lowFlow : Bool := false
  lowFlowOrdered : Bool := false
  /-- The conditions of R317 that the last events 0x3008 named: the short Lateral, and 0x8B. -/
  shortSeen : Option Nat := none
  thermSeen : Bool := false
  clearSince : Nat := 0
  injSource : Nat := 0
  injUnit : Nat := 0
  injErr : Bool := false
  injPending : Bool := false
  unitCls : Nat := 0
  unitIdx : Nat := 0
  unitOp : Nat := 0
  unitErr : Bool := false
  unitCause : Nat := 0
  wedged : Bool := false
  /-- Notices that wait for completions, those of FAULT_CONTAINED for the replayed commands (R316). -/
  due : List NoticeDue := []
  alive : Bool := false
  aliveRuns : Bool := false
deriving DecidableEq, Repr

/-- A Levee source (16 R333 to R336). -/
structure LevSource where
  /-- Times of the events counted, with a mark on each synthetic one. -/
  events : List (Nat × Bool) := []
  fired : Bool := false
  testSeen : Bool := false
  total : Nat := 0
  /-- LEVEE_EVENT recorded in this second; events since the last such record. -/
  noted : Bool := false
  sinceNote : Nat := 0
deriving DecidableEq, Repr

/-- One firing of the open Levee interval (16 R338). -/
structure Firing where
  source : Nat
  set : Nat
  events : Nat
  at_ : Nat := 0
deriving DecidableEq, Repr

/-- The Levee (16) and the battery island (16 R341, R342). -/
structure Levee where
  src : Tbl LevSource := []
  firings : List Firing := []
  interval : Nat := 0
  union : Nat := 0
  zeroizing : Bool := false
  zeroizeAll : Bool := false
  zeroizeFrom : Nat := 0
  resetDue : Bool := false
  ctrlErr : Bool := false
  stimErr : Bool := false
  temps : Nat := 0
  copied : Nat := 0
  overflow : Nat := 0
  zaPending : Bool := false
  onBattery : Bool := false
  /-- The battery island's copy of LEV_CFG, LEV_WIN (0 to 7) and LEV_TAMP. -/
  battCfg : List Nat := []
  alarms : List (BitVec 64) := []
  alarmLost : Nat := 0
  zaResume : Bool := false
  /-- What the real-time counter of the battery island has run, in ns (01 R19). -/
  rtcNs : Nat := 0
  svcOpenUntil : Option Nat := none
deriving DecidableEq, Repr

/-- A window on the recorder (16 R349, R350). -/
structure EvrWin where
  area : Bool := false
  cursor : Nat := 0
  valid : Bool := false
  atEnd : Bool := false
  gap : Bool := false
  data : Rec32 := 0
deriving DecidableEq, Repr

/-- The event recorder (16 R346 to R351). -/
structure Recorder where
  next : Nat := 0
  oldest : Nat := 0
  foundation : Tbl Rec32 := []
  /-- The circular area, oldest first. -/
  ring : List Rec32 := []
  /-- Appends of this µs not yet in MRAM: entries of the queue. -/
  queued : Nat := 0
  queuedAt : Nat := 0
  dropSec : Nat := 0
  dropped : Nat := 0
  clearErr : Bool := false
  win : EvrWin := {}
  bmc : EvrWin := {}
deriving DecidableEq, Repr

end Sys2Proof.Machine
end

