-- ==== Sys2Proof/Machine/DeviceSystem.lean ====
section
/-!
DEFINITION. Sys2Proof/Machine/DeviceSystem.lean: the state of the Watershed (17), of modes and profiles (18), of bring-up (19), of board
management and the TAPs (20), what the device puts out, and the device as one structure, as plain data.
-/
namespace Sys2Proof.Machine

/-- A header template (17 R355). -/
structure Tmpl where
  kind : Nat := 0
  len : Nat := 0
  link : Nat := 0
  valid : Bool := false
  bytes : BitVec 576 := 0
deriving DecidableEq, Repr

/-- A Watershed message that this device sends, with the fields of 17, Table 17.3. -/
inductive WsMsg where
  | joinInit (body : List Byte)
  | joinResp (body : List Byte)
  | joinFin (body : List Byte)
  | joinAck
  | joinReject (reason : Nat)
  | keepalive
  | close
  | migPull (request ctx allot label : Nat)
  | migOffer (request ctx hold : Nat) (body : Ctx)
  | migReady (request ctx : Nat)
  | migRelease (request : Nat)
  | migAbort (request reason : Nat)
  | migQuery (request : Nat)
  | keyRepl (target : Nat) (attr : KeyAttr) (gen : Nat) (material tree : List Byte)
  | keyReplAck (target status : Nat)
  | keyReplDestroy (target : Nat)
  | grantReq (home request count : Nat)
  | grant (home request first count : Nat)
  | grantRefuse (home request reason : Nat)
  | rehome (home replica counter : Nat)
deriving DecidableEq, Repr

/-- A frame sent on a channel and not acknowledged (17 R359): its SEQ, its bytes from the Watershed header on, the message that it belongs to and
whether it ends it. -/
structure WsFrame where
  seq : Nat
  sealed : List Byte
  msg : WsMsg
  last : Bool
  sent : Nat
  tries : Nat := 1
deriving DecidableEq, Repr

/-- A frame received (17, Table 17.2), its payload as the channel's key gives it. -/
structure RxFrame where
  typ : Nat
  first : Bool
  last : Bool
  body : List Byte
deriving DecidableEq, Repr

/-- What a join in progress holds (17, Table 17.5): this side's ephemeral keys, the JOIN_INIT payload, th, the responder's signature over it, and the
message that this side sent last. -/
structure Handshake where
  kemSeed : List Byte := []
  xKey : List Byte := []
  init : List Byte := []
  th : List Byte := []
  sig : List Byte := []
  sent : Option WsMsg := none
deriving DecidableEq, Repr

/-- A member's peer entry, its join and its channel (17 R355 to R359). -/
structure Peer where
  tmplP0 : Nat := 0
  tmplP1 : Nat := 0
  useP0 : Bool := false
  useP1 : Bool := false
  en : Bool := false
  /-- 0 no channel, 1 joining, 2 up, 3 rejected, 4 revoked. -/
  st : Nat := 0
  reason : Nat := 0
  /-- Join: 0 none, 1 JOIN_INIT sent, 2 JOIN_RESP sent, 3 JOIN_FIN sent; tries; time of the last message. -/
  join : Nat := 0
  joinTries : Nat := 0
  joinAt : Nat := 0
  retryAt : Option Nat := none
  hs : Handshake := {}
  /-- This device initiated; the channel's keys: A→B, B→A, K_kt. -/
  initiator : Bool := false
  keys : List Byte := []
  /-- NOT_AFTER of the member's credential. -/
  notAfter : Nat := 0
  up : Bool := false
  since : Nat := 0
  txSeq : Nat := 0
  rxSeq : Nat := 0
  unacked : List WsFrame := []
  early : List (Nat × RxFrame) := []
  /-- The message under reassembly: its type and bytes so far. -/
  part : Option (Nat × List Byte) := none
  /-- The same for clear types. -/
  partClear : Option (Nat × List Byte) := none
  /-- Messages received whole and not yet handled, oldest first. -/
  inbox : List (Nat × List Byte) := []
  lastRx : Nat := 0
  lastTx : Nat := 0
  lastTraffic : Nat := 0
  /-- Messages that wait for a channel. -/
  waiting : List WsMsg := []
deriving DecidableEq, Repr

/-- A migration (17 R360, R361), by the side this device has in it. -/
structure Migration where
  request : Nat
  source : Bool
  /-- The source's CONTEXT_ID. -/
  ctx : Nat
  member : Nat
  allot : Nat
  label : Nat := 0
  /-- Source: 0 MIG_OFFER sent, 1 ended. Destination: 0 MIG_PULL sent, 1 MIG_READY sent. -/
  st : Nat := 0
  began : Nat
  lastQuery : Nat := 0
  /-- Started by an admin command of this device. -/
  admin : Bool := false
  /-- The pending context at the destination. -/
  dest : Nat := 0
  /-- Source: the request ID of the STW_READs of its context, and how many are not answered. -/
  rid : Nat := 0
  reads : Nat := 0
  /-- Outcome at the source, kept 60 s: 0 released, else the MIG_ABORT reason; with its time. -/
  outcome : Option (Nat × Nat) := none
deriving DecidableEq, Repr

/-- A replica of a home key on another member (17 R362). -/
structure Replica where
  handle : Nat
  member : Nat
  target : Nat
  done : Bool := false
  destroying : Bool := false
  since : Nat := 0
deriving DecidableEq, Repr

/-- A grant given by the home device (17 R363). -/
structure GrantOut where
  handle : Nat
  member : Nat
  request : Nat
  first : Nat
  count : Nat
deriving DecidableEq, Repr

/-- A member's grant table entry for a replicated stateful key: up to two ranges (first, count), the request under way, and whether
the home device has said that its counter is exhausted (17 R363). -/
structure GrantIn where
  handle : Nat
  ranges : List (Nat × Nat) := []
  asked : Option Nat := none
  spent : Bool := false
deriving DecidableEq, Repr

/-- A signature that waits for a grant (17 R363). -/
structure GrantWait where
  req : KeyReq
  since : Nat
deriving DecidableEq, Repr

/-- A replica on this device: its handle, its home member, and the handle of the key there. -/
structure HomeRef where
  handle : Nat
  member : Nat
  home : Nat
deriving DecidableEq, Repr

/-- A WS_REHOME under way (17 R364): the key, the new home, its replica, whether REHOME has been sent. -/
structure Rehoming where
  handle : Nat
  member : Nat
  replica : Nat
  sent : Bool := false
  since : Nat := 0
deriving DecidableEq, Repr

/-- The Watershed (17). -/
structure Watershed where
  linkUp : Tbl Bool := []
  tmplSel : Nat := 0
  tmplStage : BitVec 576 := 0
  tmpls : Tbl Tmpl := []
  peerSel : Nat := 0
  peers : Tbl Peer := []
  /-- A credential is installed: its member ID, Watershed ID and dates; and whether it is valid now. -/
  cred : Bool := false
  credBytes : List Byte := []
  credOk : Bool := false
  member : Nat := 0
  wsId : Nat := 0
  notBefore : Nat := 0
  notAfter : Nat := 0
  revoked : List Nat := []
  migs : List Migration := []
  nextReq : Nat := 0
  replicas : List Replica := []
  grantsOut : List GrantOut := []
  grantsIn : List GrantIn := []
  grantWaits : List GrantWait := []
  homes : List HomeRef := []
  /-- Keys of this device whose counter has moved to a member (R364). -/
  moved : List Nat := []
  rehoming : Option Rehoming := none
deriving DecidableEq, Repr

/-- Operating modes (18, Table 18.1). -/
inductive Mode where
  | bringup
  | service
  | lowFlow
  | maintenance
  | retention
  | provisioning
  | debug
  | quarantine
deriving DecidableEq, Repr

/-- A change of mode under way (18 R382, Table 18.15). -/
structure ModeChange where
  target : Mode
  phase : Nat
  cause : Nat
  since : Nat
  byAdmin : Bool := false
deriving DecidableEq, Repr

/-- A Mode Overlay (18 R382) and the bits it replaced, by offset and mask. -/
structure Overlay where
  triples : List Triple := []
  saved : List (Nat × Nat) := []
deriving DecidableEq, Repr

/-- A Base Profile as stored (18 R378, Tables 18.8, 18.9). -/
structure Profile where
  version : Nat := 0
  gen : Nat := 0
  digest : BitVec 256 := 0
  regs : List (Nat × Nat) := []
  descs : List (Nat × Nat × Rec32) := []
  /-- Weir, RATE, BURST, WAIT, CTRL. -/
  weirs : List (Nat × List Nat) := []
  /-- Allotment, SQ_QUOTA, CQ_QUOTA. -/
  quotas : List (Nat × Nat × Nat) := []
  keys : Option (Nat × Nat) := none
  unlock : List Nat := []
  overlays : List (Nat × List Triple) := []
deriving DecidableEq, Repr

/-- Modes and profiles (18). -/
structure Modes where
  mode : Mode := .bringup
  prev : Mode := .bringup
  change : Option ModeChange := none
  owner : Bool := false
  ownerDigest : BitVec 256 := 0
  /-- The owner key, held in custody MRAM (18 R376). -/
  ownerKey : List Byte := []
  /-- The stored copies, and the floor of VERSION (R376, R379, R380). -/
  copies : List Profile := []
  profFloor : Nat := 0
  /-- The profile in force. -/
  prof : Option Profile := none
  /-- A committed profile waits to be applied. -/
  profPending : Option Profile := none
  /-- Overlays of the eight modes, by mode code. -/
  overlays : Tbl Overlay := []
  locked : Bool := false
  unlock : List Nat := []
  lockedSec : Nat := 0
  lockedFirst : Nat := 0
  /-- Start of the wake under way, duration of the last one in µs. -/
  wakeFrom : Nat := 0
  lastWake : Nat := 0
  debugCount : Nat := 0
  heldWrites : List (Nat × Nat × Nat) := []
  wakeSource : Nat := 0
  waking : Bool := false
  /-- Reads that the wake will answer: function and offset. -/
  heldReads : List (Nat × Nat) := []
  debugPause : Option Nat := none
  debugStrap : Bool := false
  /-- A Low-flow condition noted in Maintenance or Retention (R370). -/
  lowFlowNoted : Bool := false
deriving DecidableEq, Repr

/-- Bring-up (19, Table 19.7). -/
structure Boot where
  cusReady : Bool := false
  flumeUp : Bool := false
  entropyReady : Bool := false
  cdReady : Bool := false
  rsvReady : Bool := false
  srlReady : Bool := false
  profile : Bool := false
  configReady : Bool := false
  serviceReady : Bool := false
  fail : Bool := false
  failStep : Nat := 0
  attempt : Nat := 1
  resetCause : Nat := 0
  began : Nat := 0
  doneUs : Nat := 0
  stepReached : Nat := 0
  pwrgood : Bool := false
  /-- A TEST ball was high at the rise of PWRGOOD: the custody die is held in reset (20 R406). -/
  testHeld : Bool := false
  resetN : Bool := true
  perstN : Bool := false
  computeReset : Bool := true
  /-- The compute die is held in reset until PERST_N rises (19 R391). -/
  perstHold : Bool := false
  custodyReset : Bool := true
  rootLock : Bool := false
  pcieLock : Bool := false
  cusClk : Bool := false
  unitsTested : Bool := false
  unitKeys : Bool := false
  pcieLink : Bool := false
  linkState : Nat := 0
  vfEnable : Bool := false
  numVfs : Nat := 0
  /-- SRL store: generation and version of each of the two copies (19 R395); the version of the bundle in the program store. -/
  srl : List (Nat × Nat) := [(2, 0), (1, 0)]
  srlVersion : Nat := 0
  /-- Rails in range, in the bit order of the RAILS command (20, Table 20.11; 21, Table 21.5). -/
  rails : Nat := 0
  droop : Bool := false
deriving DecidableEq, Repr

/-- The board-management target and the TAPs (20 R420 to R424). -/
structure Board where
  i3cAddr : Option Nat := none
  alerts : Nat := 0
  /-- After reset IDCODE, as IEEE 1149.1 has it (PRESUMED, assumption 14). -/
  tap : Nat := 1
  debugTap : Nat := 1
  preload : List Bool := []
deriving DecidableEq, Repr

/-- What the device puts out: writes into host memory, interrupt messages, register and board-management answers, link
frames, sideband and pin events. -/
inductive Output where
  | hostWrite (fn addr : Nat) (bytes : List Byte)
  | msix (fn vec : Nat) (addr data : Nat)
  | readReply (fn offset value : Nat)
  | unsupported (fn offset : Nat)
  | frame (port : Nat) (bytes : List Byte)
  | bmc (bytes : List Byte)
  | nack
  | ibi (causes : Nat)
  | tap (value : Nat)
  | drbg (bytes : Nat)
  | aliveEdge
  | resetDies (custody : Bool)
  | burstRead (a sq index n : Nat)
deriving DecidableEq, Repr

/-- The whole device. `regs` holds the host-writable words that have no field of their own and `cnt` the counters that
a read clears, both keyed by BAR0 offset (21, Tables 21.1 to 21.4). `free` counts the free values taken. -/
structure Device where
  part : Part := .kq128
  /-- Device time in ns. The spec gives it 64 bits and is silent on their overflow: the count goes on here, and what is stamped takes its low 64
  bits (DESIGN CHOICE, assumption 125). -/
  time : Nat := 0
  /-- The one-second interval under way, by its number (00 R437). -/
  second : Nat := 0
  /-- The last multiple of 100 ms at which holds were swept, by its number (04 R108). -/
  lastSweep : Nat := 0
  free : Nat := 0
  out : List Output := []
  regs : Tbl Nat := []
  cnt : Tbl Nat := []
  allots : Tbl Allot := []
  sqs : Tbl SubQueue := []
  cqs : Tbl CompQueue := []
  cmds : Tbl Cmd := []
  order : Nat := 0
  nextBatch : Nat := 0
  routines : Tbl OwnerRoutine := []
  oldImages : List OldImage := []
  ctxs : Tbl Ctx := []
  cache : List Nat := []
  /-- Cached contexts changed since they were fetched (04 R95). -/
  cacheDirty : List Nat := []
  weirs : Tbl Weir := []
  rsv : Reservoir := {}
  engs : Tbl Engine := []
  lats : Tbl Lateral := []
  saveGen : Nat := 0
  lius : Tbl Liu := []
  liuWait : List Nat := []
  liuHigh : Nat := 0
  digs : Tbl Dig := []
  /-- Digest jobs issued and not yet arrived, then those that wait in the queue (11 R238, R246). -/
  digArrive : List DigJob := []
  digWait : List DigJob := []
  digHigh : Nat := 0
  digSlotSel : Nat := 0
  whd : Wellhead := {}
  cis : Cistern := {}
  ss : Sealed := {}
  gates : Tbl Gate := []
  dselGate : Nat := 0
  dselRegion : Nat := 0
  dselErr : Bool := false
  dselCause : Nat := 0
  dstage : Rec32 := 0
  fl : Flume := {}
  flt : Faults := {}
  lev : Levee := {}
  evr : Recorder := {}
  ws : Watershed := {}
  md : Modes := {}
  boot : Boot := {}
  brd : Board := {}
deriving DecidableEq, Repr

/-! ## What some events carry from outside -/

/-- A posted write that the link lost: a completion entry, a CONTROL write-back, an admin completion entry or a notice, with its address. -/
inductive LostWrite where
  | completion (a : Fin 64) (cq : Fin 1024) (addr : BitVec 64)
  | writeBack (a : Fin 64) (sq : Fin 1024) (addr : BitVec 64)
  | admin (a : Fin 64) (cq : Bool) (addr : BitVec 64)
  | notice (a : Fin 64) (addr : BitVec 64) (rec : Rec32)
deriving DecidableEq, Repr

/-- The state of the Sealed Store's journal and root record at custody boot (13, Table 13.13). -/
inductive SsRecovery where
  | committed
  | newer
  | tagFails
  | rootLost
deriving DecidableEq, Repr

/-- What the boot ROM finds (13, Table 13.2): attempts of the PUF reconstruction and whether one succeeded, whether the battery RAM and the
check value are in order, the Sealed Store's recovery. -/
structure BootFind where
  tries : Fin 4
  puf : Bool
  ker : Bool
  store : SsRecovery
deriving DecidableEq, Repr

/-- What a read of the Reservoir meets (04 R105, R106): nothing, or an error at an offset from its start. -/
inductive RsvRead where
  | clean
  | corrected (off : BitVec 24)
  | uncorrectable (off : BitVec 24)
deriving DecidableEq, Repr

/-- One gather list entry as read from the host (03, Table 3.3): ADDR, LEN and the last word. -/
abbrev GatherEntry := BitVec 64 × BitVec 32 × BitVec 32

end Sys2Proof.Machine
end

