-- ==== Sys2Proof/Syntax.lean ====
section
/-!
DEFINITION. Sys2Proof/Syntax.lean: the commands of spec/opcode_table.json, one constructor for each row, with the row's operands.
The Furrow instructions come first.
Numbers of units are bounded by their types: allotments and functions `Fin 64`, queues `Fin 1024`, physical engines
`Fin 144`, Laterals `Fin 16`, LIUs `Fin 32`, digest engines `Fin 8`, gates `Fin 84`, command slots `Fin 4096`, Weirs
`Fin 4096`, contexts `Fin 262144`. Data that arrive from outside the device (bytes of host memory, of a frame) are operands.
-/
namespace Sys2Proof
open Sys2Proof.Machine

/-- A command to the device: one constructor for each row of the table of operations and events. -/
inductive Instr where
  /-- R129: rd := rs1 + rs2. -/
  | add (e : Fin 144) (rd rs1 rs2 : BitVec 5)
  /-- R129: rd := rs1 − rs2. -/
  | sub (e : Fin 144) (rd rs1 rs2 : BitVec 5)
  /-- R129: rd := rs1 AND rs2. -/
  | andR (e : Fin 144) (rd rs1 rs2 : BitVec 5)
  /-- R129: rd := rs1 OR rs2. -/
  | orR (e : Fin 144) (rd rs1 rs2 : BitVec 5)
  /-- R129: rd := rs1 XOR rs2. -/
  | xorR (e : Fin 144) (rd rs1 rs2 : BitVec 5)
  /-- R129: rd := rs1 AND NOT rs2. -/
  | andn (e : Fin 144) (rd rs1 rs2 : BitVec 5)
  /-- R129: Shift left by rs2[5:0]. -/
  | shl (e : Fin 144) (rd rs1 rs2 : BitVec 5)
  /-- R129: Logical shift right by rs2[5:0]. -/
  | shr (e : Fin 144) (rd rs1 rs2 : BitVec 5)
  /-- R129: Arithmetic shift right by rs2[5:0]. -/
  | sar (e : Fin 144) (rd rs1 rs2 : BitVec 5)
  /-- R129: Rotate right by rs2[5:0]. -/
  | ror (e : Fin 144) (rd rs1 rs2 : BitVec 5)
  /-- R129: Signed less-than into rd. -/
  | lts (e : Fin 144) (rd rs1 rs2 : BitVec 5)
  /-- R129: Unsigned less-than into rd. -/
  | ltu (e : Fin 144) (rd rs1 rs2 : BitVec 5)
  /-- R129: Signed minimum. -/
  | min (e : Fin 144) (rd rs1 rs2 : BitVec 5)
  /-- R129: Signed maximum. -/
  | max (e : Fin 144) (rd rs1 rs2 : BitVec 5)
  /-- R129: Unsigned minimum. -/
  | minu (e : Fin 144) (rd rs1 rs2 : BitVec 5)
  /-- R129: Unsigned maximum. -/
  | maxu (e : Fin 144) (rd rs1 rs2 : BitVec 5)
  /-- R129: rd := rs1 if rs2 ≠ 0. -/
  | csel (e : Fin 144) (rd rs1 rs2 : BitVec 5)
  /-- R129: Count leading zero bits. -/
  | clz (e : Fin 144) (rd rs1 : BitVec 5)
  /-- R129: Count trailing zero bits. -/
  | ctz (e : Fin 144) (rd rs1 : BitVec 5)
  /-- R129: Count one bits. -/
  | popc (e : Fin 144) (rd rs1 : BitVec 5)
  /-- R129: Reverse byte order. -/
  | brev (e : Fin 144) (rd rs1 : BitVec 5)
  /-- R129: Zero-extend the low word. -/
  | zxW (e : Fin 144) (rd rs1 : BitVec 5)
  /-- R129: Sign-extend the low word. -/
  | sxW (e : Fin 144) (rd rs1 : BitVec 5)
  /-- R129: Zero-extend the low halfword. -/
  | zxH (e : Fin 144) (rd rs1 : BitVec 5)
  /-- R129: Zero-extend the low byte. -/
  | zxB (e : Fin 144) (rd rs1 : BitVec 5)
  /-- R129: rd := rs1 + sign-extended imm16. -/
  | addi (e : Fin 144) (rd rs1 : BitVec 5) (imm : BitVec 16)
  /-- R129: rd := rs1 AND zero-extended imm16. -/
  | andi (e : Fin 144) (rd rs1 : BitVec 5) (imm : BitVec 16)
  /-- R129: rd := rs1 OR zero-extended imm16. -/
  | ori (e : Fin 144) (rd rs1 : BitVec 5) (imm : BitVec 16)
  /-- R129: rd := rs1 XOR zero-extended imm16. -/
  | xori (e : Fin 144) (rd rs1 : BitVec 5) (imm : BitVec 16)
  /-- R129: Signed less-than against imm16. -/
  | ltsi (e : Fin 144) (rd rs1 : BitVec 5) (imm : BitVec 16)
  /-- R129: Unsigned less-than against imm16. -/
  | ltui (e : Fin 144) (rd rs1 : BitVec 5) (imm : BitVec 16)
  /-- R129: Shift left by an immediate. -/
  | shli (e : Fin 144) (rd rs1 : BitVec 5) (n : BitVec 6)
  /-- R129: Logical shift right by an immediate. -/
  | shri (e : Fin 144) (rd rs1 : BitVec 5) (n : BitVec 6)
  /-- R129: Arithmetic shift right by an immediate. -/
  | sari (e : Fin 144) (rd rs1 : BitVec 5) (n : BitVec 6)
  /-- R129: Rotate right by an immediate. -/
  | rori (e : Fin 144) (rd rs1 : BitVec 5) (n : BitVec 6)
  /-- R129: rd := imm16 << 16 × HW. -/
  | hset (e : Fin 144) (rd : BitVec 5) (imm : BitVec 16) (hw : BitVec 2)
  /-- R129: Insert imm16 into halfword HW of rd. -/
  | hins (e : Fin 144) (rd : BitVec 5) (imm : BitVec 16) (hw : BitVec 2)
  /-- R129: Low 64 bits of the product. -/
  | mul (e : Fin 144) (rd rs1 rs2 : BitVec 5)
  /-- R129: High 64 bits of the unsigned product. -/
  | mulhiU (e : Fin 144) (rd rs1 rs2 : BitVec 5)
  /-- R129: High 64 bits of the signed product. -/
  | mulhiS (e : Fin 144) (rd rs1 rs2 : BitVec 5)
  /-- R131: Load from operand memory. -/
  | ld (e : Fin 144) (rt rs1 : BitVec 5) (w : BitVec 3) (off : BitVec 13)
  /-- R131: Store to operand memory. -/
  | st (e : Fin 144) (rt rs1 : BitVec 5) (w : BitVec 3) (off : BitVec 13)
  /-- R133: Issue a Reservoir read of 1–256 bytes into operand memory. -/
  | rld (e : Fin 144) (ro rr : BitVec 5) (lenm1 : BitVec 8)
  /-- R133: Copy operand-memory bytes into the Lateral store buffer bound for the Reservoir. -/
  | rst (e : Fin 144) (ro rr : BitVec 5) (lenm1 : BitVec 8)
  /-- R133: Unbuffered Reservoir store, checked at issue, waiting for completion. -/
  | rstU (e : Fin 144) (ro rr : BitVec 5) (lenm1 : BitVec 8)
  /-- R133: Wait until no rld of the command is outstanding. -/
  | rwait (e : Fin 144)
  /-- R135: Copy a descriptor list into the DMA unit and return its identifier. -/
  | dma (e : Fin 144) (rd rs1 : BitVec 5)
  /-- R135: Wait until a DMA list completes. -/
  | dwait (e : Fin 144) (rs1 : BitVec 5)
  /-- R135: Wait for every rld, list and store of the command. -/
  | sync (e : Fin 144)
  /-- R137: Branch if rs1 = rs2. -/
  | brEq (e : Fin 144) (rs1 rs2 : BitVec 5) (off : BitVec 16)
  /-- R137: Branch if rs1 ≠ rs2. -/
  | brNe (e : Fin 144) (rs1 rs2 : BitVec 5) (off : BitVec 16)
  /-- R137: Branch if rs1 < rs2, signed. -/
  | brLt (e : Fin 144) (rs1 rs2 : BitVec 5) (off : BitVec 16)
  /-- R137: Branch if rs1 ≥ rs2, signed. -/
  | brGe (e : Fin 144) (rs1 rs2 : BitVec 5) (off : BitVec 16)
  /-- R137: Branch if rs1 < rs2, unsigned. -/
  | brLtu (e : Fin 144) (rs1 rs2 : BitVec 5) (off : BitVec 16)
  /-- R137: Branch if rs1 ≥ rs2, unsigned. -/
  | brGeu (e : Fin 144) (rs1 rs2 : BitVec 5) (off : BitVec 16)
  /-- R137: Jump and link, PC-relative. -/
  | jl (e : Fin 144) (rd : BitVec 5) (off : BitVec 21)
  /-- R137: Jump and link to register plus immediate. -/
  | jlr (e : Fin 144) (rd rs1 : BitVec 5) (imm : BitVec 16)
  /-- R138: Read an engine state register. -/
  | esr (e : Fin 144) (rd : BitVec 5) (es : BitVec 8)
  /-- R138: Write an engine state register. -/
  | esw (e : Fin 144) (es : BitVec 8) (rs1 : BitVec 5)
  /-- R141: Request a key handle for delivery into operand memory. -/
  | keyreq (e : Fin 144) (rd rs1 rs2 : BitVec 5) (usage : BitVec 4)
  /-- R141: Wait for a key request; a refusal ends the command. -/
  | keywait (e : Fin 144) (rd rs1 : BitVec 5)
  /-- R143: Wait for 1–256 bytes of DRBG output. -/
  | ent (e : Fin 144) (rd rs1 rs2 : BitVec 5) (reseed : Bool)
  /-- R226: Submit an LIU job, binding an LIU on the first one. -/
  | jobLiu (e : Fin 144) (rd rs1 : BitVec 5)
  /-- R238: Submit a bulk digest job. -/
  | jobDigest (e : Fin 144) (rd rs1 : BitVec 5)
  /-- R229: Wait for a job and return its status word. -/
  | jwait (e : Fin 144) (rd rs1 : BitVec 5)
  /-- R145: End the routine with STATUS, OUT_LEN and DETAIL. -/
  | endR (e : Fin 144) (rs1 rs2 : BitVec 5) (status : BitVec 7)
  /-- R144: Self-check failure raises a Contained fault and the command is replayed. -/
  | scfail (e : Fin 144)
  /-- R146: Trap with cause BREAK. -/
  | brk (e : Fin 144) (code : BitVec 7)
  /-- R146: Return from a trap handler. -/
  | tret (e : Fin 144)
  /-- R140: Wait until enough streamed input has arrived. -/
  | inwait (e : Fin 144) (rs1 : BitVec 5)
  /-- R155: Set vector type and length from registers. -/
  | vcfg (e : Fin 144) (rd rs1 rs2 : BitVec 5)
  /-- R155: Set vector type from an immediate and length from a register. -/
  | vcfgi (e : Fin 144) (rd rs1 type : BitVec 5)
  /-- R161: Load a modulus register. -/
  | vsetm (e : Fin 144) (mk : BitVec 2) (rs1 : BitVec 5)
  /-- R161: Read a modulus register. -/
  | vgetm (e : Fin 144) (rd : BitVec 5) (mk : BitVec 2)
  /-- R153: Return VLEN ÷ 8. -/
  | vbytes (e : Fin 144) (rd : BitVec 5)
  /-- R155: Change type, keeping the length. -/
  | vcfgk (e : Fin 144) (rd type : BitVec 5)
  /-- R161: Element-wise add. -/
  | vadd (e : Fin 144) (vd vs1 vs2 : BitVec 5) (pm : Option (BitVec 3)) (sh : BitVec 2)
  /-- R161: Add a scalar to each element. -/
  | vaddX (e : Fin 144) (vd vs1 rs2 : BitVec 5) (pm : Option (BitVec 3)) (sh : BitVec 2)
  /-- R161: Element-wise subtract. -/
  | vsub (e : Fin 144) (vd vs1 vs2 : BitVec 5) (pm : Option (BitVec 3)) (sh : BitVec 2)
  /-- R161: Subtract a scalar from each element. -/
  | vsubX (e : Fin 144) (vd vs1 rs2 : BitVec 5) (pm : Option (BitVec 3)) (sh : BitVec 2)
  /-- R161: Element-wise AND. -/
  | vand (e : Fin 144) (vd vs1 vs2 : BitVec 5) (pm : Option (BitVec 3)) (sh : BitVec 2)
  /-- R161: Element-wise OR. -/
  | vor (e : Fin 144) (vd vs1 vs2 : BitVec 5) (pm : Option (BitVec 3)) (sh : BitVec 2)
  /-- R161: Element-wise XOR. -/
  | vxor (e : Fin 144) (vd vs1 vs2 : BitVec 5) (pm : Option (BitVec 3)) (sh : BitVec 2)
  /-- R161: vs1 AND NOT vs2. -/
  | vandn (e : Fin 144) (vd vs1 vs2 : BitVec 5) (pm : Option (BitVec 3)) (sh : BitVec 2)
  /-- R161: AND with a scalar. -/
  | vandX (e : Fin 144) (vd vs1 rs2 : BitVec 5) (pm : Option (BitVec 3)) (sh : BitVec 2)
  /-- R161: XOR with a scalar. -/
  | vxorX (e : Fin 144) (vd vs1 rs2 : BitVec 5) (pm : Option (BitVec 3)) (sh : BitVec 2)
  /-- R161: Shift left by vector amounts. -/
  | vshl (e : Fin 144) (vd vs1 vs2 : BitVec 5) (pm : Option (BitVec 3))
  /-- R161: Logical shift right by vector amounts. -/
  | vshr (e : Fin 144) (vd vs1 vs2 : BitVec 5) (pm : Option (BitVec 3))
  /-- R161: Shift left by a scalar. -/
  | vshlX (e : Fin 144) (vd vs1 rs2 : BitVec 5) (pm : Option (BitVec 3)) (sh : BitVec 2)
  /-- R161: Logical shift right by a scalar. -/
  | vshrX (e : Fin 144) (vd vs1 rs2 : BitVec 5) (pm : Option (BitVec 3)) (sh : BitVec 2)
  /-- R161: Arithmetic shift right by a scalar. -/
  | vsarX (e : Fin 144) (vd vs1 rs2 : BitVec 5) (pm : Option (BitVec 3))
  /-- R161: Rotate left by a scalar. -/
  | vrotlX (e : Fin 144) (vd vs1 rs2 : BitVec 5) (pm : Option (BitVec 3)) (sh : BitVec 2)
  /-- R161: Shift left by imm5. -/
  | vshlI (e : Fin 144) (vd vs1 imm : BitVec 5) (pm : Option (BitVec 3)) (sh : BitVec 2)
  /-- R161: Logical shift right by imm5. -/
  | vshrI (e : Fin 144) (vd vs1 imm : BitVec 5) (pm : Option (BitVec 3)) (sh : BitVec 2)
  /-- R161: Arithmetic shift right by imm5. -/
  | vsarI (e : Fin 144) (vd vs1 imm : BitVec 5) (pm : Option (BitVec 3))
  /-- R161: Rotate left by imm5. -/
  | vrotlI (e : Fin 144) (vd vs1 imm : BitVec 5) (pm : Option (BitVec 3)) (sh : BitVec 2)
  /-- R161: Unsigned element minimum. -/
  | vminu (e : Fin 144) (vd vs1 vs2 : BitVec 5) (pm : Option (BitVec 3))
  /-- R161: Unsigned element maximum. -/
  | vmaxu (e : Fin 144) (vd vs1 vs2 : BitVec 5) (pm : Option (BitVec 3))
  /-- R161: Low SEW bits of the element product. -/
  | vmul (e : Fin 144) (vd vs1 vs2 : BitVec 5) (pm : Option (BitVec 3))
  /-- R161: High SEW bits of the unsigned product. -/
  | vmulhiU (e : Fin 144) (vd vs1 vs2 : BitVec 5) (pm : Option (BitVec 3))
  /-- R161: Select elements by predicate. -/
  | vpick (e : Fin 144) (vd vs1 vs2 : BitVec 5) (pr : BitVec 3)
  /-- R161: Copy a vector. -/
  | vcopy (e : Fin 144) (vd vs1 : BitVec 5) (pm : Option (BitVec 3)) (sh : BitVec 2)
  /-- R161: Broadcast a scalar. -/
  | vbcastX (e : Fin 144) (vd rs2 : BitVec 5) (pm : Option (BitVec 3))
  /-- R161: Broadcast imm5. -/
  | vbcastI (e : Fin 144) (vd imm : BitVec 5) (pm : Option (BitVec 3))
  /-- R161: OR with a scalar. -/
  | vorX (e : Fin 144) (vd vs1 rs2 : BitVec 5) (pm : Option (BitVec 3)) (sh : BitVec 2)
  /-- R161: vs1 AND NOT scalar. -/
  | vandnX (e : Fin 144) (vd vs1 rs2 : BitVec 5) (pm : Option (BitVec 3)) (sh : BitVec 2)
  /-- R162: Modular add. -/
  | vmadd (e : Fin 144) (mk : BitVec 2) (vd vs1 vs2 : BitVec 5) (pm : Option (BitVec 3)) (sh : BitVec 2)
  /-- R162: Modular subtract. -/
  | vmsub (e : Fin 144) (mk : BitVec 2) (vd vs1 vs2 : BitVec 5) (pm : Option (BitVec 3)) (sh : BitVec 2)
  /-- R162: Modular multiply. -/
  | vmmul (e : Fin 144) (mk : BitVec 2) (vd vs1 vs2 : BitVec 5) (pm : Option (BitVec 3)) (sh : BitVec 2)
  /-- R162: Modular multiply-accumulate. -/
  | vmac (e : Fin 144) (mk : BitVec 2) (vd vs1 vs2 : BitVec 5) (pm : Option (BitVec 3)) (sh : BitVec 2)
  /-- R162: Modular multiply by a scalar. -/
  | vmmulX (e : Fin 144) (mk : BitVec 2) (vd vs1 rs2 : BitVec 5) (pm : Option (BitVec 3)) (sh : BitVec 2)
  /-- R162: Modular multiply-accumulate by a scalar. -/
  | vmacX (e : Fin 144) (mk : BitVec 2) (vd vs1 rs2 : BitVec 5) (pm : Option (BitVec 3)) (sh : BitVec 2)
  /-- R162: Modular reduction. -/
  | vmred (e : Fin 144) (mk : BitVec 2) (vd vs1 : BitVec 5) (pm : Option (BitVec 3)) (sh : BitVec 2)
  /-- R162: Centred modular reduction. -/
  | vmcen (e : Fin 144) (mk : BitVec 2) (vd vs1 : BitVec 5) (pm : Option (BitVec 3))
  /-- R161: One Cooley–Tukey NTT layer. -/
  | vntt (e : Fin 144) (q : BitVec 3) (vd vs1 vs2 : BitVec 5) (pm : Option (BitVec 3)) (sh : BitVec 2)
  /-- R161: One Gentleman–Sande inverse NTT layer. -/
  | vintt (e : Fin 144) (q : BitVec 3) (vd vs1 vs2 : BitVec 5) (pm : Option (BitVec 3)) (sh : BitVec 2)
  /-- R161: Pairwise NTT-domain multiplication. -/
  | vnttmul (e : Fin 144) (q : BitVec 3) (vd vs1 vs2 : BitVec 5) (pm : Option (BitVec 3)) (sh : BitVec 2)
  /-- R161: Keccak-f[1600] on a register state. -/
  | vkeccak (e : Fin 144) (vd : BitVec 5) (sh : BitVec 2)
  /-- R161: One SHA-256 compression. -/
  | vsha256 (e : Fin 144) (vd vs1 : BitVec 5)
  /-- R161: One SHA-512 compression. -/
  | vsha512 (e : Fin 144) (vd vs1 : BitVec 5)
  /-- R163: Uniform rejection sampling of 12-bit candidates. -/
  | vsamu12 (e : Fin 144) (q : BitVec 2) (vd vs1 rs2 : BitVec 5)
  /-- R163: Uniform rejection sampling of 23-bit candidates. -/
  | vsamu23 (e : Fin 144) (q : BitVec 2) (vd vs1 rs2 : BitVec 5)
  /-- R163: Bounded rejection sampling, eta 2. -/
  | vsamb2 (e : Fin 144) (q : BitVec 2) (vd vs1 rs2 : BitVec 5)
  /-- R163: Bounded rejection sampling, eta 4. -/
  | vsamb4 (e : Fin 144) (q : BitVec 2) (vd vs1 rs2 : BitVec 5)
  /-- R161: Centred binomial sampling, eta 2. -/
  | vcbd2 (e : Fin 144) (q : BitVec 2) (vd vs1 : BitVec 5) (pm : Option (BitVec 3)) (sh : BitVec 2)
  /-- R161: Centred binomial sampling, eta 3. -/
  | vcbd3 (e : Fin 144) (q : BitVec 2) (vd vs1 : BitVec 5) (pm : Option (BitVec 3)) (sh : BitVec 2)
  /-- R161: Low half of a carry-less product. -/
  | vcxmLo (e : Fin 144) (vd vs1 vs2 : BitVec 5) (pm : Option (BitVec 3))
  /-- R161: High half of a carry-less product. -/
  | vcxmHi (e : Fin 144) (vd vs1 vs2 : BitVec 5) (pm : Option (BitVec 3))
  /-- R161: GF(2^12) product. -/
  | vgfmul12 (e : Fin 144) (vd vs1 vs2 : BitVec 5) (pm : Option (BitVec 3))
  /-- R161: GF(2^13) product. -/
  | vgfmul13 (e : Fin 144) (vd vs1 vs2 : BitVec 5) (pm : Option (BitVec 3))
  /-- R161: AES forward round. -/
  | vafr (e : Fin 144) (vd vs1 vs2 : BitVec 5) (pm : Option (BitVec 3))
  /-- R161: AES forward final round. -/
  | vafl (e : Fin 144) (vd vs1 vs2 : BitVec 5) (pm : Option (BitVec 3))
  /-- R161: AES inverse round. -/
  | vair (e : Fin 144) (vd vs1 vs2 : BitVec 5) (pm : Option (BitVec 3))
  /-- R161: AES inverse final round. -/
  | vail (e : Fin 144) (vd vs1 vs2 : BitVec 5) (pm : Option (BitVec 3))
  /-- R161: AES InvMixColumns. -/
  | vaim (e : Fin 144) (vd vs1 : BitVec 5) (pm : Option (BitVec 3))
  /-- R161: AES SubWord. -/
  | vasw (e : Fin 144) (vd vs1 : BitVec 5) (pm : Option (BitVec 3))
  /-- R161: Element 0 into a scalar register. -/
  | vxget (e : Fin 144) (rd vs1 : BitVec 5)
  /-- R161: Scalar into element 0. -/
  | vxput (e : Fin 144) (vd rs2 : BitVec 5) (pm : Option (BitVec 3))
  /-- R161: Slide elements up. -/
  | vshupX (e : Fin 144) (vd vs1 rs2 : BitVec 5) (pm : Option (BitVec 3))
  /-- R161: Slide elements down. -/
  | vshdnX (e : Fin 144) (vd vs1 rs2 : BitVec 5) (pm : Option (BitVec 3))
  /-- R161: Permute elements by index. -/
  | vperm (e : Fin 144) (vd vs1 vs2 : BitVec 5) (pm : Option (BitVec 3))
  /-- R161: Pack predicated elements. -/
  | vpack (e : Fin 144) (vd vs1 : BitVec 5) (pr : BitVec 3)
  /-- R161: Interleave low halves. -/
  | vilvLo (e : Fin 144) (vd vs1 vs2 : BitVec 5) (pm : Option (BitVec 3))
  /-- R161: Interleave high halves. -/
  | vilvHi (e : Fin 144) (vd vs1 vs2 : BitVec 5) (pm : Option (BitVec 3))
  /-- R161: De-interleave even elements. -/
  | vdlvE (e : Fin 144) (vd vs1 vs2 : BitVec 5) (pm : Option (BitVec 3))
  /-- R161: De-interleave odd elements. -/
  | vdlvO (e : Fin 144) (vd vs1 vs2 : BitVec 5) (pm : Option (BitVec 3))
  /-- R161: Sum reduction. -/
  | vrdadd (e : Fin 144) (vd vs1 vs2 : BitVec 5) (pm : Option (BitVec 3))
  /-- R161: XOR reduction. -/
  | vrdxor (e : Fin 144) (vd vs1 vs2 : BitVec 5) (pm : Option (BitVec 3))
  /-- R161: OR reduction. -/
  | vrdor (e : Fin 144) (vd vs1 vs2 : BitVec 5) (pm : Option (BitVec 3))
  /-- R161: vd[i] := i. -/
  | vidx (e : Fin 144) (vd : BitVec 5) (pm : Option (BitVec 3))
  /-- R161: Copy a whole register with its tag. -/
  | vmovr (e : Fin 144) (vd vs1 : BitVec 5)
  /-- R164: Compare equal into a predicate. -/
  | vceq (e : Fin 144) (pd : BitVec 3) (vs1 vs2 : BitVec 5) (pm : Option (BitVec 3))
  /-- R164: Compare not equal. -/
  | vcne (e : Fin 144) (pd : BitVec 3) (vs1 vs2 : BitVec 5) (pm : Option (BitVec 3))
  /-- R164: Compare unsigned less-than. -/
  | vcltu (e : Fin 144) (pd : BitVec 3) (vs1 vs2 : BitVec 5) (pm : Option (BitVec 3))
  /-- R164: Compare signed less-than. -/
  | vclt (e : Fin 144) (pd : BitVec 3) (vs1 vs2 : BitVec 5) (pm : Option (BitVec 3))
  /-- R164: Compare equal to a scalar. -/
  | vceqX (e : Fin 144) (pd : BitVec 3) (vs1 rs2 : BitVec 5) (pm : Option (BitVec 3))
  /-- R164: Compare not equal to a scalar. -/
  | vcneX (e : Fin 144) (pd : BitVec 3) (vs1 rs2 : BitVec 5) (pm : Option (BitVec 3))
  /-- R164: Compare unsigned less than a scalar. -/
  | vcltuX (e : Fin 144) (pd : BitVec 3) (vs1 rs2 : BitVec 5) (pm : Option (BitVec 3))
  /-- R164: Compare unsigned at least a scalar. -/
  | vcgeuX (e : Fin 144) (pd : BitVec 3) (vs1 rs2 : BitVec 5) (pm : Option (BitVec 3))
  /-- R164: Predicate AND. -/
  | pand (e : Fin 144) (pd ps1 ps2 : BitVec 3)
  /-- R164: Predicate OR. -/
  | por (e : Fin 144) (pd ps1 ps2 : BitVec 3)
  /-- R164: Predicate XOR. -/
  | pxor (e : Fin 144) (pd ps1 ps2 : BitVec 3)
  /-- R164: Predicate AND NOT. -/
  | pandn (e : Fin 144) (pd ps1 ps2 : BitVec 3)
  /-- R164: Predicate NOT. -/
  | pnot (e : Fin 144) (pd ps1 : BitVec 3)
  /-- R164: Set predicate bits below VL. -/
  | pset (e : Fin 144) (pd : BitVec 3)
  /-- R164: Clear predicate bits below VL. -/
  | pclr (e : Fin 144) (pd : BitVec 3)
  /-- R164: Range predicate. -/
  | prange (e : Fin 144) (pd : BitVec 3) (rs1 rs2 : BitVec 5)
  /-- R164: Count set predicate bits. -/
  | ppop (e : Fin 144) (rd : BitVec 5) (ps1 : BitVec 3)
  /-- R164: Index of the lowest set predicate bit. -/
  | plow (e : Fin 144) (rd : BitVec 5) (ps1 : BitVec 3)
  /-- R164: Load a predicate. -/
  | pld (e : Fin 144) (pd : BitVec 3) (rs1 : BitVec 5)
  /-- R164: Store a predicate. -/
  | pst (e : Fin 144) (ps : BitVec 3) (rs1 : BitVec 5)
  /-- R165: Unit-stride vector load. -/
  | vld (e : Fin 144) (vd rs1 : BitVec 5) (pm : Option (BitVec 3)) (sh : BitVec 2)
  /-- R165: Unit-stride vector store. -/
  | vst (e : Fin 144) (vs rs1 : BitVec 5) (pm : Option (BitVec 3)) (sh : BitVec 2)
  /-- R165: Whole-register load. -/
  | vldw (e : Fin 144) (vd rs1 : BitVec 5)
  /-- R165: Whole-register store. -/
  | vstw (e : Fin 144) (vs rs1 : BitVec 5)
  /-- R165: Strided vector load. -/
  | vlds (e : Fin 144) (vd rs1 rs2 : BitVec 5) (pm : Option (BitVec 3))
  /-- R165: Strided vector store. -/
  | vsts (e : Fin 144) (vs rs1 rs2 : BitVec 5) (pm : Option (BitVec 3))
  /-- R165: Indexed gather. -/
  | vldx (e : Fin 144) (vd rs1 vs2 : BitVec 5) (pm : Option (BitVec 3))
  /-- R165: Indexed scatter. -/
  | vstx (e : Fin 144) (vs rs1 vs2 : BitVec 5) (pm : Option (BitVec 3))
  /-- R168: Clear a long accumulator. -/
  | vlclr (e : Fin 144) (la : BitVec 3)
  /-- R168: Add to a long accumulator. -/
  | vladd (e : Fin 144) (la : BitVec 3) (vs1 : BitVec 5)
  /-- R168: Subtract from a long accumulator. -/
  | vlsub (e : Fin 144) (la : BitVec 3) (vs1 : BitVec 5)
  /-- R168: Accumulate vector times scalar. -/
  | vlmac (e : Fin 144) (la : BitVec 3) (vs1 rs2 : BitVec 5)
  /-- R168: Accumulate vector-times-vector limbs. -/
  | vlmacv (e : Fin 144) (la : BitVec 3) (vs1 vs2 : BitVec 5)
  /-- R168: Pop limb 0 into a scalar and shift. -/
  | vlpop (e : Fin 144) (rd : BitVec 5) (la : BitVec 3)
  /-- R168: Shift a long accumulator right by limbs. -/
  | vlshr (e : Fin 144) (la : BitVec 3) (rs2 : BitVec 5)
  /-- R176: Split into Boolean shares. -/
  | vsplitB (e : Fin 144) (vd vs1 : BitVec 5) (pm : Option (BitVec 3)) (sh : BitVec 2)
  /-- R176: Split into arithmetic shares. -/
  | vsplitA (e : Fin 144) (vd vs1 : BitVec 5) (mk : BitVec 2) (pm : Option (BitVec 3)) (sh : BitVec 2)
  /-- R176: Recombine Boolean shares. -/
  | vjoinB (e : Fin 144) (vd vs1 : BitVec 5) (pm : Option (BitVec 3)) (sh : BitVec 2)
  /-- R176: Recombine arithmetic shares. -/
  | vjoinA (e : Fin 144) (vd vs1 : BitVec 5) (mk : BitVec 2) (pm : Option (BitVec 3)) (sh : BitVec 2)
  /-- R176: Arithmetic-to-Boolean share conversion. -/
  | va2b (e : Fin 144) (vd vs1 : BitVec 5) (mk : BitVec 2) (pm : Option (BitVec 3)) (sh : BitVec 2)
  /-- R176: Boolean-to-arithmetic share conversion. -/
  | vb2a (e : Fin 144) (vd vs1 : BitVec 5) (mk : BitVec 2) (pm : Option (BitVec 3)) (sh : BitVec 2)
  /-- R176: Boolean share refresh. -/
  | vrefreshB (e : Fin 144) (vd vs1 : BitVec 5) (pm : Option (BitVec 3)) (sh : BitVec 2)
  /-- R176: Arithmetic share refresh. -/
  | vrefreshA (e : Fin 144) (vd vs1 : BitVec 5) (mk : BitVec 2) (pm : Option (BitVec 3)) (sh : BitVec 2)
  /-- R176: Masked equality into a shared bit. -/
  | vmcmp (e : Fin 144) (vd vs1 vs2 : BitVec 5) (sh : BitVec 2)
  /-- R176: Masked constant-time selection. -/
  | vmsel (e : Fin 144) (vd vs1 vs2 : BitVec 5) (pm : Option (BitVec 3)) (sh : BitVec 2)
  /-- R176: Fresh mask-generator bits into a register. -/
  | vmask (e : Fin 144) (vd : BitVec 5) (pm : Option (BitVec 3))
  /-- R28: A write to SQ_DOORBELL[n] starts a scan of submission queue n at its fetch position. -/
  | sqDoorbell (a : Fin 64) (n : Fin 1024)
  /-- R36: A write to ADM_DOORBELL starts a scan of the allotment's admin submission ring. -/
  | admDoorbell (a : Fin 64)
  /-- R29: Data of a burst read of 1 to 8 entries arrive and are examined in ring order. -/
  | burstDataArrive (a : Fin 64) (q : Option (Fin 1024)) (data : List Entry) (err : Bool)
  /-- R30: A PENDING queue resumes its scan when a command slot frees. -/
  | scanResume (a : Fin 64) (n : Fin 1024)
  /-- R33: A write to CQ_HEAD[n].HEAD releases completion slots if valid. -/
  | cqHeadWrite (a : Fin 64) (n : Fin 1024) (head : BitVec 16)
  /-- R36: A write to ADM_CQ_HEAD releases admin completion slots if valid. -/
  | admCqHeadWrite (a : Fin 64) (head : BitVec 16)
  /-- R54: A write to NTC_HEAD releases notice slots, letting held notices be written. -/
  | ntcHeadWrite (a : Fin 64) (head : BitVec 16)
  /-- R51: Setting SQ_CTRL[n].DISABLE stops fetches and completes unstarted commands with QUEUE_DISABLED. -/
  | sqDisable (a : Fin 64) (n : Fin 1024)
  /-- R52: Clearing DISABLE while IDLE = 1 re-enables the queue at FETCH_IDX. -/
  | sqReenable (a : Fin 64) (n : Fin 1024)
  /-- R52: IDLE sets once no fetch is outstanding and every consumed entry has completed. -/
  | sqIdle (a : Fin 64) (n : Fin 1024)
  /-- R36: Setting ADM_CTRL.ENABLE runs the admin queue and resets its fetch position, HEAD and TAIL. -/
  | admEnable (a : Fin 64)
  /-- R36: Clearing ADM_CTRL.ENABLE stops the admin queue as DISABLE does. -/
  | admDisable (a : Fin 64)
  /-- R55: Setting NTC_CTRL.ENABLE resets the notice ring counts and writes held notices. -/
  | ntcEnable (a : Fin 64)
  /-- R55: Clearing NTC_CTRL.ENABLE stops notice writes; notices are held. -/
  | ntcDisable (a : Fin 64)
  /-- R30: Writing 1 to ALLOT_STATUS.BAD_DOORBELL clears it. -/
  | badDoorbellClear (a : Fin 64)
  /-- R56: Unmasking an MSI-X vector sends its pending message. -/
  | msixUnmask (a : Fin 64) (what : Fin 3) (v : Fin 32) (on : Bool)
  /-- R57: COAL_TIME µs after the oldest unsignalled entry, the completion queue signals its vector. -/
  | coalTimer (a : Fin 64) (n : Fin 1024)
  /-- R40: Admin command creating a completion queue after the ring-placement check. -/
  | createCq (a : Fin 64)
  /-- R38: Admin command removing a completion queue with no bound submission queue. -/
  | deleteCq (a : Fin 64)
  /-- R40: Admin command creating a submission queue of a class bound to a completion queue. -/
  | createSq (a : Fin 64)
  /-- R38: Admin command disabling a submission queue, waiting for IDLE, then removing it. -/
  | deleteSq (a : Fin 64)
  /-- R38: Admin command writing a 64-byte queue result record. -/
  | queryQueue (a : Fin 64)
  /-- R438: Admin command changing a completion queue's vector and coalescing, signalling at once if due. -/
  | modifyCq (a : Fin 64)
  /-- R37: An admin opcode not assigned, or reserved to allotment 0 from a VF, completes REFUSED_INPUT. -/
  | unassignedOpcode (a : Fin 64)
  /-- R83: Admin command aborting every consumed, uncommitted command that matches SQ_ID and TAG under TAG_MASK. -/
  | abort (a : Fin 64)
  /-- R97: A command clear of barrier, batch, context and entropy waits joins its Weir line with its cost fixed. -/
  | weirJoin (k : Fin 4096)
  /-- R97: The command at a line's head is charged and released to a Lateral ready list when LEVEL covers it. -/
  | weirCharge (n : Fin 4096)
  /-- R97: A command in a Weir line MAX_WAIT ms after joining completes with WEIR_SHED. -/
  | weirShed (k : Fin 4096)
  /-- R116: A command waiting 20 µs on a ready list is taken by a free engine of another allowed Lateral. -/
  | readySteal (k : Fin 4096) (e : Fin 144)
  /-- R117: A free engine takes a command from its Lateral's ready list and starts it, or restores a saved one. -/
  | engineDispatch (l : Fin 16)
  /-- R74: Input staging for a command ends, with length outcomes applied against IN_LEN. -/
  | inputStaged (k : Fin 4096) (lst : List GatherEntry) (data aux : List Byte) (rd : RsvRead)
  /-- R115: Every store of an ended routine has drained, so self-check and commit may begin. -/
  | storeDrainDone (k : Fin 4096)
  /-- R69: The whole output range is checked and the staged output, context and key-store changes are applied. -/
  | commit (k : Fin 4096)
  /-- R41: A completion entry is written when ordering promises and completion-queue room allow. -/
  | completionWrite (k : Fin 4096)
  /-- R95: A context fetch from the Reservoir into the cache completes. -/
  | contextFetchDone (n : Fin 262144) (rd : RsvRead)
  /-- R92: Admin command allocating the lowest FREE context into OPEN. -/
  | ctxAlloc (a : Fin 64)
  /-- R93: Admin command moving an ACTIVE context to HELD and starting its hold timer. -/
  | ctxHold (a : Fin 64)
  /-- R93: Admin command closing a context and erasing its secrets. -/
  | ctxClose (a : Fin 64)
  /-- R93: Admin command returning a CLOSED context to FREE. -/
  | ctxFree (a : Fin 64)
  /-- R93: Admin command setting a context's LABEL or HOLD_TIME. -/
  | ctxSet (a : Fin 64)
  /-- R93: Admin command copying out context headers. -/
  | ctxRead (a : Fin 64)
  /-- R103: Admin command carving a Reservoir buffer from the allotment partition. -/
  | rsvAlloc (a : Fin 64)
  /-- R104: Admin command freeing a Reservoir buffer once its users end. -/
  | rsvFree (a : Fin 64)
  /-- R94: A HELD context reaches HOLD_EXPIRY and is closed unless a started resumption holds it. -/
  | holdExpired (n : Fin 262144)
  /-- R108: At each 100 ms of device time, expired holds are closed and SESSION_HOLD_EXPIRED notices posted. -/
  | expirySweep
  /-- R99: A write to WEIR_CTRL commits staged Weir words, clamps LEVEL and may shed the line. -/
  | weirCtrlWrite (n : Fin 4096) (v : BitVec 32)
  /-- R105: The background scrub reads and rewrites Reservoir lines once per PERIOD hours. -/
  | rsvScrubPass (errs : List (BitVec 34 × Bool))
  /-- R105: RSV_PAGE_OP.GO with RETIRE = 0 scrubs one page. -/
  | rsvPageScrub (page : BitVec 22)
  /-- R105: RSV_PAGE_OP.GO with RETIRE = 1 retires one page. -/
  | rsvPageRetire (page : BitVec 22)
  /-- R122: A command waits SLU_CTRL.WAIT on a ready list, so the Sluice preempts an eligible running command. -/
  | preemptTrigger (k : Fin 4096)
  /-- R123: A preemption save record is written and the engine is free. -/
  | saveDone (e : Fin 144)
  /-- R121: ES_CYCLES reaches the run limit; the command ends with ROUTINE_TRAP. -/
  | watchdog (e : Fin 144)
  /-- R111: An instruction-memory parity error refetches the page and re-executes the instruction. -/
  | imemParityRefetch (e : Fin 144)
  /-- R114: A store-buffer line drains to the Reservoir after its Headgate check. -/
  | storeLineDrain (l : Fin 16)
  /-- R133: An outstanding rld delivers its bytes into operand memory. -/
  | rldComplete (e : Fin 144) (rd : RsvRead)
  /-- R135: A DMA descriptor list finishes all its transfers. -/
  | dmaListComplete (e : Fin 144) (rd : RsvRead)
  /-- R15: A key lease reaches 4,096 uses or 10 ms and the engine drops and scrubs the key. -/
  | leaseExpire (e : Fin 144) (h : BitVec 32)
  /-- R182: A mask generator at 2^24 − 2^20 blocks requests reseed material. -/
  | mgReseedRequest (e : Fin 144)
  /-- R182: A mask generator reaches 2^24 blocks without material and stops. -/
  | mgAtLimit (e : Fin 144)
  /-- R224: A waiting LIU binding request is granted when an LIU frees. -/
  | liuBindGrant
  /-- R228: A job reaches its LIU and is checked for form. -/
  | liuJobArrive (u : Fin 32)
  /-- R230: Set the LIU modulus after converting slots back. -/
  | liuSetmod (u : Fin 32)
  /-- R227: Load a slot from operand memory. -/
  | liuLoad (u : Fin 32)
  /-- R227: Store a slot's plain value to operand memory. -/
  | liuStore (u : Fin 32)
  /-- R227: Zero a slot. -/
  | liuZero (u : Fin 32)
  /-- R227: Copy a slot. -/
  | liuCopy (u : Fin 32)
  /-- R231: Modular add. -/
  | liuAdd (u : Fin 32)
  /-- R231: Modular subtract. -/
  | liuSub (u : Fin 32)
  /-- R231: Modular multiply. -/
  | liuMul (u : Fin 32)
  /-- R231: Modular square. -/
  | liuSqr (u : Fin 32)
  /-- R231: Modular inverse. -/
  | liuInv (u : Fin 32)
  /-- R231: Modular exponentiation. -/
  | liuExp (u : Fin 32)
  /-- R229: An LIU job ends and its status word travels to the engine. -/
  | liuJobEnd (u : Fin 32)
  /-- R240: A digest job reaches the queue and is checked. -/
  | digestJobArrive
  /-- R246: A free digest engine takes the earliest waiting job. -/
  | digestJobStart (u : Fin 8)
  /-- R246: A job waiting DIG_SCHED.WAIT preempts the longest-running job at a block boundary. -/
  | digestPreempt
  /-- R241: A digest job ends and returns its status word. -/
  | digestJobEnd (u : Fin 8)
  /-- R250: DIG_CTRL.GO under test runs one register-level job. -/
  | digGo (k : Fin 8) (v : BitVec 31)
  /-- R250: A register-level digest job ends and sets DONE. -/
  | digRegJobDone (k : Fin 8)
  /-- R250: A read of DIG_RESULT before DONE returns zero and sets EARLY_READ. -/
  | digResultRead (k : Fin 8) (u : Fin 16)
  /-- R252: A conditioner block yields 32 bytes into the entropy pool. -/
  | conditionerOutput
  /-- R254: A health test fails at a window; the block is discarded and the failure counted. -/
  | healthFail (grp : Option (Fin 32)) (apt : Bool)
  /-- R256: WHD_TEST.MAIN starts a main-source test run in Maintenance. -/
  | whdTestMain
  /-- R256: WHD_TEST.FB starts a fallback-source test run. -/
  | whdTestFb
  /-- R256: A test run ends, returning a passed source to service. -/
  | sourceTestDone (fb pass : Bool)
  /-- R262: Inject one repetition-count failure in Maintenance. -/
  | whdInjectRct (grp : Fin 32) (fb : Bool)
  /-- R262: Inject one adaptive-proportion failure in Maintenance. -/
  | whdInjectApt (grp : Fin 32) (fb : Bool)
  /-- R262: WHD_RAW_CTRL.GO starts a raw-sample capture. -/
  | rawCapture (grp : Fin 32) (fb : Bool)
  /-- R262: The raw capture of 65,536 samples completes. -/
  | rawCaptureDone (samples : BitVec 65536)
  /-- R262: Reading WHD_RAW_DATA returns samples and advances the cursor. -/
  | whdRawDataRead
  /-- R260: A class 3 wait reaches TIMEOUT with no source; the command completes NO_ENTROPY. -/
  | noEntropyTimeout (k : Fin 4096)
  /-- R284: Admin command allocating a Cistern slot or Sealed Store object. -/
  | keyAlloc (a : Fin 64)
  /-- R284: Admin command destroying a key once KEY_REVOKE_ACK arrives. -/
  | keyDestroy (a : Fin 64)
  /-- R284: Admin command writing a 64-byte key result. -/
  | keyQuery (a : Fin 64)
  /-- R284: Admin command clearing flags or raising a key's MASK_ORDER. -/
  | keyRestrict (a : Fin 64)
  /-- R284: Admin command attaching the Sealed Store and its exchange area. -/
  | ssAttach
  /-- R283: Admin command reporting a fetched block in an exchange slot. -/
  | ssBlockIn (intact : Bool)
  /-- R283: Admin command confirming a stored block durable and freeing its slot. -/
  | ssSlotFree
  /-- R283: No SS_BLOCK_IN or slot free within KST_CTRL.TIMEOUT fails waiting commands. -/
  | ssTimeout (u : Fin 1024)
  /-- R79: Admin command verifying and registering an owner routine image. -/
  | registerRoutine (data : List Byte)
  /-- R80: Admin command removing an owner routine once its bound commands end. -/
  | unregisterRoutine
  /-- R78: Admin command writing a routine result record. -/
  | queryRoutine
  /-- R79: Admin command verifying and replacing the SRL bundle. -/
  | loadSrl (data : List Byte)
  /-- R298: Setting HG_CTRL[g].CLOSE closes a gate at a clock edge. -/
  | hgClose (g : Fin 84)
  /-- R298: Clearing HG_CTRL[g].CLOSE reopens a gate and checks waiting accesses. -/
  | hgOpen (g : Fin 84)
  /-- R298: Every old-rule access of a closed gate has retired and DRAINED sets. -/
  | hgDrained (g : Fin 84)
  /-- R299: An access waiting HG_LIMIT µs at a closed gate faults CLOSED. -/
  | hgCloseTimeout (g : Fin 84)
  /-- R298: A write to HG_DSEL selects a descriptor and loads the staging words. -/
  | hgDselWrite (g : BitVec 7) (r : BitVec 6)
  /-- R296: A write to HG_DDATA[7] commits the staged descriptor or is refused. -/
  | hgDdataCommit (v : BitVec 32)
  /-- R291: A function-level reset of VF n begins teardown of allotment n. -/
  | flrStart (n : Fin 64)
  /-- R293: A function-level reset of the PF tears down allotment 0 and clears VF Enable. -/
  | pfFlr
  /-- R293: Clearing VF Enable tears down allotments 1–63. -/
  | vfEnableClear
  /-- R304: Teardown completes, READY returns and FLR_COMPLETE is recorded. -/
  | flrComplete (n : Fin 64)
  /-- R305: A compute-die fault report reaches the custody die and is classified. -/
  | faultReport (source : Option (Fin 190)) (unit : BitVec 16) (slot : Option (Fin 4096)) (syndrome : BitVec 64)
  /-- R305: A custody-die fault source is seen directly and classified. -/
  | custodyFault (source : Fin 190) (unit : BitVec 16) (syndrome : BitVec 64)
  /-- R311: Custody orders a unit fenced. -/
  | faultActionFence
  /-- R314: Custody orders affected commands replayed. -/
  | faultActionReplay
  /-- R317: Custody orders Low-flow mode entered. -/
  | faultActionLowFlow
  /-- R318: Custody orders the compute die to stop issuing for a Fatal fault. -/
  | faultActionStop
  /-- R319: The drain finishes or its 2 ms bound expires and SB_STOP is asserted. -/
  | fatalDrainEnd
  /-- R318: After FATAL_DWELL the custody die clears and resets the compute die. -/
  | fatalDwellExpire
  /-- R308: CACK_US after a Corrected fault the custody die acknowledges its pending bit. -/
  | faultAutoAck
  /-- R308: Writing 1s to FLT_ACK acknowledges pending fault bits. -/
  | fltAckWrite (upper : Bool) (v : BitVec 32)
  /-- R313: A fenced unit's test ends; it returns to service or stays fenced or retired. -/
  | unitTestDone (cls : Fin 7) (idx : Fin 144) (pass : Bool)
  /-- R312: A spare engine enters service after being ungated, cleared and seeded. -/
  | spareInService (l : Fin 16)
  /-- R317: No Low-flow condition for 1 s returns the device to Service. -/
  | lowFlowExit
  /-- R307: Compute junction reaching 108 °C raises thermal warning. -/
  | thermalWarning (celsius : BitVec 7)
  /-- R322: Missing heartbeats for 100 µs or an unconfirmed stop mark the compute die wedged. -/
  | wedgeDetect
  /-- R328: FLT_INJECT.ARM arms a fault injection on a source. -/
  | fltInjectArm (source unit : BitVec 8)
  /-- R327: FLT_INJECT.CANCEL cancels the pending injection. -/
  | fltInjectCancel (source unit : BitVec 8)
  /-- R325: FLT_UNIT_OP GO with FENCE fences the selected unit. -/
  | fltFence
  /-- R325: FLT_UNIT_OP GO with TEST tests a fenced unit. -/
  | fltTest
  /-- R325: FLT_UNIT_OP GO with UNFENCE returns a tested unit. -/
  | fltUnfence
  /-- R326: Admin command fencing a unit. -/
  | unitFence (a : Fin 64)
  /-- R326: Admin command testing a fenced unit. -/
  | unitTest (a : Fin 64)
  /-- R326: Admin command returning a tested unit. -/
  | unitUnfence (a : Fin 64)
  /-- R326: Admin command writing the 32 fault history records. -/
  | faultHistory (a : Fin 64)
  /-- R310: Reading FLT_HIST_DATA[7] advances AGE to the next record. -/
  | fltHistRead
  /-- R329: Every 500 µs while healthy the custody die toggles ALIVE. -/
  | aliveToggle
  /-- R333: A Levee detector reports its condition and the filter counts it. -/
  | leveeEvent (src : Fin 18)
  /-- R338: At the end of a Levee interval the union of fired responses takes effect. -/
  | leveeIntervalEnd
  /-- R337: A zeroization response completes, and a pending RESET then takes effect. -/
  | zeroizeDone
  /-- R339: LEV_CTRL.RELEASE lifts Levee HOLD and FREEZE unless still fired. -/
  | leveeRelease
  /-- R336: Writing 1s to LEV_FIRED rearms fired sources. -/
  | levFiredClear (v : BitVec 18)
  /-- R345: Writing 1s to LEV_TEST_SEEN clears stimulus firings. -/
  | levTestSeenClear (v : BitVec 18)
  /-- R345: Writing LEV_STIM injects one synthetic event into a source. -/
  | levStim (v : BitVec 18)
  /-- R341: Within 1 ms of a change the battery-island copy of the battery configuration is written. -/
  | battCfgCopy
  /-- R342: A battery source fires on VBAT, latching an entry and possibly erasing the KER. -/
  | batteryFire (src : Fin 8)
  /-- R344: SVC_N held low 50 ms opens a 30 s Maintenance window. -/
  | svcPressed
  /-- R374: The SVC_N window closes 30 s after the press. -/
  | svcWindowExpire
  /-- R348: A compute-originated record arrives and enters the append queue. -/
  | evrAppend
  /-- R349: Writing EVR_CURSOR latches the first visible record it names. -/
  | evrCursorWrite (v : BitVec 32)
  /-- R349: Reading EVR_DATA[7] advances and latches the next record. -/
  | evrDataRead
  /-- R349: Writing EVW_CURSOR latches the first record visible to the allotment. -/
  | evwCursorWrite (a : Fin 64) (v : BitVec 32)
  /-- R349: Reading EVW_DATA[7] advances to the next visible record. -/
  | evwDataRead (a : Fin 64)
  /-- R351: EVR_CLEAR with CONFIRM and GO empties the circular area. -/
  | evrClear (confirm : BitVec 16)
  /-- R437: Each one-second interval of device time ends and its summaries are emitted. -/
  | secondIntervalEnd
  /-- R11: TRAIN messages exchange identities and boot counter, deriving the Flume key. -/
  | train (fromCompute : Bool)
  /-- R274: A USE key request reaches the custody die, is checked, and is served or refused. -/
  | keyRequest
  /-- R274: An EXPORT key request is checked and served. -/
  | keyRequestExport
  /-- R275: A CREATE request binds an empty target and delivers a transfer key. -/
  | keyRequestCreate
  /-- R275: A COMMIT request unwraps the staged object and fills the target. -/
  | keyRequestCommit
  /-- R275: An ABANDON request returns the target to empty. -/
  | keyRequestAbandon
  /-- R185: A key delivery fragment is written as shares into operand memory. -/
  | keyDeliver
  /-- R141: A key refusal reaches the engine and ends the command at its keywait. -/
  | keyRefuse
  /-- R16: Every holder drops the leased key, then KEY_REVOKE_ACK is sent. -/
  | keyRevoke
  /-- R16: The revoke acknowledgement reaches the custody die and the admin command completes. -/
  | keyRevokeAck
  /-- R102: A unit key is loaded into compute-die key registers. -/
  | unitKeyLoad
  /-- R432: A proxied register read reaches the custody die. -/
  | regRead
  /-- R432: A proxied register write reaches the custody die. -/
  | regWrite
  /-- R432: The custody reply completes a proxied access. -/
  | regReply
  /-- R433: No REG_REPLY in 10 µs completes a read with all ones and drops a write. -/
  | proxyTimeout
  /-- R259: An entropy request joins its DRBG instance queue by class. -/
  | entropyRequest
  /-- R259: DRBG output or reseed material reaches its consumer. -/
  | entropyDeliver
  /-- R382: Overlay triples are applied or reverted on the compute die. -/
  | modeApply
  /-- R382: The compute die confirms an overlay applied. -/
  | modeDone
  /-- R382: No MODE_DONE within 1 ms raises a Fatal fault. -/
  | modeDoneTimeout
  /-- R19: A heartbeat arrives carrying state, last SEQ and device time. -/
  | heartbeat (up : Bool)
  /-- R19: Each 1 µs each direction of each sublink sends a heartbeat. -/
  | heartbeatSend (up : Bool)
  /-- R8: A steward read is checked by HG_STW and performed. -/
  | stwRead (core : Fin 4) (addr : BitVec 64) (len : Fin 256) (host : Bool) (ident : BitVec 16) (data : BitVec 2048)
  /-- R8: A steward write is checked by HG_STW and performed. -/
  | stwWrite (core : Fin 4) (addr : BitVec 64) (len : Fin 256) (host : Bool) (ident : BitVec 16) (data : BitVec 2048)
  /-- R8: The reply to a steward access reaches the custody die. -/
  | stwReply
  /-- R12: A message not acknowledged within 200 ns is retransmitted. -/
  | flumeRetransmit (up : Bool)
  /-- R10: No message on a sublink for 8 µs fences and retrains it. -/
  | sublinkSilence (u : Fin 2)
  /-- R11: A fenced sublink finishes retraining under the current key. -/
  | sublinkRetrainDone (u : Fin 2) (ok : Bool)
  /-- R10: Both sublinks down for 100 µs is a Fatal fault. -/
  | bothSublinksDown
  /-- R17: SB_STOP stops engines, units and DMA at once. -/
  | sbStop
  /-- R17: SB_CLEAR starts the compute die's hardware clear. -/
  | sbClear
  /-- R17: The compute-die clear completes within 20 µs. -/
  | sbClearDone
  /-- R322: SB_FATAL from the compute die marks it wedged. -/
  | sbFatal
  /-- R322: SB_PRESENT falling unbidden marks the compute die wedged. -/
  | sbPresentFall
  /-- R18: CUS_CLK missing 640 ns switches the custody die to its fallback oscillator. -/
  | fallbackSwitch
  /-- R18: CUS_CLK present and in tolerance 1 ms switches back. -/
  | fallbackReturn
  /-- R358: A received JOIN_INIT is checked and answered with JOIN_RESP. -/
  | joinInit (member : Fin 1024)
  /-- R358: A received JOIN_RESP is checked, decapsulated and answered with JOIN_FIN. -/
  | joinResp (member : Fin 1024)
  /-- R358: A received JOIN_FIN is verified, keys derived and JOIN_ACK sent. -/
  | joinFin (member : Fin 1024)
  /-- R358: A received JOIN_ACK brings the channel up. -/
  | joinAck (member : Fin 1024)
  /-- R358: A received JOIN_REJECT ends the join and logs the reason. -/
  | joinReject (member : Fin 1024)
  /-- R358: An unanswered clear-type join message is resent after 20 ms, failing after three tries. -/
  | joinResend (member : Fin 1024)
  /-- R357: After WS_TIMERS.RETRY a failed join is retried. -/
  | joinRetry (member : Fin 1024)
  /-- R359: A received KEEPALIVE refreshes the channel. -/
  | keepalive (member : Fin 1024)
  /-- R359: An idle direction sends KEEPALIVE each 1 ms. -/
  | keepaliveSend (member : Fin 1024)
  /-- R357: A received CLOSE closes the channel. -/
  | close (member : Fin 1024)
  /-- R357: A channel idle 60 s is closed. -/
  | channelIdleClose (member : Fin 1024)
  /-- R359: A channel reaching SEQ 2^32 or one hour old is joined afresh. -/
  | channelRejoin (member : Fin 1024)
  /-- R359: A frame unacknowledged for 2 ms is retransmitted. -/
  | wsRetransmit (member : Fin 1024)
  /-- R365: Eight failed tries or 5 ms silence declares the peer lost. -/
  | peerLost (member : Fin 1024)
  /-- R354: A received frame is filtered, checked and reassembled, or dropped and counted. -/
  | wsFrameReceive (port : Fin 2) (frame : List Byte) (fcsOk : Bool)
  /-- R360: A received MIG_PULL starts a move out from the source. -/
  | migPull (member : Fin 1024)
  /-- R360: A received MIG_OFFER allocates a pending context and sends MIG_READY. -/
  | migOffer (member : Fin 1024)
  /-- R360: A received MIG_READY closes the source context and sends MIG_RELEASE. -/
  | migReady (member : Fin 1024)
  /-- R360: A received MIG_RELEASE makes the destination context usable. -/
  | migRelease (member : Fin 1024)
  /-- R361: A received MIG_ABORT discards the move. -/
  | migAbort (member : Fin 1024)
  /-- R360: A received MIG_QUERY is answered from the source's move record. -/
  | migQuery (member : Fin 1024)
  /-- R361: Each 1 ms a destination without MIG_RELEASE sends MIG_QUERY. -/
  | migQuerySend (member : Fin 1024) (request : BitVec 32)
  /-- R361: MIG_LIMIT expires and the move fails on its side. -/
  | migTimeout (source : Bool) (member : Fin 1024) (request : BitVec 32)
  /-- R360: Admin command pushing a context to another member. -/
  | ctxMigrateOut (a : Fin 64)
  /-- R360: Admin command pulling a context from another member. -/
  | ctxMigrateIn (a : Fin 64)
  /-- R362: A received replica is checked and fills the target. -/
  | keyRepl (member : Fin 1024)
  /-- R362: A received acknowledgement records the replica and completes WS_REPLICATE. -/
  | keyReplAck (member : Fin 1024)
  /-- R362: A received destroy removes the replica. -/
  | keyReplDestroy (member : Fin 1024)
  /-- R363: A received grant request reserves a leaf range at the home device. -/
  | grantReq (member : Fin 1024)
  /-- R363: A received grant is stored in the member's grant table. -/
  | grant (member : Fin 1024)
  /-- R363: A received grant refusal fails waiting signatures. -/
  | grantRefuse (member : Fin 1024)
  /-- R363: A signature waiting GRANT_WAIT ms for a grant completes KEY_EXHAUSTED. -/
  | grantWaitExpire (handle : BitVec 32)
  /-- R364: A received REHOME makes this member the key's counter home. -/
  | rehome (member : Fin 1024)
  /-- R365: Once a second credential dates are checked and expired channels ended. -/
  | credentialCheck
  /-- R353: A Watershed link completes negotiation and training. -/
  | linkUp (link : Fin 8)
  /-- R353: A Watershed link goes down; traffic moves to the other port. -/
  | linkDown (link : Fin 8)
  /-- R366: Admin command returning the identity public key and device identity. -/
  | wsIdentity
  /-- R366: Admin command installing a membership credential. -/
  | wsCredential (data : List Byte)
  /-- R362: Admin command replicating a key to a member. -/
  | wsReplicate
  /-- R364: Admin command moving a stateful key's counter home. -/
  | wsRehome
  /-- R366: Admin command revoking or lifting a member. -/
  | wsRevoke
  /-- R366: Admin command writing a peer status record. -/
  | wsQuery
  /-- R355: A write to WS_TMPL_CTRL commits the staged header template. -/
  | wsTmplCtrlWrite (v : BitVec 32)
  /-- R371: Admin command asking an idle device to enter Retention. -/
  | retain
  /-- R372: Retention entry steps finish and the mode becomes Retention. -/
  | retentionEntered
  /-- R373: A host access in Retention starts the wake. -/
  | retentionWake (source : Fin 4)
  /-- R373: The wake completes and held writes and reads are served. -/
  | wakeDone
  /-- R374: Admin command entering Maintenance within an SVC_N window. -/
  | maintEnter
  /-- R374: Admin command leaving Maintenance. -/
  | maintExit
  /-- R375: Admin command presenting a debug token during the debug pause. -/
  | debugToken (token : List Byte)
  /-- R401: The debug pause ends after 60 s without a token. -/
  | debugPauseExpire (found : BootFind)
  /-- R376: Admin command installing the owner key, a new KER and device time. -/
  | provision (key : List Byte)
  /-- R379: Admin command reading and checking a signed Base Profile. -/
  | profileLoad (image : List Byte)
  /-- R380: A committed profile is applied, registers locked and gates reopened. -/
  | profileApplied (bad : BitVec 2)
  /-- R428: A host write to a register without its own row, ignored if locked. -/
  | registerWrite (a : Fin 64) (bar2 : Bool) (o : BitVec 32) (n : BitVec 8) (v : BitVec 64)
  /-- R430: A 4-byte read of a 64-bit RO register's low word latches its high word. -/
  | read64bitLowWord (a : Fin 64) (bar2 : Bool) (o : BitVec 32) (n : BitVec 8)
  /-- R388: PWRGOOD rising with RESET_N high starts bring-up. -/
  | pwrgoodRise (debugEn : Bool) (test : BitVec 4)
  /-- R389: PWRGOOD falling stops the device and hands over to the battery island. -/
  | pwrgoodFall
  /-- R390: RESET_N low 1 µs resets and holds both dies. -/
  | resetNAssert
  /-- R390: RESET_N release starts bring-up from step 1. -/
  | resetNRelease (debugEn : Bool)
  /-- R391: PERST_N low, or Hot Reset or Link Disable, resets the compute die after SERVICE_READY. -/
  | perstNAssert
  /-- R391: PERST_N release brings the compute die up from step 3 or trains the link. -/
  | perstNRelease
  /-- R53: The host link goes down or retrains; unacknowledged posted writes fail with cause 5. -/
  | pcieLinkLoss (down : Bool) (lost : List LostWrite)
  /-- R266: Boot ROM reconstructs the PUF, derives the DUR and checks the KER. -/
  | custodyBooted (found : BootFind)
  /-- R11: Full Flume training completes and heartbeats start. -/
  | flumeTrained (s0 s1 : Bool)
  /-- R257: Wellhead start-up completes and ENTROPY_READY sets. -/
  | entropyReady (main fb : Bool) (bad : BitVec 16)
  /-- R393: Bring-up unit tests finish, CD_READY sets and ALIVE starts. -/
  | unitsTested (engs : BitVec 144) (lius : BitVec 32) (digs : BitVec 8)
  /-- R392: Reservoir training and self-test complete. -/
  | reservoirTrained (us badPages : BitVec 32)
  /-- R395: The stored SRL bundle is verified and written into the program store. -/
  | srlLoaded (bad : BitVec 2)
  /-- R392: The mode is decided and work is admitted. -/
  | serviceReady
  /-- R397: The PCIe link comes up after the fused identity is read. -/
  | configReady (speed : BitVec 8) (width : Fin 17)
  /-- R420: ENTDAA or SETDASA assigns a dynamic address and enters the I3C form. -/
  | bmcDaa (addr : BitVec 7) (setdasa : Bool)
  /-- R420: RSTDAA returns the target to the I²C form. -/
  | bmcRstdaa
  /-- R421: Board-management read of identity. -/
  | bmcIdentity (n : Fin 34)
  /-- R421: Board-management read of temperatures. -/
  | bmcTemperature (n : Fin 10) (temps : BitVec 32) (hotspot : BitVec 8)
  /-- R421: Board-management read of rail state. -/
  | bmcRails (n : Fin 6)
  /-- R421: Board-management read of DEV_MODE and DEV_STATUS. -/
  | bmcMode (n : Fin 10)
  /-- R421: Board-management read of health flags. -/
  | bmcHealth (n : Fin 6)
  /-- R421: Board-management read of the last Fatal record. -/
  | bmcLastFatal (n : Fin 34)
  /-- R421: Board-management write of the board window cursor. -/
  | bmcEvrSeek (seq : BitVec 32)
  /-- R421: Board-management read of the latched record, advancing the cursor. -/
  | bmcEvrRead (n : Fin 34)
  /-- R421: Board-management read of window status. -/
  | bmcEvrStatus (n : Fin 14)
  /-- R422: Board-management read of alert causes, clearing them. -/
  | bmcAlert (n : Fin 6)
  /-- R421: An unlisted command is not acknowledged. -/
  | bmcUnknownCommand (code : BitVec 8) (write : Bool)
  /-- R423: Boundary-scan BYPASS instruction. -/
  | tapBypass (code : BitVec 8)
  /-- R423: Boundary-scan IDCODE instruction. -/
  | tapIdcode
  /-- R423: Boundary-scan SAMPLE/PRELOAD instruction. -/
  | tapSamplePreload (bits : List Bool)
  /-- R423: Boundary-scan EXTEST, active only while RESET_N is low. -/
  | tapExtest
  /-- R423: Boundary-scan CLAMP, active only while RESET_N is low. -/
  | tapClamp
  /-- R423: Boundary-scan HIGHZ, active only while RESET_N is low. -/
  | tapHighz
  /-- R424: A debug-TAP instruction outside Debug acts as BYPASS and raises Levee source 17. -/
  | debugTapInstruction (code : BitVec 8)
  /-- R6: Reading NTC_LOST returns and clears it. -/
  | ntcLostRead (a : Fin 64)
  /-- R6: Reading QM_STALLS returns and clears it. -/
  | qmStallsRead
  /-- R6: Reading CTX_CACHE_MISS returns and clears it. -/
  | ctxCacheMissRead
  /-- R6: Reading RSV_CORR returns and clears it. -/
  | rsvCorrRead
  /-- R6: Reading RSV_UNCORR returns and clears it. -/
  | rsvUncorrRead
  /-- R6: Reading ENG_PREEMPTS returns and clears it. -/
  | engPreemptsRead (e : Fin 144)
  /-- R6: Reading ENG_SCRUBS returns and clears it. -/
  | engScrubsRead (e : Fin 144)
  /-- R6: Reading ENG_ECC returns and clears it. -/
  | engEccRead (e : Fin 144)
  /-- R6: Reading LAT_SB returns and clears HIGH. -/
  | latSbRead (l : Fin 16)
  /-- R6: Reading LAT_IMPRECISE returns and clears it. -/
  | latImpreciseRead (l : Fin 16)
  /-- R6: Reading SLU_PREEMPTS returns and clears it. -/
  | sluPreemptsRead
  /-- R6: Reading SLU_STEALS returns and clears it. -/
  | sluStealsRead
  /-- R6: Reading SLU_WATCHDOG returns and clears it. -/
  | sluWatchdogRead
  /-- R6: Reading ENG_MG_RESEEDS returns and clears it. -/
  | engMgReseedsRead (e : Fin 144)
  /-- R6: Reading ENG_MG_STALL returns and clears it. -/
  | engMgStallRead (e : Fin 144)
  /-- R6: Reading LIU_JOBS returns and clears it. -/
  | liuJobsRead (k : Fin 32)
  /-- R6: Reading LIU_REFUSED returns and clears it. -/
  | liuRefusedRead (k : Fin 32)
  /-- R6: Reading LIU_ABORTS returns and clears it. -/
  | liuAbortsRead (k : Fin 32)
  /-- R6: Reading LIU_PARITY returns and clears it. -/
  | liuParityRead (k : Fin 32)
  /-- R6: Reading LIU_CHECKFAIL returns and clears it. -/
  | liuCheckfailRead (k : Fin 32)
  /-- R6: Reading LIU_WAITING returns and clears HIGH. -/
  | liuWaitingRead
  /-- R6: Reading DIG_JOBS returns and clears it. -/
  | digJobsRead (k : Fin 8)
  /-- R6: Reading DIG_PREEMPTS returns and clears it. -/
  | digPreemptsRead (k : Fin 8)
  /-- R6: Reading DIG_PARITY returns and clears it. -/
  | digParityRead (k : Fin 8)
  /-- R6: Reading DIG_WAITING returns and clears HIGH. -/
  | digWaitingRead
  /-- R6: Reading DIG_SLOTS returns and clears HIGH. -/
  | digSlotsRead
  /-- R6: Reading WHD_FAILS returns and clears it. -/
  | whdFailsRead
  /-- R6: Reading WHD_COND returns and clears it. -/
  | whdCondRead
  /-- R6: Reading WHD_DRBG_RESEEDS returns and clears it. -/
  | whdDrbgReseedsRead
  /-- R6: Reading WHD_WAIT[c] returns and clears HIGH. -/
  | whdWaitRead (c : Fin 4)
  /-- R6: Reading WHD_NOENT returns and clears it. -/
  | whdNoentRead
  /-- R6: Reading CIS_UPDATES returns and clears it. -/
  | cisUpdatesRead
  /-- R6: Reading CIS_LEAVES returns and clears it. -/
  | cisLeavesRead
  /-- R6: Reading CIS_BURNED returns and clears it. -/
  | cisBurnedRead
  /-- R6: Reading KST_FETCHES returns and clears it. -/
  | kstFetchesRead
  /-- R6: Reading KST_STORES returns and clears it. -/
  | kstStoresRead
  /-- R6: Reading KST_TAGFAIL returns and clears it. -/
  | kstTagfailRead
  /-- R6: Reading KST_SLOTS returns and clears HIGH. -/
  | kstSlotsRead
  /-- R6: Reading KST_KCACHE_HIT returns and clears it. -/
  | kstKcacheHitRead
  /-- R6: Reading KST_KCACHE_MISS returns and clears it. -/
  | kstKcacheMissRead
  /-- R6: Reading ALLOT_ENGTIME[n] returns and clears it. -/
  | allotEngtimeRead (n : Fin 64)
  /-- R6: Reading HG_VIOL[g] returns and clears it. -/
  | hgViolRead (g : Fin 84)
  /-- R6: Reading HG_TIMEOUTS[g] returns and clears it. -/
  | hgTimeoutsRead (g : Fin 84)
  /-- R6: Reading FLT_COUNT_C returns and clears it. -/
  | fltCountCRead
  /-- R6: Reading FLT_COUNT_U returns and clears it. -/
  | fltCountURead
  /-- R6: Reading ENG_REPLAY_COUNT[n] returns and clears it. -/
  | engReplayCountRead (n : Fin 64)
  /-- R6: Reading LEV_EVENTS[s] returns and clears it. -/
  | levEventsRead (u : Fin 32)
  /-- R6: Reading the EVR_DROPPED register returns and clears it. -/
  | evrDroppedRead
  /-- R6: Reading WS_FEC_CORR[p] returns and clears it. -/
  | wsFecCorrRead (p : Fin 2)
  /-- R6: Reading WS_FEC_UNCORR[p] returns and clears it. -/
  | wsFecUncorrRead (p : Fin 2)
  /-- R6: Reading WS_RXDROP[p] returns and clears it. -/
  | wsRxdropRead (p : Fin 2)
  /-- R6: Reading MOD_TRANSITIONS returns and clears it. -/
  | modTransitionsRead
  /-- R6: Reading MOD_LOCK_VIOL returns and clears it. -/
  | modLockViolRead
  /-- R6: Reading CLK_UNLOCKS returns and clears it. -/
  | clkUnlocksRead
  /-- R6: Reading PWR_DROOP returns and clears it. -/
  | pwrDroopRead
  /-- R6: Reading PCI_ERRORS returns and clears it. -/
  | pciErrorsRead
  /-- R127: Execution of an instruction word whose major opcode, FUNC or W is unassigned, or whose reserved fields are non-zero, traps with ILLEGAL. -/
  | illegalInstruction (e : Fin 144) (w : BitVec 32)
  /-- R12: A Flume message whose GCM tag fails is dropped unacknowledged and logged as a Corrected fault, and the third within 1 ms fences and retrains the sublink. -/
  | flumeTagFailure (u : Fin 2) (up : Bool)
  /-- R13: A Flume message with a valid tag but an unknown TYPE, a LEN out of range, or a SEQ outside the reorder window raises a Fatal fault. -/
  | flumeMalformedMessage (seqOut : Bool)
  /-- R53: A PCIe read issued by the device gets no completion in time, so the queue enters ERROR with cause 4 or the input read fails. -/
  | pcieCompletionTimeout (a : Fin 64) (q : Option (Fin 1024)) (k : Option (Fin 4096))
  /-- R307: The compute junction falls to 103 °C, source 0x8B clears, and the 1 s count toward leaving Low-flow begins. -/
  | thermalWarningClear (celsius : BitVec 7)
  /-- R411: A VDD_CD droop stretches the clocks, sets PWR_STATUS.DROOP and counts in PWR_DROOP, as a Corrected fault. -/
  | droop
  /-- R389: Power fails with no warning from PWRGOOD, and the device stops while the battery island takes over. -/
  | powerLoss
  /-- R392: The root PLL locks on a stable REFCLK, the compute die leaves reset and CUS_CLK is forwarded (bring-up step 3). -/
  | rootPllLock
  /-- R140: Streamed input bytes arrive in the 1 MiB window, advancing ES_INAVAIL and releasing inwait or KIND 2 digest segments. -/
  | streamedInputArrival (k : Fin 4096) (lst : List GatherEntry) (data : List Byte) (rd : RsvRead)
  /-- R105: A page scrub or retirement started by RSV_PAGE_OP ends, and BUSY clears. -/
  | rsvPageOpDone (errs : List (BitVec 12 × Bool))
deriving DecidableEq, Repr

end Sys2Proof
end

