-- ==== Sys2Proof/Decode.lean ====
section
/-!
DEFINITION. Sys2Proof/Decode.lean: the words of Furrow instructions (06 R127, Tables 6.1 to 6.12; 07 R157, Tables 7.4 to 7.17): what a word
stands for, and the word of an instruction. The rows of the table of operations give no bits, so no table word spells a command.
-/
namespace Sys2Proof

/-- The rows of the table give no bits. -/
def decodeTableWord (_nbits _w : Nat) : Option Instr := none

/-! ## Fields (06, Table 6.1; 07, Table 7.4) -/

/-- Bits [lo+n−1 : lo] of an instruction word. -/
def wordField (w : W32) (lo n : Nat) : BitVec n := w.extractLsb' lo n

/-- The fields of format V below MAJOR. -/
structure VWord where
  vd : BitVec 5
  vs1 : BitVec 5
  vs2 : BitVec 5
  pm : BitVec 1
  pr : BitVec 3
  sh : BitVec 2
  func : BitVec 5
deriving DecidableEq, Repr

/-- Format V taken apart. -/
def vWordOf (w : W32) : VWord :=
  { vd := wordField w 21 5, vs1 := wordField w 16 5, vs2 := wordField w 11 5, pm := wordField w 10 1, pr := wordField w 7 3,
    sh := wordField w 5 2, func := wordField w 0 5 }

/-- The word of a MAJOR and the fields of format V, A, and the formats with an immediate. -/
def wordV (major : BitVec 6) (x : VWord) : W32 := major ++ x.vd ++ x.vs1 ++ x.vs2 ++ x.pm ++ x.pr ++ x.sh ++ x.func
def wordA (major : BitVec 6) (rd rs1 rs2 : BitVec 5) (func : BitVec 11) : W32 := major ++ rd ++ rs1 ++ rs2 ++ func
def wordI (major : BitVec 6) (rd rs1 : BitVec 5) (imm : BitVec 16) : W32 := major ++ rd ++ rs1 ++ imm
def wordM (major : BitVec 6) (rt rs1 : BitVec 5) (w : BitVec 3) (off : BitVec 13) : W32 := major ++ rt ++ rs1 ++ w ++ off
def wordX (major : BitVec 6) (ro rr : BitVec 5) (lenm1 : BitVec 8) (u : BitVec 1) : W32 := major ++ ro ++ rr ++ lenm1 ++ (0 : BitVec 7) ++ u
def wordJ (major : BitVec 6) (rd : BitVec 5) (off : BitVec 21) : W32 := major ++ rd ++ off
def wordU (major : BitVec 6) (rd : BitVec 5) (hw : BitVec 2) (imm : BitVec 16) : W32 := major ++ rd ++ (0 : BitVec 3) ++ hw ++ imm

/-- An instruction under a condition of its word. -/
def given (c : Bool) (i : Instr) : Option Instr := if c then some i else none

/-! ## Scalar words (06, Tables 6.2 to 6.8, 6.12) -/

/-- 06, Table 6.3 (MAJOR 0x01). -/
def decodeReg (e : Fin 144) (rd rs1 rs2 : BitVec 5) (func : BitVec 11) : Option Instr := match func.toNat with
  | 0x000 => some (.add e rd rs1 rs2)
  | 0x001 => some (.sub e rd rs1 rs2)
  | 0x002 => some (.andR e rd rs1 rs2)
  | 0x003 => some (.orR e rd rs1 rs2)
  | 0x004 => some (.xorR e rd rs1 rs2)
  | 0x005 => some (.andn e rd rs1 rs2)
  | 0x006 => some (.shl e rd rs1 rs2)
  | 0x007 => some (.shr e rd rs1 rs2)
  | 0x008 => some (.sar e rd rs1 rs2)
  | 0x009 => some (.ror e rd rs1 rs2)
  | 0x00A => some (.lts e rd rs1 rs2)
  | 0x00B => some (.ltu e rd rs1 rs2)
  | 0x00C => some (.min e rd rs1 rs2)
  | 0x00D => some (.max e rd rs1 rs2)
  | 0x00E => some (.minu e rd rs1 rs2)
  | 0x00F => some (.maxu e rd rs1 rs2)
  | 0x010 => some (.csel e rd rs1 rs2)
  | 0x011 => given (decide (rs2 = 0)) (.clz e rd rs1)
  | 0x012 => given (decide (rs2 = 0)) (.ctz e rd rs1)
  | 0x013 => given (decide (rs2 = 0)) (.popc e rd rs1)
  | 0x014 => given (decide (rs2 = 0)) (.brev e rd rs1)
  | 0x015 => given (decide (rs2 = 0)) (.zxW e rd rs1)
  | 0x016 => given (decide (rs2 = 0)) (.sxW e rd rs1)
  | 0x017 => given (decide (rs2 = 0)) (.zxH e rd rs1)
  | 0x018 => given (decide (rs2 = 0)) (.zxB e rd rs1)
  | _ => none

/-- 06, Table 6.4 (MAJOR 0x0B). -/
def decodeMul (e : Fin 144) (rd rs1 rs2 : BitVec 5) (func : BitVec 11) : Option Instr := match func.toNat with
  | 0x000 => some (.mul e rd rs1 rs2)
  | 0x001 => some (.mulhiU e rd rs1 rs2)
  | 0x002 => some (.mulhiS e rd rs1 rs2)
  | _ => none

/-- 06 R133, R135 (MAJOR 0x14). -/
def decodeDma (e : Fin 144) (rd rs1 rs2 : BitVec 5) (func : BitVec 11) : Option Instr := match func.toNat with
  | 0x000 => given (decide (rs2 = 0)) (.dma e rd rs1)
  | 0x001 => given (decide (rd = 0) && decide (rs2 = 0)) (.dwait e rs1)
  | 0x002 => given (decide (rd = 0) && decide (rs1 = 0) && decide (rs2 = 0)) (.sync e)
  | 0x003 => given (decide (rd = 0) && decide (rs1 = 0) && decide (rs2 = 0)) (.rwait e)
  | _ => none

/-- 06, Table 6.4 (MAJOR 0x08). -/
def decodeShift (e : Fin 144) (rd rs1 : BitVec 5) (w : W32) : Option Instr :=
  let n := wordField w 0 6
  if wordField w 8 8 ≠ 0 then none else match (wordField w 6 2).toNat with
  | 0 => some (.shli e rd rs1 n)
  | 1 => some (.shri e rd rs1 n)
  | 2 => some (.sari e rd rs1 n)
  | _ => some (.rori e rd rs1 n)

/-- 06, Table 6.12 (MAJOR 0x22): FUNC[3:0] and ARG. -/
def decodeService (e : Fin 144) (rd rs1 rs2 : BitVec 5) (service : BitVec 4) (arg : BitVec 7) : Option Instr := match service.toNat with
  | 0x1 => given (decide (arg.toNat < 16)) (.keyreq e rd rs1 rs2 (arg.setWidth 4))
  | 0x2 => given (decide (arg = 0) && decide (rs2 = 0)) (.keywait e rd rs1)
  | 0x3 => given (decide (arg.toNat < 2)) (.ent e rd rs1 rs2 (decide (arg = 1)))
  | 0x4 => if rs2 ≠ 0 then none else if arg = 0 then some (.jobLiu e rd rs1) else given (decide (arg = 1)) (.jobDigest e rd rs1)
  | 0x5 => given (decide (arg = 0) && decide (rs2 = 0)) (.jwait e rd rs1)
  | 0x6 => given (decide (rd = 0)) (.endR e rs1 rs2 arg)
  | 0x7 => given (decide (arg = 0) && decide (rd = 0) && decide (rs1 = 0) && decide (rs2 = 0)) (.scfail e)
  | 0x8 => given (decide (rd = 0) && decide (rs1 = 0) && decide (rs2 = 0)) (.brk e arg)
  | 0x9 => given (decide (arg = 0) && decide (rd = 0) && decide (rs1 = 0) && decide (rs2 = 0)) (.tret e)
  | 0xA => given (decide (arg = 0) && decide (rd = 0) && decide (rs2 = 0)) (.inwait e rs1)
  | _ => none

/-! ## Vector words (07, Tables 7.6 to 7.17) -/

/-- PM and PR: no predicate, or p[PR]; PR with PM = 0 is illegal (07 R157). -/
def VWord.pred (x : VWord) : Option (Option (BitVec 3)) := if x.pm = 1 then some (some x.pr) else if x.pr = 0 then some none else none
/-- PM = 0, PR = 0; SH = 0. -/
def VWord.plain (x : VWord) : Bool := decide (x.pm = 0) && decide (x.pr = 0)
def VWord.noSh (x : VWord) : Bool := decide (x.sh = 0)

/-- A predicable instruction under a condition of its word. -/
def givenPred (c : Bool) (x : VWord) (f : Option (BitVec 3) → Instr) : Option Instr := if c then x.pred.map f else none

/-- A register field that names a predicate or an accumulator, or a modulus register. -/
def below8 (r : BitVec 5) : Bool := decide (r.toNat < 8)
def below4 (r : BitVec 5) : Bool := decide (r.toNat < 4)

/-- 07, Table 7.6 (MAJOR 0x30). -/
def decodeConfig (e : Fin 144) (x : VWord) : Option Instr := match x.func.toNat with
  | 0x00 => given (x.noSh && x.plain) (.vcfg e x.vd x.vs1 x.vs2)
  | 0x01 => given (x.noSh && x.plain) (.vcfgi e x.vd x.vs1 x.vs2)
  | 0x02 => given (below4 x.vd && decide (x.vs2 = 0) && x.noSh && x.plain) (.vsetm e (x.vd.setWidth 2) x.vs1)
  | 0x03 => given (below4 x.vs2 && decide (x.vs1 = 0) && x.noSh && x.plain) (.vgetm e x.vd (x.vs2.setWidth 2))
  | 0x04 => given (decide (x.vs1 = 0) && decide (x.vs2 = 0) && x.noSh && x.plain) (.vbytes e x.vd)
  | 0x05 => given (decide (x.vs1 = 0) && x.noSh && x.plain) (.vcfgk e x.vd x.vs2)
  | _ => none

/-- 07, Table 7.7 (MAJOR 0x31). -/
def decodeInt (e : Fin 144) (x : VWord) : Option Instr := match x.func.toNat with
  | 0x00 => givenPred (true) x (fun pm => .vadd e x.vd x.vs1 x.vs2 pm x.sh)
  | 0x01 => givenPred (true) x (fun pm => .vaddX e x.vd x.vs1 x.vs2 pm x.sh)
  | 0x02 => givenPred (true) x (fun pm => .vsub e x.vd x.vs1 x.vs2 pm x.sh)
  | 0x03 => givenPred (true) x (fun pm => .vsubX e x.vd x.vs1 x.vs2 pm x.sh)
  | 0x04 => givenPred (true) x (fun pm => .vand e x.vd x.vs1 x.vs2 pm x.sh)
  | 0x05 => givenPred (true) x (fun pm => .vor e x.vd x.vs1 x.vs2 pm x.sh)
  | 0x06 => givenPred (true) x (fun pm => .vxor e x.vd x.vs1 x.vs2 pm x.sh)
  | 0x07 => givenPred (true) x (fun pm => .vandn e x.vd x.vs1 x.vs2 pm x.sh)
  | 0x08 => givenPred (true) x (fun pm => .vandX e x.vd x.vs1 x.vs2 pm x.sh)
  | 0x09 => givenPred (true) x (fun pm => .vxorX e x.vd x.vs1 x.vs2 pm x.sh)
  | 0x0A => givenPred (x.noSh) x (fun pm => .vshl e x.vd x.vs1 x.vs2 pm)
  | 0x0B => givenPred (x.noSh) x (fun pm => .vshr e x.vd x.vs1 x.vs2 pm)
  | 0x0C => givenPred (true) x (fun pm => .vshlX e x.vd x.vs1 x.vs2 pm x.sh)
  | 0x0D => givenPred (true) x (fun pm => .vshrX e x.vd x.vs1 x.vs2 pm x.sh)
  | 0x0E => givenPred (x.noSh) x (fun pm => .vsarX e x.vd x.vs1 x.vs2 pm)
  | 0x0F => givenPred (true) x (fun pm => .vrotlX e x.vd x.vs1 x.vs2 pm x.sh)
  | 0x10 => givenPred (true) x (fun pm => .vshlI e x.vd x.vs1 x.vs2 pm x.sh)
  | 0x11 => givenPred (true) x (fun pm => .vshrI e x.vd x.vs1 x.vs2 pm x.sh)
  | 0x12 => givenPred (x.noSh) x (fun pm => .vsarI e x.vd x.vs1 x.vs2 pm)
  | 0x13 => givenPred (true) x (fun pm => .vrotlI e x.vd x.vs1 x.vs2 pm x.sh)
  | 0x14 => givenPred (x.noSh) x (fun pm => .vminu e x.vd x.vs1 x.vs2 pm)
  | 0x15 => givenPred (x.noSh) x (fun pm => .vmaxu e x.vd x.vs1 x.vs2 pm)
  | 0x16 => givenPred (x.noSh) x (fun pm => .vmul e x.vd x.vs1 x.vs2 pm)
  | 0x17 => givenPred (x.noSh) x (fun pm => .vmulhiU e x.vd x.vs1 x.vs2 pm)
  | 0x18 => given (x.noSh && decide (x.pm = 0)) (.vpick e x.vd x.vs1 x.vs2 x.pr)
  | 0x19 => givenPred (decide (x.vs2 = 0)) x (fun pm => .vcopy e x.vd x.vs1 pm x.sh)
  | 0x1A => givenPred (decide (x.vs1 = 0) && x.noSh) x (fun pm => .vbcastX e x.vd x.vs2 pm)
  | 0x1B => givenPred (decide (x.vs1 = 0) && x.noSh) x (fun pm => .vbcastI e x.vd x.vs2 pm)
  | 0x1C => givenPred (true) x (fun pm => .vorX e x.vd x.vs1 x.vs2 pm x.sh)
  | 0x1D => givenPred (true) x (fun pm => .vandnX e x.vd x.vs1 x.vs2 pm x.sh)
  | _ => none

/-- 07, Table 7.8 (MAJOR 0x32). -/
def decodeMod (e : Fin 144) (x : VWord) : Option Instr := match (x.func.extractLsb' 2 3).toNat with
  | 0x00 => givenPred (true) x (fun pm => .vmadd e (x.func.extractLsb' 0 2) x.vd x.vs1 x.vs2 pm x.sh)
  | 0x01 => givenPred (true) x (fun pm => .vmsub e (x.func.extractLsb' 0 2) x.vd x.vs1 x.vs2 pm x.sh)
  | 0x02 => givenPred (true) x (fun pm => .vmmul e (x.func.extractLsb' 0 2) x.vd x.vs1 x.vs2 pm x.sh)
  | 0x03 => givenPred (true) x (fun pm => .vmac e (x.func.extractLsb' 0 2) x.vd x.vs1 x.vs2 pm x.sh)
  | 0x04 => givenPred (true) x (fun pm => .vmmulX e (x.func.extractLsb' 0 2) x.vd x.vs1 x.vs2 pm x.sh)
  | 0x05 => givenPred (true) x (fun pm => .vmacX e (x.func.extractLsb' 0 2) x.vd x.vs1 x.vs2 pm x.sh)
  | 0x06 => givenPred (decide (x.vs2 = 0)) x (fun pm => .vmred e (x.func.extractLsb' 0 2) x.vd x.vs1 pm x.sh)
  | 0x07 => givenPred (decide (x.vs2 = 0) && x.noSh) x (fun pm => .vmcen e (x.func.extractLsb' 0 2) x.vd x.vs1 pm)
  | _ => none

/-- 07, Table 7.9 (MAJOR 0x33). -/
def decodeNtt (e : Fin 144) (x : VWord) : Option Instr := match (x.func.extractLsb' 3 2).toNat with
  | 0x00 => givenPred (decide (x.func.extractLsb' 0 3 ≠ 2) && decide (x.func.extractLsb' 0 3 ≠ 3)) x (fun pm => .vntt e (x.func.extractLsb' 0 3) x.vd x.vs1 x.vs2 pm x.sh)
  | 0x01 => givenPred (decide (x.func.extractLsb' 0 3 ≠ 2) && decide (x.func.extractLsb' 0 3 ≠ 3)) x (fun pm => .vintt e (x.func.extractLsb' 0 3) x.vd x.vs1 x.vs2 pm x.sh)
  | 0x02 => givenPred (decide (x.func.extractLsb' 0 3 ≠ 2) && decide (x.func.extractLsb' 0 3 ≠ 3)) x (fun pm => .vnttmul e (x.func.extractLsb' 0 3) x.vd x.vs1 x.vs2 pm x.sh)
  | _ => none

/-- 07, Table 7.10 (MAJOR 0x34). -/
def decodeHash (e : Fin 144) (x : VWord) : Option Instr := match x.func.toNat with
  | 0x00 => given (decide (x.vs1 = 0) && decide (x.vs2 = 0) && x.plain) (.vkeccak e x.vd x.sh)
  | 0x01 => given (decide (x.vs2 = 0) && x.noSh && x.plain) (.vsha256 e x.vd x.vs1)
  | 0x02 => given (decide (x.vs2 = 0) && x.noSh && x.plain) (.vsha512 e x.vd x.vs1)
  | _ => none

/-- 07, Table 7.11 (MAJOR 0x35). -/
def decodeSample (e : Fin 144) (x : VWord) : Option Instr := match (x.func.extractLsb' 2 3).toNat with
  | 0x00 => given (x.noSh && x.plain) (.vsamu12 e (x.func.extractLsb' 0 2) x.vd x.vs1 x.vs2)
  | 0x01 => given (x.noSh && x.plain) (.vsamu23 e (x.func.extractLsb' 0 2) x.vd x.vs1 x.vs2)
  | 0x02 => given (x.noSh && x.plain) (.vsamb2 e (x.func.extractLsb' 0 2) x.vd x.vs1 x.vs2)
  | 0x03 => given (x.noSh && x.plain) (.vsamb4 e (x.func.extractLsb' 0 2) x.vd x.vs1 x.vs2)
  | 0x04 => givenPred (decide (x.vs2 = 0)) x (fun pm => .vcbd2 e (x.func.extractLsb' 0 2) x.vd x.vs1 pm x.sh)
  | 0x05 => givenPred (decide (x.vs2 = 0)) x (fun pm => .vcbd3 e (x.func.extractLsb' 0 2) x.vd x.vs1 pm x.sh)
  | _ => none

/-- 07, Table 7.12 (MAJOR 0x36). -/
def decodeGf (e : Fin 144) (x : VWord) : Option Instr := match x.func.toNat with
  | 0x00 => givenPred (x.noSh) x (fun pm => .vcxmLo e x.vd x.vs1 x.vs2 pm)
  | 0x01 => givenPred (x.noSh) x (fun pm => .vcxmHi e x.vd x.vs1 x.vs2 pm)
  | 0x02 => givenPred (x.noSh) x (fun pm => .vgfmul12 e x.vd x.vs1 x.vs2 pm)
  | 0x03 => givenPred (x.noSh) x (fun pm => .vgfmul13 e x.vd x.vs1 x.vs2 pm)
  | 0x04 => givenPred (x.noSh) x (fun pm => .vafr e x.vd x.vs1 x.vs2 pm)
  | 0x05 => givenPred (x.noSh) x (fun pm => .vafl e x.vd x.vs1 x.vs2 pm)
  | 0x06 => givenPred (x.noSh) x (fun pm => .vair e x.vd x.vs1 x.vs2 pm)
  | 0x07 => givenPred (x.noSh) x (fun pm => .vail e x.vd x.vs1 x.vs2 pm)
  | 0x08 => givenPred (decide (x.vs2 = 0) && x.noSh) x (fun pm => .vaim e x.vd x.vs1 pm)
  | 0x09 => givenPred (decide (x.vs2 = 0) && x.noSh) x (fun pm => .vasw e x.vd x.vs1 pm)
  | _ => none

/-- 07, Table 7.13 (MAJOR 0x37). -/
def decodeMove (e : Fin 144) (x : VWord) : Option Instr := match x.func.toNat with
  | 0x00 => given (decide (x.vs2 = 0) && x.noSh && x.pred.isSome) (.vxget e x.vd x.vs1)
  | 0x01 => givenPred (decide (x.vs1 = 0) && x.noSh) x (fun pm => .vxput e x.vd x.vs2 pm)
  | 0x02 => givenPred (x.noSh) x (fun pm => .vshupX e x.vd x.vs1 x.vs2 pm)
  | 0x03 => givenPred (x.noSh) x (fun pm => .vshdnX e x.vd x.vs1 x.vs2 pm)
  | 0x04 => givenPred (x.noSh) x (fun pm => .vperm e x.vd x.vs1 x.vs2 pm)
  | 0x05 => given (decide (x.vs2 = 0) && x.noSh && decide (x.pm = 0)) (.vpack e x.vd x.vs1 x.pr)
  | 0x06 => givenPred (x.noSh) x (fun pm => .vilvLo e x.vd x.vs1 x.vs2 pm)
  | 0x07 => givenPred (x.noSh) x (fun pm => .vilvHi e x.vd x.vs1 x.vs2 pm)
  | 0x08 => givenPred (x.noSh) x (fun pm => .vdlvE e x.vd x.vs1 x.vs2 pm)
  | 0x09 => givenPred (x.noSh) x (fun pm => .vdlvO e x.vd x.vs1 x.vs2 pm)
  | 0x0A => givenPred (x.noSh) x (fun pm => .vrdadd e x.vd x.vs1 x.vs2 pm)
  | 0x0B => givenPred (x.noSh) x (fun pm => .vrdxor e x.vd x.vs1 x.vs2 pm)
  | 0x0C => givenPred (x.noSh) x (fun pm => .vrdor e x.vd x.vs1 x.vs2 pm)
  | 0x0D => givenPred (decide (x.vs1 = 0) && decide (x.vs2 = 0) && x.noSh) x (fun pm => .vidx e x.vd pm)
  | 0x0E => given (decide (x.vs2 = 0) && x.noSh && x.pred.isSome) (.vmovr e x.vd x.vs1)
  | _ => none

/-- 07, Table 7.14 (MAJOR 0x38). -/
def decodePred (e : Fin 144) (x : VWord) : Option Instr := match x.func.toNat with
  | 0x00 => givenPred (below8 x.vd && x.noSh) x (fun pm => .vceq e (x.vd.setWidth 3) x.vs1 x.vs2 pm)
  | 0x01 => givenPred (below8 x.vd && x.noSh) x (fun pm => .vcne e (x.vd.setWidth 3) x.vs1 x.vs2 pm)
  | 0x02 => givenPred (below8 x.vd && x.noSh) x (fun pm => .vcltu e (x.vd.setWidth 3) x.vs1 x.vs2 pm)
  | 0x03 => givenPred (below8 x.vd && x.noSh) x (fun pm => .vclt e (x.vd.setWidth 3) x.vs1 x.vs2 pm)
  | 0x04 => givenPred (below8 x.vd && x.noSh) x (fun pm => .vceqX e (x.vd.setWidth 3) x.vs1 x.vs2 pm)
  | 0x05 => givenPred (below8 x.vd && x.noSh) x (fun pm => .vcneX e (x.vd.setWidth 3) x.vs1 x.vs2 pm)
  | 0x06 => givenPred (below8 x.vd && x.noSh) x (fun pm => .vcltuX e (x.vd.setWidth 3) x.vs1 x.vs2 pm)
  | 0x07 => givenPred (below8 x.vd && x.noSh) x (fun pm => .vcgeuX e (x.vd.setWidth 3) x.vs1 x.vs2 pm)
  | 0x08 => given (below8 x.vd && below8 x.vs1 && below8 x.vs2 && x.noSh && x.plain) (.pand e (x.vd.setWidth 3) (x.vs1.setWidth 3) (x.vs2.setWidth 3))
  | 0x09 => given (below8 x.vd && below8 x.vs1 && below8 x.vs2 && x.noSh && x.plain) (.por e (x.vd.setWidth 3) (x.vs1.setWidth 3) (x.vs2.setWidth 3))
  | 0x0A => given (below8 x.vd && below8 x.vs1 && below8 x.vs2 && x.noSh && x.plain) (.pxor e (x.vd.setWidth 3) (x.vs1.setWidth 3) (x.vs2.setWidth 3))
  | 0x0B => given (below8 x.vd && below8 x.vs1 && below8 x.vs2 && x.noSh && x.plain) (.pandn e (x.vd.setWidth 3) (x.vs1.setWidth 3) (x.vs2.setWidth 3))
  | 0x0C => given (below8 x.vd && below8 x.vs1 && decide (x.vs2 = 0) && x.noSh && x.plain) (.pnot e (x.vd.setWidth 3) (x.vs1.setWidth 3))
  | 0x0D => given (below8 x.vd && decide (x.vs1 = 0) && decide (x.vs2 = 0) && x.noSh && x.plain) (.pset e (x.vd.setWidth 3))
  | 0x0E => given (below8 x.vd && decide (x.vs1 = 0) && decide (x.vs2 = 0) && x.noSh && x.plain) (.pclr e (x.vd.setWidth 3))
  | 0x0F => given (below8 x.vd && x.noSh && x.plain) (.prange e (x.vd.setWidth 3) x.vs1 x.vs2)
  | 0x10 => given (below8 x.vs1 && decide (x.vs2 = 0) && x.noSh && x.plain) (.ppop e x.vd (x.vs1.setWidth 3))
  | 0x11 => given (below8 x.vs1 && decide (x.vs2 = 0) && x.noSh && x.plain) (.plow e x.vd (x.vs1.setWidth 3))
  | 0x12 => given (below8 x.vd && decide (x.vs2 = 0) && x.noSh && x.plain) (.pld e (x.vd.setWidth 3) x.vs1)
  | 0x13 => given (below8 x.vd && decide (x.vs2 = 0) && x.noSh && x.plain) (.pst e (x.vd.setWidth 3) x.vs1)
  | _ => none

/-- 07, Table 7.15 (MAJOR 0x39). -/
def decodeUnit (e : Fin 144) (x : VWord) : Option Instr := match x.func.toNat with
  | 0x00 => givenPred (decide (x.vs2 = 0)) x (fun pm => .vld e x.vd x.vs1 pm x.sh)
  | 0x01 => givenPred (decide (x.vs2 = 0)) x (fun pm => .vst e x.vd x.vs1 pm x.sh)
  | 0x02 => given (decide (x.vs2 = 0) && x.noSh && x.pred.isSome) (.vldw e x.vd x.vs1)
  | 0x03 => given (decide (x.vs2 = 0) && x.noSh && x.pred.isSome) (.vstw e x.vd x.vs1)
  | _ => none

/-- 07, Table 7.15 (MAJOR 0x3A). -/
def decodeStride (e : Fin 144) (x : VWord) : Option Instr := match x.func.toNat with
  | 0x00 => givenPred (x.noSh) x (fun pm => .vlds e x.vd x.vs1 x.vs2 pm)
  | 0x01 => givenPred (x.noSh) x (fun pm => .vsts e x.vd x.vs1 x.vs2 pm)
  | _ => none

/-- 07, Table 7.15 (MAJOR 0x3B). -/
def decodeIndex (e : Fin 144) (x : VWord) : Option Instr := match x.func.toNat with
  | 0x00 => givenPred (x.noSh) x (fun pm => .vldx e x.vd x.vs1 x.vs2 pm)
  | 0x01 => givenPred (x.noSh) x (fun pm => .vstx e x.vd x.vs1 x.vs2 pm)
  | _ => none

/-- 07, Table 7.16 (MAJOR 0x3C). -/
def decodeLong (e : Fin 144) (x : VWord) : Option Instr := match x.func.toNat with
  | 0x00 => given (below8 x.vd && decide (x.vs1 = 0) && decide (x.vs2 = 0) && x.noSh && x.plain) (.vlclr e (x.vd.setWidth 3))
  | 0x01 => given (below8 x.vd && decide (x.vs2 = 0) && x.noSh && x.plain) (.vladd e (x.vd.setWidth 3) x.vs1)
  | 0x02 => given (below8 x.vd && decide (x.vs2 = 0) && x.noSh && x.plain) (.vlsub e (x.vd.setWidth 3) x.vs1)
  | 0x03 => given (below8 x.vd && x.noSh && x.plain) (.vlmac e (x.vd.setWidth 3) x.vs1 x.vs2)
  | 0x04 => given (below8 x.vd && x.noSh && x.plain) (.vlmacv e (x.vd.setWidth 3) x.vs1 x.vs2)
  | 0x05 => given (below8 x.vd && decide (x.vs2 = 0) && x.noSh && x.plain) (.vlpop e x.vs1 (x.vd.setWidth 3))
  | 0x06 => given (below8 x.vd && decide (x.vs1 = 0) && x.noSh && x.plain) (.vlshr e (x.vd.setWidth 3) x.vs2)
  | _ => none

/-- 07, Table 7.17 (MAJOR 0x3D). -/
def decodeShare (e : Fin 144) (x : VWord) : Option Instr := match x.func.toNat with
  | 0x00 => givenPred (decide (x.vs2 = 0) && !x.noSh) x (fun pm => .vsplitB e x.vd x.vs1 pm x.sh)
  | 0x01 => givenPred (below4 x.vs2 && !x.noSh) x (fun pm => .vsplitA e x.vd x.vs1 (x.vs2.setWidth 2) pm x.sh)
  | 0x02 => givenPred (decide (x.vs2 = 0) && !x.noSh) x (fun pm => .vjoinB e x.vd x.vs1 pm x.sh)
  | 0x03 => givenPred (below4 x.vs2 && !x.noSh) x (fun pm => .vjoinA e x.vd x.vs1 (x.vs2.setWidth 2) pm x.sh)
  | 0x04 => givenPred (below4 x.vs2 && !x.noSh) x (fun pm => .va2b e x.vd x.vs1 (x.vs2.setWidth 2) pm x.sh)
  | 0x05 => givenPred (below4 x.vs2 && !x.noSh) x (fun pm => .vb2a e x.vd x.vs1 (x.vs2.setWidth 2) pm x.sh)
  | 0x06 => givenPred (decide (x.vs2 = 0) && !x.noSh) x (fun pm => .vrefreshB e x.vd x.vs1 pm x.sh)
  | 0x07 => givenPred (below4 x.vs2 && !x.noSh) x (fun pm => .vrefreshA e x.vd x.vs1 (x.vs2.setWidth 2) pm x.sh)
  | 0x08 => given (!x.noSh && x.plain) (.vmcmp e x.vd x.vs1 x.vs2 x.sh)
  | 0x09 => givenPred (!x.noSh) x (fun pm => .vmsel e x.vd x.vs1 x.vs2 pm x.sh)
  | 0x0A => givenPred (decide (x.vs1 = 0) && decide (x.vs2 = 0) && x.noSh) x (fun pm => .vmask e x.vd pm)
  | _ => none

/-! ## The decoder (06, Table 6.2; 07, Table 7.5) -/

/-- What the word w stands for on engine e; none for an illegal word (06 R127, 07 R157). -/
def furrowDecode (e : Fin 144) (w : W32) : Option Instr :=
  let a := wordField w 21 5
  let b := wordField w 16 5
  let c := wordField w 11 5
  let imm := wordField w 0 16
  match (wordField w 26 6).toNat with
  | 0x01 => decodeReg e a b c (wordField w 0 11)
  | 0x02 => some (.addi e a b imm)
  | 0x03 => some (.andi e a b imm)
  | 0x04 => some (.ori e a b imm)
  | 0x05 => some (.xori e a b imm)
  | 0x06 => some (.ltsi e a b imm)
  | 0x07 => some (.ltui e a b imm)
  | 0x1F => some (.jlr e a b imm)
  | 0x08 => decodeShift e a b w
  | 0x09 => given (decide (wordField w 18 3 = 0)) (.hset e a imm (wordField w 16 2))
  | 0x0A => given (decide (wordField w 18 3 = 0)) (.hins e a imm (wordField w 16 2))
  | 0x0B => decodeMul e a b c (wordField w 0 11)
  | 0x10 => given (decide (wordField w 13 3 ≠ 7)) (.ld e a b (wordField w 13 3) (wordField w 0 13))
  | 0x11 => given (decide ((wordField w 13 3).toNat < 4)) (.st e a b (wordField w 13 3) (wordField w 0 13))
  | 0x12 => given (decide (wordField w 0 8 = 0)) (.rld e a b (wordField w 8 8))
  | 0x13 => if wordField w 1 7 ≠ 0 then none else if wordField w 0 1 = 0 then some (.rst e a b (wordField w 8 8)) else some (.rstU e a b (wordField w 8 8))
  | 0x14 => decodeDma e a b c (wordField w 0 11)
  | 0x18 => some (.brEq e a b imm)
  | 0x19 => some (.brNe e a b imm)
  | 0x1A => some (.brLt e a b imm)
  | 0x1B => some (.brGe e a b imm)
  | 0x1C => some (.brLtu e a b imm)
  | 0x1D => some (.brGeu e a b imm)
  | 0x1E => some (.jl e a (wordField w 0 21))
  | 0x20 => given (decide (b = 0) && decide (wordField w 8 8 = 0)) (.esr e a (wordField w 0 8))
  | 0x21 => given (decide (a = 0) && decide (wordField w 8 8 = 0)) (.esw e (wordField w 0 8) b)
  | 0x22 => decodeService e a b c (wordField w 0 4) (wordField w 4 7)
  | 0x30 => decodeConfig e (vWordOf w)
  | 0x31 => decodeInt e (vWordOf w)
  | 0x32 => decodeMod e (vWordOf w)
  | 0x33 => decodeNtt e (vWordOf w)
  | 0x34 => decodeHash e (vWordOf w)
  | 0x35 => decodeSample e (vWordOf w)
  | 0x36 => decodeGf e (vWordOf w)
  | 0x37 => decodeMove e (vWordOf w)
  | 0x38 => decodePred e (vWordOf w)
  | 0x39 => decodeUnit e (vWordOf w)
  | 0x3A => decodeStride e (vWordOf w)
  | 0x3B => decodeIndex e (vWordOf w)
  | 0x3C => decodeLong e (vWordOf w)
  | 0x3D => decodeShare e (vWordOf w)
  | _ => none

/-! ## The encoder -/

/-- PM and PR of a predicate operand. -/
def pmBit (p : Option (BitVec 3)) : BitVec 1 := if p.isSome then 1 else 0
def prBits (p : Option (BitVec 3)) : BitVec 3 := p.getD 0

/-- The engine and the word of a command that is a Furrow instruction; none for any other command. -/
def furrowEncode : Instr → Option (Fin 144 × W32)
  | .add e rd rs1 rs2 => some (e, wordA 0x01 rd rs1 rs2 0x000)
  | .sub e rd rs1 rs2 => some (e, wordA 0x01 rd rs1 rs2 0x001)
  | .andR e rd rs1 rs2 => some (e, wordA 0x01 rd rs1 rs2 0x002)
  | .orR e rd rs1 rs2 => some (e, wordA 0x01 rd rs1 rs2 0x003)
  | .xorR e rd rs1 rs2 => some (e, wordA 0x01 rd rs1 rs2 0x004)
  | .andn e rd rs1 rs2 => some (e, wordA 0x01 rd rs1 rs2 0x005)
  | .shl e rd rs1 rs2 => some (e, wordA 0x01 rd rs1 rs2 0x006)
  | .shr e rd rs1 rs2 => some (e, wordA 0x01 rd rs1 rs2 0x007)
  | .sar e rd rs1 rs2 => some (e, wordA 0x01 rd rs1 rs2 0x008)
  | .ror e rd rs1 rs2 => some (e, wordA 0x01 rd rs1 rs2 0x009)
  | .lts e rd rs1 rs2 => some (e, wordA 0x01 rd rs1 rs2 0x00A)
  | .ltu e rd rs1 rs2 => some (e, wordA 0x01 rd rs1 rs2 0x00B)
  | .min e rd rs1 rs2 => some (e, wordA 0x01 rd rs1 rs2 0x00C)
  | .max e rd rs1 rs2 => some (e, wordA 0x01 rd rs1 rs2 0x00D)
  | .minu e rd rs1 rs2 => some (e, wordA 0x01 rd rs1 rs2 0x00E)
  | .maxu e rd rs1 rs2 => some (e, wordA 0x01 rd rs1 rs2 0x00F)
  | .csel e rd rs1 rs2 => some (e, wordA 0x01 rd rs1 rs2 0x010)
  | .clz e rd rs1 => some (e, wordA 0x01 rd rs1 0 0x011)
  | .ctz e rd rs1 => some (e, wordA 0x01 rd rs1 0 0x012)
  | .popc e rd rs1 => some (e, wordA 0x01 rd rs1 0 0x013)
  | .brev e rd rs1 => some (e, wordA 0x01 rd rs1 0 0x014)
  | .zxW e rd rs1 => some (e, wordA 0x01 rd rs1 0 0x015)
  | .sxW e rd rs1 => some (e, wordA 0x01 rd rs1 0 0x016)
  | .zxH e rd rs1 => some (e, wordA 0x01 rd rs1 0 0x017)
  | .zxB e rd rs1 => some (e, wordA 0x01 rd rs1 0 0x018)
  | .mul e rd rs1 rs2 => some (e, wordA 0x0B rd rs1 rs2 0x000)
  | .mulhiU e rd rs1 rs2 => some (e, wordA 0x0B rd rs1 rs2 0x001)
  | .mulhiS e rd rs1 rs2 => some (e, wordA 0x0B rd rs1 rs2 0x002)
  | .dma e rd rs1 => some (e, wordA 0x14 rd rs1 0 0x000)
  | .dwait e rs1 => some (e, wordA 0x14 0 rs1 0 0x001)
  | .sync e => some (e, wordA 0x14 0 0 0 0x002)
  | .rwait e => some (e, wordA 0x14 0 0 0 0x003)
  | .addi e rd rs1 imm => some (e, wordI 0x02 rd rs1 imm)
  | .andi e rd rs1 imm => some (e, wordI 0x03 rd rs1 imm)
  | .ori e rd rs1 imm => some (e, wordI 0x04 rd rs1 imm)
  | .xori e rd rs1 imm => some (e, wordI 0x05 rd rs1 imm)
  | .ltsi e rd rs1 imm => some (e, wordI 0x06 rd rs1 imm)
  | .ltui e rd rs1 imm => some (e, wordI 0x07 rd rs1 imm)
  | .jlr e rd rs1 imm => some (e, wordI 0x1F rd rs1 imm)
  | .shli e rd rs1 n => some (e, wordI 0x08 rd rs1 ((0 : BitVec 8) ++ (0 : BitVec 2) ++ n))
  | .shri e rd rs1 n => some (e, wordI 0x08 rd rs1 ((0 : BitVec 8) ++ (1 : BitVec 2) ++ n))
  | .sari e rd rs1 n => some (e, wordI 0x08 rd rs1 ((0 : BitVec 8) ++ (2 : BitVec 2) ++ n))
  | .rori e rd rs1 n => some (e, wordI 0x08 rd rs1 ((0 : BitVec 8) ++ (3 : BitVec 2) ++ n))
  | .hset e rd imm hw => some (e, wordU 0x09 rd hw imm)
  | .hins e rd imm hw => some (e, wordU 0x0A rd hw imm)
  | .ld e rt rs1 w off => some (e, wordM 0x10 rt rs1 w off)
  | .st e rt rs1 w off => some (e, wordM 0x11 rt rs1 w off)
  | .rld e ro rr len => some (e, wordX 0x12 ro rr len 0)
  | .rst e ro rr len => some (e, wordX 0x13 ro rr len 0)
  | .rstU e ro rr len => some (e, wordX 0x13 ro rr len 1)
  | .brEq e rs1 rs2 off => some (e, wordI 0x18 rs1 rs2 off)
  | .brNe e rs1 rs2 off => some (e, wordI 0x19 rs1 rs2 off)
  | .brLt e rs1 rs2 off => some (e, wordI 0x1A rs1 rs2 off)
  | .brGe e rs1 rs2 off => some (e, wordI 0x1B rs1 rs2 off)
  | .brLtu e rs1 rs2 off => some (e, wordI 0x1C rs1 rs2 off)
  | .brGeu e rs1 rs2 off => some (e, wordI 0x1D rs1 rs2 off)
  | .jl e rd off => some (e, wordJ 0x1E rd off)
  | .esr e rd es => some (e, wordI 0x20 rd 0 ((0 : BitVec 8) ++ es))
  | .esw e es rs1 => some (e, wordI 0x21 0 rs1 ((0 : BitVec 8) ++ es))
  | .keyreq e rd rs1 rs2 usage => some (e, wordA 0x22 rd rs1 rs2 ((0 : BitVec 3) ++ usage ++ (1 : BitVec 4)))
  | .keywait e rd rs1 => some (e, wordA 0x22 rd rs1 0 0x002)
  | .ent e rd rs1 rs2 reseed => some (e, wordA 0x22 rd rs1 rs2 (if reseed then 0x013 else 0x003))
  | .jobLiu e rd rs1 => some (e, wordA 0x22 rd rs1 0 0x004)
  | .jobDigest e rd rs1 => some (e, wordA 0x22 rd rs1 0 0x014)
  | .jwait e rd rs1 => some (e, wordA 0x22 rd rs1 0 0x005)
  | .endR e rs1 rs2 status => some (e, wordA 0x22 0 rs1 rs2 (status ++ (6 : BitVec 4)))
  | .scfail e => some (e, wordA 0x22 0 0 0 0x007)
  | .brk e code => some (e, wordA 0x22 0 0 0 (code ++ (8 : BitVec 4)))
  | .tret e => some (e, wordA 0x22 0 0 0 0x009)
  | .inwait e rs1 => some (e, wordA 0x22 0 rs1 0 0x00A)
  | .vcfg e vd vs1 vs2 => some (e, wordV 0x30 { vd := vd, vs1 := vs1, vs2 := vs2, pm := 0, pr := 0, sh := 0, func := 0x00 })
  | .vcfgi e vd vs1 vs2 => some (e, wordV 0x30 { vd := vd, vs1 := vs1, vs2 := vs2, pm := 0, pr := 0, sh := 0, func := 0x01 })
  | .vsetm e vd vs1 => some (e, wordV 0x30 { vd := vd.setWidth 5, vs1 := vs1, vs2 := 0, pm := 0, pr := 0, sh := 0, func := 0x02 })
  | .vgetm e vd vs2 => some (e, wordV 0x30 { vd := vd, vs1 := 0, vs2 := vs2.setWidth 5, pm := 0, pr := 0, sh := 0, func := 0x03 })
  | .vbytes e vd => some (e, wordV 0x30 { vd := vd, vs1 := 0, vs2 := 0, pm := 0, pr := 0, sh := 0, func := 0x04 })
  | .vcfgk e vd vs2 => some (e, wordV 0x30 { vd := vd, vs1 := 0, vs2 := vs2, pm := 0, pr := 0, sh := 0, func := 0x05 })
  | .vadd e vd vs1 vs2 pm sh => some (e, wordV 0x31 { vd := vd, vs1 := vs1, vs2 := vs2, pm := pmBit pm, pr := prBits pm, sh := sh, func := 0x00 })
  | .vaddX e vd vs1 vs2 pm sh => some (e, wordV 0x31 { vd := vd, vs1 := vs1, vs2 := vs2, pm := pmBit pm, pr := prBits pm, sh := sh, func := 0x01 })
  | .vsub e vd vs1 vs2 pm sh => some (e, wordV 0x31 { vd := vd, vs1 := vs1, vs2 := vs2, pm := pmBit pm, pr := prBits pm, sh := sh, func := 0x02 })
  | .vsubX e vd vs1 vs2 pm sh => some (e, wordV 0x31 { vd := vd, vs1 := vs1, vs2 := vs2, pm := pmBit pm, pr := prBits pm, sh := sh, func := 0x03 })
  | .vand e vd vs1 vs2 pm sh => some (e, wordV 0x31 { vd := vd, vs1 := vs1, vs2 := vs2, pm := pmBit pm, pr := prBits pm, sh := sh, func := 0x04 })
  | .vor e vd vs1 vs2 pm sh => some (e, wordV 0x31 { vd := vd, vs1 := vs1, vs2 := vs2, pm := pmBit pm, pr := prBits pm, sh := sh, func := 0x05 })
  | .vxor e vd vs1 vs2 pm sh => some (e, wordV 0x31 { vd := vd, vs1 := vs1, vs2 := vs2, pm := pmBit pm, pr := prBits pm, sh := sh, func := 0x06 })
  | .vandn e vd vs1 vs2 pm sh => some (e, wordV 0x31 { vd := vd, vs1 := vs1, vs2 := vs2, pm := pmBit pm, pr := prBits pm, sh := sh, func := 0x07 })
  | .vandX e vd vs1 vs2 pm sh => some (e, wordV 0x31 { vd := vd, vs1 := vs1, vs2 := vs2, pm := pmBit pm, pr := prBits pm, sh := sh, func := 0x08 })
  | .vxorX e vd vs1 vs2 pm sh => some (e, wordV 0x31 { vd := vd, vs1 := vs1, vs2 := vs2, pm := pmBit pm, pr := prBits pm, sh := sh, func := 0x09 })
  | .vshl e vd vs1 vs2 pm => some (e, wordV 0x31 { vd := vd, vs1 := vs1, vs2 := vs2, pm := pmBit pm, pr := prBits pm, sh := 0, func := 0x0A })
  | .vshr e vd vs1 vs2 pm => some (e, wordV 0x31 { vd := vd, vs1 := vs1, vs2 := vs2, pm := pmBit pm, pr := prBits pm, sh := 0, func := 0x0B })
  | .vshlX e vd vs1 vs2 pm sh => some (e, wordV 0x31 { vd := vd, vs1 := vs1, vs2 := vs2, pm := pmBit pm, pr := prBits pm, sh := sh, func := 0x0C })
  | .vshrX e vd vs1 vs2 pm sh => some (e, wordV 0x31 { vd := vd, vs1 := vs1, vs2 := vs2, pm := pmBit pm, pr := prBits pm, sh := sh, func := 0x0D })
  | .vsarX e vd vs1 vs2 pm => some (e, wordV 0x31 { vd := vd, vs1 := vs1, vs2 := vs2, pm := pmBit pm, pr := prBits pm, sh := 0, func := 0x0E })
  | .vrotlX e vd vs1 vs2 pm sh => some (e, wordV 0x31 { vd := vd, vs1 := vs1, vs2 := vs2, pm := pmBit pm, pr := prBits pm, sh := sh, func := 0x0F })
  | .vshlI e vd vs1 vs2 pm sh => some (e, wordV 0x31 { vd := vd, vs1 := vs1, vs2 := vs2, pm := pmBit pm, pr := prBits pm, sh := sh, func := 0x10 })
  | .vshrI e vd vs1 vs2 pm sh => some (e, wordV 0x31 { vd := vd, vs1 := vs1, vs2 := vs2, pm := pmBit pm, pr := prBits pm, sh := sh, func := 0x11 })
  | .vsarI e vd vs1 vs2 pm => some (e, wordV 0x31 { vd := vd, vs1 := vs1, vs2 := vs2, pm := pmBit pm, pr := prBits pm, sh := 0, func := 0x12 })
  | .vrotlI e vd vs1 vs2 pm sh => some (e, wordV 0x31 { vd := vd, vs1 := vs1, vs2 := vs2, pm := pmBit pm, pr := prBits pm, sh := sh, func := 0x13 })
  | .vminu e vd vs1 vs2 pm => some (e, wordV 0x31 { vd := vd, vs1 := vs1, vs2 := vs2, pm := pmBit pm, pr := prBits pm, sh := 0, func := 0x14 })
  | .vmaxu e vd vs1 vs2 pm => some (e, wordV 0x31 { vd := vd, vs1 := vs1, vs2 := vs2, pm := pmBit pm, pr := prBits pm, sh := 0, func := 0x15 })
  | .vmul e vd vs1 vs2 pm => some (e, wordV 0x31 { vd := vd, vs1 := vs1, vs2 := vs2, pm := pmBit pm, pr := prBits pm, sh := 0, func := 0x16 })
  | .vmulhiU e vd vs1 vs2 pm => some (e, wordV 0x31 { vd := vd, vs1 := vs1, vs2 := vs2, pm := pmBit pm, pr := prBits pm, sh := 0, func := 0x17 })
  | .vpick e vd vs1 vs2 pr => some (e, wordV 0x31 { vd := vd, vs1 := vs1, vs2 := vs2, pm := 0, pr := pr, sh := 0, func := 0x18 })
  | .vcopy e vd vs1 pm sh => some (e, wordV 0x31 { vd := vd, vs1 := vs1, vs2 := 0, pm := pmBit pm, pr := prBits pm, sh := sh, func := 0x19 })
  | .vbcastX e vd vs2 pm => some (e, wordV 0x31 { vd := vd, vs1 := 0, vs2 := vs2, pm := pmBit pm, pr := prBits pm, sh := 0, func := 0x1A })
  | .vbcastI e vd vs2 pm => some (e, wordV 0x31 { vd := vd, vs1 := 0, vs2 := vs2, pm := pmBit pm, pr := prBits pm, sh := 0, func := 0x1B })
  | .vorX e vd vs1 vs2 pm sh => some (e, wordV 0x31 { vd := vd, vs1 := vs1, vs2 := vs2, pm := pmBit pm, pr := prBits pm, sh := sh, func := 0x1C })
  | .vandnX e vd vs1 vs2 pm sh => some (e, wordV 0x31 { vd := vd, vs1 := vs1, vs2 := vs2, pm := pmBit pm, pr := prBits pm, sh := sh, func := 0x1D })
  | .vmadd e k vd vs1 vs2 pm sh => some (e, wordV 0x32 { vd := vd, vs1 := vs1, vs2 := vs2, pm := pmBit pm, pr := prBits pm, sh := sh, func := BitVec.ofNat 3 0 ++ k })
  | .vmsub e k vd vs1 vs2 pm sh => some (e, wordV 0x32 { vd := vd, vs1 := vs1, vs2 := vs2, pm := pmBit pm, pr := prBits pm, sh := sh, func := BitVec.ofNat 3 1 ++ k })
  | .vmmul e k vd vs1 vs2 pm sh => some (e, wordV 0x32 { vd := vd, vs1 := vs1, vs2 := vs2, pm := pmBit pm, pr := prBits pm, sh := sh, func := BitVec.ofNat 3 2 ++ k })
  | .vmac e k vd vs1 vs2 pm sh => some (e, wordV 0x32 { vd := vd, vs1 := vs1, vs2 := vs2, pm := pmBit pm, pr := prBits pm, sh := sh, func := BitVec.ofNat 3 3 ++ k })
  | .vmmulX e k vd vs1 vs2 pm sh => some (e, wordV 0x32 { vd := vd, vs1 := vs1, vs2 := vs2, pm := pmBit pm, pr := prBits pm, sh := sh, func := BitVec.ofNat 3 4 ++ k })
  | .vmacX e k vd vs1 vs2 pm sh => some (e, wordV 0x32 { vd := vd, vs1 := vs1, vs2 := vs2, pm := pmBit pm, pr := prBits pm, sh := sh, func := BitVec.ofNat 3 5 ++ k })
  | .vmred e k vd vs1 pm sh => some (e, wordV 0x32 { vd := vd, vs1 := vs1, vs2 := 0, pm := pmBit pm, pr := prBits pm, sh := sh, func := BitVec.ofNat 3 6 ++ k })
  | .vmcen e k vd vs1 pm => some (e, wordV 0x32 { vd := vd, vs1 := vs1, vs2 := 0, pm := pmBit pm, pr := prBits pm, sh := 0, func := BitVec.ofNat 3 7 ++ k })
  | .vntt e k vd vs1 vs2 pm sh => some (e, wordV 0x33 { vd := vd, vs1 := vs1, vs2 := vs2, pm := pmBit pm, pr := prBits pm, sh := sh, func := BitVec.ofNat 2 0 ++ k })
  | .vintt e k vd vs1 vs2 pm sh => some (e, wordV 0x33 { vd := vd, vs1 := vs1, vs2 := vs2, pm := pmBit pm, pr := prBits pm, sh := sh, func := BitVec.ofNat 2 1 ++ k })
  | .vnttmul e k vd vs1 vs2 pm sh => some (e, wordV 0x33 { vd := vd, vs1 := vs1, vs2 := vs2, pm := pmBit pm, pr := prBits pm, sh := sh, func := BitVec.ofNat 2 2 ++ k })
  | .vkeccak e vd sh => some (e, wordV 0x34 { vd := vd, vs1 := 0, vs2 := 0, pm := 0, pr := 0, sh := sh, func := 0x00 })
  | .vsha256 e vd vs1 => some (e, wordV 0x34 { vd := vd, vs1 := vs1, vs2 := 0, pm := 0, pr := 0, sh := 0, func := 0x01 })
  | .vsha512 e vd vs1 => some (e, wordV 0x34 { vd := vd, vs1 := vs1, vs2 := 0, pm := 0, pr := 0, sh := 0, func := 0x02 })
  | .vsamu12 e k vd vs1 vs2 => some (e, wordV 0x35 { vd := vd, vs1 := vs1, vs2 := vs2, pm := 0, pr := 0, sh := 0, func := BitVec.ofNat 3 0 ++ k })
  | .vsamu23 e k vd vs1 vs2 => some (e, wordV 0x35 { vd := vd, vs1 := vs1, vs2 := vs2, pm := 0, pr := 0, sh := 0, func := BitVec.ofNat 3 1 ++ k })
  | .vsamb2 e k vd vs1 vs2 => some (e, wordV 0x35 { vd := vd, vs1 := vs1, vs2 := vs2, pm := 0, pr := 0, sh := 0, func := BitVec.ofNat 3 2 ++ k })
  | .vsamb4 e k vd vs1 vs2 => some (e, wordV 0x35 { vd := vd, vs1 := vs1, vs2 := vs2, pm := 0, pr := 0, sh := 0, func := BitVec.ofNat 3 3 ++ k })
  | .vcbd2 e k vd vs1 pm sh => some (e, wordV 0x35 { vd := vd, vs1 := vs1, vs2 := 0, pm := pmBit pm, pr := prBits pm, sh := sh, func := BitVec.ofNat 3 4 ++ k })
  | .vcbd3 e k vd vs1 pm sh => some (e, wordV 0x35 { vd := vd, vs1 := vs1, vs2 := 0, pm := pmBit pm, pr := prBits pm, sh := sh, func := BitVec.ofNat 3 5 ++ k })
  | .vcxmLo e vd vs1 vs2 pm => some (e, wordV 0x36 { vd := vd, vs1 := vs1, vs2 := vs2, pm := pmBit pm, pr := prBits pm, sh := 0, func := 0x00 })
  | .vcxmHi e vd vs1 vs2 pm => some (e, wordV 0x36 { vd := vd, vs1 := vs1, vs2 := vs2, pm := pmBit pm, pr := prBits pm, sh := 0, func := 0x01 })
  | .vgfmul12 e vd vs1 vs2 pm => some (e, wordV 0x36 { vd := vd, vs1 := vs1, vs2 := vs2, pm := pmBit pm, pr := prBits pm, sh := 0, func := 0x02 })
  | .vgfmul13 e vd vs1 vs2 pm => some (e, wordV 0x36 { vd := vd, vs1 := vs1, vs2 := vs2, pm := pmBit pm, pr := prBits pm, sh := 0, func := 0x03 })
  | .vafr e vd vs1 vs2 pm => some (e, wordV 0x36 { vd := vd, vs1 := vs1, vs2 := vs2, pm := pmBit pm, pr := prBits pm, sh := 0, func := 0x04 })
  | .vafl e vd vs1 vs2 pm => some (e, wordV 0x36 { vd := vd, vs1 := vs1, vs2 := vs2, pm := pmBit pm, pr := prBits pm, sh := 0, func := 0x05 })
  | .vair e vd vs1 vs2 pm => some (e, wordV 0x36 { vd := vd, vs1 := vs1, vs2 := vs2, pm := pmBit pm, pr := prBits pm, sh := 0, func := 0x06 })
  | .vail e vd vs1 vs2 pm => some (e, wordV 0x36 { vd := vd, vs1 := vs1, vs2 := vs2, pm := pmBit pm, pr := prBits pm, sh := 0, func := 0x07 })
  | .vaim e vd vs1 pm => some (e, wordV 0x36 { vd := vd, vs1 := vs1, vs2 := 0, pm := pmBit pm, pr := prBits pm, sh := 0, func := 0x08 })
  | .vasw e vd vs1 pm => some (e, wordV 0x36 { vd := vd, vs1 := vs1, vs2 := 0, pm := pmBit pm, pr := prBits pm, sh := 0, func := 0x09 })
  | .vxget e vd vs1 => some (e, wordV 0x37 { vd := vd, vs1 := vs1, vs2 := 0, pm := 0, pr := 0, sh := 0, func := 0x00 })
  | .vxput e vd vs2 pm => some (e, wordV 0x37 { vd := vd, vs1 := 0, vs2 := vs2, pm := pmBit pm, pr := prBits pm, sh := 0, func := 0x01 })
  | .vshupX e vd vs1 vs2 pm => some (e, wordV 0x37 { vd := vd, vs1 := vs1, vs2 := vs2, pm := pmBit pm, pr := prBits pm, sh := 0, func := 0x02 })
  | .vshdnX e vd vs1 vs2 pm => some (e, wordV 0x37 { vd := vd, vs1 := vs1, vs2 := vs2, pm := pmBit pm, pr := prBits pm, sh := 0, func := 0x03 })
  | .vperm e vd vs1 vs2 pm => some (e, wordV 0x37 { vd := vd, vs1 := vs1, vs2 := vs2, pm := pmBit pm, pr := prBits pm, sh := 0, func := 0x04 })
  | .vpack e vd vs1 pr => some (e, wordV 0x37 { vd := vd, vs1 := vs1, vs2 := 0, pm := 0, pr := pr, sh := 0, func := 0x05 })
  | .vilvLo e vd vs1 vs2 pm => some (e, wordV 0x37 { vd := vd, vs1 := vs1, vs2 := vs2, pm := pmBit pm, pr := prBits pm, sh := 0, func := 0x06 })
  | .vilvHi e vd vs1 vs2 pm => some (e, wordV 0x37 { vd := vd, vs1 := vs1, vs2 := vs2, pm := pmBit pm, pr := prBits pm, sh := 0, func := 0x07 })
  | .vdlvE e vd vs1 vs2 pm => some (e, wordV 0x37 { vd := vd, vs1 := vs1, vs2 := vs2, pm := pmBit pm, pr := prBits pm, sh := 0, func := 0x08 })
  | .vdlvO e vd vs1 vs2 pm => some (e, wordV 0x37 { vd := vd, vs1 := vs1, vs2 := vs2, pm := pmBit pm, pr := prBits pm, sh := 0, func := 0x09 })
  | .vrdadd e vd vs1 vs2 pm => some (e, wordV 0x37 { vd := vd, vs1 := vs1, vs2 := vs2, pm := pmBit pm, pr := prBits pm, sh := 0, func := 0x0A })
  | .vrdxor e vd vs1 vs2 pm => some (e, wordV 0x37 { vd := vd, vs1 := vs1, vs2 := vs2, pm := pmBit pm, pr := prBits pm, sh := 0, func := 0x0B })
  | .vrdor e vd vs1 vs2 pm => some (e, wordV 0x37 { vd := vd, vs1 := vs1, vs2 := vs2, pm := pmBit pm, pr := prBits pm, sh := 0, func := 0x0C })
  | .vidx e vd pm => some (e, wordV 0x37 { vd := vd, vs1 := 0, vs2 := 0, pm := pmBit pm, pr := prBits pm, sh := 0, func := 0x0D })
  | .vmovr e vd vs1 => some (e, wordV 0x37 { vd := vd, vs1 := vs1, vs2 := 0, pm := 0, pr := 0, sh := 0, func := 0x0E })
  | .vceq e vd vs1 vs2 pm => some (e, wordV 0x38 { vd := vd.setWidth 5, vs1 := vs1, vs2 := vs2, pm := pmBit pm, pr := prBits pm, sh := 0, func := 0x00 })
  | .vcne e vd vs1 vs2 pm => some (e, wordV 0x38 { vd := vd.setWidth 5, vs1 := vs1, vs2 := vs2, pm := pmBit pm, pr := prBits pm, sh := 0, func := 0x01 })
  | .vcltu e vd vs1 vs2 pm => some (e, wordV 0x38 { vd := vd.setWidth 5, vs1 := vs1, vs2 := vs2, pm := pmBit pm, pr := prBits pm, sh := 0, func := 0x02 })
  | .vclt e vd vs1 vs2 pm => some (e, wordV 0x38 { vd := vd.setWidth 5, vs1 := vs1, vs2 := vs2, pm := pmBit pm, pr := prBits pm, sh := 0, func := 0x03 })
  | .vceqX e vd vs1 vs2 pm => some (e, wordV 0x38 { vd := vd.setWidth 5, vs1 := vs1, vs2 := vs2, pm := pmBit pm, pr := prBits pm, sh := 0, func := 0x04 })
  | .vcneX e vd vs1 vs2 pm => some (e, wordV 0x38 { vd := vd.setWidth 5, vs1 := vs1, vs2 := vs2, pm := pmBit pm, pr := prBits pm, sh := 0, func := 0x05 })
  | .vcltuX e vd vs1 vs2 pm => some (e, wordV 0x38 { vd := vd.setWidth 5, vs1 := vs1, vs2 := vs2, pm := pmBit pm, pr := prBits pm, sh := 0, func := 0x06 })
  | .vcgeuX e vd vs1 vs2 pm => some (e, wordV 0x38 { vd := vd.setWidth 5, vs1 := vs1, vs2 := vs2, pm := pmBit pm, pr := prBits pm, sh := 0, func := 0x07 })
  | .pand e vd vs1 vs2 => some (e, wordV 0x38 { vd := vd.setWidth 5, vs1 := vs1.setWidth 5, vs2 := vs2.setWidth 5, pm := 0, pr := 0, sh := 0, func := 0x08 })
  | .por e vd vs1 vs2 => some (e, wordV 0x38 { vd := vd.setWidth 5, vs1 := vs1.setWidth 5, vs2 := vs2.setWidth 5, pm := 0, pr := 0, sh := 0, func := 0x09 })
  | .pxor e vd vs1 vs2 => some (e, wordV 0x38 { vd := vd.setWidth 5, vs1 := vs1.setWidth 5, vs2 := vs2.setWidth 5, pm := 0, pr := 0, sh := 0, func := 0x0A })
  | .pandn e vd vs1 vs2 => some (e, wordV 0x38 { vd := vd.setWidth 5, vs1 := vs1.setWidth 5, vs2 := vs2.setWidth 5, pm := 0, pr := 0, sh := 0, func := 0x0B })
  | .pnot e vd vs1 => some (e, wordV 0x38 { vd := vd.setWidth 5, vs1 := vs1.setWidth 5, vs2 := 0, pm := 0, pr := 0, sh := 0, func := 0x0C })
  | .pset e vd => some (e, wordV 0x38 { vd := vd.setWidth 5, vs1 := 0, vs2 := 0, pm := 0, pr := 0, sh := 0, func := 0x0D })
  | .pclr e vd => some (e, wordV 0x38 { vd := vd.setWidth 5, vs1 := 0, vs2 := 0, pm := 0, pr := 0, sh := 0, func := 0x0E })
  | .prange e vd vs1 vs2 => some (e, wordV 0x38 { vd := vd.setWidth 5, vs1 := vs1, vs2 := vs2, pm := 0, pr := 0, sh := 0, func := 0x0F })
  | .ppop e vd vs1 => some (e, wordV 0x38 { vd := vd, vs1 := vs1.setWidth 5, vs2 := 0, pm := 0, pr := 0, sh := 0, func := 0x10 })
  | .plow e vd vs1 => some (e, wordV 0x38 { vd := vd, vs1 := vs1.setWidth 5, vs2 := 0, pm := 0, pr := 0, sh := 0, func := 0x11 })
  | .pld e vd vs1 => some (e, wordV 0x38 { vd := vd.setWidth 5, vs1 := vs1, vs2 := 0, pm := 0, pr := 0, sh := 0, func := 0x12 })
  | .pst e vd vs1 => some (e, wordV 0x38 { vd := vd.setWidth 5, vs1 := vs1, vs2 := 0, pm := 0, pr := 0, sh := 0, func := 0x13 })
  | .vld e vd vs1 pm sh => some (e, wordV 0x39 { vd := vd, vs1 := vs1, vs2 := 0, pm := pmBit pm, pr := prBits pm, sh := sh, func := 0x00 })
  | .vst e vd vs1 pm sh => some (e, wordV 0x39 { vd := vd, vs1 := vs1, vs2 := 0, pm := pmBit pm, pr := prBits pm, sh := sh, func := 0x01 })
  | .vldw e vd vs1 => some (e, wordV 0x39 { vd := vd, vs1 := vs1, vs2 := 0, pm := 0, pr := 0, sh := 0, func := 0x02 })
  | .vstw e vd vs1 => some (e, wordV 0x39 { vd := vd, vs1 := vs1, vs2 := 0, pm := 0, pr := 0, sh := 0, func := 0x03 })
  | .vlds e vd vs1 vs2 pm => some (e, wordV 0x3A { vd := vd, vs1 := vs1, vs2 := vs2, pm := pmBit pm, pr := prBits pm, sh := 0, func := 0x00 })
  | .vsts e vd vs1 vs2 pm => some (e, wordV 0x3A { vd := vd, vs1 := vs1, vs2 := vs2, pm := pmBit pm, pr := prBits pm, sh := 0, func := 0x01 })
  | .vldx e vd vs1 vs2 pm => some (e, wordV 0x3B { vd := vd, vs1 := vs1, vs2 := vs2, pm := pmBit pm, pr := prBits pm, sh := 0, func := 0x00 })
  | .vstx e vd vs1 vs2 pm => some (e, wordV 0x3B { vd := vd, vs1 := vs1, vs2 := vs2, pm := pmBit pm, pr := prBits pm, sh := 0, func := 0x01 })
  | .vlclr e vd => some (e, wordV 0x3C { vd := vd.setWidth 5, vs1 := 0, vs2 := 0, pm := 0, pr := 0, sh := 0, func := 0x00 })
  | .vladd e vd vs1 => some (e, wordV 0x3C { vd := vd.setWidth 5, vs1 := vs1, vs2 := 0, pm := 0, pr := 0, sh := 0, func := 0x01 })
  | .vlsub e vd vs1 => some (e, wordV 0x3C { vd := vd.setWidth 5, vs1 := vs1, vs2 := 0, pm := 0, pr := 0, sh := 0, func := 0x02 })
  | .vlmac e vd vs1 vs2 => some (e, wordV 0x3C { vd := vd.setWidth 5, vs1 := vs1, vs2 := vs2, pm := 0, pr := 0, sh := 0, func := 0x03 })
  | .vlmacv e vd vs1 vs2 => some (e, wordV 0x3C { vd := vd.setWidth 5, vs1 := vs1, vs2 := vs2, pm := 0, pr := 0, sh := 0, func := 0x04 })
  | .vlpop e vs1 vd => some (e, wordV 0x3C { vd := vd.setWidth 5, vs1 := vs1, vs2 := 0, pm := 0, pr := 0, sh := 0, func := 0x05 })
  | .vlshr e vd vs2 => some (e, wordV 0x3C { vd := vd.setWidth 5, vs1 := 0, vs2 := vs2, pm := 0, pr := 0, sh := 0, func := 0x06 })
  | .vsplitB e vd vs1 pm sh => some (e, wordV 0x3D { vd := vd, vs1 := vs1, vs2 := 0, pm := pmBit pm, pr := prBits pm, sh := sh, func := 0x00 })
  | .vsplitA e vd vs1 vs2 pm sh => some (e, wordV 0x3D { vd := vd, vs1 := vs1, vs2 := vs2.setWidth 5, pm := pmBit pm, pr := prBits pm, sh := sh, func := 0x01 })
  | .vjoinB e vd vs1 pm sh => some (e, wordV 0x3D { vd := vd, vs1 := vs1, vs2 := 0, pm := pmBit pm, pr := prBits pm, sh := sh, func := 0x02 })
  | .vjoinA e vd vs1 vs2 pm sh => some (e, wordV 0x3D { vd := vd, vs1 := vs1, vs2 := vs2.setWidth 5, pm := pmBit pm, pr := prBits pm, sh := sh, func := 0x03 })
  | .va2b e vd vs1 vs2 pm sh => some (e, wordV 0x3D { vd := vd, vs1 := vs1, vs2 := vs2.setWidth 5, pm := pmBit pm, pr := prBits pm, sh := sh, func := 0x04 })
  | .vb2a e vd vs1 vs2 pm sh => some (e, wordV 0x3D { vd := vd, vs1 := vs1, vs2 := vs2.setWidth 5, pm := pmBit pm, pr := prBits pm, sh := sh, func := 0x05 })
  | .vrefreshB e vd vs1 pm sh => some (e, wordV 0x3D { vd := vd, vs1 := vs1, vs2 := 0, pm := pmBit pm, pr := prBits pm, sh := sh, func := 0x06 })
  | .vrefreshA e vd vs1 vs2 pm sh => some (e, wordV 0x3D { vd := vd, vs1 := vs1, vs2 := vs2.setWidth 5, pm := pmBit pm, pr := prBits pm, sh := sh, func := 0x07 })
  | .vmcmp e vd vs1 vs2 sh => some (e, wordV 0x3D { vd := vd, vs1 := vs1, vs2 := vs2, pm := 0, pr := 0, sh := sh, func := 0x08 })
  | .vmsel e vd vs1 vs2 pm sh => some (e, wordV 0x3D { vd := vd, vs1 := vs1, vs2 := vs2, pm := pmBit pm, pr := prBits pm, sh := sh, func := 0x09 })
  | .vmask e vd pm => some (e, wordV 0x3D { vd := vd, vs1 := 0, vs2 := 0, pm := pmBit pm, pr := prBits pm, sh := 0, func := 0x0A })
  | _ => none

end Sys2Proof
end

