-- ==== Sys2Proof/Machine/Bits.lean ====
section
/-!
DEFINITION. Sys2Proof/Machine/Bits.lean: bit fields, byte order (little-endian, 00 R4), packing of records and arithmetic helpers.
-/
namespace Sys2Proof

/-- Bits [hi:lo] of a number. -/
def field (x hi lo : Nat) : Nat := (x >>> lo) % 2 ^ (hi + 1 - lo)

/-- Bit i of a number. -/
def bitOf (x i : Nat) : Bool := (x >>> i) % 2 = 1

/-- A truth value as a number. -/
def b2n (b : Bool) : Nat := if b then 1 else 0

/-- x with bits [hi:lo] replaced by v. -/
def withField (x hi lo v : Nat) : Nat :=
  x - (field x hi lo) * 2 ^ lo + (v % 2 ^ (hi + 1 - lo)) * 2 ^ lo

/-- Bytes [b, b+n) of a packed record, as a number (byte 0 lowest: 00 R4). -/
def bytesAt {w : Nat} (r : BitVec w) (b n : Nat) : Nat := (r.toNat >>> (8 * b)) % 2 ^ (8 * n)

/-- The n bytes of a number, lowest first (00 R4). -/
def toBytes : (n : Nat) → (x : Nat) → List Byte
  | 0, _ => []
  | n + 1, x => BitVec.ofNat 8 x :: toBytes n (x / 256)

/-- The number that bytes spell, lowest first (00 R4). -/
def ofBytes : List Byte → Nat
  | [] => 0
  | b :: t => b.toNat + 256 * ofBytes t

/-- A list of (width in bytes, value) laid end to end, the first lowest. -/
def pack : List (Nat × Nat) → Nat
  | [] => 0
  | (n, v) :: t => v % 2 ^ (8 * n) + 2 ^ (8 * n) * pack t

/-- n zero bytes. -/
def zeros (n : Nat) : List Byte := List.replicate n 0

/-- n bytes of operand data, zero beyond its end. -/
def padTo (n : Nat) (l : List Byte) : List Byte := (List.range n).map (fun i => l.getD i 0)

/-- x rounded up to a multiple of m (m not 0). -/
def roundUp (x m : Nat) : Nat := ((x + m - 1) / m) * m

/-- A count that saturates at `m`. -/
def satAdd (m x n : Nat) : Nat := if x + n ≤ m then x + n else m

/-- A power of two between lo and hi. -/
def isPow2Between (x lo hi : Nat) : Bool :=
  (List.range 32).any (fun k => x == 2 ^ k) && decide (lo ≤ x) && decide (x ≤ hi)

/-- Two's complement reading of a w-bit number. -/
def signed (w x : Nat) : Int := if x < 2 ^ (w - 1) then (x : Int) else (x : Int) - (2 ^ w : Nat)

/-- The ranges [a, a+n) and [b, b+m) meet. -/
def overlaps (a n b m : Nat) : Bool := decide (0 < n) && decide (0 < m) && decide (a < b + m) && decide (b < a + n)

end Sys2Proof
end

