-- ==== Sys2Proof/Machine/Gf.lean ====
section
/-!
DEFINITION. Sys2Proof/Machine/Gf.lean: carry-less products, GF(2^m) products and the AES round functions of FIPS 197, which the spec names for
the carry-less, GF and AES unit (07, Table 7.12).
-/
namespace Sys2Proof

/-- Carry-less product of a with the low n bits of b. -/
def clmul (a b : Nat) : (n : Nat) → Nat
  | 0 => 0
  | n + 1 => clmul a b n ^^^ (if bitOf b n then a <<< n else 0)

/-- A polynomial reduced from bit n − 1 down to degree m by z^m + low. -/
def polyRed (m low : Nat) : (n : Nat) → Nat → Nat
  | 0, x => x
  | n + 1, x =>
    if m ≤ n then polyRed m low n (if bitOf x n then x ^^^ (1 <<< n) ^^^ (low <<< (n - m)) else x) else x

/-- Product in GF(2^m) modulo z^m + low of the low m bits of both operands. -/
def gfMul (m low a b : Nat) : Nat := polyRed m low (2 * m) (clmul (a % 2 ^ m) (b % 2 ^ m) m)

/-! ## AES (FIPS 197) -/

/-- Twice a byte in GF(2^8) modulo x^8 + x^4 + x^3 + x + 1. -/
def xtime (b : Nat) : Nat := if b < 128 then 2 * b else (2 * b) ^^^ 0x11B

/-- The S-box of FIPS 197: byte i is that of i. It is the affine map of the inverse in the field (Laws/Gf.lean). -/
def sboxTable : Nat :=
  0x16BB54B00F2D99416842E6BF0D89A18CDF2855CEE9871E9B948ED9691198F8E19E1DC186B95735610EF6034866B53E708A8BBD4B1F74DDE8C6B4A61C2E2578BA08AE7A65EAF4566CA94ED58D6D37C8E779E4959162ACD3C25C2406490A3A32E0DB0B5EDE14B8EE4688902A22DC4F816073195D643D7EA7C41744975FEC130CCDD2F3FF1021DAB6BCF5389D928F40A351A89F3C507F02F94585334D43FBAAEFD0CF584C4A39BECB6A5BB1FC20ED00D153842FE329B3D63B52A05A6E1B1A2C830975B227EBE28012079A059618C323C7041531D871F1E5A534CCF73F362693FDB7C072A49CAFA2D4ADF04759FA7DC982CA76ABD7FE2B670130C56F6BF27B777C63
/-- Its inverse. -/
def invSboxTable : Nat :=
  0x7D0C2155631469E126D677BA7E042B17619953833CBBEBC8B0F52AAE4D3BE0A0EF9CC9939F7AE52D0D4AB519A97F51605FEC8027591012B131C7078833A8DD1FF45ACD78FEC0DB9A2079D2C64B3E56FC1BBE18AA0E62B76F89C5291D711AF1476EDF751CE837F9E28535ADE72274AC9673E6B4F0CECFF297EADC674F4111913A6B8A130103BDAFC1020F3FCA8F1E2CD00645B3B80558E4F70AD3BC8C00ABD890849D8DA75746155EDAB9EDFD5048706C92B6655DCC5CA4D41698688664F6F87225D18B6D49A25B76B224D92866A12E084EC3FA420B954CEE3D23C2A632947B54CBE9DEC444438E3487FF2F9B8239E37CFBD7F3819EA340BF38A53630D56A0952

/-- SubBytes of one byte, and its inverse. -/
def sbox (x : Nat) : Nat := (sboxTable >>> (8 * (x % 256))) % 256
def invSbox (x : Nat) : Nat := (invSboxTable >>> (8 * (x % 256))) % 256

/-- Byte k of a 128-bit block: row k mod 4, column k div 4. -/
def blockByte (x k : Nat) : Nat := (x >>> (8 * k)) % 256
def ofBlock (f : Nat → Nat) : Nat := (List.range 16).foldr (fun k a => f k % 256 + 256 * a) 0

def subBytes (f : Nat → Nat) (x : Nat) : Nat := ofBlock (fun k => f (blockByte x k))
def shiftRows (x : Nat) : Nat := ofBlock (fun k => blockByte x ((k + 4 * (k % 4)) % 16))
def invShiftRows (x : Nat) : Nat := ofBlock (fun k => blockByte x ((k + 12 * (k % 4)) % 16))

/-- Byte i of the column of byte k, counted from k's row on. -/
def columnByte (x k i : Nat) : Nat := blockByte x (4 * (k / 4) + (k + i) % 4)

/-- MixColumns: each byte is 2, 3, 1, 1 times its column from its own row on. -/
def mixColumns (x : Nat) : Nat :=
  ofBlock (fun k => xtime (columnByte x k 0 ^^^ columnByte x k 1) ^^^ columnByte x k 1 ^^^ columnByte x k 2 ^^^ columnByte x k 3)
/-- InvMixColumns: 14, 11, 13, 9 times the column, which is MixColumns after 5, 0, 4, 0. -/
def invMixColumns (x : Nat) : Nat :=
  mixColumns (ofBlock (fun k => columnByte x k 0 ^^^ xtime (xtime (columnByte x k 0 ^^^ columnByte x k 2))))

/-- 07, Table 7.12: a forward round, the forward final round, an inverse round of the straight inverse cipher, the inverse final round. -/
def aesForward (x k : Nat) : Nat := mixColumns (shiftRows (subBytes sbox x)) ^^^ k
def aesFinal (x k : Nat) : Nat := shiftRows (subBytes sbox x) ^^^ k
def aesInverse (x k : Nat) : Nat := invMixColumns (subBytes invSbox (invShiftRows x) ^^^ k)
def aesInvFinal (x k : Nat) : Nat := subBytes invSbox (invShiftRows x) ^^^ k

end Sys2Proof
end

