-- ==== Sys2Proof/Machine/Table.lean ====
section
/-!
DEFINITION. Sys2Proof/Machine/Table.lean: reading and writing a sparse table, and lists used as small sets. A table lists a key
only when its value differs from the default; keys rise strictly, so equal tables are equal data.
-/
namespace Sys2Proof

/-- The value of key `k`: the entry listed for it, else the default `d`. -/
def Tbl.get {α : Type} (d : α) : Tbl α → Nat → α
  | [], _ => d
  | (k', v) :: t, k => if k' = k then v else Tbl.get d t k

/-- The table without key `k`. -/
def Tbl.erase {α : Type} : Tbl α → Nat → Tbl α
  | [], _ => []
  | (k', v) :: t, k => if k' = k then Tbl.erase t k else (k', v) :: Tbl.erase t k

/-- Put `(k, v)` before the first key above `k`. -/
def Tbl.insert {α : Type} : Tbl α → Nat → α → Tbl α
  | [], k, v => [(k, v)]
  | (k', v') :: t, k, v => if k < k' then (k, v) :: (k', v') :: t else (k', v') :: Tbl.insert t k v

/-- Write `v` at key `k`; the default value removes the entry. -/
def Tbl.set {α : Type} [DecidableEq α] (d : α) (t : Tbl α) (k : Nat) (v : α) : Tbl α :=
  if v = d then Tbl.erase t k else Tbl.insert (Tbl.erase t k) k v

/-- Change the value of key `k`. -/
def Tbl.upd {α : Type} [DecidableEq α] (d : α) (t : Tbl α) (k : Nat) (f : α → α) : Tbl α :=
  Tbl.set d t k (f (Tbl.get d t k))

/-- A table with optional values: the value of key `k`, if one is listed. -/
def Tbl.find {α : Type} : Tbl α → Nat → Option α
  | [], _ => none
  | (k', v) :: t, k => if k' = k then some v else Tbl.find t k

/-- List `v` at key `k`, whatever it is. -/
def Tbl.put {α : Type} (t : Tbl α) (k : Nat) (v : α) : Tbl α := Tbl.insert (Tbl.erase t k) k v

/-- Change the value of a listed key; an unlisted one stays unlisted. -/
def Tbl.modify {α : Type} : Tbl α → Nat → (α → α) → Tbl α
  | [], _, _ => []
  | (k', v) :: t, k, f => if k' = k then (k', f v) :: t else (k', v) :: Tbl.modify t k f

/-- Change every listed value. -/
def Tbl.mapVals {α β : Type} (f : Nat → α → β) : Tbl α → Tbl β
  | [] => []
  | (k, v) :: t => (k, f k v) :: Tbl.mapVals f t

/-- Keep a table canonical after a change of every value. -/
def Tbl.mapSet {α : Type} [DecidableEq α] (dflt : α) (f : Nat → α → α) (t : Tbl α) : Tbl α :=
  t.filterMap (fun x => let v := f x.1 x.2; if v = dflt then none else some (x.1, v))

/-- The lowest number from `lo`, below `lo + n`, that no key has. -/
def Tbl.lowestFree {α : Type} (t : Tbl α) (lo : Nat) : Nat → Option Nat
  | 0 => none
  | n + 1 => match Tbl.find t lo with
    | none => some lo
    | some _ => Tbl.lowestFree t (lo + 1) n

/-- The canonical form: keys strictly rising and no value equal to the default. -/
def Tbl.wfFrom {α : Type} [DecidableEq α] (d : α) : Nat → Tbl α → Bool
  | _, [] => true
  | lo, (k, v) :: t => decide (lo ≤ k) && !decide (v = d) && Tbl.wfFrom d (k + 1) t

/-- The canonical form of a table whose unlisted keys read as `d`. -/
def Tbl.wf {α : Type} [DecidableEq α] (d : α) (t : Tbl α) : Bool := Tbl.wfFrom d 0 t

/-- The first element that `p` holds of. -/
def firstWhere {α : Type} (p : α → Bool) : List α → Option α
  | [] => none
  | x :: t => if p x then some x else firstWhere p t

/-- Drop the first element that `p` holds of. -/
def dropFirst {α : Type} (p : α → Bool) : List α → List α
  | [] => []
  | x :: t => if p x then t else x :: dropFirst p t

/-- Change the elements that `p` holds of. -/
def mapWhere {α : Type} (p : α → Bool) (f : α → α) : List α → List α
  | [] => []
  | x :: t => (if p x then f x else x) :: mapWhere p f t

/-- The element with the least `key`, the earliest of those with equal keys. -/
def leastBy {α : Type} (key : α → Nat) : List α → Option α
  | [] => none
  | x :: t => match leastBy key t with
    | none => some x
    | some y => if key x ≤ key y then some x else some y

/-- Sum of a measure over a list. -/
def sumBy {α : Type} (f : α → Nat) : List α → Nat
  | [] => 0
  | x :: t => f x + sumBy f t

/-- Apply `f` for each element in order, threading a state. -/
def foldOver {α σ : Type} (f : α → σ → σ) : List α → σ → σ
  | [], s => s
  | x :: t, s => foldOver f t (f x s)

/-- How many elements `p` holds of. -/
def countWhere {α : Type} (p : α → Bool) : List α → Nat
  | [] => 0
  | x :: t => (if p x then 1 else 0) + countWhere p t

end Sys2Proof
end

