-- ==== Sys2Proof/Machine/Keccak.lean ====
section
/-!
DEFINITION. Sys2Proof/Machine/Keccak.lean: Keccak-p[1600] and the sponge of FIPS 202, which the spec names for its digests, its key
derivation, the Keccak unit (07 R168) and the mask generator (08 R181). The permutation's constants are the standard's.
-/
namespace Sys2Proof

/-- A Keccak state: 25 lanes, lane (x, y) at 5y + x. -/
abbrev KState := List (BitVec 64)

def KState.lane (s : KState) (i : Nat) : BitVec 64 := s.getD i 0

/-- Rotation offsets of rho, lane 5y + x. -/
def keccakRho : List Nat :=
  [0, 1, 62, 28, 27, 36, 44, 6, 55, 20, 3, 10, 43, 25, 39, 41, 45, 15, 21, 8, 18, 2, 61, 56, 14]

/-- Round constants of iota. -/
def keccakRc : List (BitVec 64) :=
  [0x0000000000000001, 0x0000000000008082, 0x800000000000808A, 0x8000000080008000, 0x000000000000808B, 0x0000000080000001,
   0x8000000080008081, 0x8000000000008009, 0x000000000000008A, 0x0000000000000088, 0x0000000080008009, 0x000000008000000A] ++
  [0x000000008000808B, 0x800000000000008B, 0x8000000000008089, 0x8000000000008003, 0x8000000000008002, 0x8000000000000080,
   0x000000000000800A, 0x800000008000000A, 0x8000000080008081, 0x8000000000008080, 0x0000000080000001, 0x8000000080008008]

/-- One round with constant `rc`. -/
def keccakRound (s : KState) (rc : BitVec 64) : KState :=
  let c := (List.range 5).map (fun x => s.lane x ^^^ s.lane (x + 5) ^^^ s.lane (x + 10) ^^^ s.lane (x + 15) ^^^ s.lane (x + 20))
  let t := (List.range 5).map (fun x => c.getD ((x + 4) % 5) 0 ^^^ (c.getD ((x + 1) % 5) 0).rotateLeft 1)
  let a := (List.range 25).map (fun i => s.lane i ^^^ t.getD (i % 5) 0)
  -- rho and pi: B[y, 2x + 3y] = rot(A[x, y])
  let b := (List.range 25).map (fun i =>
    let x := i % 5
    let y := i / 5
    let sx := (x + 3 * y) % 5
    let j := 5 * x + sx
    (a.getD j 0).rotateLeft (keccakRho.getD j 0))
  (List.range 25).map (fun i =>
    let x := i % 5
    let y := i / 5
    let v := b.getD i 0 ^^^ (~~~(b.getD (5 * y + (x + 1) % 5) 0) &&& b.getD (5 * y + (x + 2) % 5) 0)
    if i = 0 then v ^^^ rc else v)

/-- Keccak-p[1600, n]: the last n rounds of the 24. -/
def keccakP (n : Nat) (s : KState) : KState := (keccakRc.drop (24 - n)).foldl keccakRound s

/-- A 1,600-bit value as lanes and back: bit i of the string is bit i of the number. -/
def kOfNat (x : Nat) : KState := (List.range 25).map (fun i => BitVec.ofNat 64 (x >>> (64 * i)))
def kToNat (s : KState) : Nat := s.foldr (fun l acc => l.toNat + 2 ^ 64 * acc) 0

/-- The permutation on a 1,600-bit value. -/
def keccakBits (n : Nat) (x : BitVec 1600) : BitVec 1600 := BitVec.ofNat 1600 (kToNat (keccakP n (kOfNat x.toNat)))

/-- XOR one block of bytes into the state and permute. -/
def absorbBlock (s : KState) (bs : List Byte) : KState := keccakP 24 (kOfNat (kToNat s ^^^ ofBytes bs))

/-- Absorb whole blocks of `rate` bytes. -/
def absorbAll (rate : Nat) : (fuel : Nat) → KState → List Byte → KState
  | 0, s, _ => s
  | f + 1, s, bs => if bs = [] then s else absorbAll rate f (absorbBlock s (bs.take rate)) (bs.drop rate)

/-- Pad a message for the sponge with domain byte `dom` (FIPS 202). -/
def spongePad (rate dom : Nat) (m : List Byte) : List Byte :=
  let q := rate - m.length % rate
  if q = 1 then m ++ [BitVec.ofNat 8 (dom ||| 0x80)]
  else m ++ [BitVec.ofNat 8 dom] ++ zeros (q - 2) ++ [0x80]

/-- Squeeze n bytes. -/
def squeeze (rate : Nat) : (fuel : Nat) → KState → Nat → List Byte
  | 0, _, _ => []
  | f + 1, s, n => if n ≤ rate then toBytes n (kToNat s) else toBytes rate (kToNat s) ++ squeeze rate f (keccakP 24 s) (n - rate)

/-- The sponge: rate in bytes, domain byte, message, output length. -/
def sponge (rate dom : Nat) (m : List Byte) (n : Nat) : List Byte :=
  let p := spongePad rate dom m
  squeeze rate (n / rate + 1) (absorbAll rate (p.length / rate + 1) (List.replicate 25 0) p) n

def sha3_256 (m : List Byte) : BitVec 256 := BitVec.ofNat 256 (ofBytes (sponge 136 0x06 m 32))

end Sys2Proof
end

