-- ==== Sys2Proof/Machine/Sha2.lean ====
section
/-!
DEFINITION. Sys2Proof/Machine/Sha2.lean: SHA-256 and SHA-512 compression and the SHA-2 functions of FIPS 180-4, which the spec names for the
SHA-2 unit (07, Table 7.10) and the bulk digest engines (11, Table 11.1). The constants are the standard's.
-/
namespace Sys2Proof

/-- What differs between the two families: word type width, rounds, rotations and constants. -/
structure Sha2Par where
  w : Nat
  rounds : Nat
  k : List Nat
  big0 : Nat × Nat × Nat
  big1 : Nat × Nat × Nat
  small0 : Nat × Nat × Nat
  small1 : Nat × Nat × Nat

def sha256K : List Nat :=
  [0x428A2F98, 0x71374491, 0xB5C0FBCF, 0xE9B5DBA5, 0x3956C25B, 0x59F111F1, 0x923F82A4, 0xAB1C5ED5, 0xD807AA98, 0x12835B01, 0x243185BE, 0x550C7DC3, 0x72BE5D74, 0x80DEB1FE, 0x9BDC06A7, 0xC19BF174] ++
  [0xE49B69C1, 0xEFBE4786, 0x0FC19DC6, 0x240CA1CC, 0x2DE92C6F, 0x4A7484AA, 0x5CB0A9DC, 0x76F988DA, 0x983E5152, 0xA831C66D, 0xB00327C8, 0xBF597FC7, 0xC6E00BF3, 0xD5A79147, 0x06CA6351, 0x14292967] ++
  [0x27B70A85, 0x2E1B2138, 0x4D2C6DFC, 0x53380D13, 0x650A7354, 0x766A0ABB, 0x81C2C92E, 0x92722C85, 0xA2BFE8A1, 0xA81A664B, 0xC24B8B70, 0xC76C51A3, 0xD192E819, 0xD6990624, 0xF40E3585, 0x106AA070] ++
  [0x19A4C116, 0x1E376C08, 0x2748774C, 0x34B0BCB5, 0x391C0CB3, 0x4ED8AA4A, 0x5B9CCA4F, 0x682E6FF3, 0x748F82EE, 0x78A5636F, 0x84C87814, 0x8CC70208, 0x90BEFFFA, 0xA4506CEB, 0xBEF9A3F7, 0xC67178F2]
def sha512K : List Nat :=
  [0x428A2F98D728AE22, 0x7137449123EF65CD, 0xB5C0FBCFEC4D3B2F, 0xE9B5DBA58189DBBC, 0x3956C25BF348B538, 0x59F111F1B605D019, 0x923F82A4AF194F9B, 0xAB1C5ED5DA6D8118, 0xD807AA98A3030242, 0x12835B0145706FBE, 0x243185BE4EE4B28C, 0x550C7DC3D5FFB4E2, 0x72BE5D74F27B896F, 0x80DEB1FE3B1696B1, 0x9BDC06A725C71235, 0xC19BF174CF692694] ++
  [0xE49B69C19EF14AD2, 0xEFBE4786384F25E3, 0x0FC19DC68B8CD5B5, 0x240CA1CC77AC9C65, 0x2DE92C6F592B0275, 0x4A7484AA6EA6E483, 0x5CB0A9DCBD41FBD4, 0x76F988DA831153B5, 0x983E5152EE66DFAB, 0xA831C66D2DB43210, 0xB00327C898FB213F, 0xBF597FC7BEEF0EE4, 0xC6E00BF33DA88FC2, 0xD5A79147930AA725, 0x06CA6351E003826F, 0x142929670A0E6E70] ++
  [0x27B70A8546D22FFC, 0x2E1B21385C26C926, 0x4D2C6DFC5AC42AED, 0x53380D139D95B3DF, 0x650A73548BAF63DE, 0x766A0ABB3C77B2A8, 0x81C2C92E47EDAEE6, 0x92722C851482353B, 0xA2BFE8A14CF10364, 0xA81A664BBC423001, 0xC24B8B70D0F89791, 0xC76C51A30654BE30, 0xD192E819D6EF5218, 0xD69906245565A910, 0xF40E35855771202A, 0x106AA07032BBD1B8] ++
  [0x19A4C116B8D2D0C8, 0x1E376C085141AB53, 0x2748774CDF8EEB99, 0x34B0BCB5E19B48A8, 0x391C0CB3C5C95A63, 0x4ED8AA4AE3418ACB, 0x5B9CCA4F7763E373, 0x682E6FF3D6B2B8A3, 0x748F82EE5DEFB2FC, 0x78A5636F43172F60, 0x84C87814A1F0AB72, 0x8CC702081A6439EC, 0x90BEFFFA23631E28, 0xA4506CEBDE82BDE9, 0xBEF9A3F7B2C67915, 0xC67178F2E372532B] ++
  [0xCA273ECEEA26619C, 0xD186B8C721C0C207, 0xEADA7DD6CDE0EB1E, 0xF57D4F7FEE6ED178, 0x06F067AA72176FBA, 0x0A637DC5A2C898A6, 0x113F9804BEF90DAE, 0x1B710B35131C471B, 0x28DB77F523047D84, 0x32CAAB7B40C72493, 0x3C9EBE0A15C9BEBC, 0x431D67C49C100D4C, 0x4CC5D4BECB3E42B6, 0x597F299CFC657E2A, 0x5FCB6FAB3AD6FAEC, 0x6C44198C4A475817]

def sha256Par : Sha2Par :=
  { w := 32, rounds := 64, k := sha256K, big0 := (2, 13, 22), big1 := (6, 11, 25), small0 := (7, 18, 3), small1 := (17, 19, 10) }
def sha512Par : Sha2Par :=
  { w := 64, rounds := 80, k := sha512K, big0 := (28, 34, 39), big1 := (14, 18, 41), small0 := (1, 8, 7), small1 := (19, 61, 6) }

/-- Rotation right of a w-bit number. -/
def rotrW (w x n : Nat) : Nat := (x >>> n) ||| ((x <<< (w - n)) % 2 ^ w)
def bigSigma (w : Nat) (r : Nat × Nat × Nat) (x : Nat) : Nat := rotrW w x r.1 ^^^ rotrW w x r.2.1 ^^^ rotrW w x r.2.2
def smallSigma (w : Nat) (r : Nat × Nat × Nat) (x : Nat) : Nat := rotrW w x r.1 ^^^ rotrW w x r.2.1 ^^^ (x >>> r.2.2)

/-- The message schedule, the newest word first. -/
def sha2Schedule (p : Sha2Par) : (n : Nat) → List Nat → List Nat
  | 0, l => l
  | n + 1, l =>
    let v := smallSigma p.w p.small1 (l.getD 1 0) + l.getD 6 0 + smallSigma p.w p.small0 (l.getD 14 0) + l.getD 15 0
    sha2Schedule p n (v % 2 ^ p.w :: l)

/-- One round: the state a to h, one constant and one schedule word. -/
def sha2Round (p : Sha2Par) (s : List Nat) (k w : Nat) : List Nat :=
  let g (i : Nat) : Nat := s.getD i 0
  let ch := (g 4 &&& g 5) ^^^ ((2 ^ p.w - 1 - g 4) &&& g 6)
  let mj := (g 0 &&& g 1) ^^^ (g 0 &&& g 2) ^^^ (g 1 &&& g 2)
  let t1 := g 7 + bigSigma p.w p.big1 (g 4) + ch + k + w
  let t2 := bigSigma p.w p.big0 (g 0) + mj
  [(t1 + t2) % 2 ^ p.w, g 0, g 1, g 2, (g 3 + t1) % 2 ^ p.w, g 4, g 5, g 6]

/-- Compression of one block of 16 words. -/
def sha2Compress (p : Sha2Par) (h block : List Nat) : List Nat :=
  let ws := (sha2Schedule p (p.rounds - 16) block.reverse).reverse
  let s := (p.k.zip ws).foldl (fun s x => sha2Round p s x.1 x.2) h
  (h.zip s).map (fun x => (x.1 + x.2) % 2 ^ p.w)

/-- Big-endian words of w/8 bytes. -/
def beWords (w : Nat) : (n : Nat) → List Byte → List Nat
  | 0, _ => []
  | n + 1, bs => ofBytes (bs.take (w / 8)).reverse :: beWords w n (bs.drop (w / 8))

/-- Compression over all whole blocks of a byte string. -/
def sha2Blocks (p : Sha2Par) : (fuel : Nat) → List Nat → List Byte → List Nat
  | 0, h, _ => h
  | f + 1, h, bs => if bs.length < 2 * p.w then h else sha2Blocks p f (sha2Compress p h (beWords p.w 16 (bs.take (2 * p.w)))) (bs.drop (2 * p.w))

/-- Padding of FIPS 180-4: a one bit, zeros, and the length in bits as a big-endian number of w/4 bytes. -/
def sha2Pad (p : Sha2Par) (m : List Byte) : List Byte :=
  let block := 2 * p.w
  let tail := p.w / 4
  let n := m.length + 1 + tail
  m ++ [0x80] ++ zeros (roundUp n block - n) ++ (toBytes tail (8 * m.length)).reverse

/-- The hash from an initial value, as bytes. -/
def sha2 (p : Sha2Par) (iv : List Nat) (m : List Byte) : List Byte :=
  let q := sha2Pad p m
  (sha2Blocks p (q.length / (2 * p.w) + 1) iv q).flatMap (fun x => (toBytes (p.w / 8) x).reverse)

/-- A SHA-2 computation under way: chaining words, bytes that fill no block yet, bytes taken in. -/
structure Sha2State where
  words : List Nat
  rest : List Byte := []
  count : Nat := 0

def Sha2State.take (p : Sha2Par) (s : Sha2State) (m : List Byte) : Sha2State :=
  let all := s.rest ++ m
  let n := all.length / (2 * p.w) * (2 * p.w)
  { words := sha2Blocks p (all.length / (2 * p.w) + 1) s.words all, rest := all.drop n, count := s.count + m.length }

/-- The hash of all that was taken in. -/
def Sha2State.hash (p : Sha2Par) (s : Sha2State) : List Byte :=
  let block := 2 * p.w
  let n := s.rest.length + 1 + p.w / 4
  let last := s.rest ++ [0x80] ++ zeros (roundUp n block - n) ++ (toBytes (p.w / 4) (8 * s.count)).reverse
  (sha2Blocks p 3 s.words last).flatMap (fun x => (toBytes (p.w / 8) x).reverse)

def iv256 : List Nat := [0x6A09E667, 0xBB67AE85, 0x3C6EF372, 0xA54FF53A, 0x510E527F, 0x9B05688C, 0x1F83D9AB, 0x5BE0CD19]
def iv224 : List Nat := [0xC1059ED8, 0x367CD507, 0x3070DD17, 0xF70E5939, 0xFFC00B31, 0x68581511, 0x64F98FA7, 0xBEFA4FA4]
def iv512 : List Nat := [0x6A09E667F3BCC908, 0xBB67AE8584CAA73B, 0x3C6EF372FE94F82B, 0xA54FF53A5F1D36F1, 0x510E527FADE682D1, 0x9B05688C2B3E6C1F, 0x1F83D9ABFB41BD6B, 0x5BE0CD19137E2179]
def iv384 : List Nat := [0xCBBB9D5DC1059ED8, 0x629A292A367CD507, 0x9159015A3070DD17, 0x152FECD8F70E5939, 0x67332667FFC00B31, 0x8EB44A8768581511, 0xDB0C2E0D64F98FA7, 0x47B5481DBEFA4FA4]
def iv512t256 : List Nat := [0x22312194FC2BF72C, 0x9F555FA3C84C64C2, 0x2393B86B6F53B151, 0x963877195940EABD, 0x96283EE2A88EFFE3, 0xBE5E1E2553863992, 0x2B0199FC2C85B8AA, 0x0EB72DDC81C52CA2]

end Sys2Proof
end

