-- ==== Sys2Proof/Machine/Sizes.lean ====
section
/-!
DEFINITION. Sys2Proof/Machine/Sizes.lean: the sizes that a parameter set fixes (03, Tables 3.9 to 3.12; 09, Table 9.6).
-/
namespace Sys2Proof.Machine

/-- The i-th of a list of sizes by PARAM_SET, counted from 1. -/
def bySet (l : List Nat) (p : Nat) : Nat := if p = 0 then 0 else l.getD (p - 1) 0

/-- Digest lengths of the sets of families 0x0B and of the pre-hash codes (03, Table 3.9; 09 R202). -/
def digestLen (p : Nat) : Nat := bySet [32, 48, 64, 28, 32, 32, 48, 64, 28] p
def prehashLen (code : Nat) : Nat := bySet [32, 48, 64, 28, 32, 32, 48, 64, 28, 32, 64] code
/-- Block sizes of sets 1 to 9, in bytes (FIPS 180-4, FIPS 202). -/
def blockLen (p : Nat) : Nat := bySet [64, 128, 128, 64, 128, 136, 104, 72, 144] p

/-- Public-key, ciphertext and signature sizes (03, Tables 3.10, 3.11; 09, Table 9.6). -/
def kemPk (f p : Nat) : Nat := match f with
  | 0x01 => bySet [800, 1184, 1568] p
  | 0x06 => bySet [2241, 4514, 7237] p
  | _ => bySet [261120, 261120, 524160, 524160, 1044992, 1044992, 1047319, 1047319, 1357824, 1357824] p
def kemCt (f p : Nat) : Nat := match f with
  | 0x01 => bySet [768, 1088, 1568] p
  | 0x06 => bySet [4433, 8978, 14421] p
  | _ => bySet [96, 96, 156, 156, 208, 208, 194, 194, 208, 208] p
def sigPk (f p : Nat) : Nat :=
  if f = 0x02 then bySet [1312, 1952, 2592] p else bySet [32, 32, 48, 48, 64, 64, 32, 32, 48, 48, 64, 64] p
def sigLen (f p : Nat) : Nat :=
  if f = 0x02 then bySet [2420, 3309, 4627] p
  else bySet [7856, 17088, 16224, 35664, 29792, 49856, 7856, 17088, 16224, 35664, 29792, 49856] p
def curvePk (p : Nat) : Nat := bySet [65, 97, 133, 32, 56, 32, 57] p
def curveSig (p : Nat) : Nat := bySet [64, 96, 132, 0, 0, 64, 114] p
def agreeLen (p : Nat) : Nat := bySet [32, 48, 66, 32, 56] p

/-- Bytes of a secret key in the form of Table 9.2 (09 R199), by FAMILY, PARAM_SET and EXTRA. An HQC key is the seed of a generated key. -/
def privateLen (f p extra : Nat) : Nat := match f with
  | 0x01 => 64
  | 0x02 => 32
  | 0x03 => bySet [64, 64, 96, 96, 128, 128, 64, 64, 96, 96, 128, 128] p
  | 0x04 => 48
  | 0x05 | 0x06 => 32
  | 0x07 => bySet [6492, 6492, 13608, 13608, 13932, 13932, 13948, 13948, 14120, 14120] p
  | 0x09 => if p = 8 then extra / 8 + 4 + 5 * (extra / 16) else bySet [32, 48, 66, 32, 56, 32, 57] p
  | _ => extra / 8

/-- The secret key of the HQC specification, as an imported key is held (09, Table 9.2; PRESUMED, assumption 143). -/
def hqcSecretLen (p : Nat) : Nat := bySet [2321, 4602, 7333] p

/-- A wrapped object with n bytes of material (13 R277). -/
def wrappedLen (n : Nat) : Nat := 32 + 8 * ((16 + n + 7) / 8) + 8

/-! ## Stateful keys (09 R204, R205, Tables 9.3, 9.5; RFC 8554, RFC 8391) -/

/-- Levels of trees, and the height of each, by FAMILY, VARIANT and EXTRA (13, Table 13.3). -/
def treeLevels (family variant extra : Nat) : Nat :=
  if family = 0x04 then max 1 (field extra 19 16)
  else if variant = 1 then (if extra = 2 ∨ extra = 0x2A then 4 else 2) else 1
def lmsTypeHeight (lms : Nat) : Nat :=
  if 5 ≤ lms ∧ lms ≤ 9 then (lms - 4) * 5 else if 0x0F ≤ lms ∧ lms ≤ 0x13 then (lms - 0x0E) * 5 else 0
def treeHeight (family variant extra : Nat) : Nat :=
  if family = 0x04 then lmsTypeHeight (field extra 7 0)
  else if variant = 1 then 20 / treeLevels family variant extra
  else (match extra with
    | 1 | 0x10 => 10
    | 2 | 0x11 => 16
    | 3 | 0x12 => 20
    | _ => 0)

/-- Hash chains of a one-time signature of 32-byte hashes: LM-OTS of width 1, 2, 4, 8; WOTS+ of width 16. -/
def otsChains (family extra : Nat) : Nat :=
  if family = 0x04 then [265, 133, 67, 34].getD ((field extra 15 8 - 1) % 4) 0 else 67

/-- One level's signature: of LMS with its types and leaf index, of XMSS one-time signature and path. -/
def levelSigLen (family variant extra : Nat) : Nat :=
  (if family = 0x04 then 4 + 4 + 32 + 4 else 0) + 32 * otsChains family extra + 32 * treeHeight family variant extra

/-- A whole signature: HSS with the public keys of its lower levels, XMSS and XMSS^MT with index and randomizer. -/
def stateSigLen (family variant extra : Nat) : Nat :=
  let n := treeLevels family variant extra
  n * levelSigLen family variant extra + (if family = 0x04 then 4 + 56 * (n - 1) else if variant = 1 then 3 + 32 else 4 + 32)

/-- Trees below the top level. -/
def lowerTrees (family variant extra : Nat) : Nat :=
  sumBy (fun i => 2 ^ (treeHeight family variant extra * (i + 1))) (List.range (treeLevels family variant extra - 1))

/-- Bytes of a stateful key's tree object (09 R205): 2^(h+1) × 32 for each of its trees, and the signature of each lower root. -/
def treeObjectLen (family variant extra : Nat) : Nat :=
  let low := lowerTrees family variant extra
  (low + 1) * (2 ^ (treeHeight family variant extra + 1) * 32) + low * levelSigLen family variant extra

/-- The number of a tree in the tree object: the top tree first, then level by level (DESIGN CHOICE, assumption 149). -/
def treeNo (family variant extra level tree : Nat) : Nat :=
  sumBy (fun i => 2 ^ (treeHeight family variant extra * i)) (List.range level) + tree

/-- Where a node of a tree, and where the stored signature of the root of a lower tree, lie in the tree object: nodes numbered from 1 at the root as RFC
8554 does, the signatures behind all trees (DESIGN CHOICE, assumption 149). -/
def nodeAt (family variant extra level tree node : Nat) : Nat :=
  32 * (treeNo family variant extra level tree * 2 ^ (treeHeight family variant extra + 1) + node)
def lowerSigAt (family variant extra level tree : Nat) : Nat :=
  32 * ((lowerTrees family variant extra + 1) * 2 ^ (treeHeight family variant extra + 1)) +
    (treeNo family variant extra level tree - 1) * levelSigLen family variant extra

/-- The tree of a level that leaf `leaf` of the whole key lies under, and the leaf of that tree. -/
def treeUnder (family variant extra leaf level : Nat) : Nat :=
  leaf / 2 ^ (treeHeight family variant extra * (treeLevels family variant extra - level))
def leafUnder (family variant extra leaf level : Nat) : Nat :=
  leaf / 2 ^ (treeHeight family variant extra * (treeLevels family variant extra - 1 - level)) % 2 ^ treeHeight family variant extra

/-- Nodes of the authentication path of a leaf, lowest first. -/
def pathNodes (h leaf : Nat) : List Nat := (List.range h).map (fun j => Nat.xor ((2 ^ h + leaf) / 2 ^ j) 1)

/-- What a signature with leaf `leaf` reads of the tree object (09 R205): the roots above it, the lowest tree's path, the stored signatures of the lower
roots; offset and length. -/
def treeReads (family variant extra leaf : Nat) : List (Nat × Nat) :=
  let n := treeLevels family variant extra
  let low := n - 1
  (List.range n).map (fun l => (nodeAt family variant extra l (treeUnder family variant extra leaf l) 1, 32)) ++
  (pathNodes (treeHeight family variant extra) (leafUnder family variant extra leaf low)).map (fun r =>
    (nodeAt family variant extra low (treeUnder family variant extra leaf low) r, 32)) ++
  (List.range low).map (fun l => (lowerSigAt family variant extra (l + 1) (treeUnder family variant extra leaf (l + 1)), levelSigLen family variant extra))

end Sys2Proof.Machine
end

