-- ==== Sys2Proof/Machine/Mac.lean ====
section
/-!
DEFINITION. Sys2Proof/Machine/Mac.lean: the keyed constructions that the spec names by their standards: cSHAKE and KMAC (SP 800-185), HMAC (FIPS
198-1), HKDF (RFC 5869), SP 800-108 counter mode, HKDF-Expand-Label (RFC 8446).
-/
namespace Sys2Proof

/-- The ASCII bytes of a text. -/
def ascii (s : String) : List Byte := s.toList.map (fun c => BitVec.ofNat 8 c.toNat)

/-- The n bytes of a number, highest first. -/
def beBytes (n x : Nat) : List Byte := (toBytes n x).reverse
/-- The number that bytes spell, highest first. -/
def ofBe (bs : List Byte) : Nat := ofBytes bs.reverse

/-- Bytes of x without leading zeros; one byte for zero. -/
def minBytes (x : Nat) : Nat := if x = 0 then 1 else (Nat.log2 x) / 8 + 1

/-- left_encode, right_encode, encode_string and bytepad of SP 800-185. -/
def leftEncode (x : Nat) : List Byte := BitVec.ofNat 8 (minBytes x) :: beBytes (minBytes x) x
def rightEncode (x : Nat) : List Byte := beBytes (minBytes x) x ++ [BitVec.ofNat 8 (minBytes x)]
def encodeString (s : List Byte) : List Byte := leftEncode (8 * s.length) ++ s
def bytePad (x : List Byte) (w : Nat) : List Byte :=
  let z := leftEncode w ++ x
  z ++ zeros (roundUp z.length w - z.length)

/-- cSHAKE of a rate in bytes: of message x, n bytes, function name and customization. -/
def cShake (rate : Nat) (x : List Byte) (n : Nat) (name custom : List Byte) : List Byte :=
  if name = [] ∧ custom = [] then sponge rate 0x1F x n
  else sponge rate 0x04 (bytePad (encodeString name ++ encodeString custom) rate ++ x) n

/-- KMAC128 (rate 168) and KMAC256 (rate 136): n bytes. `xof` gives KMACXOF. -/
def kmac (rate : Nat) (key x : List Byte) (n : Nat) (custom : List Byte) (xof : Bool := false) : List Byte :=
  cShake rate (bytePad (encodeString key) rate ++ x ++ rightEncode (if xof then 0 else 8 * n)) n (ascii "KMAC") custom
def kmac256 (key x : List Byte) (n : Nat) (custom : List Byte) : List Byte := kmac 136 key x n custom

/-- A hash function with its block and digest lengths in bytes. -/
structure HashFn where
  block : Nat
  len : Nat
  run : List Byte → List Byte

def hashSha256 : HashFn := { block := 64, len := 32, run := sha2 sha256Par iv256 }
def hashSha384 : HashFn := { block := 128, len := 48, run := fun m => (sha2 sha512Par iv384 m).take 48 }
def hashSha512 : HashFn := { block := 128, len := 64, run := sha2 sha512Par iv512 }


/-- SHA3 of n bytes. -/
def hashSha3 (n : Nat) : HashFn := { block := 200 - 2 * n, len := n, run := fun m => sponge (200 - 2 * n) 0x06 m n }

/-- The hash functions of sets 1 to 9 (03, Table 3.9). -/
def hashSet (p : Nat) : HashFn := match p with
  | 1 => hashSha256
  | 2 => hashSha384
  | 3 => hashSha512
  | 4 => { block := 64, len := 28, run := fun m => (sha2 sha256Par iv224 m).take 28 }
  | 5 => { block := 128, len := 32, run := fun m => (sha2 sha512Par iv512t256 m).take 32 }
  | p => hashSha3 (Machine.digestLen p)

def xorBytes (a b : List Byte) : List Byte := List.zipWith (fun x y => x ^^^ y) a b

/-- HMAC of FIPS 198-1. -/
def hmac (h : HashFn) (key m : List Byte) : List Byte :=
  let k0 := if h.block < key.length then h.run key else key
  let k := k0 ++ zeros (h.block - k0.length)
  h.run (k.map (fun b => b ^^^ 0x5C) ++ h.run (k.map (fun b => b ^^^ 0x36) ++ m))

/-- HKDF-Extract and HKDF-Expand of RFC 5869. -/
def hkdfExtract (h : HashFn) (salt ikm : List Byte) : List Byte := hmac h (if salt = [] then zeros h.len else salt) ikm
def hkdfBlocks (h : HashFn) (prk info : List Byte) : (left i : Nat) → List Byte → List Byte
  | 0, _, _ => []
  | left + 1, i, prev =>
    let t := hmac h prk (prev ++ info ++ [BitVec.ofNat 8 i])
    t ++ hkdfBlocks h prk info left (i + 1) t
def hkdfExpand (h : HashFn) (prk info : List Byte) (n : Nat) : List Byte := (hkdfBlocks h prk info (n / h.len + 1) 1 []).take n

/-- HKDF-Expand-Label of RFC 8446. -/
def expandLabel (h : HashFn) (secret : List Byte) (label : String) (context : List Byte) (n : Nat) : List Byte :=
  let l := ascii "tls13 " ++ ascii label
  hkdfExpand h secret (beBytes 2 n ++ [BitVec.ofNat 8 l.length] ++ l ++ [BitVec.ofNat 8 context.length] ++ context) n

/-- SP 800-108 counter mode over a keyed function of a label and a context, with a 32-bit counter and length. -/
def kdfCounter (prf : List Byte → List Byte) (label context : List Byte) (n : Nat) : (blocks i : Nat) → List Byte
  | 0, _ => []
  | b + 1, i => prf (beBytes 4 i ++ label ++ [0] ++ context ++ beBytes 4 (8 * n)) ++ kdfCounter prf label context n b (i + 1)

/-- SP 800-108 counter mode with HMAC (09 R221). -/
def kdfHmac (h : HashFn) (key label context : List Byte) (n : Nat) : List Byte :=
  (kdfCounter (hmac h key) label context n (n / h.len + 1) 1).take n

/-- SP 800-108 with KMAC256, which is how the custody die derives keys too: KMAC256(K, context, L, label) (09 R221; 13 R264). -/
def kdfKmac (key label context : List Byte) (n : Nat) : List Byte := kmac256 key context n label

end Sys2Proof
end

