-- ==== Sys2Proof/Machine/Aes.lean ====
section
/-!
DEFINITION. Sys2Proof/Machine/Aes.lean: the symmetric schemes that the spec names by their standards (00, Table 0.4; 09 R215, R220): AES with its
modes, CMAC, key wrap, and ChaCha20-Poly1305.
-/
namespace Sys2Proof

/-! ## AES (FIPS 197) -/

/-- The next word of the key schedule: word i of a key of nk words, from the words before it, newest first. -/
def aesNextWord (nk i : Nat) (ws : List (List Byte)) : List Byte :=
  let prev := ws.headD []
  let sub (w : List Byte) : List Byte := w.map (fun b => BitVec.ofNat 8 (sbox b.toNat))
  let rcon := (List.range (i / nk - 1)).foldl (fun x _ => xtime x) 1
  let t :=
    if i % nk = 0 then xorBytes (sub (prev.drop 1 ++ prev.take 1)) [BitVec.ofNat 8 rcon, 0, 0, 0]
    else if 6 < nk ∧ i % nk = 4 then sub prev else prev
  xorBytes (ws.getD (nk - 1) []) t

def aesWords (nk : Nat) : (n i : Nat) → List (List Byte) → List (List Byte)
  | 0, _, ws => ws
  | n + 1, i, ws => aesWords nk n (i + 1) (aesNextWord nk i ws :: ws)

/-- The round keys of a key of 16, 24 or 32 bytes, as 128-bit blocks. -/
def aesKeys (key : List Byte) : List Nat :=
  let nk := key.length / 4
  let rounds := nk + 6
  let first := ((List.range nk).map (fun i => (key.drop (4 * i)).take 4)).reverse
  let bytes := (aesWords nk (4 * (rounds + 1) - nk) nk first).reverse.flatten
  (List.range (rounds + 1)).map (fun i => ofBytes ((bytes.drop (16 * i)).take 16))

/-- One block under round keys. -/
def aesWith (ks : List Nat) (x : List Byte) : List Byte :=
  let mid := (ks.drop 1).dropLast
  toBytes 16 (aesFinal (mid.foldl aesForward (ofBytes x ^^^ ks.headD 0)) (ks.getLastD 0))
def aesInvWith (ks : List Nat) (x : List Byte) : List Byte :=
  let mid := ((ks.drop 1).dropLast).reverse
  toBytes 16 (aesInvFinal (mid.foldl aesInverse (ofBytes x ^^^ ks.getLastD 0)) (ks.headD 0))
def aesBlock (key x : List Byte) : List Byte := aesWith (aesKeys key) x
def aesInvBlock (key x : List Byte) : List Byte := aesInvWith (aesKeys key) x

/-- n bytes of the AES-CTR keystream from a counter block, counted as a 128-bit big-endian integer (09, Table 9.9). -/
def ctrStream (ks : List Nat) (counter n : Nat) : List Byte :=
  ((List.range ((n + 15) / 16)).flatMap (fun i => aesWith ks (beBytes 16 ((counter + i) % 2 ^ 128)))).take n
def aesCtr (key counter data : List Byte) : List Byte := xorBytes data (ctrStream (aesKeys key) (ofBe counter) data.length)

/-! ## GCM (SP 800-38D), with a 12-byte IV and a 16-byte tag -/

/-- Product in the field of GCM: bit 0 of the block is its leftmost bit. -/
def ghashMul (x y : Nat) : Nat :=
  ((List.range 128).foldl (fun (a : Nat × Nat) i =>
    let z := if bitOf x (127 - i) then a.1 ^^^ a.2 else a.1
    let v := if a.2 % 2 = 1 then (a.2 / 2) ^^^ (0xE1 * 2 ^ 120) else a.2 / 2
    (z, v)) (0, y)).1

def ghash (h : Nat) : (fuel : Nat) → Nat → List Byte → Nat
  | 0, y, _ => y
  | f + 1, y, bs => if bs = [] then y else
      let b := bs.take 16
      ghash h f (ghashMul (y ^^^ ofBe (b ++ zeros (16 - b.length))) h) (bs.drop 16)

def padBlock (l : List Byte) : List Byte := l ++ zeros (roundUp l.length 16 - l.length)

def gcmTag (ks : List Nat) (iv aad ct : List Byte) : List Byte :=
  let h := ofBe (aesWith ks (zeros 16))
  let m := padBlock aad ++ padBlock ct ++ beBytes 8 (8 * aad.length) ++ beBytes 8 (8 * ct.length)
  xorBytes (beBytes 16 (ghash h (m.length / 16 + 1) 0 m)) (aesWith ks (iv ++ [0, 0, 0, 1]))

/-- The keystream of GCM counts the last 32 bits of the block only. -/
def gcmStream (ks : List Nat) (iv : List Byte) (n : Nat) : List Byte :=
  ((List.range ((n + 15) / 16)).flatMap (fun i => aesWith ks (iv ++ beBytes 4 (i + 2)))).take n
def gcmSeal (key iv aad pt : List Byte) : List Byte :=
  let ks := aesKeys key
  let ct := xorBytes pt (gcmStream ks iv pt.length)
  ct ++ gcmTag ks iv aad ct
/-- Open ciphertext and tag; none when the tag fails. -/
def gcmOpen (key iv aad ct : List Byte) : Option (List Byte) :=
  let ks := aesKeys key
  let body := ct.take (ct.length - 16)
  if ct.length < 16 ∨ gcmTag ks iv aad body ≠ ct.drop (ct.length - 16) then none
  else some (xorBytes body (gcmStream ks iv body.length))

/-! ## XTS (IEEE 1619), one data unit with ciphertext stealing -/

/-- The tweak of the next block: times α. -/
def xtsNext (t : Nat) : Nat := if bitOf t 127 then (2 * t) % 2 ^ 128 ^^^ 0x87 else 2 * t
def xtsBlock (f : List Byte → List Byte) (t : Nat) (b : List Byte) : List Byte := xorBytes (f (xorBytes b (toBytes 16 t))) (toBytes 16 t)
def xtsRun (f : List Byte → List Byte) : (n t : Nat) → List Byte → List Byte
  | 0, _, _ => []
  | n + 1, t, bs => xtsBlock f t (bs.take 16) ++ xtsRun f n (xtsNext t) (bs.drop 16)
def xtsTweakAt (t : Nat) : (n : Nat) → Nat
  | 0 => t
  | n + 1 => xtsNext (xtsTweakAt t n)

/-- The key's first half encrypts the data, its second half the tweak (09, Table 9.9). `dec` runs the inverse; in stealing the last two tweaks then
change places. -/
def aesXts (dec : Bool) (key tweak data : List Byte) : List Byte :=
  let half := key.length / 2
  let ks := aesKeys (key.take half)
  let f := if dec then aesInvWith ks else aesWith ks
  let t := ofBytes (aesBlock (key.drop half) tweak)
  let full := data.length / 16
  let rest := data.length % 16
  if rest = 0 then xtsRun f full t data
  else
    let head := xtsRun f (full - 1) t data
    let a := (data.drop (16 * (full - 1))).take 16
    let tail := data.drop (16 * full)
    let ta := xtsTweakAt t (full - 1)
    let tb := xtsNext ta
    let first := xtsBlock f (if dec then tb else ta) a
    let second := xtsBlock f (if dec then ta else tb) (tail ++ first.drop rest)
    head ++ second ++ first.take rest

/-! ## Key wrap (SP 800-38F; RFC 3394, RFC 5649) -/

/-- One step t of W on (A, registers): the first register moves to the end. -/
def kwStep (ks : List Nat) (t : Nat) (s : List Byte × List (List Byte)) : List Byte × List (List Byte) :=
  let b := aesWith ks (s.1 ++ s.2.headD [])
  (xorBytes (b.take 8) (beBytes 8 t), s.2.drop 1 ++ [b.drop 8])
def kwUnstep (ks : List Nat) (t : Nat) (s : List Byte × List (List Byte)) : List Byte × List (List Byte) :=
  let b := aesInvWith ks (xorBytes s.1 (beBytes 8 t) ++ s.2.getLastD [])
  (b.take 8, b.drop 8 :: s.2.dropLast)

def halves (bs : List Byte) : List (List Byte) := (List.range (bs.length / 8)).map (fun i => (bs.drop (8 * i)).take 8)

/-- W and its inverse over a first half-block and the rest, of at least two half-blocks. -/
def kwW (key a rest : List Byte) : List Byte :=
  let ks := aesKeys key
  let n := rest.length / 8
  let s := (List.range (6 * n)).foldl (fun s i => kwStep ks (i + 1) s) (a, halves rest)
  s.1 ++ s.2.flatten
def kwUnW (key ct : List Byte) : List Byte × List Byte :=
  let ks := aesKeys key
  let n := ct.length / 8 - 1
  let s := (List.range (6 * n)).foldl (fun s i => kwUnstep ks (6 * n - i) s) (ct.take 8, halves (ct.drop 8))
  (s.1, s.2.flatten)

def kwWrap (key pt : List Byte) : List Byte := kwW key (List.replicate 8 0xA6) pt
def kwUnwrap (key ct : List Byte) : Option (List Byte) :=
  let r := kwUnW key ct
  if r.1 = List.replicate 8 (0xA6 : Byte) then some r.2 else none

def kwpAiv (n : Nat) : List Byte := [0xA6, 0x59, 0x59, 0xA6] ++ beBytes 4 n
def kwpWrap (key pt : List Byte) : List Byte :=
  let p := pt ++ zeros (roundUp pt.length 8 - pt.length)
  if p.length = 8 then aesBlock key (kwpAiv pt.length ++ p) else kwW key (kwpAiv pt.length) p
def kwpUnwrap (key ct : List Byte) : Option (List Byte) :=
  let r := if ct.length = 16 then (let b := aesInvBlock key ct; (b.take 8, b.drop 8)) else kwUnW key ct
  let n := ofBe (r.1.drop 4)
  if r.1.take 4 = ([0xA6, 0x59, 0x59, 0xA6] : List Byte) ∧ n ≤ r.2.length ∧ r.2.length < n + 8 ∧ (r.2.drop n).all (fun b => b == 0)
  then some (r.2.take n) else none

/-! ## CMAC (SP 800-38B) and the KDF of IEEE 802.1X-2020 -/

/-- Doubling in the field of CMAC. -/
def cmacDouble (x : Nat) : Nat := if bitOf x 127 then (2 * x) % 2 ^ 128 ^^^ 0x87 else 2 * x

def cbcMac (ks : List Nat) : (n : Nat) → List Byte → List Byte → List Byte
  | 0, x, _ => x
  | n + 1, x, bs => cbcMac ks n (aesWith ks (xorBytes x (bs.take 16))) (bs.drop 16)

def aesCmac (key m : List Byte) : List Byte :=
  let ks := aesKeys key
  let l := ofBe (aesWith ks (zeros 16))
  let n := max 1 ((m.length + 15) / 16)
  let last := m.drop (16 * (n - 1))
  let k1 := cmacDouble l
  let tail := if last.length = 16 then xorBytes last (beBytes 16 k1)
    else xorBytes (last ++ [0x80] ++ zeros (15 - last.length)) (beBytes 16 (cmacDouble k1))
  aesWith ks (xorBytes (cbcMac ks (n - 1) (zeros 16) m) tail)

/-- The AES-CMAC counter-mode KDF of IEEE 802.1X-2020: an 8-bit counter, the label, a zero byte, the context, and the length in bits as 16 bits. -/
def kdfCmac (key label context : List Byte) (n : Nat) : List Byte :=
  ((List.range ((n + 15) / 16)).flatMap (fun i =>
    aesCmac key ([BitVec.ofNat 8 (i + 1)] ++ label ++ [0] ++ context ++ beBytes 2 (8 * n)))).take n

/-! ## ChaCha20-Poly1305 (RFC 8439) -/

def w32Add (x y : Nat) : Nat := (x + y) % 2 ^ 32
def w32Rot (x n : Nat) : Nat := ((x <<< n) ||| (x >>> (32 - n))) % 2 ^ 32

/-- A quarter round on words a, b, c, d of the state. -/
def chachaQuarter (s : List Nat) (q : Nat × Nat × Nat × Nat) : List Nat :=
  let a := s.getD q.1 0
  let b := s.getD q.2.1 0
  let c := s.getD q.2.2.1 0
  let d := s.getD q.2.2.2 0
  let a := w32Add a b
  let d := w32Rot (d ^^^ a) 16
  let c := w32Add c d
  let b := w32Rot (b ^^^ c) 12
  let a := w32Add a b
  let d := w32Rot (d ^^^ a) 8
  let c := w32Add c d
  let b := w32Rot (b ^^^ c) 7
  (((s.set q.1 a).set q.2.1 b).set q.2.2.1 c).set q.2.2.2 d

def chachaDouble (s : List Nat) : List Nat :=
  [(0, 4, 8, 12), (1, 5, 9, 13), (2, 6, 10, 14), (3, 7, 11, 15), (0, 5, 10, 15), (1, 6, 11, 12), (2, 7, 8, 13), (3, 4, 9, 14)].foldl
    chachaQuarter s

def leWords (n : Nat) (bs : List Byte) : List Nat := (List.range n).map (fun i => ofBytes ((bs.drop (4 * i)).take 4))

def chachaBlock (key nonce : List Byte) (counter : Nat) : List Byte :=
  let s := [0x61707865, 0x3320646E, 0x79622D32, 0x6B206574] ++ leWords 8 key ++ [counter % 2 ^ 32] ++ leWords 3 nonce
  (List.zipWith w32Add ((List.range 10).foldl (fun s _ => chachaDouble s) s) s).flatMap (toBytes 4)

def chacha20 (key nonce : List Byte) (counter : Nat) (data : List Byte) : List Byte :=
  xorBytes data ((List.range ((data.length + 63) / 64)).flatMap (fun i => chachaBlock key nonce (counter + i)))

def polyAcc (r : Nat) : (fuel : Nat) → Nat → List Byte → Nat
  | 0, a, _ => a
  | f + 1, a, bs => if bs = [] then a else
      polyAcc r f ((a + ofBytes (bs.take 16 ++ [1])) * r % (2 ^ 130 - 5)) (bs.drop 16)

def poly1305 (key m : List Byte) : List Byte :=
  let r := ofBytes (key.take 16) &&& 0x0FFFFFFC0FFFFFFC0FFFFFFC0FFFFFFF
  toBytes 16 (polyAcc r (m.length / 16 + 1) 0 m + ofBytes (key.drop 16))

def chachaTag (key nonce aad ct : List Byte) : List Byte :=
  poly1305 ((chachaBlock key nonce 0).take 32) (padBlock aad ++ padBlock ct ++ toBytes 8 aad.length ++ toBytes 8 ct.length)
def chachaSeal (key nonce aad pt : List Byte) : List Byte :=
  let ct := chacha20 key nonce 1 pt
  ct ++ chachaTag key nonce aad ct
def chachaOpen (key nonce aad ct : List Byte) : Option (List Byte) :=
  let body := ct.take (ct.length - 16)
  if ct.length < 16 ∨ chachaTag key nonce aad body ≠ ct.drop (ct.length - 16) then none else some (chacha20 key nonce 1 body)

end Sys2Proof
end

