-- ==== Sys2Proof/Machine/Access.lean ====
section
/-!
DEFINITION. Sys2Proof/Machine/Access.lean: the one way in which each table of the device is read and written.
-/
namespace Sys2Proof.Machine

/-- The key of queue `n` of allotment `a` in the device-wide tables. -/
def qKey (a n : Nat) : Nat := a * 1024 + n

def Device.allot (d : Device) (n : Nat) : Allot := Tbl.get {} d.allots n
def Device.updAllot (d : Device) (n : Nat) (f : Allot → Allot) : Device :=
  { d with allots := Tbl.upd {} d.allots n f }
def Device.sq (d : Device) (a n : Nat) : SubQueue := Tbl.get {} d.sqs (qKey a n)
def Device.updSq (d : Device) (a n : Nat) (f : SubQueue → SubQueue) : Device :=
  { d with sqs := Tbl.upd {} d.sqs (qKey a n) f }
def Device.cq (d : Device) (a n : Nat) : CompQueue := Tbl.get {} d.cqs (qKey a n)
def Device.updCq (d : Device) (a n : Nat) (f : CompQueue → CompQueue) : Device :=
  { d with cqs := Tbl.upd {} d.cqs (qKey a n) f }
def Device.adm (d : Device) (a : Nat) : AdmQueue := (d.allot a).adm
def Device.updAdm (d : Device) (a : Nat) (f : AdmQueue → AdmQueue) : Device :=
  d.updAllot a (fun t => { t with adm := f t.adm })
def Device.updNtc (d : Device) (a : Nat) (f : NoticeRing → NoticeRing) : Device :=
  d.updAllot a (fun t => { t with ntc := f t.ntc })
def Device.cmd (d : Device) (k : Nat) : Option Cmd := Tbl.find d.cmds k
def Device.updCmd (d : Device) (k : Nat) (f : Cmd → Cmd) : Device :=
  { d with cmds := Tbl.modify d.cmds k f }
def Device.ctx (d : Device) (n : Nat) : Ctx := Tbl.get {} d.ctxs n
def Device.updCtx (d : Device) (n : Nat) (f : Ctx → Ctx) : Device :=
  { d with
    ctxs := Tbl.upd {} d.ctxs n f
    cacheDirty := if d.cache.contains n && !d.cacheDirty.contains n then d.cacheDirty ++ [n] else d.cacheDirty }
def Device.weir (d : Device) (n : Nat) : Weir := Tbl.get {} d.weirs n
def Device.updWeir (d : Device) (n : Nat) (f : Weir → Weir) : Device :=
  { d with weirs := Tbl.upd {} d.weirs n f }
def Device.eng (d : Device) (e : Nat) : Engine := Tbl.get {} d.engs e
def Device.updEng (d : Device) (e : Nat) (f : Engine → Engine) : Device :=
  { d with engs := Tbl.upd {} d.engs e f }
def Device.updArch (d : Device) (e : Nat) (f : EngArch → EngArch) : Device :=
  d.updEng e (fun g => { g with arch := f g.arch })
def Device.lat (d : Device) (l : Nat) : Lateral := Tbl.get {} d.lats l
def Device.updLat (d : Device) (l : Nat) (f : Lateral → Lateral) : Device :=
  { d with lats := Tbl.upd {} d.lats l f }
def Device.liu (d : Device) (k : Nat) : Liu := Tbl.get {} d.lius k
def Device.updLiu (d : Device) (k : Nat) (f : Liu → Liu) : Device :=
  { d with lius := Tbl.upd {} d.lius k f }
def Device.dig (d : Device) (k : Nat) : Dig := Tbl.get {} d.digs k
def Device.updDig (d : Device) (k : Nat) (f : Dig → Dig) : Device :=
  { d with digs := Tbl.upd {} d.digs k f }
def Device.gate (d : Device) (g : Nat) : Gate := Tbl.get {} d.gates g
def Device.updGate (d : Device) (g : Nat) (f : Gate → Gate) : Device :=
  { d with gates := Tbl.upd {} d.gates g f }
def Device.drbg (d : Device) (n : Nat) : Drbg := Tbl.get {} d.whd.inst n
def Device.updDrbg (d : Device) (n : Nat) (f : Drbg → Drbg) : Device :=
  { d with whd := { d.whd with inst := Tbl.upd {} d.whd.inst n f } }
def Device.slot (d : Device) (n : Nat) : CisSlot := Tbl.get {} d.cis.slots n
def Device.updSlot (d : Device) (n : Nat) (f : CisSlot → CisSlot) : Device :=
  { d with cis := { d.cis with slots := Tbl.upd {} d.cis.slots n f } }
def Device.unit (d : Device) (c i : Nat) : UnitRec := Tbl.get {} d.flt.units (c * 256 + i)
def Device.updUnit (d : Device) (c i : Nat) (f : UnitRec → UnitRec) : Device :=
  { d with flt := { d.flt with units := Tbl.upd {} d.flt.units (c * 256 + i) f } }
def Device.levSrc (d : Device) (s : Nat) : LevSource := Tbl.get {} d.lev.src s
def Device.updLevSrc (d : Device) (s : Nat) (f : LevSource → LevSource) : Device :=
  { d with lev := { d.lev with src := Tbl.upd {} d.lev.src s f } }
def Device.peer (d : Device) (m : Nat) : Peer := Tbl.get {} d.ws.peers m
def Device.updPeer (d : Device) (m : Nat) (f : Peer → Peer) : Device :=
  { d with ws := { d.ws with peers := Tbl.upd {} d.ws.peers m f } }

/-- The stored word of a host-writable register, by BAR0 offset. -/
def Device.reg (d : Device) (o : Nat) : Nat := Tbl.get 0 d.regs o
def Device.setReg (d : Device) (o v : Nat) : Device := { d with regs := Tbl.set 0 d.regs o v }
/-- A counter that a read clears, by BAR0 offset (and bit position of its field, ×2^32). -/
def Device.count (d : Device) (o : Nat) : Nat := Tbl.get 0 d.cnt o
/-- Count n more, saturating at `m` (02, 04, 05: counters saturate). -/
def Device.bump (d : Device) (o : Nat) (m : Nat := 0xFFFF_FFFF) (n : Nat := 1) : Device :=
  { d with cnt := Tbl.upd 0 d.cnt o (fun x => satAdd m x n) }
/-- Note a high-water mark. -/
def Device.high (d : Device) (o v : Nat) : Device :=
  { d with cnt := Tbl.upd 0 d.cnt o (fun x => if x < v then v else x) }
/-- Read and clear (00 R6, RC). -/
def Device.clearCount (d : Device) (o : Nat) : Device := { d with cnt := Tbl.set 0 d.cnt o 0 }

/-- Put out something. -/
def Device.emit (d : Device) (o : Output) : Device := { d with out := d.out ++ [o] }

/-- Take one free value of width w: the opaque value of the counter, which advances. -/
def Device.freeVal (d : Device) (w : Nat) : BitVec w := Config.freeBits w d.free
def Device.tookFree (d : Device) (n : Nat := 1) : Device := { d with free := d.free + n }

/-- n free bytes, the values of n successive counts. -/
def Device.freeBytes (d : Device) (n : Nat) : List Byte := (List.range n).map (fun i => Config.freeBits 8 (d.free + i))

/-- Reservoir contents (04 R100): n bytes from address a. -/
def Device.rsvRead (d : Device) (a n : Nat) : List Byte := (List.range n).map (fun i => Tbl.get 0 d.rsv.mem (a + i))

/-- Bytes written one after another into a byte table. -/
def writeBytes (t : Tbl Byte) : (a : Nat) → List Byte → Tbl Byte
  | _, [] => t
  | a, b :: bs => writeBytes (Tbl.set 0 t a b) (a + 1) bs

/-- n bytes of a byte table from address a. -/
def readBytes (t : Tbl Byte) (a n : Nat) : List Byte := (List.range n).map (fun i => Tbl.get 0 t (a + i))

def Device.rsvWrite (d : Device) (a : Nat) (bs : List Byte) : Device :=
  { d with rsv := { d.rsv with mem := writeBytes d.rsv.mem a bs } }

/-- A byte table without the bytes of [a, a+n): they read 0. -/
def clearRange (t : Tbl Byte) (a n : Nat) : Tbl Byte := t.filter (fun c => !(decide (a ≤ c.1) && decide (c.1 < a + n)))

def Device.rsvClear (d : Device) (a n : Nat) : Device :=
  { d with rsv := { d.rsv with mem := clearRange d.rsv.mem a n } }

/-- The Lateral of a physical engine (05, Table 5.3): p = 9L + s. -/
def latOf (e : Nat) : Nat := e / 9

/-- Engines exposed per Lateral (00, Table 0.1). -/
def exposed (p : Part) : Nat := match p with
  | .kq128 => 8
  | .kq96 => 6

/-- All physical engines of a Lateral. -/
def enginesOf (l : Nat) : List Nat := (List.range 9).map (fun s => 9 * l + s)

/-- An engine that is in service (05 R113). -/
def EngState.inService (s : EngState) : Bool := match s with
  | .idle | .running | .saving | .restoring => true
  | _ => false

/-- LAT_STATUS of a Lateral (05, Table 5.12): engines in service. -/
def Device.latInService (d : Device) (l : Nat) : Nat := countWhere (fun e => (d.eng e).st.inService) (enginesOf l)
def Device.latSpares (d : Device) (l : Nat) : Nat := countWhere (fun e => (d.eng e).st = .spare) (enginesOf l)
def Device.latFenced (d : Device) (l : Nat) : Nat :=
  countWhere (fun e => (d.eng e).st = .fenced || (d.eng e).st = .underTest) (enginesOf l)
/-- Fewer engines in service than the Lateral exposes, those that a spare on its way replaces left out (05 Table 5.12, 15 R317). -/
def Device.latShort (d : Device) (l : Nat) : Bool := decide (d.latInService l + (d.lat l).spareFor.length < exposed d.part)
def Device.anyShort (d : Device) : Bool := (List.range 16).any (fun l => d.latShort l)

/-- Commands of allotment n in flight (14, Table 14.8 USED). -/
def Device.inflight (d : Device) (n : Nat) : Nat := countWhere (fun c => c.2.allot = n) d.cmds

/-- Contexts that count against the quota of allotment n: those not FREE, and those that hold a pending migration (04 R87; 17 R360). -/
def Device.ctxTaken (d : Device) (n : Nat) : Nat :=
  countWhere (fun c => (!decide (c.2.st = .free) || c.2.pending) && decide (c.2.allot = n)) d.ctxs

/-- Contexts of allotment n not FREE (04, Table 4.14). -/
def Device.ctxUsed (d : Device) (n : Nat) : Nat :=
  countWhere (fun c => !decide (c.2.st = .free) && decide (c.2.allot = n)) d.ctxs

end Sys2Proof.Machine
end

