-- ==== Sys2Proof/Machine/CtrDrbg.lean ====
section
/-!
DEFINITION. Sys2Proof/Machine/CtrDrbg.lean: CTR_DRBG of SP 800-90A with AES-256 and the derivation function (12 R258): working states in, working
states and output out.
-/
namespace Sys2Proof.Machine

/-- BCC: the chaining value of AES-CBC over whole blocks. -/
def drbgChain (ks : List Nat) : (fuel : Nat) → List Byte → List Byte → List Byte
  | 0, c, _ => c
  | f + 1, c, bs => if bs = [] then c else drbgChain ks f (aesWith ks (xorBytes c (bs.take 16))) (bs.drop 16)

/-- Block_Cipher_df, for 48 bytes. -/
def drbgDerive (input : List Byte) : List Byte :=
  let s := beBytes 4 input.length ++ beBytes 4 48 ++ input ++ [0x80]
  let s := s ++ zeros ((16 - s.length % 16) % 16)
  let ks := aesKeys ((List.range 32).map (BitVec.ofNat 8))
  let t := (List.range 3).flatMap (fun i =>
    let m := beBytes 4 i ++ zeros 12 ++ s
    drbgChain ks m.length (zeros 16) m)
  let ks := aesKeys (t.take 32)
  let x0 := aesWith ks (t.drop 32)
  let x1 := aesWith ks x0
  x0 ++ x1 ++ aesWith ks x1

/-- n bytes of blocks from V + 1 on. -/
def DrbgState.blocks (g : DrbgState) (n : Nat) : List Byte := ctrStream (aesKeys g.key) (ofBe g.v + 1) n

/-- CTR_DRBG_Update. -/
def DrbgState.update (g : DrbgState) (v : Nat) (provided : List Byte) : DrbgState :=
  let t := xorBytes (ctrStream (aesKeys g.key) (v + 1) 48) provided
  { key := t.take 32, v := t.drop 32 }

/-- Instantiate: entropy input, nonce, personalization string. -/
def drbgInstantiate (entropy nonce pers : List Byte) : DrbgState :=
  DrbgState.update { key := zeros 32, v := zeros 16 } 0 (drbgDerive (entropy ++ nonce ++ pers))

/-- Reseed, with no additional input. -/
def DrbgState.reseed (g : DrbgState) (entropy : List Byte) : DrbgState := g.update (ofBe g.v) (drbgDerive entropy)

/-- Generate n bytes, with no additional input. -/
def DrbgState.generate (g : DrbgState) (n : Nat) : List Byte × DrbgState :=
  (g.blocks n, g.update (ofBe g.v + (n + 15) / 16) (zeros 48))

end Sys2Proof.Machine
end

