-- ==== Sys2Proof/Machine/KeyTree.lean ====
section
/-!
DEFINITION. Sys2Proof/Machine/KeyTree.lean: the chain of keys from the fuses to the units (13 R264 to R267, Table 13.1), and the MRAM copies of
Cistern slots (13 R270, Table 13.4).
-/
namespace Sys2Proof.Machine

/-! ## Derivation (13 R264) -/

/-- KDF(K, label, context), n bytes. -/
def kdf (key : List Byte) (label : String) (context : List Byte) (n : Nat) : List Byte := kmac256 key context n (ascii label)

/-- The Device Unique Root, and the Test Root that takes its place in Debug (R267). -/
def deviceRoot : List Byte := kmac256 (toBytes 32 Config.fuseSecret.toNat) (toBytes 32 Config.pufResponse.toNat) 32 (ascii "KQ DUR")
def testRoot : List Byte := toBytes 32 (sha3_256 (ascii "Lyngaen Krytax Test Root")).toNat

/-- The root and the master key enter the custody key registers. -/
def setRoots (dur ker : List Byte) (d : Device) : Device := { d with cis := { d.cis with dur := dur, master := kmac256 dur ker 32 (ascii "KQ MASTER") } }

/-- The KER as its shares give it. -/
def Cistern.ker (c : Cistern) : List Byte := xorBytes c.kerA c.kerB
/-- The KER is erased. -/
def Cistern.noKer (c : Cistern) : Cistern := { c with
  kerPresent := false
  kerA := []
  kerB := [] }

def Device.kCis (d : Device) : List Byte := kdf d.cis.master "KQ CISTERN" [] 32
def Device.allotRoot (d : Device) (n : Nat) : List Byte := kdf d.cis.master "KQ ALLOT" (toBytes 1 n) 32
def Device.kObj (d : Device) (n : Nat) : List Byte := kdf (d.allotRoot n) "KQ OBJECT" [] 32
def Device.kSsx (d : Device) : List Byte := kdf d.cis.master "KQ SS XTS" [] 64
def Device.kTree (d : Device) : List Byte := kdf d.cis.master "KQ SS TREE" [] 32
/-- The check value of the KER (R266). -/
def Device.kerCheckValue (d : Device) : List Byte := kdf d.cis.master "KQ KER CHECK" [] 16

/-- The unit keys of allotment n by class, 0 Reservoir, 1 state wrapping, 2 save area; for n = 64 the Reservoir's device key. They change with the Flume
boot counter (R265). -/
def Device.unitKey (d : Device) (n cls : Nat) : List Byte :=
  let b := toBytes 8 d.fl.boot
  if n = 64 then kdf d.cis.master "KQ RSV DEVICE" b 64
  else match cls with
    | 0 => kdf (d.allotRoot n) "KQ RSV" b 64
    | 1 => kdf (d.allotRoot n) "KQ STATE WRAP" b 32
    | _ => kdf (d.allotRoot n) "KQ SAVE" b 32

/-- What a key register of the compute die holds. -/
def Device.keyReg (d : Device) (n cls : Nat) : List Byte := Tbl.get [] d.rsv.keyRegs (4 * n + cls)

/-! ## Class 2 randomness (12 R258, R259) -/

/-- The request that an instance serves next: the lowest class, then arrival. -/
def Drbg.top (g : Drbg) : Option EntReq := leastBy (fun r => r.cls) g.queue

/-- Pool bytes the instance needs before it serves on: 64 to be instantiated, 48 to reseed, 0 for nothing. -/
def Drbg.poolNeed (g : Drbg) : Nat := match g.st with
  | 0 => 64
  | 1 => (match g.top with
    | some r => if r.reseed || decide (65536 ≤ g.requests) then 48 else 0
    | none => 0)
  | 2 => 48
  | _ => 0

/-- The personalization string: SHA3-256 of the fused device identity, then the instance number. -/
def drbgPersonal (n : Nat) : List Byte := toBytes 32 (sha3_256 (toBytes 32 Config.identity.toNat)).toNat ++ [BitVec.ofNat 8 n]

/-- Instantiation or reseed from the pool, whose bytes are free values: 48 of entropy input, and 16 of nonce to instantiate. -/
def seedDrbg (n : Nat) (d : Device) : Device :=
  let bs := d.freeBytes 64
  let fresh := decide ((d.drbg n).st = 0)
  let d := { d with whd := { d.whd with pool := d.whd.pool - (if fresh then 64 else 48) } }
  (d.updDrbg n (fun g => { g with
    st := 1
    requests := 0
    reseeds := if fresh then g.reseeds else satAdd 0xFFFF_FFFF g.reseeds 1
    work := if fresh then drbgInstantiate (bs.take 48) (bs.drop 48) (drbgPersonal n) else g.work.reseed (bs.take 48) })).tookFree 64

/-- The instance that serves class 2: the one with the fewest bytes queued, the lower number on a tie. -/
def Device.leastQueued (d : Device) : Option Nat :=
  leastBy (fun n => sumBy (fun x => x.amount) (d.drbg n).queue) ((List.range 16).filter (fun n => decide ((d.drbg n).st ≠ 3)))

/-- The custody die's own class 2 request of n bytes, at most 256; free values while no instance has been instantiated. -/
def Device.custodyRandom (d : Device) (n : Nat) : List Byte × Device :=
  match d.leastQueued with
  | none => (d.freeBytes n, d.tookFree n)
  | some i =>
    if !d.boot.entropyReady then (d.freeBytes n, d.tookFree n) else
    let d := if (d.drbg i).st = 1 ∧ (d.drbg i).requests < 65536 then d else seedDrbg i d
    let out := (d.drbg i).work.generate n
    (out.1, d.updDrbg i (fun g => { g with requests := g.requests + 1, work := out.2 }))

/-! ## MRAM copies of a slot (13 R270) -/

/-- The pad of a copy: of slot s, generation g, copy c. -/
def slotPad (kcis : List Byte) (s g c : Nat) : List Byte := kdf kcis "KQ SLOT PAD" (toBytes 2 s ++ toBytes 4 g ++ toBytes 1 c) 64

/-- A copy of 64 bytes of material under the fresh share A. -/
def sealCopy (kcis : List Byte) (s c : Nat) (block : List Byte) (g : Nat) (material a : List Byte) : SlotCopy :=
  let b := xorBytes (xorBytes (padTo 64 material) (slotPad kcis s g c)) a
  let head := block ++ zeros 16 ++ a ++ b ++ toBytes 4 g
  { block := block, a := a, b := b, gen := g, tag := kdf kcis "KQ SLOT TAG" (head ++ toBytes 2 s ++ toBytes 1 c) 16 }

/-- The 64 bytes of material that a copy holds. -/
def openCopy (kcis : List Byte) (s c : Nat) (x : SlotCopy) : List Byte := xorBytes (xorBytes x.a x.b) (slotPad kcis s x.gen c)

/-- The copy in force, and the other. -/
def CisSlot.inForce (s : CisSlot) : Option SlotCopy := if s.copy = 0 then s.copy0 else s.copy1
def CisSlot.other (s : CisSlot) : Option SlotCopy := if s.copy = 0 then s.copy1 else s.copy0

/-- The material of a slot. -/
def Device.slotMaterial (d : Device) (n : Nat) : List Byte :=
  let s := d.slot n
  if s.attr.persistent then (match s.inForce with
    | some x => (openCopy d.kCis n s.copy x).take s.attr.len
    | none => [])
  else xorBytes s.shareA s.shareB

end Sys2Proof.Machine
end

