-- ==== Sys2Proof/Machine/MaskOps.lean ====
section
/-!
DEFINITION. Sys2Proof/Machine/MaskOps.lean: bits drawn from an engine's mask generator (08 R181, R182). A block is the 1,344-bit rate of the
state; the generator runs ahead into a FIFO of four blocks.
-/
namespace Sys2Proof.Machine

/-- Bits of one block (08 R181). -/
def mgRate : Nat := 1344
/-- Blocks at which the generator stops, and at which it asks for material (08 R182). -/
def mgLimit : Nat := 2 ^ 24
def mgAsk : Nat := 2 ^ 24 - 2 ^ 20

/-- Bits that the FIFO of 672 bytes holds (08 R181). -/
def mgFifo : Nat := 5376

/-- Bits the generator can still give before it stops: what its FIFO holds, and the blocks still to be produced. -/
def mgRoom (g : MaskGen) : Nat := g.fifoBits + (if g.seeded && !g.atLimit then (mgLimit - g.blocks) * mgRate else 0)

/-- One block is produced into the FIFO, the earlier bits lower (08 R181, R182); a generator that is unseeded or stopped produces none. -/
def mgProduce (g : MaskGen) : MaskGen :=
  if g.seeded && !g.atLimit && decide (g.blocks < mgLimit) then
    { g with
      fifo := g.fifo + (g.state.toNat % 2 ^ mgRate) * 2 ^ g.fifoBits
      fifoBits := g.fifoBits + mgRate
      blocks := g.blocks + 1
      state := keccakBits 24 g.state }
  else g

/-- The generator runs ahead until its FIFO has no room for a block. -/
def mgFill : (fuel : Nat) → MaskGen → MaskGen
  | 0, g => g
  | f + 1, g => if g.fifoBits + mgRate ≤ mgFifo then mgFill f (mgProduce g) else g

/-- The next n bits of the stream, the first lowest, and the generator after them: from the FIFO, block by block. -/
def mgTake : (fuel n : Nat) → MaskGen → Nat × MaskGen
  | 0, _, g => (0, g)
  | f + 1, n, g =>
    if n ≤ g.fifoBits then (g.fifo % 2 ^ n, { g with fifo := g.fifo / 2 ^ n, fifoBits := g.fifoBits - n })
    else
      let r := mgTake f (n - g.fifoBits) (mgProduce { g with fifo := 0, fifoBits := 0 })
      (g.fifo + 2 ^ g.fifoBits * r.1, r.2)

/-- n bits leave the generator. -/
def mgSpend (n : Nat) (g : MaskGen) : MaskGen := (mgTake (n / mgRate + 2) n g).2
/-- The value of the next n bits. -/
def mgBits (n : Nat) (g : MaskGen) : Nat := (mgTake (n / mgRate + 2) n g).1
/-- The generator can give n bits now. -/
def mgCan (n : Nat) (g : MaskGen) : Bool := decide (n ≤ mgRoom g)

end Sys2Proof.Machine
end

