-- ==== Sys2Proof/Machine/Ops.lean ====
section
/-!
DEFINITION. Sys2Proof/Machine/Ops.lean: the named operations that every family shares: event records (16 R346 to R348), notices (02 R54,
R55), interrupts (02 R56, R57), host writes and the Headgate check (14 R294 to R303), Flume messages (01 R12).
-/
namespace Sys2Proof.Machine

/-! ## The event recorder -/

/-- An event record with SEQ 0 (16, Table 16.7). -/
def mkRecord (code source allot : Nat) (pub : Bool) (time p0 p1 p2 p3 : Nat) : Rec32 :=
  BitVec.ofNat 256 (pack [(2, code), (1, source), (1, allot % 64 + 64 * b2n pub), (8, time), (4, p0), (4, p1), (4, p2),
    (4, p3), (4, 0)])

/-- SOURCE of a record that is neither a Levee nor a fault record (16, Table 16.7). -/
def custodySource : Nat := 0xFE
def computeSource : Nat := 0xFF

/-- Put a record into the areas under the next SEQ (16 R346, R347): the circular area keeps the last 8,192 since the
last clear, the Foundation area the records with SEQ 0 to 2,047. -/
def storeRecord (rec : Rec32) (d : Device) : Device :=
  let r := BitVec.ofNat 256 (rec.toNat % 2 ^ 224 + (d.evr.next % 2 ^ 32) * 2 ^ 224)
  let ring := d.evr.ring ++ [r]
  let full := decide (8192 < ring.length)
  { d with evr := { d.evr with
      next := (d.evr.next + 1) % 2 ^ 32
      ring := if full then ring.drop 1 else ring
      oldest := if full then (d.evr.oldest + 1) % 2 ^ 32 else d.evr.oldest
      foundation := if d.evr.next < 2048 ∧ Tbl.find d.evr.foundation d.evr.next = none
        then Tbl.put d.evr.foundation d.evr.next r else d.evr.foundation } }

/-- Entries of the append queue that are not yet in MRAM: an append takes 1 µs (16 R348). -/
def Device.queuedRecords (d : Device) : Nat := d.evr.queued - (d.time - d.evr.queuedAt) / 1000

/-- One more entry of the append queue. -/
def enqueueRecord (rec : Rec32) (d : Device) : Device :=
  let q := d.queuedRecords
  let d := { d with evr := { d.evr with queued := q + 1, queuedAt := if q = 0 then d.time else
    d.evr.queuedAt + ((d.time - d.evr.queuedAt) / 1000) * 1000 } }
  storeRecord rec d

/-- A custody-originated record: never dropped (16 R348). -/
def record (code allot : Nat) (pub : Bool) (p0 p1 p2 p3 : Nat) (d : Device) : Device :=
  enqueueRecord (mkRecord code custodySource allot pub d.time p0 p1 p2 p3) d

/-- A custody-originated record with its own SOURCE and time (16, Table 16.7: Levee sources and fault sources). -/
def recordAs (code source allot : Nat) (pub : Bool) (time p0 p1 p2 p3 : Nat) (d : Device) : Device :=
  enqueueRecord (mkRecord code source allot pub time p0 p1 p2 p3) d

/-! ## Flume messages -/

/-- The sublink that carries the message of a SEQ: with both up the transmitter spreads messages over both, else the one that is up carries all
(01 R10). -/
def Device.carrier (d : Device) (seq : Nat) : Nat :=
  if d.fl.sub0.up && d.fl.sub1.up then seq % 2 else if d.fl.sub1.up then 1 else 0

/-- A message as it is first sent: its direction's next SEQ, on its sublink (01 R10, R12). -/
def Device.flight (d : Device) (seq : Nat) (m : Msg) : Flight := { seq := seq, msg := m, sub := d.carrier seq, sent := d.time }

/-- Send a message to the custody die (01 R12: the next SEQ of its direction). -/
def toCustody (m : Msg) (d : Device) : Device :=
  { d with fl := { d.fl with
      toCustody := d.fl.toCustody ++ [d.flight d.fl.seqCustody m]
      seqCustody := d.fl.seqCustody + 1 } }

/-- Send a message to the compute die. -/
def toCompute (m : Msg) (d : Device) : Device :=
  { d with fl := { d.fl with
      toCompute := d.fl.toCompute ++ [d.flight d.fl.seqCompute m]
      seqCompute := d.fl.seqCompute + 1 } }

/-- The message that its die receives next (01 R12, SEQ order): the oldest of its direction, unless its
transmission was lost. -/
def nextMsg (l : List Flight) : Option Msg := match l with
  | [] => none
  | f :: _ => if f.lost then none else some f.msg

/-- Messages of a direction that may be under way at once: the receiver's reorder window (01 R12). -/
def reorderWindow : Nat := 64

/-- The message that leads its sublink: the first in the reorder window that the sublink carries and that has neither arrived nor been lost. -/
def leads (sub : Nat) (l : List Flight) : Option Flight :=
  firstWhere (fun f => decide (f.sub = sub) && !f.arrived && !f.lost) (l.take reorderWindow)

/-- The message of a SEQ has arrived early: its tag is checked, it is acknowledged and held in the reorder window (01 R12). -/
def holdEarly (seq : Nat) (l : List Flight) : List Flight := mapWhere (fun f => decide (f.seq = seq)) (fun f => { f with arrived := true }) l

/-- A message that arrives early on a sublink: one behind the oldest of its direction that leads its sublink and that `want` accepts. -/
def earlyArrival {α : Type} (want : Msg → Option α) (l : List Flight) : Option Flight :=
  firstWhere (fun f => (want f.msg).isSome) ([0, 1].filterMap (fun u => leads u l))

/-- Messages flow only over a trained Flume with a sublink up and CUS_CLK present (01 R11, R18). -/
def Device.flumeRuns (d : Device) : Bool := d.fl.trained && (d.fl.sub0.up || d.fl.sub1.up) && !d.fl.fallback

/-- A message has been received on a sublink, by the custody die or the compute die (01, Table 1.6). -/
def heard (sub : Nat) (custody : Bool) (d : Device) : Device :=
  let f (x : Sublink) : Sublink := if custody then { x with lastRx := d.time } else { x with lastRxCompute := d.time }
  if sub = 0 then { d with fl := { d.fl with sub0 := f d.fl.sub0 } } else { d with fl := { d.fl with sub1 := f d.fl.sub1 } }

/-- The sublink on which the oldest message of a direction now arrives; none when it was held in the reorder window. -/
def arrivesOn (l : List Flight) : Option Nat := match l with
  | [] => none
  | f :: _ => if f.arrived then none else some f.sub

/-- The custody die has taken its next message. -/
def tookCustody (d : Device) : Device :=
  let d := match arrivesOn d.fl.toCustody with
    | some u => heard u true d
    | none => d
  { d with fl := { d.fl with toCustody := d.fl.toCustody.drop 1, rxCustody := d.fl.rxCustody + 1 } }

/-- The compute die has taken its next message. -/
def tookCompute (d : Device) : Device :=
  let d := match arrivesOn d.fl.toCompute with
    | some u => heard u false d
    | none => d
  { d with fl := { d.fl with toCompute := d.fl.toCompute.drop 1, rxCompute := d.fl.rxCompute + 1 } }

/-- The custody die takes its next message when `want` accepts it; another that arrives early is held (01 R12). -/
def takeCustody {α : Type} (want : Msg → Option α) (d : Device) (k : α → Device → Device) : Device :=
  if d.flumeRuns then
    match (nextMsg d.fl.toCustody).bind want with
    | some x => k x (tookCustody d)
    | none => match earlyArrival want d.fl.toCustody with
      | some f => heard f.sub true { d with fl := { d.fl with toCustody := holdEarly f.seq d.fl.toCustody } }
      | none => d
  else d

/-- The compute die takes its next message when `want` accepts it; another that arrives early is held. -/
def takeCompute {α : Type} (want : Msg → Option α) (d : Device) (k : α → Device → Device) : Device :=
  if d.flumeRuns then
    match (nextMsg d.fl.toCompute).bind want with
    | some x => k x (tookCompute d)
    | none => match earlyArrival want d.fl.toCompute with
      | some f => heard f.sub false { d with fl := { d.fl with toCompute := holdEarly f.seq d.fl.toCompute } }
      | none => d
  else d

/-- The stamp of a notice or a record of the compute die (01 R19): the time of the last heartbeat and its own count since. -/
def Device.stamp (d : Device) : Nat := d.fl.computeTime

/-- A compute-originated record: it travels as EVR_APPEND (01, Table 1.5; 16 R348) with the compute die's stamp. -/
def recordCompute (code allot : Nat) (pub : Bool) (p0 p1 p2 p3 : Nat) (d : Device) : Device :=
  toCustody (.evrAppend (mkRecord code computeSource allot pub d.stamp p0 p1 p2 p3)) d

/-- A compute-originated fault record: SOURCE is the fault source (16, Table 16.7). -/
def recordComputeAs (code source allot : Nat) (p0 p1 p2 p3 : Nat) (d : Device) : Device :=
  toCustody (.evrAppend (mkRecord code source allot false d.stamp p0 p1 p2 p3)) d

/-- SOURCE of a fault record that follows from the fault of a SEQ: the source of its history record; 0xFE when no fault caused it or
the history no longer holds it. -/
def Device.seqSource (d : Device) (seq : Nat) : Nat :=
  match firstWhere (fun r => decide (bytesAt r 28 4 = seq)) d.flt.history with
  | some r => bytesAt r 0 1
  | none => custodySource

/-- SOURCE of a record about a unit: that of the fault that fenced it. -/
def Device.unitSource (d : Device) (cls idx : Nat) : Nat :=
  let u := d.unit cls idx
  if u.fenced && !u.byOwner then d.seqSource u.seq else custodySource

/-! ## Alerts (20 R422) -/

/-- A cause for a board-management alert arises: in the I3C form the target sends an IBI with the bitmap. -/
def raiseAlert (bit : Nat) (d : Device) : Device :=
  let d := { d with brd := { d.brd with alerts := d.brd.alerts ||| 2 ^ bit } }
  if d.brd.i3cAddr.isSome then d.emit (.ibi d.brd.alerts) else d

/-! ## Interrupts -/

def Allot.vec (t : Allot) (v : Nat) : MsixVec := Tbl.get {} t.vecs v

/-- Signal MSI-X vector v of function a (02 R56, R57): a masked vector sets its pending bit. -/
def signal (a v : Nat) (d : Device) : Device :=
  let t := d.allot a
  let m := t.vec v
  if !t.msixEnable then d
  else if t.funcMask || m.mask then
    d.updAllot a (fun t => { t with vecs := Tbl.upd {} t.vecs v (fun m => { m with pending := true }) })
  else d.emit (.msix a v m.addr m.data)

/-! ## Headgates -/

/-- Fields of a region descriptor (14, Table 14.4). -/
def descBase (r : Rec32) : Nat := bytesAt r 0 8
def descLog2 (r : Rec32) : Nat := field (bytesAt r 8 1) 5 0
def descSubdis (r : Rec32) : Nat := bytesAt r 9 1
def descPerm (r : Rec32) (kind : Nat) : Bool := bitOf (bytesAt r 10 1) kind
def descHost (r : Rec32) : Bool := bitOf (bytesAt r 10 1) 3
def descAllot (r : Rec32) : Nat := field (bytesAt r 11 1) 5 0
def descEn (r : Rec32) : Bool := bitOf (bytesAt r 12 1) 0

/-- a lies in the region, in an eighth that is not disabled (14 R297, Table 14.4 SUBDIS). -/
def descHolds (r : Rec32) (a : Nat) : Bool :=
  decide (descBase r ≤ a) && decide (a < descBase r + 2 ^ descLog2 r) &&
    !bitOf (descSubdis r) ((a - descBase r) / 2 ^ (descLog2 r - 3))

/-- Region descriptor i of gate g. -/
def Gate.region (g : Gate) (i : Nat) : Rec32 := Tbl.get 0 g.regions i

/-- Regions of a gate (14, Table 14.3). -/
def regionCount (g : Nat) : Nat := if g < 64 then 16 else 64

/-- Gate 83 works in two spaces (14, Table 14.3). -/
inductive Space where
  | host
  | rsv
deriving DecidableEq, Repr

/-- The space that a gate checks. -/
def gateSpace (g : Nat) : Space := if g < 64 then .host else .rsv

/-- What a gate answers (14 R297, R299, Table 14.5): kinds are 0 read, 1 write, 2 image load. Causes: 1 NO_MATCH, 2
PERM, 3 STRADDLE, 4 CLOSED, 5 CHECKER. -/
inductive Verdict where
  | permit
  | wait
  | refuse (cause region : Nat) (straddle : Bool)
deriving DecidableEq, Repr

/-- The first region that matches the start of an access of allotment n (14 R297). -/
def matchRegion (g : Gate) (n a : Nat) (host : Bool) (only : Nat → Bool) : List Nat → Option Nat
  | [] => none
  | i :: t =>
    let r := g.region i
    if descEn r && decide (descAllot r = n) && descHolds r a && (descHost r == host) && only i then some i
    else matchRegion g n a host only t

/-- The pseudocode of 14 R297 after the command window: descriptors only. -/
def checkRegions (g : Gate) (gno n a len kind : Nat) (host : Bool) : Verdict :=
  match g.badRegions with
  | b :: _ => .refuse 5 b false
  | [] => match matchRegion g n a host (fun _ => true) (List.range (regionCount gno)) with
    | none => .refuse 1 0xFFFF false
    | some i =>
      let r := g.region i
      if !descHolds r (a + len - 1) then .refuse 3 i true
      else if !descPerm r kind then .refuse 2 i false
      else .permit

/-- The check of one access (14 R295, R297, R298). `win` is the command window, base and size. An access that starts
in the window never waits at a gate. -/
def gateCheck (d : Device) (gno n a len kind : Nat) (host : Bool) (win : Option (Nat × Nat)) : Verdict :=
  let inWin := match win with
    | some (b, sz) => decide (b ≤ a) && decide (a < b + sz)
    | none => false
  if inWin then
    match win with
    | some (b, sz) => if a + len ≤ b + sz then .permit else .refuse 3 0xFFFE true
    | none => .permit
  else if (d.gate gno).close then .wait
  else checkRegions (d.gate gno) gno n a len kind (host && gno == 83)

/-- Split [a, a+len) into accesses of at most 256 bytes counted from its start (14 R294). -/
def pieces256 : (fuel a len : Nat) → List (Nat × Nat)
  | 0, _, _ => []
  | f + 1, a, len => if len = 0 then [] else if len ≤ 256 then [(a, len)] else (a, 256) :: pieces256 f (a + 256) (len - 256)

def pieces (a len : Nat) : List (Nat × Nat) := pieces256 (len / 256 + 1) a len

/-- Split a Reservoir range at every 256-byte boundary (06 R135, 14 R294). -/
def linePieces256 : (fuel a len : Nat) → List (Nat × Nat)
  | 0, _, _ => []
  | f + 1, a, len =>
    if len = 0 then [] else
      let n := min len (256 - a % 256)
      (a, n) :: linePieces256 f (a + n) (len - n)

def linePieces (a len : Nat) : List (Nat × Nat) := linePieces256 (len / 256 + 2) a len

/-- Check accesses one after another: the first that is not permitted decides; its place and length are answered. -/
def checkAll (d : Device) (gno n kind : Nat) (host : Bool) (win : Option (Nat × Nat)) :
    List (Nat × Nat) → Verdict × Nat × Nat
  | [] => (.permit, 0, 0)
  | (a, len) :: t => match gateCheck d gno n a len kind host win with
    | .permit => checkAll d gno n kind host win t
    | v => (v, a, len)

/-- PARAM2 of a violation report (14, Table 14.6). -/
def reportParam2 (len kind : Nat) (straddle unknown : Bool) (gno cause : Nat) : Nat :=
  len + kind * 2 ^ 9 + b2n straddle * 2 ^ 12 + b2n unknown * 2 ^ 13 + gno * 2 ^ 16 + cause * 2 ^ 24

/-- A refusal is counted and reported (14 R301 to R303): precise 0x6001, imprecise 0x6002, at most 64 reports a gate in
a second. -/
def reportRefusal (gno n a len kind master cause region : Nat) (straddle precise : Bool) (d : Device) : Device :=
  let g := d.gate gno
  let d := d.updGate gno (fun g => { g with
    viol := satAdd 0xFFFF_FFFF g.viol 1
    timeouts := if cause = 4 then satAdd 0xFFFF_FFFF g.timeouts 1 else g.timeouts
    reports := if g.reports < 64 then g.reports + 1 else g.reports
    droppedReports := if g.reports < 64 then g.droppedReports else g.droppedReports + 1 })
  if g.reports < 64 then
    if precise then
      recordCompute 0x6001 n false (a % 2 ^ 32) (a / 2 ^ 32) (reportParam2 len kind straddle false gno cause)
        (region + master * 2 ^ 16) d
    else
      recordCompute 0x6002 n false 0 0 (reportParam2 0 kind straddle true gno cause) (region + master * 2 ^ 16) d
  else d

/-- An access that meets a closed gate waits there from now on (14 R298). -/
def gateWait (gno : Nat) (who : AccessOf) (a len kind : Nat) (d : Device) : Device :=
  if (d.gate gno).waiting.any (fun w => w.who = who ∧ w.addr = a ∧ w.kind = kind) then d
  else d.updGate gno (fun g => { g with
    waiting := g.waiting ++ [{ who := who, addr := a, len := len, kind := kind, arrived := d.time }] })

/-- The status bits of DETAIL for ACCESS_VIOLATION (03, Table 3.19). -/
def violationDetail (operand region kind : Nat) (straddle : Bool) : Nat :=
  operand + 8 * b2n straddle + 16 * b2n (kind = 1) + region * 2 ^ 16

/-- Write bytes into the memory of function a, unless a teardown forbids it (14, Table 14.2 step 1). -/
def hostWrite (a addr : Nat) (bs : List Byte) (d : Device) : Device :=
  match (d.allot a).flr with
  | some _ => d
  | none => d.emit (.hostWrite a addr bs)

/-! ## Notices -/

/-- A notice record (02 R54, Table 2.13a). -/
def mkNotice (code sev allot time p0 p1 p2 p3 seq : Nat) : Rec32 :=
  BitVec.ofNat 256 (pack [(2, code), (1, 0x80 + sev), (1, allot), (8, time), (4, p0), (4, p1), (4, p2), (4, p3), (4, seq)])

def NoticeRing.depth (r : NoticeRing) : Nat := 2 ^ r.depthLog2
/-- Records written and not released (02 R32, R54). -/
def NoticeRing.used (r : NoticeRing) : Nat := (r.tail + 65536 - r.head) % 65536
def NoticeRing.room (r : NoticeRing) : Bool := r.enable && !r.error && decide (r.used < r.depth)

/-- Address of the next notice slot. -/
def NoticeRing.slotAddr (r : NoticeRing) : Nat := r.base + (r.tail % r.depth) * 32

/-- What a notice write comes to. -/
inductive NtcWrite where
  | written
  | held
deriving DecidableEq, Repr

/-- Write one notice to a ring that has room (02 R54, R55, R57). A refused write sets ERROR and is recorded. -/
def writeNotice (a : Nat) (rec : Rec32) (d : Device) : NtcWrite × Device :=
  let r := (d.allot a).ntc
  let addr := r.slotAddr
  match gateCheck d a a addr 32 1 true none with
  | .permit =>
    let d := hostWrite a addr (toBytes 32 rec.toNat) d
    let d := d.updNtc a (fun r => { r with tail := (r.tail + 1) % 65536 })
    (.written, if r.irqEn then signal a r.vector d else d)
  | .wait => (.held, gateWait a (.notice a) addr 32 1 d)
  | .refuse c rg st =>
    let d := reportRefusal a a addr 32 1 0xF0 c rg st true d
    let d := d.updNtc a (fun r => { r with error := true })
    (.held, recordCompute 0x7003 a false 0x0002_0000 2 (addr % 2 ^ 32) (addr / 2 ^ 32) d)

/-- Write the held notices in order while the ring has room (02 R55). -/
def drainHeld : (fuel : Nat) → (a : Nat) → Device → Device
  | 0, _, d => d
  | f + 1, a, d =>
    let r := (d.allot a).ntc
    match r.held with
    | [] => d
    | n :: rest =>
      if r.room then
        match writeNotice a n d with
        | (.written, d) => drainHeld f a (d.updNtc a (fun r => { r with held := rest }))
        | (.held, d) => d
      else d

/-- Room has appeared: NOTICES_LOST first, then the held notices (02 R55). -/
def notesRoom (a : Nat) (d : Device) : Device :=
  let r := (d.allot a).ntc
  if r.room then
    let d := if r.dropped = 0 then d else
      let n := mkNotice 0x7002 1 a d.stamp r.dropped 0 0 0 r.seq
      let d := d.updNtc a (fun r => { r with seq := (r.seq + 1) % 2 ^ 32, dropped := 0 })
      match writeNotice a n d with
      | (.written, d) => d
      | (.held, d) => d.updNtc a (fun r => { r with held := n :: r.held })
    drainHeld 65 a d
  else d

/-- Generate a notice for allotment a of an event of the time given (02 R54, R55). -/
def noticeAt (a code sev time p0 p1 p2 p3 : Nat) (d : Device) : Device :=
  if (d.allot a).flr.isSome then d else
  let r := (d.allot a).ntc
  let n := mkNotice code sev a time p0 p1 p2 p3 r.seq
  let d := d.updNtc a (fun r => { r with seq := (r.seq + 1) % 2 ^ 32 })
  let hold (d : Device) : Device :=
    if ((d.allot a).ntc.held.length) < 64 then d.updNtc a (fun r => { r with held := r.held ++ [n] })
    else d.updNtc a (fun r => { r with lost := satAdd 0xFFFF_FFFF r.lost 1, dropped := r.dropped + 1 })
  if r.room && decide (r.held = []) then
    match writeNotice a n d with
    | (.written, d) => d
    | (.held, d) => hold d
  else hold d

/-- Generate a notice of an event of this moment. -/
def notice (a code sev p0 p1 p2 p3 : Nat) (d : Device) : Device := noticeAt a code sev d.stamp p0 p1 p2 p3 d

/-- The notice of an event of this moment that the completions of no command hold back. -/
def NoticeDue.post (x : NoticeDue) (d : Device) : Device := noticeAt x.allot x.code x.sev x.time x.p0 x.p1 x.p2 x.p3 d

/-- The completion entry of a command that the notice's event affected is still to come. -/
def NoticeDue.waits (x : NoticeDue) (d : Device) : Bool := x.slots.any (fun k => (d.cmd k).isSome)

/-- Notices that wait for no completion any more are generated (02 R47). They take their SEQ now (DEDUCED, assumption 138). -/
def postDue (d : Device) : Device :=
  let ready := d.flt.due.filter (fun x => !x.waits d)
  foldOver (fun (x : NoticeDue) d => x.post d) ready { d with flt := { d.flt with due := d.flt.due.filter (fun x => x.waits d) } }

/-- Generate a notice once the commands in the slots given have their completion entries (02 R47). -/
def noticeAfter (slots : List Nat) (a code sev p0 p1 p2 p3 : Nat) (d : Device) : Device :=
  let x : NoticeDue := { allot := a, code := code, sev := sev, time := d.stamp, p0 := p0, p1 := p1, p2 := p2, p3 := p3, slots := slots }
  if x.waits d then { d with flt := { d.flt with due := d.flt.due ++ [x] } } else x.post d

/-- Command slots are free: no notice waits for them any more. -/
def forgetSlots (slots : List Nat) (d : Device) : Device :=
  { d with flt := { d.flt with due := d.flt.due.map (fun x => { x with slots := x.slots.filter (fun k => !slots.contains k) }) } }

/-- A notice to every allotment (15 R332, 16 R346). -/
def noticeAll (code sev p0 p1 p2 p3 : Nat) (d : Device) : Device :=
  foldOver (fun a d => notice a code sev p0 p1 p2 p3 d) (List.range 64) d

end Sys2Proof.Machine
end

