-- ==== Sys2Proof/Machine/Pqc.lean ====
section
/-!
DEFINITION. Sys2Proof/Machine/Pqc.lean: the post-quantum schemes as the device takes them from their standards (09 R200 to R203, R210, R211): how
keys, messages, context strings and ciphertexts enter them. Their lattice, hash-tree and code cores are free functions (Config).
-/
namespace Sys2Proof.Machine
open Sys2Proof

/-! ## ML-KEM (09 R200; FIPS 203) -/

/-- The modulus check of an encapsulation key: every 12-bit coefficient is below 3,329. -/
def kemEkOk (set : Nat) (ek : List Byte) : Bool :=
  (List.range (128 * (set + 1))).all (fun i =>
    let x := ofBytes ((ek.drop (3 * i)).take 3)
    decide (x % 4096 < 3329) && decide (x / 4096 < 3329))

/-- The encapsulation key of a seed d ‖ z. -/
def kemEk (set : Nat) (seed : List Byte) : List Byte := toBytes (kemPk 1 set) (Config.kpkeKey set (seed.take 32))

/-- G of a message and a key: the shared secret and the coins. -/
def kemG (m ek : List Byte) : List Byte × List Byte :=
  let g := sponge 72 0x06 (m ++ sponge 136 0x06 ek 32) 64
  (g.take 32, g.drop 32)

/-- Encapsulation with message m: ciphertext and shared secret. -/
def kemEncaps (set : Nat) (ek m : List Byte) : List Byte × List Byte :=
  let g := kemG m ek
  (toBytes (kemCt 1 set) (Config.kpkeEnc set ek m g.2), g.1)

/-- Decapsulation with the key expanded from its seed: J(z ‖ c) where c is not the encryption of what it decrypts to (implicit rejection). -/
def kemDecaps (set : Nat) (seed ct : List Byte) : List Byte :=
  let m := toBytes 32 (Config.kpkeDec set (seed.take 32) ct)
  let e := kemEncaps set (kemEk set seed) m
  if e.1 = ct then e.2 else sponge 136 0x1F (seed.drop 32 ++ ct) 32

/-! ## HQC and Classic McEliece (09 R210, R211) -/

/-- A McEliece set without its "f": the two share one key format. -/
def codeSet (family set : Nat) : Nat := if family = 0x07 then (set + 1) / 2 else set
def codePk (family set : Nat) (key : List Byte) : List Byte := toBytes (kemPk family set) (Config.codePublic family (codeSet family set) key)
def codeEncaps (family set : Nat) (pk random : List Byte) : List Byte × List Byte :=
  (toBytes (kemCt family set) (Config.codeEnc family (codeSet family set) pk random), toBytes 32 (Config.codeSecret family (codeSet family set) pk random))
def codeDecaps (family set : Nat) (key ct : List Byte) : List Byte := toBytes 32 (Config.codeDec family (codeSet family set) key ct)

/-! ## ML-DSA and SLH-DSA (09 R202, R203) -/

/-- The OID of a pre-hash function as FIPS 204 and FIPS 205 encode it (09 R202), by its code. -/
def prehashOid (code : Nat) : List Byte :=
  [0x06, 0x09, 0x60, 0x86, 0x48, 0x01, 0x65, 0x03, 0x04, 0x02] ++
    [BitVec.ofNat 8 (bySet [1, 2, 3, 4, 6, 8, 9, 10, 7, 11, 12] code)]

/-- M' of FIPS 204 and FIPS 205: of the pure form (`code` 0), or of the pre-hash form, whose message is PH(M). -/
def framed (code : Nat) (context msg : List Byte) : List Byte :=
  [if code = 0 then 0 else 1, BitVec.ofNat 8 context.length] ++ context ++ (if code = 0 then [] else prehashOid code) ++ msg

/-- What ML-DSA verification comes to (09 R202): 0, or the DETAIL of VERIFY_FALSE. -/
def mldsaVerify (set code : Nat) (pk context msg sig : List Byte) : Nat :=
  if sig.length ≠ sigLen 2 set then 1 else (Config.mldsaVerify set pk (framed code context msg) sig).val

/-- ML-DSA: the public key of a seed, and a signature with the number of its attempts (09 R202; 03, Table 3.20). -/
def mldsaPk (set : Nat) (seed : List Byte) : List Byte := toBytes (sigPk 2 set) (Config.mldsaKey set seed)
def mldsaSign (set code : Nat) (seed context msg rnd : List Byte) : List Byte × Nat :=
  let m := framed code context msg
  (toBytes (sigLen 2 set) (Config.mldsaSign set seed m rnd), Config.mldsaRetries set seed m rnd + 1)

/-- SLH-DSA: n of a set; a key from 3n random bytes, SK.seed ‖ SK.prf ‖ PK.seed ‖ PK.root; its public half; signature; verification: 0, or 3 for another
root (09 R203). -/
def slhN (set : Nat) : Nat := sigPk 3 set / 2
def slhKey (set : Nat) (random : List Byte) : List Byte :=
  let n := slhN set
  random.take (3 * n) ++ toBytes n (Config.slhRoot set (random.take n) ((random.drop (2 * n)).take n))
def slhPk (set : Nat) (key : List Byte) : List Byte := key.drop (2 * slhN set)
def slhSign (set code : Nat) (key context msg optRand : List Byte) : List Byte :=
  toBytes (sigLen 3 set) (Config.slhSign set key (framed code context msg) optRand)
def slhVerify (set code : Nat) (pk context msg sig : List Byte) : Nat :=
  if sig.length ≠ sigLen 3 set then 1 else if Config.slhVerify set pk (framed code context msg) sig then 0 else 3

/-- A signature of ML-DSA-87 in the pure form under a context string. -/
def mldsa87 (context : String) (pk msg sig : List Byte) : Nat := mldsaVerify 3 0 pk (ascii context) msg sig

end Sys2Proof.Machine
end

