-- ==== Sys2Proof/Machine/OpsCmd.lean ====
section
/-!
DEFINITION. Sys2Proof/Machine/OpsCmd.lean: the shared operations on commands: entry fields (02), held work, Weirs and placement
(04, 05), contexts (04), engines passing between commands (05, 14 R290), how a command ends (03 R68, 06 R145), completion
entries (02 R31 to R50) and the admin queue (02 R36).
-/
namespace Sys2Proof.Machine

/-! ## Fields of a submission entry (02, Table 2.2) -/

def eTag (e : Entry) : Nat := bytesAt e 0 2
def eRoutine (e : Entry) : Nat := bytesAt e 2 2
def eCtx (e : Entry) : Nat := field (bytesAt e 4 4) 17 0
def eParam (e : Entry) : Nat := field (bytesAt e 4 4) 23 18
def eKey (e : Entry) : Nat := bytesAt e 8 4
def eInLen (e : Entry) : Nat := bytesAt e 12 4
def eInAddr (e : Entry) : Nat := bytesAt e 16 8
def eOutAddr (e : Entry) : Nat := bytesAt e 24 8
def eOutMax (e : Entry) : Nat := bytesAt e 32 4
def eWeir (e : Entry) : Nat := field (bytesAt e 36 4) 11 0
def ePrio (e : Entry) : Nat := field (bytesAt e 36 4) 15 12
def eAux (e : Entry) : Nat := bytesAt e 40 8
def eArg (e : Entry) (i : Nat) : Nat := bytesAt e (48 + 4 * i) 4
def eControl (e : Entry) : Nat := bytesAt e 60 4
def eOwn (e : Entry) : Bool := bitOf (eControl e) 31
def eBarrier (e : Entry) : Bool := bitOf (eControl e) 30
def eBatch (e : Entry) : Bool := bitOf (eControl e) 29
def eBatchLast (e : Entry) : Bool := bitOf (eControl e) 28
def eOneCqe (e : Entry) : Bool := bitOf (eControl e) 27
def eErrOnly (e : Entry) : Bool := bitOf (eControl e) 26
def eInRsv (e : Entry) : Bool := bitOf (eControl e) 25
def eOutRsv (e : Entry) : Bool := bitOf (eControl e) 24

/-! ## Status codes (03, Table 3.17) -/

def stOk : Nat := 0x00
def stVerifyFalse : Nat := 0x02
def stMismatch : Nat := 0x03
def stWeirShed : Nat := 0x08
def stRefused : Nat := 0x10
def stShort : Nat := 0x11
def stLong : Nat := 0x12
def stTooSmall : Nat := 0x13
def stAccess : Nat := 0x20
def stImprecise : Nat := 0x21
def stKeyPolicy : Nat := 0x28
def stKeyAbsent : Nat := 0x29
def stKeyExhausted : Nat := 0x2A
def stNoEntropy : Nat := 0x30
def stCtxState : Nat := 0x38
def stCtxAbsent : Nat := 0x39
def stAborted : Nat := 0x40
def stQueueDisabled : Nat := 0x41
def stRoutineAbsent : Nat := 0x48
def stTrap : Nat := 0x49
def stUnrecoverable : Nat := 0x60
def stHeld : Nat := 0x7F

/-! ## Held work (15 R330, 18 R368) -/

/-- Mode codes (18, Table 18.1). -/
def Mode.code : Mode → Nat
  | .bringup => 0
  | .provisioning => 1
  | .service => 2
  | .lowFlow => 3
  | .retention => 4
  | .maintenance => 5
  | .debug => 6
  | .quarantine => 7

/-- HOLD_N is asserted in the mode (18, Table 18.1). -/
def Mode.holds : Mode → Bool
  | .bringup | .provisioning | .maintenance | .quarantine => true
  | _ => false

/-- A HOLD or stronger response is in force (16, Table 16.2, R339). -/
def Device.leveeHold (d : Device) : Bool := bitOf d.lev.union 2 || bitOf d.lev.union 3 || bitOf d.lev.union 4 || bitOf d.lev.union 5
/-- A FREEZE or stronger response is in force. -/
def Device.leveeFreeze (d : Device) : Bool := bitOf d.lev.union 3 || bitOf d.lev.union 4 || bitOf d.lev.union 5

/-- The mode holds new work, or MAINT_ENTER has been accepted (18 R374). -/
def Device.modeHolds (d : Device) : Bool := d.md.mode.holds || (match d.md.change with
  | some c => decide (c.target = .maintenance)
  | none => false)

/-- HOLD_N is driven low (15 R330). -/
def Device.holdN (d : Device) : Bool := d.flt.fatal.isSome || d.leveeHold || d.modeHolds || !d.boot.serviceReady

/-- New entries of allotment a complete with DEVICE_HELD (02 R53, 18 Table 18.1; in Maintenance allotment 0 runs). -/
def Device.heldFor (d : Device) (a : Nat) : Bool :=
  d.flt.fatal.isSome || d.leveeHold || !d.boot.serviceReady ||
    (d.modeHolds && !(a == 0 && (!d.md.mode.holds || decide (d.md.mode = .maintenance))))

/-- The compute die is stopped: SB_STOP, SB_CLEAR or reset (01 R17). -/
def Device.frozen (d : Device) : Bool := d.fl.sbStop || d.fl.sbClear || d.fl.clearing || d.boot.computeReset

/-- Units issue nothing: the die is stopped, or a Fatal fault's stop has been ordered (15, Table 15.7 step 3). -/
def Device.stopped (d : Device) : Bool :=
  d.frozen ||
    (match d.flt.fatal with
     | some f => decide (1 ≤ f.stage) && decide (f.stage ≤ 3)
     | none => false)

/-- Scans pause: Retention is being entered or holds, or the wake from it runs (18 R372, R373). -/
def Device.scansPaused (d : Device) : Bool :=
  decide (d.md.mode = .retention) || d.md.waking || (match d.md.change with
    | some c => decide (c.target = .retention)
    | none => false)

/-! ## Faults are raised (15 R305): a compute-die source sends FAULT_REPORT; the custody die sees its own directly. -/

/-! Fault sources (15, Table 15.2) -/

/-- The class each source raises, group by group: 0 C, 1 U, 2 F. -/
def groupClasses : List (List Nat) :=
  [[0, 1, 0, 1, 0, 1, 0, 1, 0, 1, 0, 1, 0, 1],
   [1, 1, 1, 1, 1, 1, 1, 1, 1, 1, 1, 1],
   [0, 1, 1, 1, 1, 1, 1, 1, 1, 1],
   [0, 1, 1, 1, 1, 1, 1, 1],
   [1, 1, 1, 1, 1, 1],
   [1, 1, 1, 1, 1, 1],
   [2, 1, 1, 1, 1, 2, 2, 2],
   [0, 2, 2, 2, 2, 2, 1, 2, 2, 2],
   [0, 1, 1, 1, 1, 1],
   [0, 1, 0, 0, 1, 1, 1, 2],
   [2, 0, 2, 2, 2, 0],
   [1, 1, 1, 2, 2],
   [0, 0, 0, 0, 1, 1, 2, 2, 2],
   [0, 0, 1, 1, 1, 1, 1, 1, 1],
   [0, 1, 1, 1, 2, 2, 2, 2, 1, 2],
   [0, 2, 2, 2, 2],
   [2, 2, 2, 2, 2, 2, 0, 0, 2],
   [0, 1, 0, 1, 0, 1, 0, 1, 2, 2],
   [1, 1, 1, 1, 1, 1, 2],
   [0, 0, 0, 1, 1, 1, 2, 2],
   [1, 1, 1, 1, 0, 2],
   [1, 2, 2, 2, 0, 0, 2, 0],
   [2, 2, 0, 0, 2, 2],
   [2, 2, 2, 2]]

/-- The group and the place in it of a source ID. -/
def findGroup : (g : Nat) → (s : Nat) → List (List Nat) → Option (Nat × Nat)
  | _, _, [] => none
  | g, s, l :: t => if s < l.length then some (g, s) else findGroup (g + 1) (s - l.length) t

/-- Group of a source. -/
def faultGroup (s : Nat) : Nat := match findGroup 0 s groupClasses with
  | some x => x.1
  | none => 24

/-- Class as raised: 0 C, 1 U, 2 F. -/
def faultClass (s : Nat) : Nat := match findGroup 0 s groupClasses with
  | some x => (groupClasses.getD x.1 []).getD x.2 0
  | none => 0

/-- Raise a fault of a compute-die source. -/
def raiseFault (source unit : Nat) (slot : Option Nat) (syndrome : Nat) (d : Device) : Device :=
  let d := if faultClass source = 2 then { d with fl := { d.fl with sbFatal := true } } else d
  toCustody (.faultReport { source := source, unit := unit, slot := slot, syndrome := syndrome, time := d.stamp }) d

/-! ## Session contexts (04) -/

/-- Context state codes (04, Table 4.1). -/
def CtxState.code : CtxState → Nat
  | .free => 0
  | .opened => 1
  | .active => 2
  | .held => 3
  | .migrating => 4
  | .closed => 5

/-- FLAGS of a context header (04, Table 4.3). -/
def Ctx.flags (c : Ctx) : Nat :=
  b2n c.clientOk + 2 * b2n c.mka + 4 * b2n c.ephemeral + 8 * b2n c.migratedIn + 16 * b2n c.migratedOut + 32 * b2n c.lost +
    64 * b2n c.hybrid

/-- The 64-byte header (04 R91): AGE in whole seconds, saturating. -/
def Ctx.header (c : Ctx) (now : Nat) : List Byte :=
  toBytes 64 (pack [(8, c.label), (1, c.st.code), (1, c.allot), (2, c.lastRoutine), (2, c.resumeCount), (2, c.flags),
    (4, min ((now - c.born) / 1_000_000_000) 0xFFFF_FFFF), (4, c.holdTime), (8, if c.st = .held then c.holdExpiry else 0), (8, c.lastUse),
    (8, c.commands)])

/-- Entry to CLOSED (04 R90): the 960 secret bytes become zero, HOLD_EXPIRY is 0 outside HELD. -/
def closeCtx (n : Nat) (d : Device) : Device :=
  d.updCtx n (fun c => { c with
    st := .closed
    secret := []
    holdExpiry := 0
    ephemeral := false
    hybrid := false
    mka := false })

/-- A close by hold expiry, counted for the next sweep (04 R108). -/
def expireCtx (n : Nat) (d : Device) : Device :=
  let a := (d.ctx n).allot
  let d := closeCtx n d
  d.updAllot a (fun t => { t with
    expired := t.expired + 1
    expiredLow := if t.expired = 0 ∨ n < t.expiredLow then n else t.expiredLow })

/-- An uncorrectable error in a context (04 R106, Table 4.11 row 1): CLOSED with LOST, SESSION_LOST (Table 4.13) after the completions of the
commands that it ended (02 R47). -/
def loseCtx (n : Nat) (d : Device) : Device :=
  let c := d.ctx n
  if c.st = .free then d else
  let hit := (d.cmds.filter (fun x => decide (x.2.attr.takesCtx ∧ eCtx x.2.entry = n ∧ x.2.allot = c.allot) && decide (x.2.phase = .ended) &&
    decide (x.2.status = stCtxState ∧ x.2.detail = 5))).map (fun x => x.1)
  let d := closeCtx n d
  let d := d.updCtx n (fun c => { c with lost := true })
  noticeAfter hit c.allot 0x9002 2 n (c.label % 2 ^ 32) (c.label / 2 ^ 32) 0 d

/-- The context is in the cache, which keeps the 16,384 last used (04 R95). -/
def cacheCtx (n : Nat) (d : Device) : Device :=
  let l := (d.cache.filter (fun m => m ≠ n)) ++ [n]
  let keep := if 16384 < l.length then l.drop 1 else l
  { d with cache := keep, cacheDirty := d.cacheDirty.filter (fun m => keep.contains m) }

/-! ## Command slots (02 R30) -/

/-- The command of slot k, or an empty one. -/
def Device.cmdOr (d : Device) (k : Nat) : Cmd := match d.cmd k with
  | some c => c
  | none => { entry := 0, allot := 0, sq := 0, order := 0 }

/-- The lowest free command slot (02 R30: at most 4,096 in flight). -/
def Device.freeSlot (d : Device) : Option Nat := Tbl.lowestFree d.cmds 0 4096

/-- Command slots that queue n of allotment a may still take (02 R29, R30; 14 R287). -/
def Device.slotsLeft (d : Device) (a : Nat) : Nat :=
  min (4096 - d.cmds.length) ((d.allot a).inflightQuota - d.inflight a)

/-- Commands of one submission queue, by slot. -/
def Device.ofQueue (d : Device) (a n : Nat) : List (Nat × Cmd) :=
  d.cmds.filter (fun x => decide (x.2.allot = a) && decide (x.2.sq = n))

/-- Two members of one batch (02 R48). -/
def sameBatch (x y : Cmd) : Bool := match x.batch, y.batch with
  | some (i, _), some (j, _) => decide (i = j) && decide (x.allot = y.allot)
  | _, _ => false

/-- The command belongs to a barrier unit: its own BARRIER bit or that of any member of its batch (02 R42, R48). -/
def Device.inBarrier (d : Device) (c : Cmd) : Bool :=
  eBarrier c.entry || c.batchBarrier || d.cmds.any (fun x => sameBatch c x.2 && eBarrier x.2.entry)

/-- An earlier entry of its queue outside its batch is not completed (02 R42). -/
def Device.earlierOpen (d : Device) (c : Cmd) (p : Cmd → Bool) : Bool :=
  (d.ofQueue c.allot c.sq).any (fun x => decide (x.2.order < c.order) && !sameBatch c x.2 && p x.2)

/-- Clear of barriers (02 R42). -/
def Device.barrierClear (d : Device) (c : Cmd) : Bool :=
  !(d.inBarrier c && d.earlierOpen c (fun _ => true)) && !d.earlierOpen c (fun x => d.inBarrier x)

/-- No member starts until the batch is closed (02 R48). -/
def batchClear (c : Cmd) : Bool := c.batch.isNone || decide (c.batchSize ≠ 0)

/-- TO_CONTEXT of a routine that knows it (03 R77): bit 0 of ARGS0 of a KEM encapsulation or decapsulation, of an
ephemeral decapsulation and of a key agreement. -/
def toContext (e : Entry) : Bool :=
  ([0x0102, 0x0103, 0x0105, 0x0602, 0x0603, 0x0702, 0x0703, 0x0904].contains (eRoutine e)) && bitOf (eArg e 0) 0

/-- The command takes a session context. -/
def Cmd.takesCtx (c : Cmd) : Bool := c.attr.takesCtx

/-- Admin commands of 0x0021 to 0x0026 name a context in bytes 4 to 7 (04, Table 4.4). CTX_READ names a range. -/
def adminNames (e : Entry) (n : Nat) : Bool :=
  let op := bytesAt e 2 2
  if op = 0x0021 ∨ op = 0x0022 ∨ op = 0x0023 ∨ op = 0x0024 ∨ op = 0x0026 then decide (field (bytesAt e 4 4) 17 0 = n)
  else if op = 0x0025 then decide (bytesAt e 4 4 ≤ n) && decide (n < bytesAt e 4 4 + bytesAt e 16 4)
  else false

/-- The turn of a command on its context has come (02 R43, 04 R92): every earlier command on it has committed or failed,
every admin command consumed before it has taken effect. -/
def Device.ctxTurn (d : Device) (c : Cmd) : Bool :=
  !c.takesCtx ||
    (!(d.cmds.any (fun x => x.2.takesCtx && decide (x.2.allot = c.allot) && decide (eCtx x.2.entry = eCtx c.entry) &&
        decide (x.2.order < c.order) && !decide (x.2.phase = .ended))) &&
     !((d.allot c.allot).adm.cmds.any (fun x => decide (x.1 < c.order) && adminNames x.2 (eCtx c.entry))))

/-- An admin command that names context n waits for the commands consumed before it (04 R92). -/
def Device.ctxQuietFor (d : Device) (a n order : Nat) : Bool :=
  !(d.cmds.any (fun x => x.2.takesCtx && decide (x.2.allot = a) && decide (eCtx x.2.entry = n) &&
      decide (x.2.order < order) && !decide (x.2.phase = .ended)))

/-- A Wellhead source is in service: not retired and not withdrawn for a test run (12 R256, Table 12.6). -/
def Device.sourceUp (d : Device) : Bool :=
  (d.whd.main.inService && d.whd.main.testing.isNone) || (d.whd.fb.inService && d.whd.fb.testing.isNone)

/-- Some Wellhead source is in service, not all DRBG instances are fenced, and ENTROPY_READY is set (03 R71, 12 R260, Table 12.6). -/
def Device.entropyAvailable (d : Device) : Bool :=
  d.boot.entropyReady && d.sourceUp && (List.range 16).any (fun n => decide ((Tbl.get {} d.whd.inst n).st ≠ 3))

/-! ## Weirs (04 R96 to R99) -/

/-- LEVEL after the time since the last look: RATE units a second in 1/1,024 unit, at most BURST (04 R96). -/
def refillLevel (w : Weir) (now : Nat) : Weir :=
  let u := w.rate * 1024 * (now - w.last) + w.rem
  let top : Int := (w.burst : Int) * 1024
  let l := w.level + ((u / 1_000_000_000 : Nat) : Int)
  if l < top then { w with level := l, rem := u % 1_000_000_000, last := now }
  else { w with level := if w.level < top then top else w.level, rem := 0, last := now }

def refill (n : Nat) (d : Device) : Device := d.updWeir n (fun w => if w.rate = 0 then { w with last := d.time } else refillLevel w d.time)

/-- LEVEL covers the cost (04 R97): LEVEL at least the cost, or LEVEL = BURST for a cost above BURST. With RATE 0 only a cost of zero is
admitted (R96). -/
def Weir.covers (w : Weir) (cost : Nat) : Bool :=
  w.unlimited || decide (cost = 0) || (decide (w.rate ≠ 0) &&
    (decide ((cost : Int) * 1024 ≤ w.level) || (decide (w.burst < cost) && decide ((w.burst : Int) * 1024 ≤ w.level))))

/-- Charge a Weir (04 R96, R97): WST_CHARGED counts always, LEVEL falls unless UNLIMITED. -/
def chargeWeir (n cost : Nat) (d : Device) : Device :=
  d.updWeir n (fun w => { w with
    level := if w.unlimited then w.level else w.level - (cost : Int) * 1024
    charged := (w.charged + cost) % 2 ^ 32 })

/-! ## Staging (04 R100, R101) -/

def stagingBase : Nat := 0x4800_0000
def stagingSize : Nat := 0x8000_0000

/-- Room for the auxiliary input, which is part of the input (09 R223). -/
def auxRoom (c : Cmd) : Nat := roundUp c.attr.auxLen 64

/-- Input bytes that staging holds, auxiliary input first: rounded up to 4 KiB, of a streamed input the 1 MiB window (04 R101). -/
def inputRoom (c : Cmd) : Nat :=
  if c.attr.stream then roundUp (auxRoom c) 4096 + 0x10_0000 else roundUp (auxRoom c + eInLen c.entry) 4096

/-- Room for the routine's largest output (04 R101; 06, Table 6.17 OUT_SIZE). -/
def outRoom (c : Cmd) : Nat := roundUp c.attr.outSize 64

/-- Material bytes of the object that a routine stages for its target, at most (09, Table 9.2; 03, Tables 3.10 to 3.14). -/
def targetLen (e : Entry) : Nat := match eRoutine e with
  | 0x0901 => privateLen 9 (eParam e) (eArg e 0)
  | 0x0A01 => eArg e 0 / 8
  | 0x0B01 => eArg e 0
  | 0x0D03 => eInLen e - 40
  | 0x0D04 => 64
  | r => privateLen (r / 256) (eParam e) 0

/-- The tree object that a stateful key pair stages behind it (13 R275). -/
def targetTree (e : Entry) : Nat := match eRoutine e with
  | 0x0401 => treeObjectLen 4 0 (pack [(1, eArg e 0), (1, eArg e 1), (1, eArg e 2 % 16)])
  | 0x0501 => treeObjectLen 5 (eArg e 1 % 2) (eArg e 0)
  | _ => 0

/-- Room for what a routine that fills a target stages for the key store: part of what it may put out at most. -/
def objRoom (c : Cmd) : Nat := if c.attr.fillsTarget then roundUp (wrappedLen (targetLen c.entry) + targetTree c.entry) 64 else 0

/-- Staging that a command takes at dispatch (04 R101): its input, and its maximum output with what it stages for the key store. -/
def stageNeed (c : Cmd) : Nat := inputRoom c + outRoom c + objRoom c

/-- Ranges of staging in use, lowest first. -/
def Device.stageUsed (d : Device) : List (Nat × Nat) :=
  (d.cmds.filterMap (fun x => if x.2.stageSize = 0 then none else some (x.2.stageBase, x.2.stageSize))).mergeSort
    (fun x y => decide (x.1 ≤ y.1))

/-- First fit in [from, stop) between ranges in rising order. -/
def firstFit (need stop : Nat) : (start : Nat) → List (Nat × Nat) → Option Nat
  | a, [] => if a + need ≤ stop then some a else none
  | a, (b, n) :: t => if a + need ≤ b then some a else firstFit need stop (max a (b + n)) t

def Device.findStage (d : Device) (need : Nat) : Option Nat :=
  firstFit need (stagingBase + stagingSize) stagingBase d.stageUsed

/-- Staging is returned; its bytes become zero. -/
def freeStage (k : Nat) (d : Device) : Device :=
  let c := d.cmdOr k
  let d := d.rsvClear c.stageBase c.stageSize
  d.updCmd k (fun c => { c with stageSize := 0, inDone := false, inArrived := 0, input := [] })

/-- Places within staging. -/
def Cmd.auxAt (c : Cmd) : Nat := c.stageBase
def Cmd.inAt (c : Cmd) : Nat := if c.attr.stream then c.stageBase + roundUp (auxRoom c) 4096 else c.stageBase + auxRoom c
def Cmd.outAt (c : Cmd) : Nat := c.stageBase + inputRoom c
/-- Where the routine stages a wrapped object (13 R275). -/
def Cmd.objAt (c : Cmd) : Nat := c.outAt + outRoom c

/-! ## Placement (05 R116) -/

/-- Laterals that allotment a may use (14 R288). -/
def Device.mayUse (d : Device) (a l : Nat) : Bool := bitOf (d.allot a).mayUse l

/-- Remaining cost of a command in engine cycles: its cost less the engine time it has had. -/
def remaining (c : Cmd) (done : Nat) : Nat := c.cost * 2000 - done

/-- Estimated backlog of a Lateral (05 R116). -/
def Device.backlog (d : Device) (l : Nat) : Nat :=
  sumBy (fun k => match d.cmd k with
    | some c => remaining c (match c.saved with
      | some r => r.arch.cycles
      | none => 0)
    | none => 0) (d.lat l).ready +
  sumBy (fun e => match (d.eng e).slot with
    | some k => remaining (d.cmdOr k) (d.eng e).arch.cycles
    | none => 0) (enginesOf l)

/-- The allowed Lateral with the least backlog, the lower number on ties. -/
def Device.placement (d : Device) (a : Nat) : Option Nat :=
  leastBy (fun l => d.backlog l) ((List.range 16).filter (fun l => d.mayUse a l))

/-- The command joins a ready list; a preempted one goes to the front of its PRIORITY class (05 R117). -/
def toReady (k l : Nat) (front : Bool) (d : Device) : Device :=
  let d := d.updLat l (fun t => { t with ready := if front then k :: t.ready else t.ready ++ [k] })
  d.updCmd k (fun c => { c with lateral := l, readyAt := d.time, front := front })

/-- Dispatch releases a command to a Lateral: staging is taken, the command has started (04 R97, R101; 05 R116). The
Lateral of no allowed Lateral or without staging space: no placement. -/
def release (k : Nat) (d : Device) : Option Device :=
  match d.cmd k with
  | none => none
  | some c =>
    match d.findStage (stageNeed c), d.placement c.allot with
    | some b, some l =>
      let d := d.updCmd k (fun c => { c with phase := .ready, started := true, stageBase := b, stageSize := stageNeed c })
      some (toReady k l false d)
    | _, _ => none

/-! ## Engines -/

/-- What an engine overwrites with zeros (14 R290): operand memory, lease store, registers, ES registers. -/
def scrubEngine (e : Nat) (d : Device) : Device :=
  d.updEng e (fun g => { g with arch := {}, leases := [] })

/-- A unit number's fence takes effect (15 R311, Table 15.12 UNIT_FENCED with SEQ, or 0 for an owner fence). -/
def noteFenced (cls idx seq : Nat) (byOwner : Bool) (d : Device) : Device :=
  let d := d.updUnit cls idx (fun u => { u with
    fenced := true
    passed := false
    byOwner := byOwner
    seq := seq })
  recordAs 0x3004 (if byOwner then custodySource else d.seqSource seq) 0 false d.time (cls + idx * 256) seq 0 0 d

/-- A spare of the Lateral enters service for engine e, after its 20 µs (15 R312): the row SPARE_IN_SERVICE ends it. -/
def callSpare (e : Nat) (d : Device) : Device :=
  let l := latOf e
  let used := (d.lat l).spareFor.map (fun x => x.1)
  match firstWhere (fun g => decide ((d.eng g).st = .spare) && !used.contains g) (enginesOf l) with
  | some g => d.updLat l (fun t => { t with spareFor := t.spareFor ++ [(g, e)] })
  | none => d

/-- An engine is fenced: no work, no lease, cleared (15 R311, 14 R290). -/
def fenceEngine (e seq : Nat) (byOwner : Bool) (d : Device) : Device :=
  let was := (d.eng e).st.inService
  let d := scrubEngine e d
  let d := d.updLat (latOf e) (fun t => { t with busyWith := if t.busyWith = some e then none else t.busyWith })
  let d := d.updEng e (fun g => { g with st := .fenced, slot := none, fenceDue := false, preemptDue := false, resident := [] })
  let d := noteFenced 0 e seq byOwner d
  if was && d.latShort (latOf e) then callSpare e d else d

/-- A spare is about to enter service for engine e (15 R312, R325). -/
def Device.spareComing (d : Device) (e : Nat) : Bool := (d.lat (latOf e)).spareFor.any (fun x => decide (x.2 = e))

/-- A request waits for the custody die. -/
def KeyReqOut.asked (r : KeyReqOut) : Bool := decide (r.outcome = .waiting) && r.fromLease.isNone

/-- The key requests that engine e still waits for, of a command of allotment a that ends or leaves. -/
def orphans (e a : Nat) (l : List KeyReqOut) : List (Nat × Nat × Nat) :=
  (l.filter (fun r => r.asked && decide (r.eng = e))).map (fun r => (r.request, r.handle, a))

/-- The key requests of a saved command that ends: their answers still come, to the engines that asked (06 R138, R145). -/
def dropRequests (a : Nat) (l : List KeyReqOut) (d : Device) : Device :=
  foldOver (fun e d => if orphans e a l = [] then d else d.updEng e (fun g => { g with gone := g.gone ++ orphans e a l })) ((l.map (fun r => r.eng)).eraseDups) d

/-- The engine's command has left it. -/
def freeEngine (e : Nat) (d : Device) : Device :=
  let g := d.eng e
  let d := d.updEng e (fun g => { g with
    st := .idle
    slot := none
    gone := g.gone ++ orphans e g.allot g.arch.keys
    arch := { g.arch with keys := [], jobs := [], rlds := [], lists := [], entWait := none, entAsked := none, entBytes := [] } })
  if g.fenceDue && !(d.spareComing e) then fenceEngine e 0 true d else d

/-! ## Long-integer units and digest engines let go (10 R225, R235; 11 Table 11.9) -/

/-- The end of a binding (10 R225): slots, scratch and modulus become zero. -/
def liuUnbind (k : Nat) (d : Device) : Device :=
  d.updLiu k (fun u => { u with
    bound := none
    saved := false
    modulus := 0
    n := 0
    slots := []
    queue := []
    failed := none
    faulted := false })

/-- An LIU leaves its binding (10 R225). One with a failed self-check behind it asks for operands of its known-answer test (R237; 12,
Table 12.2), and a fence that waited takes effect (Table 10.11). -/
def liuFree (k : Nat) (d : Device) : Device :=
  let u := d.liu k
  let d := liuUnbind k d
  let d := if u.katDue then toCustody (.entropyRequest (144 + k) 2 256 false) d else d
  if u.fenceDue then noteFenced 1 k 0 true (d.updLiu k (fun u => { u with fenceDue := false })) else d

/-- The jobs of LIU k are aborted (10 R235): a running command is counted, nothing is written to operand memory. -/
def liuStop (k : Nat) (d : Device) : Device :=
  let running := (d.liu k).queue.any (fun j => j.arrived && j.outcome.isNone && decide (j.pos < j.cmds.length))
  let d := if running then d.bump (0x0006_001C + 0x100 * k) else d
  let ended := countWhere (fun j => j.outcome.isNone) (d.liu k).queue
  (d.bump (0x0006_0008 + 0x100 * k) 0xFFFF_FFFF ended).updLiu k (fun u => { u with queue := [] })

/-- An abort (10 R235), after which the binding ends. -/
def liuAbort (k : Nat) (d : Device) : Device := liuFree k (liuStop k d)

/-- Every LIU bound to command k is aborted, and its waiting request withdrawn. -/
def liuRelease (k : Nat) (d : Device) : Device :=
  let d := { d with liuWait := d.liuWait.filter (fun x => x ≠ k) }
  foldOver (fun u d => if (d.liu u).bound = some k then liuAbort u d else d) (List.range 32) d

/-- Save slots of digest states that command k holds: of its streams, and of preempted jobs whose stream holds none (11 R242). -/
def Device.digSlotsOf (d : Device) (k : Nat) : Nat :=
  let t := (d.cmdOr k).streams
  t.length + countWhere (fun j => decide (j.slot = k) && j.save.isSome && (Tbl.find t j.stream).isNone) d.digWait

/-- n more save slots of an allotment are in use, or n fewer. -/
def takeDigSlots (a n : Nat) (d : Device) : Device :=
  d.updAllot a (fun t => { t with digSlots := t.digSlots + n, digSlotsHigh := max t.digSlotsHigh (t.digSlots + n) })
def giveDigSlots (a n : Nat) (d : Device) : Device := d.updAllot a (fun t => { t with digSlots := t.digSlots - n })

/-- A digest engine's job has left it: its state is zeroized, and a fence that waited takes effect (11, Table 11.9). -/
def digClear (u : Nat) (d : Device) : Device :=
  let g := d.dig u
  let d := d.updDig u (fun g => { g with job := none, st := if g.st = 1 then 0 else g.st })
  if g.fenceDue then noteFenced 2 u 0 true (d.updDig u (fun g => { g with fenceDue := false, st := 2 })) else d

/-- Jobs, slots and held results of command k are zeroized (11, Table 11.9 row 1). -/
def digRelease (k : Nat) (d : Device) : Device :=
  let n := d.digSlotsOf k
  let d := { d with
    digArrive := d.digArrive.filter (fun j => j.slot ≠ k)
    digWait := d.digWait.filter (fun j => j.slot ≠ k) }
  let d := if n = 0 then d else giveDigSlots (d.cmdOr k).allot n d
  let d := d.updCmd k (fun c => { c with streams := [], digGens := [] })
  foldOver (fun u d => match (d.dig u).job with
    | some j => if j.slot = k then digClear u d else d
    | none => d) (List.range 8) d

/-! ## Leases (08 R186) -/

/-- Random bytes and, as the last share, what keeps their XOR: fresh shares of the same key. -/
def reshare (bytes : List Byte) (shares : Nat) (fresh : List Byte) : List Byte :=
  if shares ≤ 1 then bytes else
    let p := bytes.length / shares
    let acc := List.range ((shares - 1) * p) |>.map (fun i => bytes.getD i 0 ^^^ fresh.getD i 0)
    let last := (List.range p).map (fun i =>
      (List.range (shares - 1)).foldl (fun x j => x ^^^ fresh.getD (j * p + i) 0) (bytes.getD ((shares - 1) * p + i) 0))
    acc ++ last

/-- Bits that the refresh of a leased key draws: (d - 1) × P × 8 (08 R186). -/
def Lease.bits (l : Lease) : Nat := 8 * (l.bytes.length - l.bytes.length / max 1 l.shares)

/-- A Boolean refresh of leased shares with the mask generator of engine e; which bits become which share is open, so the fresh bytes are free values. -/
def Device.refreshed (d : Device) (l : Lease) : Lease := { l with bytes := reshare l.bytes l.shares (d.freeBytes l.bytes.length), stale := false }

/-- The leased key of a handle is re-randomized; while the generator cannot give the bits, it waits for them (08 R186, Table 8.7). -/
def refreshLease (e h : Nat) (d : Device) : Device :=
  match firstWhere (fun l => decide (l.handle = h)) (d.eng e).leases with
  | none => d
  | some l =>
    if mgCan l.bits (d.eng e).mg then
      (d.updEng e (fun g => { g with leases := mapWhere (fun x => decide (x.handle = h)) (fun _ => d.refreshed l) g.leases, mg := mgSpend l.bits g.mg })).tookFree l.bytes.length
    else d.updEng e (fun g => { g with leases := mapWhere (fun x => decide (x.handle = h)) (fun x => { x with stale := true }) g.leases })

/-- When a command ends or leaves its engine, the leases it used there are re-randomized, so that no two commands get the same share strings (08 R186). -/
def refreshLeases (e : Nat) (d : Device) : Device :=
  foldOver (refreshLease e) (((d.eng e).arch.areas.map (fun a => a.handle)).eraseDups) d

/-- Leased keys whose refresh waited for the generator are refreshed (08, Table 8.7). -/
def refreshStale (e : Nat) (d : Device) : Device :=
  foldOver (refreshLease e) (((d.eng e).leases.filter (fun l => l.stale)).map (fun l => l.handle)) d

/-! ## Saves (05 R122, R123) -/

/-- Save slots of allotment a in use (05 R125: 28 of them). -/
def Device.savesOf (d : Device) (a : Nat) : List Nat :=
  d.cmds.filterMap (fun x => if x.2.allot = a then x.2.saved.map (fun r => r.slot) else none)
def Device.saveSlotsUsed (d : Device) (a : Nat) : Nat := (d.savesOf a).length

/-- The lowest free save slot of an allotment. -/
def Device.saveSlotFor (d : Device) (a : Nat) : Nat := ((List.range 28).find? (fun i => !(d.savesOf a).contains i)).getD 0

/-- Engine e may be preempted: its command has not come to its end, its allotment has a free save slot, and no other save or request for one is under
way in the Lateral (05 R122, R125). -/
def Device.savable (d : Device) (e : Nat) : Bool :=
  match (d.eng e).slot with
  | none => false
  | some k =>
    let c := d.cmdOr k
    decide ((d.eng e).st = .running) && decide (c.phase = .running) && !(d.eng e).arch.faulted &&
      decide (d.saveSlotsUsed c.allot < 28) && (d.lat (latOf e)).busyWith.isNone

/-- A save begins (05, Table 5.8 step 1): the engine stops at its instruction boundary, its reads and stores go on; the request of a waiting LIU
binding is withdrawn (10, Table 10.11). -/
def beginSave (e : Nat) (d : Device) : Device :=
  match (d.eng e).slot with
  | none => d
  | some k =>
    let gen := d.saveGen
    let at_ := d.saveSlotFor (d.cmdOr k).allot
    let d := { d with
      saveGen := (d.saveGen + 1) % 2 ^ 32
      liuWait := d.liuWait.filter (fun x => x ≠ k)
      lius := Tbl.mapVals (fun _ (u : Liu) => if u.bound = some k then { u with saved := true } else u) d.lius }
    let d := d.updCmd k (fun c => { c with phase := .saved, saveGen := gen, saved := some { gen := gen, slot := at_, complete := false } })
    let d := d.updLat (latOf e) (fun t => { t with busyWith := some e })
    d.updEng e (fun g => { g with st := .saving, preemptDue := false })

/-- A preemption of engine e is requested: a trap handler in progress runs to its return first (05, Table 5.8 step 1; 06, Table 6.15). -/
def requestSave (e : Nat) (d : Device) : Device :=
  if !d.savable e then d
  else if (d.eng e).arch.intrap then
    (d.updLat (latOf e) (fun t => { t with busyWith := some e })).updEng e (fun g => { g with preemptDue := true })
  else beginSave e d

/-- No save or request for one is under way in the Lateral any more: an engine that its owner asked to fence is preempted (05 R122 case 2). -/
def nextSave (l : Nat) (d : Device) : Device :=
  match (enginesOf l).find? (fun e => (d.eng e).fenceDue && d.savable e) with
  | some e => requestSave e d
  | none => d

/-- The save of engine e or its request ends without a record: with the command (06, Table 6.15; 05, Table 5.9). -/
def endSave (e : Nat) (d : Device) : Device :=
  if (d.lat (latOf e)).busyWith = some e then
    nextSave (latOf e) ((d.updLat (latOf e) (fun t => { t with busyWith := none })).updEng e (fun g => { g with preemptDue := false }))
  else d

/-- The preemption that waited for the handler's return is taken at it, if its allotment still has a save slot. -/
def takeRequest (e : Nat) (d : Device) : Device :=
  if (d.eng e).preemptDue && !(d.eng e).arch.intrap then
    let a := match (d.eng e).slot with
      | some k => (d.cmdOr k).allot
      | none => 0
    if d.saveSlotsUsed a < 28 then beginSave e d else endSave e d
  else d

/-! ## How a command ends -/

/-- The ent requests of engine e leave their instances' queues (12, Table 12.6). -/
def dropEntropy (e : Nat) (d : Device) : Device :=
  foldOver (fun i d => d.updDrbg i (fun g => { g with queue := g.queue.filter (fun r =>
    !(decide (r.consumer = e) && (decide (r.cls = 1) || decide (r.cls = 3)))) })) (List.range 16) d

/-- The outstanding work of a command that ends in any way (06 R145; 10 R225, R235; 11 R249; 08 R186). -/
def dropWork (k : Nat) (d : Device) : Device :=
  let d := digRelease k (liuRelease k d)
  match (d.cmdOr k).engine with
  | some e => refreshLeases e (dropEntropy e d)
  | none => d

/-- Lines of a command leave the store buffer (05 R114). -/
def dropLines (k : Nat) (d : Device) : Device :=
  foldOver (fun l d => d.updLat l (fun t => { t with sb := t.sb.filter (fun x => x.slot ≠ k) })) (List.range 16) d

/-- Leaf i of the key with handle h, reserved for allotment a, is burned: counted and logged (09 R207; 13, Table 13.17). -/
def noteBurned (a h i : Nat) (d : Device) : Device :=
  record 0x4003 a false h i 0 0 { d with cis := { d.cis with burned := satAdd 0xFFFF_FFFF d.cis.burned 1 } }

/-- A reserved stateful leaf of a command that does not commit is burned (03 R68, 09 R207). -/
def burnLeaf (k : Nat) (d : Device) : Device :=
  match (d.cmdOr k).leaf with
  | none => d
  | some (h, i) => noteBurned (d.cmdOr k).allot h i (d.updCmd k (fun c => { c with leaf := none }))

/-- A command that ends without committing sends ABANDON for its bound target (13 R275). -/
def abandonTarget (k : Nat) (d : Device) : Device :=
  match (d.cmdOr k).target with
  | none => d
  | some h =>
    let c := d.cmdOr k
    let d := d.updCmd k (fun c => { c with target := none })
    toCustody (.keyRequest 4 { handle := h, allot := c.allot, request := 4 + k, slot := k }) d

/-- The command has ended with a status and waits for its completion entry: staging is discarded (03 R68). A failed 0x0C04
whose hold has expired closes its context at once (04, Table 4.6 row 2). -/
def conclude (k st det ol : Nat) (d : Device) : Device :=
  let d := if st = stOk then d else abandonTarget k (burnLeaf k d)
  let c := d.cmdOr k
  let d := if c.stageSize = 0 then d else freeStage k d
  let d := d.updCmd k (fun c => { c with
    phase := .ended
    status := st
    detail := det
    outLen := ol
    engine := none
    staged := none
    saved := none
    entropySince := none
    leaf := none
    target := none })
  let n := eCtx c.entry
  let x := d.ctx n
  if c.attr.routine = 0x0C04 ∧ st ≠ stOk ∧ c.started ∧ x.st = .held ∧ x.allot = c.allot ∧ x.holdExpiry ≤ d.time then
    expireCtx n d
  else d

/-- A command that has not started leaves its line or its waits and completes with a status (04 R97, 02 R51). -/
def concludeUnstarted (k st det : Nat) (d : Device) : Device :=
  let c := d.cmdOr k
  let d := d.updWeir c.weir (fun w => { w with line := w.line.filter (fun x => x ≠ k) })
  conclude k st det 0 d

/-- Execution of a started command stops: engine, units, staging and store-buffer lines are scrubbed (03, Table 3.18). -/
def haltCmd (k : Nat) (d : Device) : Device :=
  let c := d.cmdOr k
  let d := dropLines k (dropWork k d)
  let d := foldOver (fun l d => d.updLat l (fun t => { t with ready := t.ready.filter (fun x => x ≠ k) })) (List.range 16) d
  let d := match c.engine with
    | some e =>
      if (d.eng e).slot = some k then
        let d := d.updEng e (fun g => { g with allot := c.allot })
        let d := dropRequests c.allot ((d.eng e).arch.keys.filter (fun r => decide (r.eng ≠ e))) d
        endSave e (freeEngine e d)
      else d
    | none => (match c.saved with
      | some r => dropRequests c.allot r.arch.keys d
      | none => d)
  d.updCmd k (fun c => { c with engine := none, saved := none, staged := none })

/-- Stop a started command and complete it with a status. -/
def haltWith (k st det ol : Nat) (d : Device) : Device := conclude k st det ol (haltCmd k d)

/-- The routine has ended: the engine waits for the drain of the command's stores (05 R115, 06 R145). Its key requests that are not delivered are
discarded, their deliveries scrubbed as they come; a preemption requested of it ends with it. -/
def endRoutine (k st det ol : Nat) (d : Device) : Device :=
  let d := dropWork k d
  let d := match (d.cmdOr k).engine with
    | some e => endSave e ((dropRequests (d.cmdOr k).allot (d.eng e).arch.keys d).updArch e (fun t => { t with keys := [] }))
    | none => d
  d.updCmd k (fun c => { c with
    phase := .draining
    status := st
    detail := det
    outLen := ol
    staged := if st = stOk then c.staged else none })

/-- A command is replayed from its input (15 R314): staged output, context window, bindings, digest state and keys are
discarded; a reserved leaf is burned; ES_CYCLES starts again with the engine state of the next dispatch. A command with
no Lateral left to run on keeps its old one. -/
def replayCmd (k seq : Nat) (d : Device) : Device :=
  let c := d.cmdOr k
  let d := abandonTarget k (burnLeaf k d)
  let d := haltCmd k d
  let d := d.updCmd k (fun c => { c with
    phase := .ready
    replays := c.replays + 1
    replayFor := some seq
    status := 0
    detail := 0
    outLen := 0
    keyAsked := false
    inArrived := if c.attr.stream then 0 else c.inArrived
    input := []
    commitBegun := false })
  let d := d.updAllot c.allot (fun t => { t with replayCount := satAdd 0xFFFF_FFFF t.replayCount 1 })
  let d := recordComputeAs 0x3010 (d.seqSource seq) c.allot (c.sq + eTag c.entry * 2 ^ 16) seq (c.replays + 1) 0 d
  toReady k c.lateral true d

/-! ## Completion entries (02 R31 to R50) -/

/-- A completion entry (02, Table 2.5): OWN written as 1. -/
def mkCqe (tag sq status : Nat) (batch : Bool) (count ol det : Nat) : CqEntry :=
  BitVec.ofNat 128 (pack [(2, tag), (2, sq), (1, status), (1, 1 + 2 * b2n batch), (2, count), (4, ol), (4, det)])

/-- Entries written and not released. -/
def CompQueue.used (q : CompQueue) : Nat := (q.tail + 65536 - q.head) % 65536
def CompQueue.room (q : CompQueue) : Bool := decide (q.used < q.depth)
def CompQueue.slotAddr (q : CompQueue) : Nat := q.base + (q.tail % q.depth) * 16

/-- Signal when the coalescing condition holds (02 R57, R438): a signal makes every entry written so far signalled. -/
def coalSignal (a n : Nat) (d : Device) : Device :=
  let q := d.cq a n
  if q.irqEn && decide (0 < q.unsig) &&
      (decide (max 1 q.coalCount ≤ q.unsig) || (decide (0 < q.coalTime) && decide (q.oldest + q.coalTime * 1000 ≤ d.time)))
  then signal a q.vector (d.updCq a n (fun q => { q with unsig := 0 }))
  else d

/-- The batch under assembly ends: its members learn its size, the form that the first member's bits select, and whether it is
a barrier unit (02 R48, Table 2.10). -/
def sealBatch (a n : Nat) (d : Device) : Device :=
  let members := (d.sq a n).batch
  let first := match members with
    | k :: _ => (d.cmdOr k).entry
    | [] => 0
  let bar := members.any (fun k => eBarrier (d.cmdOr k).entry)
  foldOver (fun k d => d.updCmd k (fun c => { c with
    batchSize := members.length
    batchOne := eOneCqe first
    batchErr := eErrOnly first
    batchBarrier := bar })) members (d.updSq a n (fun q => { q with batch := [] }))

/-- A queue stops before BATCH_LAST is consumed: every member of the batch under assembly completes with QUEUE_DISABLED, one that admission has
ended too (02, Table 2.10), but not one that an ABORT has matched (03 R83). -/
def dropBatch (a n : Nat) (d : Device) : Device :=
  foldOver (fun k d =>
    let c := d.cmdOr k
    if c.phase = .ended ∧ c.status = stAborted then d else concludeUnstarted k stQueueDisabled 0 d) (d.sq a n).batch
    (sealBatch a n d)

/-- The QUEUE_ERROR notice of a queue (02 R53, Table 2.14). -/
def queueError (a n kind cause addr : Nat) (d : Device) : Device :=
  notice a 0x7003 2 (n + kind * 2 ^ 16) cause (addr % 2 ^ 32) (addr / 2 ^ 32) d

/-- The commands of a queue have all completed: a queue in ERROR now posts its QUEUE_ERROR (02 R53, R47). -/
def afterQueue (a n : Nat) (d : Device) : Device :=
  let q := d.sq a n
  if q.errorDue && decide (d.ofQueue a n = []) then
    queueError a n 0 q.cause q.failAddr (d.updSq a n (fun q => { q with errorDue := false }))
  else d

/-- A submission queue enters ERROR (02 R53). -/
def stopSq (a n cause addr : Nat) (d : Device) : Device :=
  dropBatch a n <| d.updSq a n (fun q => { q with
    error := true
    disable := true
    scanning := false
    rescan := false
    pend := false
    burst := 0
    cause := cause
    failAddr := addr
    errorDue := true })

/-- A failure of its own: QUEUE_ERROR follows the completions of the commands consumed (02 R53). -/
def sqError (a n cause addr : Nat) (d : Device) : Device :=
  if (d.sq a n).error then d else afterQueue a n (stopSq a n cause addr d)

/-- A completion queue enters ERROR (02 R53): it writes nothing more, waiting entries are discarded, every submission queue
bound to it enters ERROR, and one QUEUE_ERROR is posted. -/
def cqError (a n cause addr : Nat) (d : Device) : Device :=
  if (d.cq a n).error then d else
  let d := d.updCq a n (fun q => { q with error := true, cause := cause, failAddr := addr, waiting := [] })
  let d := foldOver (fun i d =>
    let q := d.sq a i
    if q.present && decide (q.cqId = n) && !q.error then
      (stopSq a i cause addr d).updSq a i (fun q => { q with errorDue := false })
    else d) (List.range 1024) d
  queueError a n 1 cause addr d

/-- What a write of one completion entry comes to. -/
inductive CqWrite where
  | written
  | held
  | lost
deriving DecidableEq, Repr

/-- Write one completion entry into a queue that has room (02 R31, R32, R44, R57). -/
def writeCqe (a n : Nat) (x : CqEntry) (d : Device) : CqWrite × Device :=
  let q := d.cq a n
  if q.error || !q.present then (.lost, d) else
  let addr := q.slotAddr
  match gateCheck d a a addr 16 1 true none with
  | .permit =>
    let d := hostWrite a addr (toBytes 16 x.toNat) d
    let d := d.updCq a n (fun q => { q with
      tail := (q.tail + 1) % 65536
      written := q.written + 1
      unsig := q.unsig + 1
      oldest := if q.unsig = 0 then d.time else q.oldest })
    (.written, coalSignal a n d)
  | .wait => (.held, gateWait a (.completion a n) addr 16 1 d)
  | .refuse c r st => (.lost, cqError a n 2 addr (reportRefusal a a addr 16 1 0xF0 c r st true d))

/-! ## The admin queue (02 R36) -/

def AdmQueue.depth (q : AdmQueue) : Nat := 2 ^ q.depthLog2
def AdmQueue.cqUsed (q : AdmQueue) : Nat := (q.tail + 65536 - q.head) % 65536
def AdmQueue.cqRoom (q : AdmQueue) : Bool := decide (q.cqUsed < q.depth)

/-- IDLE of the admin queue: stopped and drained (02, Table 2.19); a QUEUE_ERROR that is due follows the last completion (R53). -/
def admSettle (a : Nat) (d : Device) : Device :=
  let q := d.adm a
  let drained := decide (q.cmds = []) && decide (q.cqWaiting = [])
  let d := d.updAdm a (fun q => { q with idle := q.idle || ((!q.enable || q.error) && drained && decide (q.burst = 0)) })
  if q.errorDue && drained then queueError a 0xFFFF 0 q.cause q.failAddr (d.updAdm a (fun q => { q with errorDue := false })) else d

/-- The admin queue enters ERROR (02 R36, R53): its submission ring has failed and fetches nothing more, or its completion ring (`cq`),
whose entries are discarded. Its QUEUE_ERROR notice carries the queue number 0xFFFF (DESIGN CHOICE, assumption 128). -/
def admError (a : Nat) (cq : Bool) (cause addr : Nat) (d : Device) : Device :=
  let was := d.adm a
  let d := d.updAdm a (fun q => { q with
    error := true
    cause := if was.error then was.cause else cause
    failAddr := if was.error then was.failAddr else addr
    scanning := false
    rescan := false
    burst := 0
    cqBad := cq || was.cqBad
    cqWaiting := if cq then [] else q.cqWaiting
    errorDue := was.errorDue || (!cq && !was.error) })
  admSettle a (if cq && !was.cqBad then queueError a 0xFFFF 1 cause addr d else d)

/-- Write the waiting admin completion entries while there is room (02 R34). -/
def drainAdm : (fuel : Nat) → (a : Nat) → Device → Device
  | 0, _, d => d
  | f + 1, a, d =>
    let q := d.adm a
    match q.cqWaiting with
    | [] => d
    | x :: rest =>
      if q.cqRoom && !q.cqBad then
        let addr := q.cqBase + (q.tail % q.depth) * 16
        match gateCheck d a a addr 16 1 true none with
        | .permit =>
          let d := hostWrite a addr (toBytes 16 x.toNat) d
          let d := d.updAdm a (fun q => { q with tail := (q.tail + 1) % 65536, cqWaiting := rest })
          drainAdm f a (if q.irqEn then signal a q.vector d else d)
        | .wait => gateWait a (.admCqe a) addr 16 1 d
        | .refuse c r st =>
          let d := reportRefusal a a addr 16 1 0xF0 c r st true d
          admError a true 2 addr d
      else d

/-- The executing admin command of allotment a completes (02 R36): SQ_ID 0xFFFF. -/
def admDone (a st ol det : Nat) (d : Device) : Device :=
  match (d.adm a).cmds with
  | [] => d
  | (_, e) :: rest =>
    let d := d.updAdm a (fun q => { q with
      cmds := rest
      waits := .none
      cqWaiting := if q.cqBad then [] else q.cqWaiting ++ [mkCqe (bytesAt e 0 2) 0xFFFF st false 0 ol det] })
    admSettle a (drainAdm 4097 a d)

/-- An admin command that changes nothing (02 R39). -/
def admRefuse (a det : Nat) (d : Device) : Device := admDone a stRefused 0 det d

/-- The admin command waits. -/
def admWait (a : Nat) (w : AdmWait) (d : Device) : Device := d.updAdm a (fun q => { q with waits := w })

/-- Bytes of parameters that an opcode uses: bit i of the mask set when byte i of the entry is listed. The check of 02 R37
step 1: every other byte of 4 to 59 and every unlisted bit is zero, the reserved CONTROL bits among them, which DETAIL 0xF reports (DESIGN CHOICE,
assumption 127). -/
def paramsClean (e : Entry) (listed : List (Nat × Nat)) : Bool :=
  (List.range 56).all (fun i =>
    let b := bytesAt e (4 + i) 1
    match firstWhere (fun l => decide (l.1 = 4 + i)) listed with
    | some l => decide (b &&& (255 - l.2) = 0)
    | none => decide (b = 0)) &&
  decide (eControl e % 2 ^ 31 = 0)

/-- Whole bytes [a, b] of an admin entry, all bits in use. -/
def wholeBytes (a b : Nat) : List (Nat × Nat) := (List.range (b + 1 - a)).map (fun i => (a + i, 255))

/-- Admin commands that the mode accepts (18, Table 18.1, R374 to R376, R379). -/
def Device.admAccepts (d : Device) (a op : Nat) : Bool :=
  let queueMgmt := decide (1 ≤ op) && decide (op ≤ 6)
  match d.md.mode with
  | .bringup => decide (op = 0x0055) && a == 0 && d.md.debugPause.isSome
  | .provisioning => a == 0 && (queueMgmt || decide (op = 0x0050) || decide (op = 0x0051))
  | .quarantine => a == 0 && (queueMgmt || decide (op = 0x0050))
  | .service => !([0x0050, 0x0051, 0x0055].contains op)
  | .lowFlow => !([0x0050, 0x0051, 0x0052, 0x0055].contains op)
  | .maintenance => !([0x0050, 0x0052, 0x0053, 0x0055].contains op)
  | .debug => !([0x0050, 0x0051, 0x0052, 0x0053, 0x0055].contains op)
  | .retention => false

/-- The front admin command of allotment a, when its opcode is `op` and it has not started. -/
def admFront (a : Nat) (d : Device) : Option (Nat × Entry) :=
  match (d.adm a).cmds, (d.adm a).waits with
  | x :: _, .none => some x
  | _, _ => none

/-- Run an admin command of opcode `op` (02 R36, R37): reserved parameters, alignment of host IOVAs, then the mode (18 R385),
a Levee HOLD (02 R53), then `k`. `own` restricts it to allotment 0. -/
def admin (a op : Nat) (own : Bool) (listed : List (Nat × Nat)) (align : List (Nat × Nat)) (d : Device)
    (k : Entry → Nat → Device → Device) : Device :=
  match admFront a d with
  | none => d
  | some (o, e) =>
    if bytesAt e 2 2 ≠ op then d
    else if own && a != 0 then d
    else if d.stopped || decide (d.md.mode = .retention) then d
    else if !paramsClean e listed then admRefuse a 0xF d
    else if align.any (fun x => bytesAt e x.1 8 % x.2 != 0) then admRefuse a 5 d
    else if !d.admAccepts a op then
      admRefuse a 0x50 (if 0x50 ≤ op ∧ op ≤ 0x55 then recordCompute 0x1002 0 false op 0x50 0 0 d else d)
    else if d.leveeHold && decide (6 < op) then admDone a stHeld 0 d.md.mode.code d
    else k e o d

/-- Write an admin result into the memory of allotment a, checked by its gate (02, 14 Table 14.3: master 0xF4). -/
def admResult (a addr : Nat) (bs : List Byte) (d : Device) (ok : Device → Device) : Device :=
  match checkAll d a a 1 true none (pieces addr bs.length) with
  | (.permit, _, _) => ok (hostWrite a addr bs d)
  | (.wait, p, n) => gateWait a (.admData a) p n 1 d
  | (.refuse c r st, p, n) =>
    admDone a stAccess 0 (violationDetail 4 r 1 st) (reportRefusal a a p n 1 0xF4 c r st true d)

end Sys2Proof.Machine
end

