-- ==== Sys2Proof/Machine/Routines.lean ====
section
/-!
DEFINITION. Sys2Proof/Machine/Routines.lean: the Standard Routine Library as admission and the Sluice use it (03, Tables 3.9 to 3.14; 04,
Table 4.7; 09, Tables 9.6 to 9.16): which IDs and PARAM_SETs exist, what lengths and keys they take, how much they
output, whether they need randomness or a context, and what they cost. What a routine comes to is SrlResult.
-/
namespace Sys2Proof.Machine

/-- SRL routine IDs (03, Tables 3.10 to 3.14): the low bytes of each family. -/
def srlLows (family : Nat) : List Nat := match family with
  | 0x01 => [1, 2, 3, 4, 5]
  | 0x02 => [1, 2, 3, 4, 5]
  | 0x03 => [1, 2, 3, 4, 5]
  | 0x04 => [1, 2, 3, 4]
  | 0x05 => [1, 2, 3, 4]
  | 0x06 => [1, 2, 3]
  | 0x07 => [1, 2, 3]
  | 0x08 => [1, 2, 3]
  | 0x09 => [1, 2, 3, 4, 5, 6]
  | 0x0A => [1, 2, 3, 4, 5]
  | 0x0B => [1, 2, 3, 4, 5, 6, 7, 8, 9]
  | 0x0C => [2, 3, 4, 5, 6]
  | 0x0D => [2, 3, 4, 5]
  | 0x0E => [1, 2]
  | 0x0F => [1, 2, 3]
  | _ => []

def isSrl (r : Nat) : Bool := (srlLows (r / 256)).contains (r % 256)

/-- PARAM_SETs a routine offers (03, Tables 3.9 to 3.14). -/
def srlParams (r : Nat) : List Nat := match r with
  | 0x0901 => [1, 2, 3, 4, 5, 6, 7, 8]
  | 0x0902 => [1, 2, 3, 6, 7, 8]
  | 0x0903 => [1, 2, 3, 6, 7, 8]
  | 0x0904 => [1, 2, 3, 4, 5]
  | 0x0905 => [8]
  | 0x0906 => [8]
  | 0x0A01 => [1, 2, 3, 4, 5, 6]
  | 0x0A02 => [1, 2, 3, 6]
  | 0x0A03 => [1, 2, 3, 6]
  | 0x0A04 => [4, 5]
  | 0x0A05 => [4, 5]
  | 0x0B01 => [1, 2, 3, 4, 5, 6, 7, 8, 9, 12, 13]
  | 0x0B02 => [1, 2, 3, 4, 5, 6, 7, 8, 9, 12, 13]
  | 0x0B03 => [1, 2, 3, 4, 5, 6, 7, 8, 9, 12, 13]
  | 0x0B04 => [1, 2, 3, 4, 5, 6, 7, 8, 9, 10, 11]
  | 0x0B05 => [1, 2, 3, 4, 5, 6, 7, 8, 9, 10, 11]
  | 0x0B06 => [1, 2, 3, 4, 5, 6, 7, 8, 9]
  | 0x0B07 => [1, 2, 3, 4, 5, 6, 7, 8, 9]
  | 0x0B08 => [1, 2, 3]
  | 0x0B09 => [1, 2, 3, 13]
  | _ => match r / 256 with
    | 0x01 | 0x02 | 0x06 => [1, 2, 3]
    | 0x03 => List.range' 1 12
    | 0x07 => List.range' 1 10
    | 0x08 => [1, 2]
    | 0x0C => [1, 2, 3, 4]
    | _ => [0]

/-- Whether a routine takes a key: never, always, or KEY_HANDLE may be zero (03 R77, check 7 of Table 3.6). -/
inductive KeyNeed where
  | never
  | always
  | either
deriving DecidableEq, Repr

def srlKey (r : Nat) : KeyNeed := match r with
  | 0x0102 | 0x0203 | 0x0205 | 0x0303 | 0x0305 | 0x0403 | 0x0503 | 0x0602 | 0x0702 | 0x0903 | 0x0905 => .either
  | 0x0104 | 0x0105 | 0x0801 | 0x0802 | 0x0803 | 0x0B04 | 0x0B05 | 0x0B06 | 0x0B07 | 0x0B08 | 0x0B09 | 0x0C04 | 0x0E01
  | 0x0E02 | 0x0F01 | 0x0F02 | 0x0F03 => .never
  | _ => .always

/-- The usage of the routine's Key column (03, Tables 3.10 to 3.14): one usage, or the code of the set it admits (13, Table 13.7a); 0 where
the column names none or any. -/
def srlUsage (r : Nat) : Nat := match r with
  | 0x0101 | 0x0103 | 0x0601 | 0x0603 | 0x0701 | 0x0703 => 9
  | 0x0102 | 0x0602 | 0x0702 => 8
  | 0x0201 | 0x0202 | 0x0204 | 0x0301 | 0x0302 | 0x0304 | 0x0401 | 0x0402 | 0x0404 | 0x0501 | 0x0502 | 0x0504 | 0x0902 | 0x0B02 | 0x0C02 => 6
  | 0x0203 | 0x0205 | 0x0303 | 0x0305 | 0x0403 | 0x0503 | 0x0903 | 0x0B03 | 0x0C03 => 7
  | 0x0904 => 10
  | 0x0905 | 0x0A02 => 1
  | 0x0906 | 0x0A03 => 2
  | 0x0A04 | 0x0C05 | 0x0C06 => 3
  | 0x0A05 => 4
  | 0x0D04 => 5
  | 0x0901 => 11
  | 0x0A01 => 12
  | 0x0B01 => 13
  | _ => 0

/-- The routine fills the target that KEY_HANDLE names (03 R76), or ARGS0 of 0x0D04. -/
def srlFills (r : Nat) : Bool :=
  [0x0101, 0x0201, 0x0301, 0x0401, 0x0501, 0x0601, 0x0701, 0x0901, 0x0A01, 0x0B01, 0x0D03, 0x0D04].contains r

/-- A message of at most 1,048,576 bytes after `n` other bytes (09 R196). -/
def msgAfter (n len : Nat) : Bool := decide (n ≤ len) && decide (len - n ≤ 1048576)

/-- ROUTINE_ARGS of a stateful key pair that 09, R204 and Table 9.3 offer: LMS and LM-OTS types with 1 to 8 levels of a total height up to
20, XMSS and XMSS^MT OIDs. -/
def hssArgsOk (lms ots levels : Nat) : Bool :=
  let sha := decide (0x05 ≤ lms) && decide (lms ≤ 0x08) && decide (1 ≤ ots) && decide (ots ≤ 4)
  let shake := decide (0x0F ≤ lms) && decide (lms ≤ 0x12) && decide (0x09 ≤ ots) && decide (ots ≤ 0x0C)
  let height := if sha then 5 * (lms - 0x04) else 5 * (lms - 0x0E)
  (sha || shake) && decide (1 ≤ levels) && decide (levels ≤ 8) && decide (levels * height ≤ 20)
def xmssArgsOk (oid mt : Nat) : Bool :=
  if mt = 0 then [1, 2, 3, 0x10, 0x11, 0x12].contains oid
  else decide (mt = 1) && [1, 2, 0x29, 0x2A].contains oid

/-- An SRL routine accepts its ROUTINE_ARGS (03, Tables 2.2, 3.10 to 3.14; 09 R195, R198, R204, R216, R221; 11 R245): words and bits that it does not use
for the operation requested are zero, the others hold values that its row offers. -/
def srlArgsOk (e : Entry) : Bool :=
  let p := eParam e
  let a0 := eArg e 0
  let a1 := eArg e 1
  let a2 := eArg e 2
  let key := decide (eKey e ≠ 0)
  let in_ (lo hi x : Nat) : Bool := decide (lo ≤ x) && decide (x ≤ hi)
  let rsaDigest := [1, 2, 3, 6, 7, 8].contains a1
  let rsaPad := rsaDigest && (decide (a0 = 1) && decide (a2 % 65536 = 0) || decide (a0 = 2) && decide (a2 % 65536 ≤ digestLen a1))
  let rsaSize := if key then decide (a2 / 65536 = 0) else in_ 32 128 (a2 / 65536)
  let z12 := decide (a1 = 0) && decide (a2 = 0)
  let z := decide (a0 = 0) && z12
  match eRoutine e with
  | 0x0102 | 0x0103 | 0x0105 | 0x0602 | 0x0603 | 0x0702 | 0x0703 | 0x0904 => decide (a0 ≤ 1) && z12
  | 0x0202 | 0x0302 => decide (a0 ≤ 1) && decide (a1 ≤ 255) && decide (a2 = 0)
  | 0x0203 | 0x0303 => decide (a0 = 0) && decide (a1 ≤ 255) && decide (a2 = 0)
  | 0x0204 | 0x0304 => decide (a0 ≤ 1) && decide (a1 ≤ 255) && in_ 1 11 a2
  | 0x0205 | 0x0305 => decide (a0 = 0) && decide (a1 ≤ 255) && in_ 1 11 a2
  | 0x0401 => hssArgsOk a0 a1 a2
  | 0x0403 => z12
  | 0x0501 => xmssArgsOk a0 a1 && decide (a2 = 0)
  | 0x0503 => decide (a1 ≤ if key then 0 else 1) && decide (a2 = 0)
  | 0x0901 => if p = 8 then in_ 2048 8192 a0 && decide (a0 % 64 = 0) && z12 else z
  | 0x0902 => if p = 8 then rsaPad && decide (a2 < 65536) else if p ≤ 3 then (decide (a0 = 0) || decide (a0 = 0x100)) && z12 else z
  | 0x0903 => if p = 8 then rsaPad && rsaSize else z
  | 0x0905 => (decide (a0 = 1) && decide (a1 = 0) || decide (a0 = 3) && rsaDigest) && decide (a2 % 65536 = 0) && rsaSize
  | 0x0906 => decide (a0 = 0) && rsaDigest && decide (a2 = 0)
  | 0x0A01 => (if p = 3 then [256, 512].contains a0 else if p = 6 then decide (a0 = 256) else [128, 192, 256].contains a0) && z12
  | 0x0A02 | 0x0A03 => decide (a0 = 0) && (decide (a1 = 0) || decide (p = 1) || decide (p = 6)) && decide (a2 = 0)
  | 0x0B01 => in_ 16 64 a0 && z12
  | 0x0B02 => if p = 12 ∨ p = 13 then in_ 16 64 a0 && decide (a1 ≤ 255) && decide (a2 = 0) else z
  | 0x0B03 => if p = 12 ∨ p = 13 then in_ 16 64 a0 && decide (a1 ≤ 255) && decide (a2 = 0) else in_ 16 (digestLen p) a0 && z12
  | 0x0B04 => if p = 10 ∨ p = 11 then in_ 1 65536 a0 && z12 else z
  | 0x0B05 => if p = 10 ∨ p = 11 then in_ 1 64 a0 && z12 else z
  | 0x0B08 => in_ 1 (255 * digestLen p) a2
  | 0x0B09 => in_ 1 65536 a2
  | 0x0C02 => decide (a0 ≤ 2) && decide (a1 ≠ 0) && decide (a2 = 0)
  | 0x0C04 => decide (a0 ≤ 2) && z12
  | 0x0C05 => decide (a0 ≤ 3) && z12
  | 0x0C06 => (decide (a0 = 0) || decide (a0 = 2)) && z12
  | 0x0D02 | 0x0D03 => z12
  | 0x0D04 => decide (a1 ≤ 65535) && decide (a2 = 0)
  | 0x0E01 | 0x0E02 => in_ 1 65536 a0 && z12
  | 0x0F03 => in_ 1 15 a0 && z12
  | _ => z

/-- Check 6 of Table 3.6 for an SRL routine that accepts its ROUTINE_ARGS (03, Tables 3.10 to 3.14; 09 R195, R196, R202, R216, R220). -/
def srlLenOk (e : Entry) : Bool :=
  let r := eRoutine e
  let p := eParam e
  let n := eInLen e
  let a0 := eArg e 0
  let a1 := eArg e 1
  let a2 := eArg e 2
  let key := decide (eKey e ≠ 0)
  let f := r / 256
  let cl := a1 % 256
  match r with
  | 0x0102 | 0x0602 | 0x0702 => if key then decide (n = 0) else decide (n = kemPk f p)
  | 0x0103 | 0x0105 | 0x0603 | 0x0703 => decide (n = kemCt f p)
  | 0x0202 | 0x0302 => msgAfter cl n
  | 0x0203 | 0x0303 => msgAfter (sigLen f p + cl) n
  | 0x0204 | 0x0304 => prehashLen (a2 % 256) == 0 || decide (n = cl + prehashLen (a2 % 256))
  | 0x0205 | 0x0305 => prehashLen (a2 % 256) == 0 || decide (n = sigLen f p + cl + prehashLen (a2 % 256))
  | 0x0402 | 0x0502 => msgAfter 0 n
  | 0x0403 | 0x0503 => msgAfter a0 n
  | 0x0802 => decide (n = bySet [1216, 1249] p)
  | 0x0803 => decide (n = bySet [1120, 1153] p)
  | 0x0902 =>
    if p ≤ 3 then decide (n = 32 ∨ n = 48 ∨ n = 64)
    else if p = 8 then !([1, 2, 3, 6, 7, 8].contains a1) || decide (n = digestLen a1)
    else msgAfter 0 n
  | 0x0903 =>
    if p ≤ 3 then decide (n = curveSig p + 32 ∨ n = curveSig p + 48 ∨ n = curveSig p + 64)
    else if p = 8 then key || !([1, 2, 3, 6, 7, 8].contains a1) || decide (n = a2 / 65536 * 8 + digestLen a1)
    else msgAfter (curveSig p) n
  | 0x0904 => decide (n = curvePk p)
  | 0x0905 | 0x0906 => true
  | 0x0A02 =>
    decide (n ≤ 16777216) &&
      (if p = 3 then decide (16 ≤ n) else if p = 2 then true else decide (a1 ≤ n))
  | 0x0A03 =>
    decide (n ≤ 16777216) &&
      (if p = 3 then decide (16 ≤ n) else if p = 2 then true else decide (a1 + 16 ≤ n))
  | 0x0A04 => decide (n ≤ 16777216) && (if p = 4 then decide (n % 8 = 0) && decide (16 ≤ n) else decide (1 ≤ n))
  | 0x0A05 => decide (n ≤ 16777216) && decide (n % 8 = 0) && (if p = 4 then decide (24 ≤ n) else decide (16 ≤ n))
  | 0x0B02 | 0x0B04 | 0x0B05 | 0x0B07 => true
  | 0x0B03 => decide (a0 ≤ n)
  | 0x0B06 => decide (n % blockLen p = 0)
  | 0x0B08 => decide (n = a0 % 65536 + a1 + a0 / 65536)
  | 0x0B09 => decide (n = a0 + a1 % 65536 + a1 / 65536)
  | 0x0C02 | 0x0C04 => decide (n ≤ 16384)
  | 0x0C03 => decide (n ≤ 32768)
  | 0x0D03 => true
  | 0x0D04 => decide (a1 % 65536 ≤ n)
  | 0x0F02 => decide (n ≤ 16777216)
  | _ => decide (n = 0)

/-- The smallest and the largest IN_LEN that an SRL routine accepts, over its sets, arguments and keys (03, Tables 3.10 to 3.14; 09 R196). A length
that only an argument bounds goes up to the largest IN_LEN. -/
def srlInRange (r : Nat) : Nat × Nat :=
  let msg := 1048576
  let all := 0xFFFF_FFFF
  match r with
  | 0x0102 => (0, 1568)
  | 0x0103 | 0x0105 => (768, 1568)
  | 0x0202 | 0x0302 => (0, 255 + msg)
  | 0x0203 => (2420, 4627 + 255 + msg)
  | 0x0303 => (7856, 49856 + 255 + msg)
  | 0x0204 | 0x0304 => (28, 255 + 64)
  | 0x0205 => (2420 + 28, 4627 + 255 + 64)
  | 0x0305 => (7856 + 28, 49856 + 255 + 64)
  | 0x0402 | 0x0502 => (0, msg)
  | 0x0403 | 0x0503 => (0, all)
  | 0x0602 => (0, 7237)
  | 0x0603 => (4433, 14421)
  | 0x0702 => (0, 1357824)
  | 0x0703 => (96, 208)
  | 0x0802 => (1216, 1249)
  | 0x0803 => (1120, 1153)
  | 0x0902 => (0, msg)
  | 0x0903 => (64, 114 + msg)
  | 0x0904 => (32, 133)
  | 0x0905 => (0, all)
  | 0x0906 => (256, 1024)
  | 0x0A02 | 0x0A03 => (0, 0x100_0000)
  | 0x0A04 => (1, 0x100_0000)
  | 0x0A05 => (16, 0x100_0000)
  | 0x0B03 => (16, all)
  | 0x0B02 | 0x0B04 | 0x0B05 | 0x0B06 | 0x0B07 | 0x0D03 => (0, all)
  | 0x0B08 | 0x0B09 | 0x0D04 => (0, all)
  | 0x0C02 | 0x0C04 => (0, 16384)
  | 0x0C03 => (0, 32768)
  | 0x0F02 => (0, 0x100_0000)
  | _ => (0, 0)

/-- The output size that PARAM_SET and IN_LEN alone fix, whatever ROUTINE_ARGS hold (03, Tables 3.10 to 3.14). -/
def srlOutBySet (e : Entry) : Option Nat :=
  let r := eRoutine e
  let p := eParam e
  let n := eInLen e
  let f := r / 256
  match r with
  | 0x0101 | 0x0104 | 0x0601 | 0x0701 => some (kemPk f p)
  | 0x0201 | 0x0301 => some (sigPk f p)
  | 0x0202 | 0x0204 | 0x0302 | 0x0304 => some (sigLen f p)
  | 0x0203 | 0x0205 | 0x0303 | 0x0305 | 0x0403 | 0x0503 | 0x0903 | 0x0803 => some 0
  | 0x0401 => some 60
  | 0x0501 => some 68
  | 0x0404 | 0x0504 => some 16
  | 0x0801 => some (bySet [1216, 1249] p)
  | 0x0802 => some (bySet [1120, 1153] p)
  | 0x0901 => if p = 8 then none else some (curvePk p)
  | 0x0902 => if p = 8 then none else some (curveSig p)
  | 0x0A01 | 0x0B01 | 0x0B03 | 0x0B05 | 0x0D03 | 0x0D04 | 0x0F01 | 0x0F03 => some 0
  | 0x0A02 | 0x0A03 => if p = 2 ∨ p = 3 then some n else none
  | 0x0A04 => some (roundUp n 8 + 8)
  | 0x0A05 => if p = 4 then some (n - 8) else none
  | 0x0B02 => if p = 12 ∨ p = 13 then none else some (digestLen p)
  | 0x0B04 => if p = 10 ∨ p = 11 then none else some (digestLen p)
  | 0x0B06 => some 512
  | 0x0B07 => some (digestLen p)
  | 0x0F02 => some n
  | _ => none

/-- The output size that PARAM_SET, ROUTINE_ARGS, IN_LEN and the presence of a key fix (03, Tables 3.10 to 3.14, check 9 of Table 3.6). A size that
ROUTINE_ARGS would fix is fixed by none that the routine refuses (DEDUCED, assumption 123). -/
def srlOutFixed (e : Entry) : Option Nat :=
  if !srlArgsOk e then srlOutBySet e else
  let r := eRoutine e
  let p := eParam e
  let n := eInLen e
  let a0 := eArg e 0
  let a1 := eArg e 1
  let a2 := eArg e 2
  let f := r / 256
  let toCtx := bitOf a0 0
  match r with
  | 0x0102 | 0x0602 | 0x0702 => some (kemCt f p + if toCtx then 0 else 32)
  | 0x0103 | 0x0105 | 0x0603 | 0x0703 => some (if toCtx then 0 else 32)
  | 0x0901 => some (if p = 8 then a0 / 8 + 4 else curvePk p)
  | 0x0904 => some (if toCtx then 0 else agreeLen p)
  | 0x0905 => if eKey e = 0 then some (a2 / 65536 * 8) else none
  | 0x0A02 => some (if p = 2 ∨ p = 3 then n else (if eAux e = 0 then 12 else 0) + (n - a1) + 16)
  | 0x0A03 => some (if p = 2 ∨ p = 3 then n else n - a1 - 16)
  | 0x0B02 => some (if p = 12 ∨ p = 13 then a0 else digestLen p)
  | 0x0B04 => some (if p = 10 ∨ p = 11 then a0 else digestLen p)
  | 0x0B08 | 0x0B09 => some a2
  | 0x0C05 => some (16 + 40 + 32 * b2n (bitOf a0 0) + 16 + 16 * b2n (bitOf a0 1))
  | 0x0C06 => some (2 * (24 + 16 * b2n (bitOf a0 1)))
  | 0x0E01 | 0x0E02 => some a0
  | _ => srlOutBySet e

/-- The largest output where it is not fixed (ES_OUTCAP; DESIGN CHOICE: SRL image headers are no part of the spec). -/
def srlOutLargest (e : Entry) : Nat := match eRoutine e with
  | 0x0402 | 0x0502 => 65536
  | 0x0902 | 0x0905 | 0x0906 => 1024
  | 0x0A05 => eInLen e
  | 0x0C02 => 131072
  | 0x0C03 | 0x0C04 => 65536
  | 0x0D02 => 16384
  | 0x0D05 => 1357824
  | _ => 0

/-- Bytes at AUX_ADDR that the routine reads (03, Tables 3.10 to 3.14; 09 R195). -/
def srlAux (e : Entry) : Nat :=
  let p := eParam e
  let key := decide (eKey e ≠ 0)
  let rsa := eArg e 2 / 65536 * 8 + 4
  if eAux e = 0 then 0 else
  match eRoutine e with
  | 0x0203 | 0x0205 | 0x0303 | 0x0305 => if key then 0 else sigPk (eRoutine e / 256) p
  | 0x0403 => if key then 0 else 60
  | 0x0503 => if key then 0 else 68
  | 0x0903 => if key then 0 else if p = 8 then rsa else curvePk p
  | 0x0905 => if key then 0 else rsa
  | 0x0A02 | 0x0A03 => if p = 2 ∨ p = 3 then 16 else 12
  | 0x0B02 | 0x0B03 => if p = 12 ∨ p = 13 then eArg e 1 % 256 else 0
  | 0x0B05 => if p = 10 ∨ p = 11 then eArg e 0 else digestLen p
  | 0x0B06 | 0x0B07 => 512
  | 0x0C02 => min (eArg e 1) 65536
  | 0x0C05 => 12
  | _ => 0

/-- Whether a routine reads AUX_ADDR for the operation requested (03, Tables 3.10 to 3.14; 09 R195): never, always, or as it is given. -/
def srlAuxNeed (e : Entry) : KeyNeed :=
  let p := eParam e
  let noKey := decide (eKey e = 0)
  match eRoutine e with
  | 0x0203 | 0x0205 | 0x0303 | 0x0305 | 0x0403 | 0x0503 | 0x0903 | 0x0905 => if noKey then .always else .never
  | 0x0A02 => if p = 2 ∨ p = 3 then .always else .either
  | 0x0A03 => .always
  | 0x0B02 | 0x0B03 => if (p = 12 ∨ p = 13) ∧ eArg e 1 ≠ 0 then .always else .never
  | 0x0B05 | 0x0B07 | 0x0C02 | 0x0C05 => .always
  | 0x0B06 => .either
  | _ => .never

/-- AUX_ADDR is missing or misplaced (09 R195). -/
def srlAuxWrong (e : Entry) : Bool := match srlAuxNeed e with
  | .always => decide (eAux e = 0)
  | .never => decide (eAux e ≠ 0)
  | .either => false

/-- What an SRL routine refuses before it reads any input (09 R195): DETAIL 4 for ROUTINE_ARGS that it does not accept, then DETAIL 5 for its
AUX_ADDR. -/
def Cmd.earlyRefusal (c : Cmd) : Option Nat :=
  if !isSrl c.attr.routine then none
  else if !srlArgsOk c.entry then some 4
  else if srlAuxWrong c.entry then some 5
  else none

/-- The command draws fresh randomness through ent (09 R197; 03 R71: deterministic forms do not). -/
def srlRandom (e : Entry) : Bool := match eRoutine e with
  | 0x0101 | 0x0104 | 0x0201 | 0x0301 | 0x0401 | 0x0501 | 0x0601 | 0x0701 | 0x0901 => true
  | 0x0102 | 0x0602 | 0x0702 => true
  | 0x0202 | 0x0204 | 0x0302 | 0x0304 => !bitOf (eArg e 0) 0
  | 0x0902 =>
    if eParam e ≤ 3 then decide (eArg e 0 ≠ 0x100)
    else decide (eParam e = 8) && decide (eArg e 0 = 2) && decide (eArg e 2 % 65536 ≠ 0)
  | 0x0905 => true
  | 0x0A02 => decide (eParam e = 1 ∨ eParam e = 6) && decide (eAux e = 0)
  | 0x0C02 | 0x0C03 | 0x0C04 | 0x0C05 | 0x0C06 | 0x0801 | 0x0802 => true
  | 0x0E01 | 0x0E02 => true
  | _ => false

/-- The command takes a session context (03, Tables 3.10 to 3.13; R77 TO_CONTEXT). -/
def srlCtx (e : Entry) : Bool :=
  toContext e || [0x0104, 0x0105, 0x0801, 0x0802, 0x0803, 0x0C02, 0x0C03, 0x0C04, 0x0C05, 0x0C06].contains (eRoutine e)

/-- Context states that accept the command (04, Table 4.1; 09 R201). An owner routine is accepted in OPEN and ACTIVE
(DEDUCED: no other state accepts a routine but HELD, which takes 0x0C04 alone). -/
def acceptsCtx (e : Entry) (c : Ctx) : Bool :=
  let both := decide (c.st = .opened) || decide (c.st = .active)
  match eRoutine e with
  | 0x0C02 | 0x0801 | 0x0802 => decide (c.st = .opened)
  | 0x0C03 => decide (c.st = .active)
  | 0x0C04 => decide (c.st = .held)
  | 0x0C05 => decide (c.st = .active) && c.clientOk
  | 0x0C06 => decide (c.st = .active) && c.mka
  | 0x0105 => both && c.ephemeral && !c.hybrid
  | 0x0803 => both && c.hybrid
  | _ => both

/-! ## Keys by handle (13 R268, R280) -/

def handleAllot (h : Nat) : Nat := field h 31 26
def handleStore (h : Nat) : Bool := bitOf h 25
def handleSlot (h : Nat) : Nat := field h 11 0
def handleIndex (h : Nat) : Nat := field h 24 0

/-- Key of a Sealed Store object in the device-wide table. -/
def objKey (h : Nat) : Nat := handleAllot h * 2 ^ 25 + handleIndex h

/-- The attribute block that a handle names, if it names an allocated slot or object of the handle's allotment. -/
def Device.keyAttr (d : Device) (h : Nat) : Option KeyAttr :=
  if handleStore h then (Tbl.find d.ss.objs (objKey h)).map (fun o => o.attr)
  else if field h 24 12 ≠ 0 then none
  else
    let s := d.slot (handleSlot h)
    if s.attr.st ≠ 0 ∧ s.attr.allot = handleAllot h then some s.attr else none

/-- The masking order of the variant that runs (03 R61): the key's MASK_ORDER, 0 without a key. It is read as the entry is consumed (DESIGN CHOICE,
assumption 133). -/
def Device.variant (d : Device) (e : Entry) : Nat :=
  if eKey e = 0 then 0 else match d.keyAttr (eKey e) with
    | some a => a.maskOrder
    | none => 0

/-! ## Latencies and costs (09, Tables 9.10 to 9.16; 08, Table 8.11; 04 R98) -/

/-- A latency in ns at a masking order: the order-0 figure times the ratio of a row of Table 8.11. -/
def masked (t : Nat) (row : List Nat) (order : Nat) : Nat :=
  if order = 0 then t else (t * row.getD order 0 + row.getD 0 1 - 1) / row.getD 0 1

def rowKem : List Nat := [9, 18, 28, 44]
def rowDsa65 : List Nat := [11, 18, 29, 44]
def rowDsa87 : List Nat := [15, 25, 40, 61]
def rowShake : List Nat := [14, 29, 52, 83]
def rowSha2 : List Nat := [16, 140, 310, 520]
def rowLms : List Nat := [50, 430, 950, 1600]
def rowHqc : List Nat := [30, 52, 81, 118]
def rowMce : List Nat := [60, 150, 270, 420]
def rowMont : List Nat := [10, 11, 11, 11]
def rowWei : List Nat := [120, 135, 135, 135]
def rowRsa : List Nat := [900, 960, 960, 960]

/-- Linear interpolation in modulus bits between the listed sizes (09, Table 9.16). -/
def rsaTime (l : List Nat) (bits : Nat) : Nat :=
  let between (x0 y0 x1 y1 : Nat) : Nat := y0 + (y1 - y0) * (bits - x0) / (x1 - x0)
  let g (i : Nat) : Nat := l.getD i 0
  if bits ≤ 3072 then between 2048 (g 0) 3072 (g 1)
  else if bits ≤ 4096 then between 3072 (g 1) 4096 (g 2)
  else between 4096 (g 2) 8192 (g 3)

def rsaPrivate (bits : Nat) : Nat := rsaTime [330000, 900000, 2000000, 14700000] bits
def rsaPublic (bits : Nat) : Nat := rsaTime [9000, 20000, 35000, 130000] bits
def rsaKeyPair (bits : Nat) : Nat := rsaTime [45000000, 160000000, 420000000, 7000000000] bits

/-- LM-OTS type: 0 to 3 for W1 to W8, and whether it is a SHAKE type (09, Table 9.3). -/
def otsW (t : Nat) : Nat := (t - 1) % 4
def otsShake (t : Nat) : Bool := decide (9 ≤ t)
def shakeTime (b : Bool) (t : Nat) : Nat := if b then t * 85 / 100 else t

/-- Total height of an HSS key from its LMS type and levels, of an XMSS key from its OID and variant (09, Table 9.3). -/
def lmsHeight (t levels : Nat) : Nat := 5 * ((if 0x0F ≤ t then t - 0x0F else t - 5) + 1) * levels
def xmssHeight (oid variant : Nat) : Nat :=
  if variant = 1 then 20 else match oid with
  | 0x01 | 0x10 => 10
  | 0x02 | 0x11 => 16
  | _ => 20

/-- Cost of a stateful routine in ns: sign, verify, key pair (09, Tables 9.12, 9.16). The spec gives no cost to a
verification without a key, whose type only the input shows, nor to XMSS sizes other than H20: those take the H20 figure. -/
def statefulTime (e : Entry) (a : Option KeyAttr) (order : Nat) : Option Nat :=
  let f := eRoutine e / 256
  let low := eRoutine e % 256
  let extra := match a with
    | some k => k.extra
    | none => 0
  let t := if low = 1 then eArg e 1 % 256 else field extra 15 8
  let leaves := 2 ^ (if f = 4 then lmsHeight (eArg e 0) (eArg e 2 % 16) else xmssHeight (eArg e 0) (eArg e 1 % 2))
  if low = 4 then some 1000
  else if f = 4 then
    if low = 1 then
      some (masked (shakeTime (otsShake t) ([2000, 2400, 5000, 42000].getD (otsW t) 0 * 1000000 * leaves / 2 ^ 20)) rowLms order)
    else if low = 2 then some (masked (shakeTime (otsShake t) ([9000, 10000, 16000, 50000].getD (otsW t) 0)) rowLms order)
    else if eKey e = 0 then none
    else some (masked (shakeTime (otsShake t) ([7000, 7000, 10000, 36000].getD (otsW t) 0)) rowLms order)
  else
    let oid := if low = 1 ∨ eKey e = 0 then eArg e 0 else extra
    let shake := decide (0x10 ≤ oid)
    if low = 1 then some (masked (shakeTime shake (15000000000 * leaves / 2 ^ 20)) rowLms order)
    else if low = 2 then some (masked (shakeTime shake 22000) rowLms order)
    else if eKey e = 0 then none
    else some (masked (shakeTime shake 20000) rowLms order)

/-- Signing latency of a key at its order in ns (09, Table 9.16 row 1: the server key of 0x0C02). -/
def signTime (fam p extra order : Nat) : Nat := match fam with
  | 0x02 => [[7, 12, 19, 29], [11, 18, 29, 44], [15, 25, 40, 61]].getD (p - 1) [] |>.getD order 0 |> (· * 1000)
  | 0x03 =>
    let t := [32000000, 1600000, 58000000, 2600000, 51000000, 5300000, 28000000, 1400000, 51000000, 2300000, 45000000,
      4700000].getD (p - 1) 0
    masked t (if p ≤ 6 then rowSha2 else rowShake) order
  | 0x09 =>
    if p = 8 then masked (rsaPrivate extra) rowRsa order
    else masked (bySet [12000, 26000, 55000, 0, 0, 11000, 32000] p) rowWei order
  | _ => 0

/-- The latency of an SRL routine's variant in ns, for the routines whose cost is their latency (09). -/
def srlTime (e : Entry) (a : Option KeyAttr) (order : Nat) : Option Nat :=
  let r := eRoutine e
  let p := eParam e
  let f := r / 256
  let extra := match a with
    | some k => k.extra
    | none => 0
  let dsaRow := if p = 3 then rowDsa87 else rowDsa65
  let slhRow := if p ≤ 6 then rowSha2 else rowShake
  match r with
  | 0x0101 | 0x0104 => some (masked (bySet [1800, 2600, 3600] p) rowKem order)
  | 0x0102 => some (masked (bySet [700, 1000, 1400] p) rowKem order)
  | 0x0103 | 0x0105 => some ([[600, 1200, 1900, 2900], [900, 1800, 2800, 4400], [1300, 2600, 4100, 6400]].getD (p - 1) []
      |>.getD order 0)
  | 0x0201 => some (masked (bySet [5000, 7000, 10000] p) dsaRow order)
  | 0x0202 | 0x0204 | 0x0302 | 0x0304 => some (signTime f p extra order)
  | 0x0203 | 0x0205 => some (masked (bySet [2800, 4000, 6000] p) dsaRow order)
  | 0x0301 => some (masked (bySet [60000, 4000, 95000, 4000, 130000, 4000, 52000, 4000, 83000, 4000, 114000, 4000] p) slhRow
      order)
  | 0x0303 | 0x0305 => some (masked (bySet [14000, 40000, 21000, 62000, 31000, 64000, 12000, 35000, 18000, 55000, 27000,
      56000] p) slhRow order)
  | 0x0601 => some (masked (bySet [12000, 24000, 40000] p) rowHqc order)
  | 0x0602 => some (masked (bySet [20000, 40000, 66000] p) rowHqc order)
  | 0x0603 => some (masked (bySet [30000, 58000, 95000] p) rowHqc order)
  | 0x0701 => some (masked (bySet [35, 12, 90, 30, 190, 60, 190, 60, 250, 75] p * 1000000) rowMce order)
  | 0x0702 => some (masked (bySet [25, 25, 40, 40, 60, 60, 60, 60, 70, 70] p * 1000) rowMce order)
  | 0x0703 => some (masked (bySet [60, 60, 100, 100, 150, 150, 150, 150, 160, 160] p * 1000) rowMce order)
  | 0x0801 | 0x0803 => some (bySet [11000, 12000] p)
  | 0x0802 => some (bySet [12000, 13000] p)
  | 0x0901 =>
    if p = 8 then some (masked (rsaKeyPair (eArg e 0)) rowRsa order)
    else some (masked (bySet [11000, 25000, 52000, 10000, 30000, 11000, 32000] p)
      (if p = 4 ∨ p = 5 then rowMont else rowWei) order)
  | 0x0902 => some (signTime 9 p extra order)
  | 0x0903 =>
    if p = 8 then some (masked (rsaPublic (if eKey e = 0 then eArg e 2 / 65536 * 64 else extra)) rowRsa order)
    else some (masked (bySet [24000, 52000, 110000, 0, 0, 22000, 64000] p) rowWei order)
  | 0x0904 => some (if p = 4 ∨ p = 5 then masked (bySet [0, 0, 0, 10000, 30000] p) rowMont order
      else masked (bySet [11000, 25000, 52000] p) rowWei order)
  | 0x0905 => some (masked (rsaPublic (if eKey e = 0 then eArg e 2 / 65536 * 64 else extra)) rowRsa order)
  | 0x0906 => some (masked (rsaPrivate extra) rowRsa order)
  | _ => if f = 4 ∨ f = 5 then statefulTime e a order else some 1000

/-- Started 16 KiB of input plus output, at least 1 (04, Table 4.7). -/
def perData (e : Entry) : Nat :=
  let out := match srlOutFixed e with
    | some n => n
    | none => eInLen e - 8
  max 1 ((eInLen e + out + 16383) / 16384)

/-- A cost that the spec does not state is a free value, at least 1. -/
def Device.unstatedCost (d : Device) : Nat := (d.freeVal 16).toNat + 1

/-- The cost of a command as it joins its line (04 R98), and whether it took a free value. -/
def Device.costOf (d : Device) (c : Cmd) : Nat × Bool :=
  let e := c.entry
  let x := d.ctx (eCtx e)
  if !isSrl c.attr.routine then (c.attr.cost, false)
  else match c.attr.routine with
    | 0x0C02 => (100, false)
    | 0x0C03 => (if x.free3 then 0 else 12, false)
    | 0x0C04 => (6, false)
    | 0x0C05 => (if x.free5 then 0 else 1, false)
    | 0x0C06 => (1, false)
    | 0x0F02 => (perData e, false)
    | 0x0F01 | 0x0F03 => (1, false)
    | _ =>
      let f := c.attr.routine / 256
      if f = 0x0A ∨ f = 0x0B ∨ f = 0x0E then (perData e, false)
      else if f = 0x0D then (1, false)
      else match srlTime e (if eKey e = 0 then none else d.keyAttr (eKey e)) (d.variant e) with
        | some t => (max 1 ((t + 999) / 1000), false)
        | none => (d.unstatedCost, true)

/-! ## Attributes -/

/-- The attributes of an SRL routine for one entry. -/
def Device.srlAttr (d : Device) (e : Entry) : RoutineAttr :=
  let r := eRoutine e
  let order := d.variant e
  { routine := r
    version := d.boot.srlVersion
    order := order
    usage := srlUsage r
    takesKey := decide (srlKey r ≠ .never)
    keyOptional := decide (srlKey r = .either)
    takesCtx := srlCtx e
    needsRandom := srlRandom e
    stream := decide (r / 256 = 0x0B ∨ r / 256 = 0x0E)
    outFixed := (srlOutFixed e).isSome
    outSize := match srlOutFixed e with
      | some n => n
      | none => srlOutLargest e
    fillsTarget := srlFills r
    auxLen := srlAux e
    textLen := Config.srlText d.boot.srlVersion r order
    entry := Config.srlEntry d.boot.srlVersion r order }

/-- The routine that an entry names (03 R59), with its attributes; none when it resolves to no routine or the allotment may
not name it. -/
def Device.resolve (d : Device) (a : Nat) (e : Entry) : Option RoutineAttr :=
  let r := eRoutine e
  if isSrl r then (if d.boot.srlReady then some (d.srlAttr e) else none)
  else match Tbl.find d.routines r with
    | some o => if bitOf o.allotMask a then some o.attr else none
    | none => none

/-- PARAM_SET is offered (check 4): Table 3.9 for the SRL, PARAM_MASK for an owner routine (03 R81). -/
def offersParam (t : RoutineAttr) (p : Nat) : Bool :=
  if isSrl t.routine then (srlParams t.routine).contains p else bitOf t.paramMask p

/-- Check 6 for any routine; ROUTINE_ARGS that an SRL routine does not accept pass it (09 R195). -/
def lenOk (t : RoutineAttr) (e : Entry) : Bool :=
  if isSrl t.routine then !srlArgsOk e || srlLenOk e else decide (t.minLen ≤ eInLen e) && decide (eInLen e ≤ t.maxLen)

/-- Check 7 for any routine (03 R77, R81). -/
def keyOk (t : RoutineAttr) (e : Entry) : Bool :=
  if eKey e = 0 then !t.takesKey || t.keyOptional else t.takesKey

/-- Check 8: consistent addresses and lengths (03 R67); a misplaced AUX_ADDR is the routine's to refuse. -/
def addrsOk (e : Entry) : Bool :=
  (if eInLen e = 0 then decide (eInAddr e = 0) && !eInRsv e else decide (eInAddr e ≠ 0)) &&
  (if eOutMax e = 0 then decide (eOutAddr e = 0) && !eOutRsv e else decide (eOutAddr e ≠ 0))

/-- Check 1: reserved fields and bits (03, Table 3.6; 02, Tables 2.2, 2.3). -/
def reservedClean (e : Entry) : Bool :=
  decide (field (bytesAt e 4 4) 31 24 = 0) && decide (field (bytesAt e 36 4) 31 16 = 0) &&
  decide (eControl e % 2 ^ 24 = 0) && !bitOf (eOutAddr e) 63 && !bitOf (eAux e) 63

/-- Checks 3 to 10 of Table 3.6 in order: status, DETAIL and OUT_LEN of the first that fails. -/
def Device.admitLate (d : Device) (a : Nat) (e : Entry) : RoutineAttr × Option (Nat × Nat × Nat) :=
  match d.resolve a e with
  | none => ({}, some (stRoutineAbsent, 0, 0))
  | some t =>
    let w := d.weir (eWeir e)
    if !offersParam t (eParam e) then (t, some (stRefused, 0xFFFF_0005, 0))
    else if !w.en || w.allot != a then (t, some (stRefused, 0xFFFF_0006, 0))
    else if !lenOk t e then (t, some (stRefused, 0xFFFF_0007, 0))
    else if !keyOk t e then (t, some (stRefused, 0xFFFF_0008, 0))
    else if !addrsOk e then (t, some (stRefused, 0xFFFF_0009, 0))
    else if t.outFixed && decide (eOutMax e < t.outSize) then (t, some (stTooSmall, 0, t.outSize))
    else if d.heldFor a || (d.allot a).mayUse == 0 then (t, some (stHeld, d.md.mode.code, 0))
    else (t, none)

end Sys2Proof.Machine
end

