-- ==== Sys2Proof/Machine/Settle.lean ====
section
/-!
DEFINITION. Sys2Proof/Machine/Settle.lean: Reservoir buffers (04 R103, R104), removal of queues and images, and what an admin command
that waits comes to once its condition holds (02 R38, 03 R80, 04 Table 4.10).
-/
namespace Sys2Proof.Machine

/-! ## Reservoir buffers -/

/-- Base of allotment a's partition: partitions follow one another in allotment order from 0xD800_0000 (04 R100; the order
is the model's choice, assumption 17; `partMove` keeps what they hold when a profile changes their sizes). -/
def Device.partBase (d : Device) (a : Nat) : Nat :=
  0xD800_0000 + sumBy (fun i => (d.allot i).rsvPart * 0x100_0000) (List.range a)

/-- GEN that buffer b of allotment a has while held (04 R103: 1 when first used). -/
def Allot.gen (t : Allot) (b : Nat) : Nat := let g := Tbl.get 0 t.bufGen b; if g = 0 then 1 else g

/-- A Reservoir reference (04 R103). -/
def Allot.ref (t : Allot) (b : Nat) : Nat := b + t.gen b * 2 ^ 16

/-- The buffer that a reference names: allocated, current GEN, no reserved bit. -/
def Allot.bufOf (t : Allot) (ref : Nat) : Option (Nat × RsvBuf) :=
  let b := ref % 4096
  if ref = t.ref b then (Tbl.find t.bufs b).map (fun x => (b, x)) else none

/-- The buffer that a command's reference names: once RSV_FREE has executed the GEN is stale for commands consumed after it (04, Table 4.10). -/
def Device.bufFor (d : Device) (c : Cmd) (ref : Nat) : Option (Nat × RsvBuf) :=
  match (d.allot c.allot).bufOf ref with
  | none => none
  | some (b, x) => match x.freeAt with
    | none => some (b, x)
    | some f => if f < c.order then none else some (b, x)

/-- The lowest aligned free place of 2^k bytes in a partition. -/
def Device.findPlace (d : Device) (a k : Nat) : Option Nat :=
  let t := d.allot a
  let held := t.bufs.map (fun x => (x.2.place, 2 ^ x.2.sizeLog2))
  let tries := (0 :: held.map (fun x => roundUp (x.1 + x.2) (2 ^ k))).mergeSort (fun x y => decide (x ≤ y))
  firstWhere (fun p => decide (p + 2 ^ k ≤ t.rsvPart * 0x100_0000) &&
    !(held.any (fun x => overlaps p (2 ^ k) x.1 x.2))) tries

/-- A buffer number is freed: GEN advances, wrapping from 4,095 to 1. -/
def freeBuf (a b : Nat) (d : Device) : Device :=
  d.updAllot a (fun t => { t with
    bufs := Tbl.erase t.bufs b
    bufGen := Tbl.put t.bufGen b (if t.gen b = 4095 then 1 else t.gen b + 1) })

/-- Commands consumed up to order `o` that refer to a reference and have neither committed nor failed. -/
def Device.bufUsers (d : Device) (a ref o : Nat) : Bool :=
  d.cmds.any (fun x => decide (x.2.allot = a) && decide (x.2.order ≤ o) && !decide (x.2.phase = .ended) &&
    ((eInRsv x.2.entry && decide (eInAddr x.2.entry = ref)) || (eOutRsv x.2.entry && decide (eOutAddr x.2.entry = ref))))

/-! ## Queues and images go -/

/-- An image's routine is the one meant: routine 0 stands for every SRL routine. -/
def imageOf (r routine : Nat) : Bool := if r = 0 then isSrl routine else decide (routine = r)

/-- Commands bound to an image that have neither committed nor failed (03 R80). -/
def Device.boundTo (d : Device) (r v : Nat) : Bool :=
  d.cmds.any (fun x => imageOf r x.2.attr.routine && decide (x.2.attr.version = v) && !decide (x.2.phase = .ended))

/-- The old image leaves the program store and every engine's instruction memory (03 R80). -/
def eraseImage (r v : Nat) (d : Device) : Device :=
  { d with
    oldImages := d.oldImages.filter (fun i => !(imageOf r i.routine && decide (i.version = v)))
    engs := Tbl.mapSet {} (fun _ (g : Engine) => { g with resident := g.resident.filter (fun i => !(imageOf r i.routine && decide (i.version = v))) }) d.engs }

/-- Remove a submission queue (02 R38): it returns to the quota and the pool. -/
def removeSq (a n : Nat) (d : Device) : Device := { d with sqs := Tbl.erase d.sqs (qKey a n) }
def removeCq (a n : Nat) (d : Device) : Device := { d with cqs := Tbl.erase d.cqs (qKey a n) }

/-- No fetch outstanding and every consumed entry completed (02 R52). -/
def Device.sqDrained (d : Device) (a n : Nat) : Bool :=
  let q := d.sq a n
  q.present && q.disable && decide (q.burst = 0) && decide (d.ofQueue a n = [])

/-- The condition a waiting admin command waits for holds now: it completes (02 R38, 03 R80, 04 Table 4.10). -/
def settleOne (a : Nat) (d : Device) : Device :=
  match (d.adm a).waits with
  | .queueIdle n => if (d.sq a n).idle then admDone a stOk 0 0 (removeSq a n d) else d
  | .boundGone r v =>
    if d.boundTo r v then d else
      let det := match (d.adm a).cmds with
        | (_, e) :: _ => if bytesAt e 2 2 = 0x0040 then (match Tbl.find d.routines r with
            | some o => o.attr.version
            | none => 0) else if bytesAt e 2 2 = 0x0043 then d.boot.srlVersion else 0
        | [] => 0
      let d := eraseImage r v d
      let d := { d with routines := Tbl.modify d.routines r (fun o => { o with waitingOld := false }) }
      admDone a stOk 0 det d
  | .buffer b =>
    match (d.adm a).cmds with
    | (_, e) :: _ =>
      let at_ := match Tbl.find (d.allot a).bufs b with
        | some x => x.freeAt.getD d.order
        | none => 0
      if d.bufUsers a (bytesAt e 8 8) at_ then d else admDone a stOk 0 0 (freeBuf a b d)
    | [] => d
  | .unitOp c i op =>
    let u := d.unit c i
    if op = 1 ∧ u.fenced then admDone a stOk 0 0 d
    else if op = 2 ∧ !u.testing then admDone a stOk 0 (b2n u.passed) d
    else if op = 3 ∧ !u.fenced then admDone a stOk 0 0 d
    else d
  | _ => d

/-- Every waiting admin command is looked at. -/
def settleAdmin (d : Device) : Device :=
  foldOver (fun a d => if (d.adm a).waits = .none then d else settleOne a d) (List.range 64) d

end Sys2Proof.Machine
end

