-- ==== Sys2Proof/Machine/OpsEngine.lean ====
section
/-!
DEFINITION. Sys2Proof/Machine/OpsEngine.lean: operand memory (05 R112), the Lateral's store buffer (05 R114), Reservoir reads of an engine,
the start and the restore of a command (05 R117 to R120, R124), traps and the end of a routine (06 R145,
R146).
-/
namespace Sys2Proof.Machine

/-- The register page of a physical engine (05, Registers). -/
def engPage (e : Nat) : Nat :=
  if e % 9 < 8 then 0x0004_0000 + 0x2000 * (e / 9) + 0x400 * (e % 9) else 0x000F_0000 + 0x400 * (e / 9)
/-- The Lateral registers (05, Table 5.12). -/
def latPage (l : Nat) : Nat := 0x000F_4000 + 0x100 * l
/-- The gate of a Lateral (14, Table 14.3). -/
def latGate (l : Nat) : Nat := 64 + l
def opmSize : Nat := 0x4_0000
/-- The context window: the top 1 KiB of operand memory (05). -/
def ctxWindow : Nat := 0x3_FC00

/-! ## Operand memory -/

/-- Write bytes into operand memory: an unlisted byte reads 0; the context window notes that the routine wrote it (05
R112), a delivered key's area which of its 64-byte offsets were written (08 R187). -/
def EngArch.write (t : EngArch) (a : Nat) (bs : List Byte) : EngArch :=
  let n := bs.length
  let hits (k : KeyArea) : List Nat := (List.range (k.len / 64 * k.shares)).filter (fun i => overlaps a n (k.base + 64 * i) 64)
  let add (k : KeyArea) (l : List Nat) (i : Nat) : List Nat := if l.contains (i % (k.len / 64)) then l else l ++ [i % (k.len / 64)]
  let mark (k : KeyArea) : KeyArea :=
    if overlaps a n k.base (k.len * k.shares) then { k with written := (hits k).foldl (add k) k.written } else k
  { t with
    opm := writeBytes t.opm a bs
    ctxWritten := t.ctxWritten || overlaps a n ctxWindow 1024
    areas := t.areas.map mark }

/-- n bytes of operand memory from a. -/
def EngArch.read (t : EngArch) (a n : Nat) : List Byte := readBytes t.opm a n

/-- Where the architectural state of command k is: in its save record once that is complete, else on its engine. -/
def Cmd.archIn (c : Cmd) : Option (Option Nat) := match c.saved, c.engine with
  | some r, e => if r.complete then some none else e.map some
  | none, e => e.map some

/-- Change the architectural state of command k, wherever it is: on its engine or in its save record. -/
def updArchOf (k : Nat) (f : EngArch → EngArch) (d : Device) : Device :=
  match (d.cmd k).bind Cmd.archIn with
  | none => d
  | some none => d.updCmd k (fun c => { c with saved := c.saved.map (fun r => { r with arch := f r.arch }) })
  | some (some e) => d.updArch e f

def Device.archOf (d : Device) (k : Nat) : Option EngArch :=
  match d.cmd k with
  | none => none
  | some c => match c.archIn with
    | none => none
    | some none => c.saved.map (fun r => r.arch)
    | some (some e) => some (d.eng e).arch

/-- An outstanding rld, DMA read or job still has to write a byte of [a, a+n) (06 R132; 10 R227; 11 Table 11.9). -/
def EngArch.awaits (t : EngArch) (a n : Nat) : Bool :=
  t.rlds.any (fun r => overlaps r.opm r.len a n) ||
    t.lists.any (fun l => l.descs.any (fun x => !x.write && overlaps x.opm x.len a n)) ||
    t.jobs.any (fun j => j.word.isNone && j.writes.any (fun w => overlaps w.1 w.2 a n))

/-! ## The store buffer (05 R114, R115) -/

/-- The command window of a command (14 R295). -/
def Cmd.window (c : Cmd) : Option (Nat × Nat) := if c.stageSize = 0 then none else some (c.stageBase, c.stageSize)

/-- Put bytes that lie in one 64-byte line into the store buffer; none when a new line finds it full. -/
def sbPut (l k e a : Nat) (bs : List Byte) (d : Device) : Option Device :=
  let t := d.lat l
  let line := a / 64
  if t.sb.any (fun x => decide (x.line = line) && decide (x.slot = k)) then
    let merge (x : SbLine) : SbLine := { x with bytes := bs.zipIdx.foldl (fun b y => Tbl.put b (a % 64 + y.2) y.1) x.bytes }
    some (d.updLat l (fun t => { t with sb := mapWhere (fun x => decide (x.line = line) && decide (x.slot = k)) merge t.sb }))
  else if 64 ≤ t.sb.length then none
  else
    let x : SbLine := { line := line, slot := k, eng := e, bytes := bs.zipIdx.map (fun y => (a % 64 + y.2, y.1)) }
    some (d.updLat l (fun t => { t with sb := t.sb ++ [x], sbHigh := max t.sbHigh (t.sb.length + 1) }))

/-- Put a range into the store buffer line by line; none when it lacks room. -/
def sbStore (l k e : Nat) : (fuel a : Nat) → List Byte → Device → Option Device
  | 0, _, _, d => some d
  | f + 1, a, bs, d =>
    if bs = [] then some d else
      let n := 64 - a % 64
      match sbPut l k e a (bs.take n) d with
      | some d => sbStore l k e f (a + min n bs.length) (bs.drop n) d
      | none => none

/-- A line of command k in the buffer of Lateral l meets [a, a+n). -/
def Device.linesOver (d : Device) (l k a n : Nat) : Bool := (d.lat l).sb.any (fun x => decide (x.slot = k) && overlaps (x.line * 64) 64 a n)

/-- A Reservoir address range as an engine of Lateral l reads it now: no line of its own command is forwarded; memory as
drained so far (06 R134). -/
def rsvAccess (d : Device) (l : Nat) (c : Cmd) (kind : Nat) (ps : List (Nat × Nat)) : Verdict × Nat × Nat :=
  checkAll d (latGate l) c.allot kind false c.window ps

/-- A precise refusal on an engine access ends the command with ACCESS_VIOLATION (14 R301). -/
def preciseRefusal (e k p n kind cause region : Nat) (straddle : Bool) (d : Device) : Device :=
  let c := d.cmdOr k
  let d := reportRefusal (latGate (latOf e)) c.allot p n kind e cause region straddle true d
  haltWith k stAccess (violationDetail 6 region kind straddle) 0 d

/-! ## Starting a command -/

/-- An engine that could take work: in service and idle. -/
def Device.engineFree (d : Device) (e : Nat) : Bool := decide ((d.eng e).st = .idle) && !(d.eng e).fenceDue

/-- A masked variant needs a seeded mask generator; one that has stopped holds only what draws bits (08 R183, Table 8.7). -/
def mgReady (g : Engine) (c : Cmd) : Bool := decide (c.attr.order = 0) || g.mg.seeded

/-- Bits that the re-randomization of restored key areas draws: of each 64-byte offset that the routine has not written (08 R187). -/
def EngArch.restoreBits (t : EngArch) : Nat := sumBy (fun (k : KeyArea) => 512 * (k.shares - 1) * (k.len / 64 - k.written.length)) t.areas

/-- The command can start now on engine e: its input is staged or streams, its context is in the cache; a restore waits for a save that runs
in the Lateral (05 R122). -/
def Device.startable (d : Device) (e k : Nat) : Bool :=
  match d.cmd k with
  | none => false
  | some c =>
    match c.phase with
    | .ready => (c.inDone || (c.attr.stream && decide (c.attr.auxLen = 0))) && (!c.takesCtx || d.cache.contains (eCtx c.entry)) && mgReady (d.eng e) c
    | .saved => (match c.saved with
      | some r => r.complete && mgCan r.arch.restoreBits (d.eng e).mg
      | none => false) && mgReady (d.eng e) c && (d.lat (latOf e)).busyWith.isNone
    | _ => false

/-- The image's data section (05 R112). -/
def Device.dataOf (d : Device) (c : Cmd) : List Byte :=
  if isSrl c.attr.routine then Config.srlData c.attr.version c.attr.routine c.attr.order
  else
    let now := match Tbl.find d.routines c.attr.routine with
      | some o => if o.attr.version = c.attr.version then some o.dataBytes else none
      | none => none
    let old := (firstWhere (fun (x : OldImage) => decide (x.routine = c.attr.routine) && decide (x.version = c.attr.version)) d.oldImages).map (fun x => x.dataBytes)
    (now.orElse (fun _ => old)).getD []

/-- Engine state at routine entry (05 R112, R120; 06, Table 6.9). -/
def Device.entryArch (d : Device) (c : Cmd) : EngArch :=
  let e := c.entry
  let t := writeBytes [] 0 (d.dataOf c)
  let x := d.ctx (eCtx e)
  let t := if c.takesCtx then writeBytes (writeBytes t ctxWindow (x.header d.time)) (ctxWindow + 64) (readBytes x.secret 0 960) else t
  { pc := c.attr.entry
    textLen := c.attr.textLen
    stream := c.attr.stream
    shares := c.attr.order
    allot := c.allot
    routine := c.attr.routine
    param := eParam e
    arg0 := eArg e 0
    arg1 := eArg e 1
    arg2 := eArg e 2
    inlen := eInLen e
    outmax := eOutMax e
    keyh := eKey e
    ctxw := b2n c.takesCtx
    inaddr := if eInLen e = 0 then 0 else c.inAt
    outaddr := if c.attr.outSize = 0 then 0 else c.outAt
    auxaddr := if eAux e = 0 then 0 else c.auxAt
    outcap := c.attr.outSize
    inavail := if c.attr.stream then 0 else eInLen e
    opm := t
    needsRandom := c.attr.needsRandom }

/-- Evict the least recently dispatched images until n pages fit (05). -/
def evictFor (n : Nat) : (fuel : Nat) → List Resident → List Resident
  | 0, l => l
  | f + 1, l => if sumBy (fun i => i.pages) l + n ≤ 16 then l else evictFor n f (l.drop 1)

/-- The image becomes the most recently dispatched of the engine (05 R112). -/
def makeResident (t : RoutineAttr) (l : List Resident) : List Resident :=
  let n := (t.textLen + 4095) / 4096
  let rest := l.filter (fun i => !(decide (i.routine = t.routine) && decide (i.version = t.version) && decide (i.order = t.order)))
  evictFor n 17 rest ++ [{ routine := t.routine, version := t.version, order := t.order, pages := n }]

/-- Fresh shares for the offsets of a key area that the routine has not written (08 R187). -/
def refreshArea (k : KeyArea) (fresh : List Byte) (t : EngArch) : EngArch :=
  if k.shares ≤ 1 then t else
  (List.range (k.len / 64)).foldl (fun t i =>
    if k.written.contains i then t else
      let bs := (List.range k.shares).flatMap (fun j => readBytes t.opm (k.base + j * k.len + 64 * i) 64)
      let new := reshare bs k.shares (fresh.drop (64 * i * (k.shares - 1)))
      (List.range k.shares).foldl (fun t j =>
        { t with opm := writeBytes t.opm (k.base + j * k.len + 64 * i) ((new.drop (64 * j)).take 64) }) t) t

/-- A restored command resumes as it was saved (05 R124), its delivered keys re-randomized (08 R187). -/
def restoredArch (d : Device) (t : EngArch) : EngArch × Nat :=
  t.areas.foldl (fun (x : EngArch × Nat) k =>
    let n := k.len * (k.shares - 1)
    (refreshArea k ((List.range n).map (fun i => Config.freeBits 8 (d.free + x.2 + i))) x.1, x.2 + n)) (t, 0)

/-- A restore takes only a record of the generation that the Sluice keeps for the command (05 R124). -/
def Cmd.recordOk (c : Cmd) : Bool := match c.saved with
  | some r => decide (r.gen = c.saveGen)
  | none => true

/-- The generation check of a restore fails: a Contained fault, after which the command is replayed from its input (05, Table 5.9). -/
def badRecord (k : Nat) (d : Device) : Device :=
  raiseFault 0x3C 0xFFFF (some k) 0 (d.updCmd k (fun c => { c with saved := c.saved.map (fun r => { r with complete := false }) }))

/-- Start command k on engine e, or restore it (05 R117 to R120, R124; 14 R290). -/
def startOn (e k : Nat) (d : Device) : Device :=
  match d.cmd k with
  | none => d
  | some c =>
    if !c.recordOk then badRecord k d else
    let change := (d.eng e).lastAllot.isSome && decide ((d.eng e).lastAllot ≠ some c.allot)
    let d := if change then (scrubEngine e d).bump (engPage e + 0x01C) else d
    let d := d.updLat c.lateral (fun t => { t with ready := t.ready.filter (fun x => x ≠ k) })
    let d := if c.takesCtx then cacheCtx (eCtx c.entry) d else d
    let r := match c.saved with
      | some s => restoredArch d s.arch
      | none => (d.entryArch c, 0)
    let d := d.tookFree r.2
    let d := d.updEng e (fun g => { g with
      st := .running
      slot := some k
      allot := c.allot
      lastAllot := some c.allot
      shares := c.attr.order
      routine := c.attr.routine
      param := eParam c.entry
      resident := makeResident c.attr g.resident
      mg := (match c.saved with
        | some s => mgSpend s.arch.restoreBits g.mg
        | none => g.mg)
      arch := { r.1 with sliceCycles := 0 } })
    let d := { d with lius := Tbl.mapVals (fun _ (u : Liu) => if u.bound = some k then { u with saved := false, eng := e } else u) d.lius }
    d.updCmd k (fun c => { c with
      phase := .running
      engine := some e
      ranOn := e
      lateral := latOf e
      saved := none
      front := false })

/-! ## Choosing (05 R117, R118; 14 R289) -/

/-- The command an allotment offers on a Lateral: highest PRIORITY, then the list's order. -/
def Device.offer (d : Device) (l a : Nat) (can : Nat → Bool) : Option Nat :=
  let ks := (d.lat l).ready.filter (fun k => decide ((d.cmdOr k).allot = a) && can k)
  leastBy (fun k => 15 - ePrio (d.cmdOr k).entry) ks

/-- Quantum of an allotment in engine cycles: WEIGHT × 4 µs (14 R289). -/
def Device.quantum (d : Device) (a : Nat) : Nat := (d.allot a).weight * 8000

/-- Visits until the credit of an allotment is positive. -/
def visits (credit : Int) (q : Nat) : Nat := if 0 < credit then 0 else (1 - credit).toNat / q + (if (1 - credit).toNat % q = 0 then 0 else 1)

/-- Deficit round robin: the allotment served next among those with a command ready, and the credits after it. The one served
last goes on while its credit is positive; else the round goes on from it, each visit adding a quantum. Allotments of
WEIGHT 0 are chosen in turn only when no other is ready. -/
def Device.drr (d : Device) (l : Nat) (ready : List Nat) : Option (Nat × Tbl Int) :=
  let t := d.lat l
  let heavy := ready.filter (fun a => decide ((d.allot a).weight ≠ 0))
  let dist (a : Nat) : Nat := if a = t.lastServed then 64 else (a + 64 - t.lastServed) % 64
  let credit (a : Nat) : Int := Tbl.get 0 t.credit a
  let base : Tbl Int := (t.credit.filter (fun x => ready.contains x.1 || decide (x.2 < 0)))
  if heavy = [] then (leastBy dist ready).map (fun a => (a, base))
  else if heavy.contains t.lastServed ∧ 0 < credit t.lastServed then some (t.lastServed, base)
  else
    let need (a : Nat) : Nat := max 1 (visits (credit a) (d.quantum a))
    match leastBy (fun a => need a * 100 + dist a) heavy with
    | none => none
    | some w =>
      let n := need w
      some (w, heavy.foldl (fun c a =>
        let v := if dist a ≤ dist w then n else n - 1
        Tbl.set 0 c a (credit a + ((v * d.quantum a : Nat) : Int))) base)

/-- The engine preferred for a command among free ones (05 R118). -/
def Device.bestEngine (d : Device) (k : Nat) (free : List Nat) : Option Nat :=
  let c := d.cmdOr k
  let rank (e : Nat) : Nat :=
    let g := d.eng e
    let res := g.resident.any (fun i => decide (i.routine = c.attr.routine) && decide (i.version = c.attr.version) &&
      decide (i.order = c.attr.order))
    b2n (!res) * 4 + b2n (!decide (g.lastAllot = some c.allot)) * 2 + b2n (!(g.leases.any (fun x => decide (x.handle = eKey c.entry))))
  leastBy rank free

/-! ## Traps and the end of a routine (06 R145, R146) -/

/-- Trap causes that a routine may handle (06, Table 6.14). -/
def handledCause (c : Nat) : Bool := [0x03, 0x04, 0x08, 0x11, 0x12].contains c

/-- end_command of 06 R146: ROUTINE_TRAP with the instruction index and the cause. -/
def trapEnd (e k cause : Nat) (d : Device) : Device :=
  endRoutine k stTrap ((((d.eng e).arch.pc / 4) % 2 ^ 16) * 2 ^ 16 + cause) 0 d

/-- take_trap of 06 R146. -/
def takeTrap (e k cause tval : Nat) (d : Device) : Device :=
  let t := (d.eng e).arch
  if cause = 0x09 then (trapEnd e k 0x09 d).bump 0x000F_800C
  else if t.intrap then trapEnd e k 0x0A d
  else if !handledCause cause ∨ t.tvec = 0 then trapEnd e k cause d
  else d.updArch e (fun t => { t with
    epc := t.pc
    cause := cause
    tval := tval
    intrap := true
    pc := t.tvec })

/-- The run limit in engine cycles: the larger of 1 ms and 16 times the Weir cost in µs (05 R121). -/
def runLimit (c : Cmd) : Nat := max 2_000_000 (16 * c.cost * 2000)

end Sys2Proof.Machine
end

