-- ==== Sys2Proof/Machine/Operands.lean ====
section
/-!
DEFINITION. Sys2Proof/Machine/Operands.lean: how a Furrow instruction reads and writes its operands and how it ends: scalar registers (06 R128),
operand memory (06 R131, R132), Reservoir ranges (06 R133), and the frame in which every instruction is issued, traps, waits or retires
(05 R121; 06 R137, R146, R147).
-/
namespace Sys2Proof.Machine

/-! ## Scalar registers (06 R128) -/

/-- x0 reads as zero. -/
def EngArch.getX (t : EngArch) (r : BitVec 5) : W64 := if r = 0 then 0 else Tbl.get 0 t.x r.toNat
/-- Writes to x0 are discarded. -/
def EngArch.setX (t : EngArch) (r : BitVec 5) (v : W64) : EngArch := if r = 0 then t else { t with x := Tbl.set 0 t.x r.toNat v }

/-! ## Operand memory and Reservoir ranges (06 R131, R133) -/

/-- An effective address: a register plus a sign-extended offset, modulo 2^64. -/
def effAddr {w : Nat} (a : W64) (off : BitVec w) : Nat := (a + off.signExtend 64).toNat

/-- [a, a+n) passes the end of operand memory. -/
def pastOpm (a n : Nat) : Bool := decide (opmSize < a + n)

/-- A Reservoir range that an rld, rst or rst.u refuses: a bit above bit 33, or across a 256-byte boundary. -/
def badRsv (a n : Nat) : Bool := decide (2 ^ 34 ≤ a) || decide (256 < a % 256 + n)

/-- Every outstanding rld and DMA read of the command has completed (06 R141). -/
def EngArch.readsDone (t : EngArch) : Bool := t.rlds.isEmpty && t.lists.all (fun l => l.descs.all (fun x => x.write))

/-- No line of command k waits in its Lateral's store buffer. -/
def Device.linesDrained (d : Device) (l k : Nat) : Bool := !((d.lat l).sb.any (fun x => decide (x.slot = k)))

/-! ## How an instruction ends -/

/-- What carrying out an instruction comes to. -/
inductive EngRes where
  /-- It retires with this engine state. -/
  | ok (t : EngArch)
  /-- It retires with this engine state and goes to a text offset. -/
  | jump (p : Nat) (t : EngArch)
  /-- It retires with this device. -/
  | next (d : Device)
  /-- It traps without effect. -/
  | trap (cause tval : Nat)
  /-- It traps after the elements that it has completed (07 R165). -/
  | part (t : EngArch) (cause tval : Nat)
  /-- It waits; 1 for a key or entropy, 2 for the mask generator, 0 for anything else. -/
  | stall (why : Nat)
  /-- It waits with this device. -/
  | wait (why : Nat) (d : Device)
  /-- It ends the command or stops the engine. -/
  | over (d : Device)

/-- The command that engine e issues instructions of now. -/
def Device.issuer (d : Device) (e : Nat) : Option Nat :=
  if d.stopped then none else
  match (d.eng e).slot with
  | none => none
  | some k =>
    if (d.eng e).st = .running ∧ (d.cmdOr k).phase = .running ∧ (d.eng e).arch.faulted = false then some k else none

/-- The end of an instruction of command k on engine e. -/
def retire (e k : Nat) (r : EngRes) (d : Device) : Device := match r with
  | .ok t => d.updArch e (fun o => { t with pc := o.pc + 4, paused := 0 })
  | .jump p t => d.updArch e (fun _ => { t with pc := p, paused := 0 })
  | .next d => d.updArch e (fun t => { t with pc := t.pc + 4, paused := 0 })
  | .trap c v => takeTrap e k c v d
  | .part t c v => takeTrap e k c v (d.updArch e (fun _ => t))
  | .stall w => d.updArch e (fun t => { t with paused := w })
  | .wait w d => d.updArch e (fun t => { t with paused := w })
  | .over d => d

/-- Engine e issues an instruction: the watchdog comes first (06 R147), then a fetch past the text (06 R137). -/
def engRun (e : Nat) (f : Nat → EngArch → Device → EngRes) (d : Device) : Device :=
  match d.issuer e with
  | none => d
  | some k =>
    let t := (d.eng e).arch
    if runLimit (d.cmdOr k) ≤ t.cycles then takeTrap e k 0x09 t.cycles d
    else if t.textLen ≤ t.pc then takeTrap e k 0x02 t.pc d
    else retire e k (f k t d) d

/-- An instruction that only changes the engine's own state. -/
def engOp (e : Nat) (f : EngArch → EngRes) (d : Device) : Device := engRun e (fun _ t _ => f t) d

/-- An instruction that writes one scalar register. -/
def engX (e : Nat) (rd : BitVec 5) (f : EngArch → W64) (d : Device) : Device := engOp e (fun t => .ok (t.setX rd (f t))) d

end Sys2Proof.Machine
end

