-- ==== Sys2Proof/Machine/OpsLiu.lean ====
section
/-!
DEFINITION. Sys2Proof/Machine/OpsLiu.lean: the long-integer units (10): binding, the form of a job, its times, modular arithmetic on slots and
how a job ends.
-/
namespace Sys2Proof.Machine

/-! ## Binding (10 R224) -/

/-- An LIU that takes a new binding. -/
def Device.liuOpen (d : Device) (u : Nat) : Bool :=
  (d.liu u).bound.isNone && !(d.liu u).fenceDue && !(d.liu u).faulted && !(d.liu u).katDue && !(d.unit 1 u).fenced && !(d.unit 1 u).testing

/-- The LIU chosen for a Lateral: the lower free one of the two beside it, else the lowest free one. -/
def Device.liuFor (d : Device) (l : Nat) : Option Nat :=
  firstWhere (fun u => d.liuOpen u) ([2 * l, 2 * l + 1] ++ List.range 32)

/-- The LIU bound to command k. -/
def Device.liuOf (d : Device) (k : Nat) : Option Nat := firstWhere (fun u => decide ((d.liu u).bound = some k)) (List.range 32)

/-- LIU u is bound to command k. -/
def bindLiu (u k : Nat) (d : Device) : Device :=
  let c := d.cmdOr k
  { d.updLiu u (fun x => { x with
      bound := some k
      allot := c.allot
      eng := c.engine.getD 0
      saved := false }) with
    liuWait := d.liuWait.filter (fun x => x ≠ k) }

/-- A request waits for an LIU, once. -/
def waitLiu (k : Nat) (d : Device) : Device :=
  if d.liuWait.contains k then d
  else { d with liuWait := d.liuWait ++ [k], liuHigh := max d.liuHigh (d.liuWait.length + 1) }

/-! ## Jobs (10 R226 to R228) -/

/-- Fields of a command word that its operation uses (10, Table 10.3): DST, SRC1, SRC2, OPM with BE, LEN. -/
def liuUses (op : Nat) : Bool × Bool × Bool × Bool × Bool := match op with
  | 0x01 => (false, true, false, false, true)
  | 0x02 => (true, false, false, true, true)
  | 0x03 => (false, true, false, true, true)
  | 0x04 => (true, false, false, false, false)
  | 0x05 => (true, true, false, false, false)
  | 0x06 | 0x07 | 0x08 => (true, true, true, false, false)
  | 0x09 | 0x0A => (true, true, false, false, false)
  | 0x0B => (true, true, true, false, true)
  | _ => (false, false, false, false, false)

/-- LEN range of an operation that uses it. -/
def liuLen (op len : Nat) : Bool := match op with
  | 0x01 => decide (3 ≤ len ∧ len ≤ 128)
  | 0x02 | 0x03 => decide (1 ≤ len ∧ len ≤ 1024)
  | 0x0B => decide (1 ≤ len ∧ len ≤ 8192)
  | _ => true

/-- A command word of 16 bytes at p (10, Table 10.2). -/
def liuWordAt (t : EngArch) (p : Nat) : LiuCmd :=
  let b (i : Nat) : Nat := ofBytes (t.read (p + i) 1)
  let w4 := ofBytes (t.read (p + 4) 4)
  let len := ofBytes (t.read (p + 8) 2)
  let u := liuUses (b 0)
  let spare := b 1 / 64 + b 2 / 64 + b 3 / 64 + w4 / 2 ^ 18 + b 10 / 2 + ofBytes (t.read (p + 11) 5)
  let idle := (if u.1 then 0 else b 1) + (if u.2.1 then 0 else b 2) + (if u.2.2.1 then 0 else b 3) +
    (if u.2.2.2.1 then 0 else w4 + b 10) + (if u.2.2.2.2 then 0 else len)
  { op := b 0
    dst := b 1 % 64
    src1 := b 2 % 64
    src2 := b 3 % 64
    opm := w4 % 2 ^ 18
    len := len
    be := bitOf (b 10) 0
    dirty := decide (spare + idle ≠ 0) }

/-- What is wrong with a command word: 2 a field, 3 its operand-memory range (10 R228). -/
def LiuCmd.wrong (c : LiuCmd) : Option Nat :=
  if c.op = 0 ∨ 0x0B < c.op ∨ c.dirty ∨ !liuLen c.op c.len then some 2
  else if (c.op = 2 ∨ c.op = 3) ∧ opmSize < c.opm + c.len then some 3
  else none

/-- First bad command: its reason and index. -/
def firstWrong : (i : Nat) → List LiuCmd → Option (Nat × Nat)
  | _, [] => none
  | i, c :: t => match c.wrong with
    | some r => some (r, i)
    | none => firstWrong (i + 1) t

/-- The job whose descriptor lies at p, with the bytes that its LOADs read (10 R226). `badHeader` tells a misplaced descriptor or a
header that breaks its form. -/
def liuJobAt (t : EngArch) (p ident : Nat) : LiuJob :=
  let count := ofBytes (t.read p 2)
  let flags := ofBytes (t.read (p + 2) 1)
  let rest := ofBytes (t.read (p + 3) 13)
  if p % 16 = 0 ∧ pastOpm p 16 then { ident := ident, badRange := true }
  else if p % 16 ≠ 0 ∨ count = 0 ∨ 256 < count ∨ flags / 2 ≠ 0 ∨ rest ≠ 0 then { ident := ident, badHeader := true }
  else if pastOpm p (16 + 16 * count) then { ident := ident, badRange := true }
  else
    let load (c : LiuCmd) : LiuCmd := if c.op = 2 ∧ c.wrong.isNone then { c with bytes := t.read c.opm c.len } else c
    { ident := ident
      count := count
      release := bitOf flags 0
      cmds := (List.range count).map (fun i => load (liuWordAt t (p + 16 + 16 * i))) }

/-- Operand memory that issuing the job reads: its descriptor and what its LOADs copy. -/
def liuReads (p : Nat) (j : LiuJob) : List (Nat × Nat) :=
  (p, 16 + 16 * j.cmds.length) :: (j.cmds.filter (fun c => decide (c.op = 2) && c.wrong.isNone)).map (fun c => (c.opm, c.len))

/-- Operand memory that the job will write (10 R227). -/
def liuWrites (j : LiuJob) : List (Nat × Nat) := (j.cmds.filter (fun c => decide (c.op = 3) && c.wrong.isNone)).map (fun c => (c.opm, c.len))

/-- The arrival check (10 R228): RESULT 3 with its reason and index. -/
def LiuJob.malformed (j : LiuJob) : Option (Nat × Nat × Nat) :=
  if j.badHeader then some (3, 1, 0)
  else if j.badRange then some (3, 3, 0)
  else (firstWrong 0 j.cmds).map (fun x => (3, x.1, x.2))

/-! ## Times (10 R233, R234) -/

/-- MUL latency and interval at width n (10, Table 10.7). -/
def liuLm (n : Nat) : Nat := if n ≤ 4 then 6 else if n ≤ 6 then 9 else if n ≤ 9 then 13 else (n * n + 2) / 3 + 32
def liuInterval (n : Nat) : Nat := if n ≤ 4 then 2 else if n ≤ 6 then 3 else if n ≤ 9 then 5 else (n * n + 2) / 3 + 16
def ceilDiv (a b : Nat) : Nat := (a + b - 1) / b

/-- Units of an LIU: multiplier, adder, move unit. -/
inductive LiuUnit where
  | mul
  | add
  | move
deriving DecidableEq, Repr

/-- Latency and interval of a command at width n, without conversions (10, Table 10.6). -/
def liuCost (c : LiuCmd) (n : Nat) : LiuUnit × Nat × Nat := match c.op with
  | 0x02 | 0x03 => let t := ceilDiv c.len 64 + 4; (.move, t, t)
  | 0x04 | 0x05 => let t := if n = 0 then 34 else ceilDiv n 4 + 2; (.move, t, t)
  | 0x06 | 0x07 => if n ≤ 9 then (.add, 2, 1) else (.add, ceilDiv n 4 + 4, ceilDiv n 4 + 2)
  | 0x0A => let t := 128 * n * ceilDiv n 4 + 40; (.mul, t, t)
  | 0x0B => let e := roundUp c.len 4; let t := (e + e / 4 + 16) * liuLm n; (.mul, t, t)
  | _ => (.mul, liuLm n, liuInterval n)

/-- Slots that a command reads, and the slot that it writes. -/
def LiuCmd.sources (c : LiuCmd) : List Nat := match c.op with
  | 0x01 | 0x03 | 0x05 | 0x09 | 0x0A => [c.src1]
  | 0x06 | 0x07 | 0x08 | 0x0B => [c.src1, c.src2]
  | _ => []
def LiuCmd.dest (c : LiuCmd) : Option Nat := if c.op = 1 ∨ c.op = 3 then none else some c.dst
/-- SETMOD, INV and EXP run alone. -/
def LiuCmd.alone (c : LiuCmd) : Bool := decide (c.op = 1) || decide (c.op = 0x0A) || decide (c.op = 0x0B)

/-- When the command starts, from the times of the job so far; a converting one needs the multiplier too. -/
def LiuJob.startOf (j : LiuJob) (c : LiuCmd) (unit : LiuUnit) (conv : Nat) : Nat :=
  let own := match unit with
    | .mul => j.mulFree
    | .add => j.addFree
    | .move => j.moveFree
  let m := if conv = 0 then 0 else j.mulFree
  let written := (c.sources ++ c.dest.toList).foldl (fun a s => max a (Tbl.get 0 j.slotDone s)) 0
  let readBy := c.dest.toList.foldl (fun a s => max a (Tbl.get 0 j.slotRead s)) 0
  let all := if c.alone then j.finish else 0
  max own (max m (max written (max readBy (max all j.fence))))

/-- The job after a command that started at `at0`, with its conversions' and its own cycles. -/
def LiuJob.ran (j : LiuJob) (c : LiuCmd) (unit : LiuUnit) (at0 conv lat gap : Nat) (converted : List Nat) : LiuJob :=
  let fin := at0 + conv + lat
  let j := { j with
    pos := j.pos + 1
    finish := max j.finish fin
    fence := if c.alone then fin else j.fence
    slotDone := (converted ++ c.dest.toList).foldl (fun t s => Tbl.set 0 t s fin) j.slotDone
    slotRead := c.sources.foldl (fun t s => Tbl.upd 0 t s (fun x => max x fin)) j.slotRead }
  let j := if conv = 0 then j else { j with mulFree := max j.mulFree (at0 + conv) }
  match unit with
  | .mul => { j with mulFree := at0 + conv + gap }
  | .add => { j with addFree := at0 + conv + gap }
  | .move => { j with moveFree := at0 + conv + gap }

/-- The job after a refusal that ends at `fin`. -/
def LiuJob.refuse (j : LiuJob) (reason fin : Nat) : LiuJob :=
  { j with finish := max j.finish fin, outcome := some (1, reason, j.pos) }

/-! ## Arithmetic (10 R227, R232) -/

/-- b^e mod m for the low n bits of e, by squaring from the top bit. -/
def powMod (m b e : Nat) : (n : Nat) → (acc : Nat) → Nat
  | 0, acc => acc
  | n + 1, acc =>
    let a := acc * acc % m
    powMod m b e n (if bitOf e n then a * b % m else a)

/-- Extended Euclid: from (a, x) and (b, y) with a ≡ x·v and b ≡ y·v modulo m, the gcd and its coefficient. -/
def euclid (m : Nat) : (fuel : Nat) → (a x b y : Nat) → Nat × Nat
  | 0, a, x, _, _ => (a, x)
  | f + 1, a, x, b, y => if b = 0 then (a, x) else euclid m f b y (a % b) ((x + (m - y % m) * (a / b)) % m)

/-- The inverse of v modulo m, when it has one. -/
def invMod (m v : Nat) : Option Nat :=
  let r := euclid m 16400 (v % m) 1 m 0
  if r.1 = 1 then some (r.2 % m) else none

/-- A modulus of n words is valid (10 R230). -/
def liuModOk (m n : Nat) : Bool := decide (m % 2 = 1) && decide (m / 2 ^ (64 * (n - 1)) ≠ 0) && decide (m < 2 ^ (64 * n))

/-- The result of an arithmetic command on plain values, or the reason of its refusal (10, Tables 10.3, 10.5). -/
def liuArith (m : Nat) (c : LiuCmd) (a b : Nat) : Nat ⊕ Nat :=
  let e := b % 2 ^ c.len
  if m = 0 then .inr 5
  else if m ≤ a ∨ (c.op ≠ 0x0B ∧ c.sources.length = 2 ∧ m ≤ b) then .inr 2
  else match c.op with
    | 0x06 => .inl ((a + b) % m)
    | 0x07 => .inl ((a + m - b) % m)
    | 0x08 => .inl (a * b % m)
    | 0x09 => .inl (a * a % m)
    | 0x0A => if a ≤ 1 then .inr 3 else (match invMod m a with
      | some v => .inl v
      | none => .inr 4)
    | _ => if a ≤ 1 ∨ e ≤ 1 then .inr 3 else .inl (powMod m a e c.len 1)

/-! ## Running -/

def Liu.slot (u : Liu) (s : Nat) : LiuSlot := Tbl.get {} u.slots s
def Liu.setSlot (u : Liu) (s : Nat) (v : LiuSlot) : Liu := { u with slots := Tbl.set {} u.slots s v }

/-- The next command word of LIU u, when it is one of the operation: its job has arrived in good form. -/
def Device.liuNext (d : Device) (u op : Nat) : Option (LiuJob × LiuCmd) :=
  if (d.liu u).faulted then none else
  match (d.liu u).bound, (d.liu u).queue with
  | some _, j :: _ =>
    if j.arrived && j.outcome.isNone then
      (match j.cmds[j.pos]? with
       | some c => if c.op = op then some (j, c) else none
       | none => none)
    else none
  | _, _ => none

/-- The front job of LIU u has become j. -/
def putJob (u : Nat) (j : LiuJob) (d : Device) : Device :=
  d.updLiu u (fun x => { x with queue := match x.queue with
    | _ :: t => j :: t
    | [] => [] })

/-- A refusal (10 R233): DST becomes zero, but for SETMOD; the job ends there. -/
def liuRefuse (u : Nat) (j : LiuJob) (c : LiuCmd) (reason fin : Nat) (d : Device) : Device :=
  let d := d.bump (0x0006_0018 + 0x100 * u)
  let d := match c.dest with
    | some s => d.updLiu u (fun x => x.setSlot s {})
    | none => d
  putJob u (j.refuse reason fin) d

/-- A move command: LOAD, ZERO or COPY puts a value into DST. -/
def liuMove (u : Nat) (j : LiuJob) (c : LiuCmd) (v : LiuSlot) (d : Device) : Device :=
  let x := liuCost c (d.liu u).n
  let s := j.startOf c x.1 0
  putJob u (j.ran c x.1 s 0 x.2.1 x.2.2 []) (d.updLiu u (fun u => u.setSlot c.dst v))

/-- The plain-form sources that an arithmetic command converts (10 R231). EXP reads its exponent plain. -/
def Liu.toConvert (u : Liu) (c : LiuCmd) : List Nat :=
  ((if c.op = 0x0B then [c.src1] else c.sources).eraseDups).filter (fun s => !(u.slot s).mont)

/-- An arithmetic command (10 R231 to R234). -/
def liuRun (u : Nat) (j : LiuJob) (c : LiuCmd) (d : Device) : Device :=
  let x := d.liu u
  let a := (x.slot c.src1).val.toNat
  let b := (x.slot c.src2).val.toNat
  let cost := liuCost c x.n
  let conv := x.toConvert c
  let back := decide (c.op = 0x0B) && (x.slot c.src2).mont
  let lm := if x.modulus = 0 then 0 else (conv.length + b2n back) * liuLm x.n
  let s := j.startOf c cost.1 lm
  match liuArith x.modulus c a b with
  | .inr r =>
    let base := if c.op = 0x0A then s + cost.2.1 else s
    liuRefuse u j c r (base + 2 * x.n + 16) d
  | .inl v =>
    let x := conv.foldl (fun (x : Liu) s => x.setSlot s { x.slot s with mont := true }) x
    let x := if back then x.setSlot c.src2 { x.slot c.src2 with mont := false } else x
    let x := x.setSlot c.dst { val := BitVec.ofNat 8192 v, mont := true }
    putJob u (j.ran c cost.1 s lm cost.2.1 cost.2.2 (conv ++ (if back then [c.src2] else []))) (d.updLiu u (fun _ => x))

/-- Run the next command word of LIU u when it is one of the operation. -/
def liuStep (u op : Nat) (f : LiuJob → LiuCmd → Device → Device) (d : Device) : Device :=
  if d.stopped then d else
  match d.liuNext u op with
  | none => d
  | some (j, c) => f j c d

/-- The status word of a job (10, Table 10.4). -/
def liuStatus (u : Nat) (r : Nat × Nat × Nat) (cycles : Nat) : Nat :=
  r.1 + r.2.1 * 2 ^ 8 + r.2.2 * 2 ^ 16 + u * 2 ^ 24 + min cycles 0xFFFF_FFFF * 2 ^ 32

/-- The job's entry with the command. -/
def updJobOut (k ident unit : Nat) (f : JobOut → JobOut) (d : Device) : Device :=
  updArchOf k (fun t => { t with jobs := mapWhere (fun (o : JobOut) => decide (o.ident = ident) && decide (o.unit = unit)) f t.jobs }) d

end Sys2Proof.Machine
end

