-- ==== Sys2Proof/Machine/OpsDig.lean ====
section
/-!
DEFINITION. Sys2Proof/Machine/OpsDig.lean: the bulk digest engines (11): the functions of Table 11.1, the form of a job, streams and their
blobs, absorption, and how a job ends.
-/
namespace Sys2Proof.Machine

/-! ## The functions (11, Table 11.1) -/

/-- Block or rate in bytes, and digest length in bytes (0 for SHAKE). -/
def digBlock (alg : Nat) : Nat := [0, 64, 128, 128, 64, 128, 136, 104, 72, 144, 168, 136].getD alg 1
def digLen (alg : Nat) : Nat := [0, 32, 48, 64, 28, 32, 32, 48, 64, 28, 0, 0].getD alg 0
def isShake (alg : Nat) : Bool := decide (alg = 10) || decide (alg = 11)
/-- Cycles of one permutation or compression (11, Table 11.6 P). -/
def digPerm (alg : Nat) : Nat := if alg = 1 ∨ alg = 4 then 16 else if alg ≤ 5 then 40 else 12

/-- The leftmost n bytes of the function of a message. -/
def digestOf (alg : Nat) (cshake : Bool) (m : List Byte) (n : Nat) : List Byte := match alg with
  | 1 => (sha2 sha256Par iv256 m).take n
  | 2 => (sha2 sha512Par iv384 m).take n
  | 3 => (sha2 sha512Par iv512 m).take n
  | 4 => (sha2 sha256Par iv224 m).take n
  | 5 => (sha2 sha512Par iv512t256 m).take n
  | 10 | 11 => sponge (digBlock alg) (if cshake then 0x04 else 0x1F) m n
  | _ => (sponge (digBlock alg) 0x06 m (digLen alg)).take n

/-! ## Jobs (11 R238, R240) -/

/-- A segment entry of 16 bytes at p, its KIND 1 bytes copied. -/
def digSegAt (t : EngArch) (p : Nat) : DigSegment :=
  let addr := ofBytes (t.read p 8)
  let len := ofBytes (t.read (p + 8) 4)
  let kind := ofBytes (t.read (p + 12) 1) % 4
  { kind := kind, addr := addr, len := len, bytes := if kind = 1 ∧ len ≤ 4096 then t.read addr len else [] }

/-- Reserved fields of a segment entry, or an ADDR that its KIND does not use, are non-zero. -/
def digSegDirty (t : EngArch) (p : Nat) : Bool :=
  let addr := ofBytes (t.read p 8)
  let tail := ofBytes (t.read (p + 12) 4)
  decide (2 ^ 34 ≤ addr) || decide (4 ≤ tail) || decide (tail = 3) || (decide (tail = 2) && decide (addr ≠ 0))

/-- The job whose descriptor lies at p (11, Tables 11.2, 11.3, R240). -/
def digJobAt (t : EngArch) (p k e ident : Nat) : DigJob :=
  let b (i : Nat) : Nat := ofBytes (t.read (p + i) 1)
  let w (i : Nat) : Nat := ofBytes (t.read (p + i) 4)
  let f (i : Nat) : Bool := bitOf (b 1) i
  let nseg := b 3
  let alg := b 0
  let out := w 4
  let outLen := w 8
  let blob := w 12
  let empty : DigJob := { slot := k, eng := e, ident := ident }
  if p % 16 ≠ 0 then { empty with badHeader := true }
  else if pastOpm p 32 ∨ pastOpm p (32 + 16 * nseg) then { empty with badRange := true }
  else
    let segs := (List.range nseg).map (fun i => digSegAt t (p + 32 + 16 * i))
    let kinds (n : Nat) : List DigSegment := segs.filter (fun s => decide (s.kind = n))
    let top := if f 2 then min 64 (if isShake alg then 64 else digLen alg) else if isShake alg then 65536 else digLen alg
    let lenBad := if f 1 then decide (outLen = 0) || decide (top < outLen) else decide (outLen ≠ 0)
    let spare := b 0 / 16 + b 1 / 64 + b 2 / 4 + b 3 / 16 + out / 2 ^ 18 + blob / 2 ^ 18 + ofBytes (t.read (p + 20) 12)
    let idle := (if f 1 then 0 else out) + (if f 4 || f 5 then 0 else blob)
    let head := decide (spare + idle ≠ 0) || decide (8 < nseg) || decide (blob % 16 ≠ 0) || decide (alg = 0) || decide (11 < alg) ||
      (f 3 && !isShake alg) || (f 4 && f 0) || (f 5 && f 1) || (f 2 && !f 1) || lenBad
    let seg := (List.range nseg).any (fun i => digSegDirty t (p + 32 + 16 * i)) || decide (4096 < sumBy (fun s => s.len) (kinds 1)) ||
      (!t.stream && decide (kinds 2 ≠ []))
    let range := segs.any (fun s => (decide (s.kind = 0) && decide (2 ^ 34 < s.addr + s.len)) || (decide (s.kind = 1) && pastOpm s.addr s.len)) ||
      (f 1 && pastOpm out outLen) || ((f 4 || f 5) && pastOpm blob 512)
    { empty with
      alg := alg
      start := f 0
      finish := f 1
      compare := f 2
      cshake := f 3
      importB := f 4
      exportB := f 5
      stream := b 2
      outOpm := out
      outLen := outLen
      blobOpm := blob
      declLen := w 16
      segs := segs
      badHeader := head
      badSegment := seg
      badRange := range
      expect := if f 2 && !head then t.read out outLen else []
      blob := if f 4 && !head then t.read blob 512 else [] }

/-- The job runs on nothing: its form is broken. -/
def DigJob.broken (j : DigJob) : Bool := j.badHeader || j.badSegment || j.badRange

/-- Operand memory that issuing the job reads (11 R238). -/
def digReads (p : Nat) (j : DigJob) : List (Nat × Nat) :=
  (p, 32 + 16 * j.segs.length) :: ((j.segs.filter (fun s => decide (s.kind = 1))).map (fun s => (s.addr, s.len)) ++
    (if j.compare then [(j.outOpm, j.outLen)] else []) ++ (if j.importB then [(j.blobOpm, 512)] else []))

/-- Operand memory that the job will write (11, Table 11.9). -/
def digWrites (j : DigJob) : List (Nat × Nat) :=
  if j.broken then [] else
  (if j.finish && !j.compare then [(j.outOpm, j.outLen)] else []) ++ (if j.exportB then [(j.blobOpm, 512)] else [])

def DigJob.total (j : DigJob) : Nat := sumBy (fun s => s.len) j.segs
def DigJob.streams (j : DigJob) : Bool := j.segs.any (fun s => decide (s.kind = 2))

/-- The state that the job's stream holds. -/
def Device.streamOf (d : Device) (j : DigJob) : Option DigSave := Tbl.find (d.cmdOr j.slot).streams j.stream

/-- The arrival check (11 R240): the REASON of a malformed job. -/
def Device.digMalformed (d : Device) (j : DigJob) : Option Nat :=
  if j.badHeader then some 1
  else if j.badSegment then some 2
  else if j.badRange then some 3
  else if j.start || j.importB then none
  else match d.streamOf j with
    | some s => if s.state.alg = j.alg then none else some 4
    | none => some 4

/-! ## How jobs end -/

/-- The status word of a digest job (11, Table 11.4). -/
def digStatus (result : Nat) (hit : Bool) (preempts reason u cycles : Nat) : Nat :=
  result + b2n hit * 2 ^ 8 + min preempts 15 * 2 ^ 12 + reason * 2 ^ 16 + u * 2 ^ 24 + min cycles 0xFFFF_FFFF * 2 ^ 32

/-- A job's status word reaches its command. -/
def digAnswer (j : DigJob) (w : Nat) (d : Device) : Device := updJobOut j.slot j.ident 1 (fun o => { o with word := some w }) d

/-- A job that no digest engine ran ends: which engine the word names is open (11, Table 11.4). -/
def digUnrun (j : DigJob) (result reason : Nat) (d : Device) : Device :=
  digAnswer j (digStatus result false j.preempts reason (d.freeVal 3).toNat 0) d.tookFree

/-- Jobs of command k with unit 1 issued after the one with this identifier. -/
def Device.issuedAfter (d : Device) (k ident : Nat) : List Nat := match d.archOf k with
  | some t =>
    let l := (t.jobs.filter (fun o => decide (o.unit = 1))).map (fun o => o.ident)
    (l.dropWhile (fun i => i != ident)).drop 1
  | none => []

/-- After a MALFORMED or BAD_BLOB job, the command's later jobs that do not run yet return SKIPPED (11 R241). -/
def skipLater (k ident : Nat) (d : Device) : Device :=
  let later := d.issuedAfter k ident
  let mine (j : DigJob) : Bool := decide (j.slot = k) && later.contains j.ident
  let gone := (d.digArrive ++ d.digWait).filter mine
  let n := countWhere (fun j => mine j && j.save.isSome && (d.streamOf j).isNone) d.digWait
  let d := if n = 0 then d else giveDigSlots (d.cmdOr k).allot n d
  let d := { d with digArrive := d.digArrive.filter (fun j => !mine j), digWait := d.digWait.filter (fun j => !mine j) }
  foldOver (fun j d => digUnrun j 4 0 d) gone d

/-- A stream lets its state and slot go (11 R242). -/
def dropStream (j : DigJob) (d : Device) : Device :=
  if (d.streamOf j).isNone then d
  else giveDigSlots (d.cmdOr j.slot).allot 1 (d.updCmd j.slot (fun c => { c with streams := Tbl.erase c.streams j.stream }))

/-- A stream takes a slot with its first job without FINISH (11 R242). -/
def openStream (j : DigJob) (s : DigState) (d : Device) : Device :=
  if (d.streamOf j).isSome then d
  else takeDigSlots (d.cmdOr j.slot).allot 1 (d.updCmd j.slot (fun c => { c with streams := Tbl.put c.streams j.stream { state := s } }))

/-! ## Blobs (11 R243, Table 11.5) -/

/-- Bytes 0 to 47 of a blob of a state, with the wrap counter. -/
def blobHead (kind a : Nat) (s : DigSave) : List Byte :=
  let n := s.state.absorbed.length
  toBytes 4 0x3153_4744 ++ toBytes 1 kind ++ toBytes 1 s.state.alg ++ toBytes 1 a ++ toBytes 1 (b2n s.state.cshake) ++ toBytes 8 n ++
    toBytes 4 (n % digBlock s.state.alg) ++ toBytes 8 s.count ++ toBytes 8 s.serial ++ toBytes 4 s.gen ++ zeros 8

/-- The chaining value of the blocks absorbed, SHA-2 words as their digests hold them (DESIGN CHOICE, assumption 154), then the partial block. -/
def chainBytes (s : DigState) : List Byte :=
  let block := digBlock s.alg
  let n := s.absorbed.length / block * block
  let m := s.absorbed.take n
  let sha (p : Sha2Par) (iv : List Nat) : List Byte := (sha2Blocks p (n / block + 1) iv m).flatMap (fun x => beBytes (p.w / 8) x)
  (match s.alg with
   | 1 => sha sha256Par iv256
   | 2 => sha sha512Par iv384
   | 3 => sha sha512Par iv512
   | 4 => sha sha256Par iv224
   | 5 => sha sha512Par iv512t256
   | _ => toBytes 200 (kToNat (absorbAll block (n / block + 1) (List.replicate 25 0) m))) ++ s.absorbed.drop n

/-- The 512-byte blob of a state: AES-256-GCM under the allotment's state-wrapping key (13, Table 13.1), the nonce 32 zero bits and the wrap counter. -/
def digBlob (key : List Byte) (kind a : Nat) (s : DigSave) : List Byte :=
  let head := blobHead kind a s
  head ++ gcmSeal key (zeros 4 ++ toBytes 8 s.count) head (padTo 448 (chainBytes s.state))

/-- A host-kind blob. -/
def hostBlob (key : List Byte) (a : Nat) (s : DigState) (count : Nat) : List Byte := digBlob key 1 a { state := s, count := count }

/-- What IMPORT finds: the state, or the REASON of BAD_BLOB: 2 for another kind, allotment or ALG, 1 for a tag that fails or a counter below the floor
(14 R292). The header is looked at first (DESIGN CHOICE, assumption 154). -/
def Device.importBlob (d : Device) (a alg : Nat) (blob : List Byte) : DigState ⊕ Nat :=
  let at_ (i : Nat) : Nat := ofBytes ((blob.drop i).take 1)
  let count := ofBytes ((blob.drop 20).take 8)
  if at_ 4 ≠ 1 ∨ at_ 5 ≠ alg ∨ at_ 6 ≠ a then .inr 2
  else match Tbl.find (d.allot a).blobs count with
  | some s => if hostBlob (d.keyReg a 1) a s count ≠ blob ∨ count < (d.allot a).wrapFloor then .inr 1 else .inl s
  | none => .inr 1

/-- The wrap counter advances with every blob. -/
def nextWrap (a : Nat) (d : Device) : Device := d.updAllot a (fun t => { t with wrapCount := (t.wrapCount + 1) % 2 ^ 64 })

/-- Export a state to the save slot of a job's stream as a KIND 0 blob, at the slot's next generation, which the digest block records. -/
def Device.exportSave (d : Device) (j : DigJob) (s : DigState) : DigSave :=
  let c := d.cmdOr j.slot
  { state := s, count := (d.allot c.allot).wrapCount, serial := c.order, gen := (Tbl.get 0 c.digGens j.stream + 1) % 2 ^ 32 }
def saveSlot (j : DigJob) (v : DigSave) (d : Device) : Device :=
  nextWrap (d.cmdOr j.slot).allot (d.updCmd j.slot (fun c => { c with
    streams := if (Tbl.find c.streams j.stream).isSome then Tbl.put c.streams j.stream v else c.streams
    digGens := Tbl.put c.digGens j.stream v.gen }))

/-- A KIND 0 blob is accepted by the command and the stream that wrote it, at the generation recorded. -/
def Device.accepts (d : Device) (j : DigJob) (v : DigSave) : Bool :=
  let c := d.cmdOr j.slot
  decide (v.serial = c.order) && decide (v.gen = Tbl.get 0 c.digGens j.stream)

/-! ## Absorption (11 R239) -/

/-- What absorbing comes to. -/
inductive DigGo where
  | all
  | more
  | halted
deriving DecidableEq, Repr

/-- Read Reservoir bytes through HG_DIG for command k (11 R239; 14, Table 14.3). -/
def digRead (u k : Nat) (ps : List (Nat × Nat)) (d : Device) (f : Device → DigGo × Device) : DigGo × Device :=
  let c := d.cmdOr k
  match checkAll d 81 c.allot 0 false c.window ps with
  | (.permit, _, _) => f d
  | (.wait, p, n) => (.more, gateWait 81 (.digest k u) p n 0 d)
  | (.refuse cs rg st, p, n) =>
    let d := reportRefusal 81 c.allot p n 0 (0xD0 + u) cs rg st true d
    (.halted, settleAdmin (haltWith k stAccess (violationDetail 7 rg 0 st) 0 d))

/-- The running job of digest engine u takes bytes in. -/
def feed (u n : Nat) (bs : List Byte) (d : Device) : Device :=
  d.updDig u (fun g => { g with job := g.job.map (fun j => { j with
    donePos := j.donePos + n
    state := j.state.map (fun s => { s with absorbed := s.absorbed ++ bs }) }) })

/-- Absorb the segments, `skip` bytes of which are absorbed already, as far as their data are there. -/
def absorb (u k : Nat) : List DigSegment → (skip : Nat) → Device → DigGo × Device
  | [], _, d => (.all, d)
  | s :: t, skip, d =>
    if s.len ≤ skip then absorb u k t (skip - s.len) d else
    let n := s.len - skip
    match s.kind with
    | 0 => digRead u k (linePieces (s.addr + skip) n) d (fun d => absorb u k t 0 (feed u n (d.rsvRead (s.addr + skip) n) d))
    | 1 => absorb u k t 0 (feed u n (s.bytes.drop skip) d)
    | _ =>
      match d.archOf k with
      | none => (.more, d)
      | some a =>
        let got := min n (a.inavail - a.incons)
        let place (i : Nat) : Nat := a.inaddr + (a.incons + i) % 0x10_0000
        let r := digRead u k (((List.range (got / 256 + 1)).map (fun i => (place (256 * i), min 256 (got - 256 * i)))).filter (fun p => p.2 ≠ 0)) d (fun d =>
          let bs := (List.range got).flatMap (fun i => d.rsvRead (place i) 1)
          (.all, updArchOf k (fun a => { a with incons := a.incons + got }) (feed u got bs d)))
        match r.1 with
        | .all =>
          if got = n then absorb u k t 0 r.2
          else if a.inlen ≤ a.inavail then (.halted, settleAdmin (haltWith k stShort a.inavail 0 r.2))
          else (.more, r.2)
        | x => (x, r.2)

/-- The job of digest engine u absorbs what is there. -/
def digAdvance (u : Nat) (d : Device) : DigGo × Device := match (d.dig u).job with
  | none => (.halted, d)
  | some j => absorb u j.slot j.segs j.donePos d

/-- Streamed input has come: the jobs that run on it go on. -/
def feedStreams (k : Nat) (d : Device) : Device :=
  foldOver (fun u d => match (d.dig u).job with
    | some j => if j.slot = k && j.streams then (digAdvance u d).2 else d
    | none => d) (List.range 8) d

/-! ## Times (11, Table 11.6) -/

/-- Cycles of a run from its end: absorption of the job's bytes with the padding blocks, result and comparison, or export to a slot or to BLOB_OPM. -/
def digCycles (j : DigJob) : Nat :=
  let block := digBlock j.alg
  let after := j.before + j.total
  let pad := if j.alg = 1 ∨ j.alg = 4 then 9 else if j.alg ≤ 5 then 17 else 1
  let last := if j.finish then roundUp (after + pad) block / block else after / block
  let b := last - j.before / block
  let body := max (ceilDiv j.total 10 + digPerm j.alg) (digPerm j.alg * b)
  let res := if j.compare then 8 else if j.finish then ceilDiv j.outLen 16 + (if isShake j.alg then 12 * (ceilDiv j.outLen block - 1) else 0) else 0
  body + res + (if j.finish then 0 else 96)

/-- A job starts on digest engine u with the state; when its data first come from the Reservoir the wait is open ("120 typical"). -/
def digRunOn (u : Nat) (j : DigJob) (s : DigState) (moved : Bool) (d : Device) : Device :=
  let far := j.segs.any (fun s => decide (s.kind ≠ 1) && decide (s.len ≠ 0))
  let wait := if far then (d.freeVal 16).toNat else 0
  let d := if far then d.tookFree else d
  let j := { j with
    state := some s
    before := if moved && j.preempts ≠ 0 then j.before else s.absorbed.length
    cycles := j.cycles + 24 + wait + (if moved then 96 else 0) }
  let now := d.time
  d.updDig u (fun g => { g with
    st := 1
    job := some j
    allot := (d.cmdOr j.slot).allot
    eng := j.eng
    started := now })

/-- Command k's job on engine u is over: the engine is free, its counts are made. -/
def digOver (u : Nat) (j : DigJob) (w : Nat) (d : Device) : Device :=
  let d := (d.bump (0x0007_00C0 + 0x100 * u)).updDig u (fun g => { g with busy := (g.busy + j.cycles) % 2 ^ 64 })
  settleAdmin (digClear u (digAnswer j w d))

end Sys2Proof.Machine
end

