-- ==== Sys2Proof/Machine/StoreImage.lean ====
section
/-!
DEFINITION. Sys2Proof/Machine/StoreImage.lean: wrapped objects (13 R277, Table 13.10) and the backing blocks of the Sealed Store with their tags
(13 R280).
-/
namespace Sys2Proof.Machine

/-- The field of n bytes at byte b of a byte list, lowest first. -/
def word (l : List Byte) (b n : Nat) : Nat := ofBytes ((l.drop b).take n)

/-! ## Attribute blocks (13, Table 13.3) -/

/-- Attribute byte 1. -/
def KeyAttr.flags (a : KeyAttr) : Nat :=
  a.maskOrder % 4 + 4 * b2n a.stateful + 8 * b2n a.exportable + 16 * b2n a.deterministicOk + 32 * b2n a.persistent + 64 * b2n a.allotBound

/-- Attribute bytes 0 to 7, then the whole block. -/
def KeyAttr.low (a : KeyAttr) : List Byte :=
  toBytes 8 (pack [(1, a.usage), (1, a.flags), (1, a.allot), (1, a.st), (1, a.family), (1, a.variant), (1, a.paramSet), (1, a.len)])
def KeyAttr.block (a : KeyAttr) : List Byte := a.low ++ toBytes 4 a.nextLeaf ++ toBytes 4 a.extra

/-! ## Wrapped objects (13 R277) -/

/-- TYPE by usage and family: 4 public key, 1 symmetric secret, 2 secret key of a pair. -/
def objType (usage family : Nat) : Nat :=
  if usage = 7 ∨ usage = 8 then 4 else if family = 0x0A ∨ family = 0x0B ∨ family = 0x0D then 1 else 2

/-- A header by its fields; bytes 24 to 31 hold the object index inside the Sealed Store. -/
def headerOf (typ usage flags allot family variant param len gen extra index : Nat) : List Byte :=
  toBytes 32 (pack [(4, 0x314F_514B), (1, typ), (1, usage), (1, flags), (1, allot), (1, family), (1, variant), (1, param), (1, 0),
    (4, len), (4, gen), (4, extra), (8, index)])

/-- The header of an object outside the Sealed Store. -/
def objHeader (usage flags allot family variant param len gen extra : Nat) : List Byte :=
  headerOf (objType usage family) usage flags allot family variant param len gen extra 0

def objHash (header : List Byte) : List Byte := (sponge 136 0x06 header 32).take 16
/-- Header, then W: the material behind its check value under AES-256-KWP. -/
def wrapObject (key header material : List Byte) : List Byte := header ++ kwpWrap key (objHash header ++ material)
/-- The material; none when the integrity fails or H differs. -/
def unwrapObject (key obj : List Byte) : Option (List Byte) := (kwpUnwrap key (obj.drop 32)).bind (fun p =>
  if p.take 16 = objHash (obj.take 32) then some (p.drop 16) else none)

/-! ## Objects of the Sealed Store -/

/-- The header of an object in its blocks; TYPE 3 for a tree object. -/
def SsObj.header (o : SsObj) (key : Nat) : List Byte :=
  headerOf (if o.tree then 3 else objType o.attr.usage o.attr.family) o.attr.usage o.attr.flags (key / 2 ^ 25) o.attr.family o.attr.variant o.attr.paramSet
    o.len o.gen o.attr.extra (key % 2 ^ 25)

/-- An object with material: wrapped under K_OBJ of its allotment. -/
def Device.sealObj (d : Device) (key : Nat) (o : SsObj) (material : List Byte) : SsObj :=
  let o := { o with len := material.length }
  { o with body := (wrapObject (d.kObj (key / 2 ^ 25)) (o.header key) material).drop 32 }

/-- What an object holds: from the shares in the key cache, else unwrapped from its blocks. -/
def Device.objMaterial (d : Device) (key : Nat) : List Byte :=
  match firstWhere (fun x => decide (x.1 = key)) d.ss.cache, Tbl.find d.ss.objs key with
  | some (_, a, b), _ => xorBytes a b
  | none, some o => if o.tree then o.body else if o.len = 0 then [] else (unwrapObject (d.kObj (key / 2 ^ 25)) (o.header key ++ o.body)).getD []
  | none, none => []

/-- An object under changed attributes: its material is wrapped again. -/
def Device.resealObj (d : Device) (key : Nat) (o : SsObj) : SsObj := if o.len = 0 then o else d.sealObj key o (d.objMaterial key)

/-! ## Places of nodes (13 R280) -/

/-- Nodes at a level over `data` data blocks. -/
def nodesAt (data level : Nat) : Nat := (data + 8 ^ (10 - level) - 1) / 8 ^ (10 - level)
/-- Node blocks of levels 1 to 9, 32 nodes each; the root node is in the root record. -/
def nodeBlocks (data : Nat) : Nat := sumBy (fun l => (nodesAt data (l + 1) + 31) / 32) (List.range 9)

/-- Node blocks of the levels below a level: node blocks follow the data blocks, level 9 first (DESIGN CHOICE, assumption 155). -/
def nodesBelow (data level : Nat) : Nat := sumBy (fun i => (nodesAt data (9 - i) + 31) / 32) (List.range (9 - level))

/-- The node block that holds the level-L ancestor of a data block. -/
def Device.nodeBlock (d : Device) (level b : Nat) : Nat :=
  d.ss.dataBlocks + nodesBelow d.ss.dataBlocks level + b / 8 ^ (10 - level) / 32

/-- The node blocks on the path of a data block, from the root on. -/
def Device.pathOf (d : Device) (b : Nat) : List Nat := (List.range 9).map (fun i => d.nodeBlock (i + 1) b)

/-- The level and the first node index of a node block. -/
def Device.nodePlace (d : Device) (b : Nat) : Nat × Nat :=
  let start (l : Nat) : Nat := d.ss.dataBlocks + nodesBelow d.ss.dataBlocks l
  match firstWhere (fun l => decide (start l ≤ b)) ((List.range 9).map (· + 1)) with
  | some l => (l, (b - start l) * 32)
  | none => (9, 0)

/-! ## Blocks and tags (13 R280) -/

/-- A data block in clear: its objects by their units, or 256 entries of 16 bytes of a directory: block, unit, length (their layout: DESIGN CHOICE,
assumption 155). -/
def Device.dataPlain (d : Device) (b : Nat) : List Byte :=
  match firstWhere (fun x => decide (x.2 = b)) d.ss.dirs with
  | some (k, _) => (List.range 256).flatMap (fun i => match Tbl.find d.ss.objs (k * 256 + i) with
    | some o => toBytes 4 (o.pos / 32) ++ toBytes 4 (o.pos % 32) ++ toBytes 8 (32 + o.body.length)
    | none => zeros 16)
  | none => (List.range 32).flatMap (fun u =>
    let p := 32 * b + u
    match firstWhere (fun x => decide (x.2.pos ≤ p) && decide (p < x.2.pos + x.2.units)) d.ss.objs with
    | some (k, o) => padTo 128 ((o.header k ++ o.body).drop (128 * (p - o.pos)))
    | none => zeros 128)

/-- AES-256-XTS under K_SSX with the block number as the tweak. -/
def Device.sealBlock (d : Device) (b : Nat) (plain : List Byte) : List Byte := aesXts false d.kSsx (toBytes 16 b) plain

/-- The tag of a data block, level 10, or of a node at a level. -/
def Device.ssTag (d : Device) (level i : Nat) (content : List Byte) : List Byte :=
  let t := kmac256 d.kTree (toBytes 1 level ++ toBytes 4 i ++ content) 16 (ascii "KQ SS TAG")
  if t = zeros 16 then 0x01 :: zeros 15 else t

/-- The tag of the child that lies k levels above the data blocks; zero for one never written. -/
def Device.childTag (d : Device) : (k i : Nat) → List Byte
  | 0, i => if d.ss.written.contains i then d.ssTag 10 i (d.sealBlock i (d.dataPlain i)) else zeros 16
  | k + 1, i =>
    if d.ss.written.any (fun b => decide (b < d.ss.dataBlocks) && decide (b / 8 ^ (k + 1) = i)) then
      d.ssTag (9 - k) i ((List.range 8).flatMap (fun c => d.childTag k (8 * i + c)))
    else zeros 16

/-- A node of a level: the tags of its 8 children. -/
def Device.nodePlain (d : Device) (level i : Nat) : List Byte := (List.range 8).flatMap (fun c => d.childTag (9 - level) (8 * i + c))
/-- The root node, which the root record holds. -/
def Device.rootNode (d : Device) : List Byte := d.nodePlain 0 0

/-- What the host stores under a block number. -/
def Device.backingBlock (d : Device) (b : Nat) : List Byte :=
  if b < d.ss.dataBlocks then d.sealBlock b (d.dataPlain b)
  else
    let p := d.nodePlace b
    d.sealBlock b ((List.range 32).flatMap (fun j => d.nodePlain p.1 (p.2 + j)))

end Sys2Proof.Machine
end

