-- ==== Sys2Proof/Machine/OpsReset.lean ====
section
/-!
DEFINITION. Sys2Proof/Machine/OpsReset.lean: reset values of host-writable words (05, 11, 12, 13, 14, 15, 16, 17), what a reset of the compute
die and of the custody die leaves (01 R17, 12 Table 12.6, 13 Table 13.9, 16 Table 16.2, 19 R390, R391), and when a host
access reaches the device (18 R373, 19 R399, 21 R433).
-/
namespace Sys2Proof.Machine

/-! ## Reset values of host-writable words -/

/-- Words of the compute die whose reset value is not 0: DIG_SCHED, HG_LIMIT, RSV_SCRUB, the Watershed timers, grants, MTU and
port, SLU_CTRL. -/
def computeWords : Tbl Nat :=
  [(0x0007_1000, 0x8000_5014), (0x0008_1000, 100), (0x0009_0004, 4), (0x000D_0014, 50 + 1000 * 2 ^ 16), (0x000D_0018, 1024),
   (0x000D_001C, 256), (0x000D_0020, 10), (0x000D_0024, 1400), (0x000D_0030, 49880), (0x000F_8000, 0x8003_2064)]

/-- LEV_CFG of a source at its default response and K (16, Table 16.1): RESP, BATT_ZA 1 for ZEROIZE_N, K. -/
def levCfgReset (s : Nat) : Nat :=
  let resp := [1, 1, 1, 1, 3, 1, 3, 0x21, 7, 3, 7, 7, 3, 0x0B, 7, 0x53, 0x53, 3].getD s 1
  let k := [1, 1, 1, 1, 2, 4, 4, 1, 4, 4, 1, 1, 2, 2, 3, 1, 1, 1].getD s 1
  resp + (if s = 7 then 256 else 0) + k * 2 ^ 16

/-- LEV_WIN of a source at its default (16, Table 16.1): W_VAL, and W_UNIT 1 for ms. -/
def levWinReset (s : Nat) : Nat :=
  let ms := 2 ^ 14
  [1 + ms, 1 + ms, 1 + ms, 1 + ms, 10 + ms, 1000 + ms, 1000 + ms, 1, 10 + ms, 10 + ms, 1, 1, 1 + ms, 100, 100, 1, 1, 1].getD s 1

/-- Words of the custody die whose reset value is not 0: FLT_CTRL, LEV_CFG and LEV_WIN, WHD_CTRL, KST_CTRL. -/
def custodyWords : Tbl Nat :=
  (0x000C_0808, 1 + 50 * 2 ^ 8 + 1000 * 2 ^ 16) ::
  (List.range 18).flatMap (fun s => [(0x0011_0100 + 8 * s, levCfgReset s), (0x0011_0104 + 8 * s, levWinReset s)]) ++
  [(0x0013_0004, 10), (0x0015_000C, 100)]

/-- Offsets held by the custody die (21, Table 21.2). -/
def isCustody (o : Nat) : Bool :=
  (decide (0x000C_0800 ≤ o) && decide (o < 0x000C_1000)) || (decide (0x0010_0000 ≤ o) && decide (o < 0x0016_0000))

/-- Replace the words of one die by their reset values. -/
def resetWords (custody : Bool) (t : Tbl Nat) : Tbl Nat :=
  (if custody then custodyWords else computeWords).foldl (fun t x => Tbl.put t x.1 x.2)
    (t.filter (fun x => isCustody (x.1 % 2 ^ 32) != custody))

def resetCounts (custody : Bool) (t : Tbl Nat) : Tbl Nat := t.filter (fun x => isCustody (x.1 % 2 ^ 32) != custody)

/-- Slots of a Lateral that are spares out of reset (05 R113, Table 5.12): slot 8, and on the KQ96 slots 6 to 8. -/
def spareSlots (p : Part) : List Nat := match p with
  | .kq128 => [8]
  | .kq96 => [6, 7, 8]

/-- The engines out of reset: exposed ones idle, the others spare. -/
def freshEngines (p : Part) : Tbl Engine :=
  (List.range 16).flatMap (fun l => (spareSlots p).map (fun s => (9 * l + s, { st := .spare })))

/-! ## Resets -/

/-- What a reset of the compute die leaves of an allotment: what the custody die holds (its Cistern quota, its event
window). -/
def Allot.afterCompute (t : Allot) : Allot := {
  cisQuota := t.cisQuota
  evwArea := t.evwArea
  evwCursor := t.evwCursor
  evwValid := t.evwValid
  evwEnd := t.evwEnd
  evwGap := t.evwGap
  evwData := t.evwData }

/-- What a reset of the custody die leaves of an allotment. -/
def Allot.afterCustody (t : Allot) : Allot := { t with
  cisQuota := 0
  evwArea := false
  evwCursor := 0
  evwValid := false
  evwEnd := false
  evwGap := false
  evwData := 0 }

/-- A target in STATE 2 returns to STATE 1 and its transfer key is discarded (13, Table 13.9). -/
def KeyAttr.unbind (a : KeyAttr) : KeyAttr := if a.st = 2 then { a with st := 1 } else a

def unbindTargets (d : Device) : Device :=
  { d with
    cis := { d.cis with staged := [], slots := Tbl.mapSet {} (fun _ (s : CisSlot) => { s with attr := s.attr.unbind, boundReq := none, kt := [] }) d.cis.slots }
    ss := { d.ss with objs := Tbl.mapVals (fun _ (o : SsObj) => { o with attr := o.attr.unbind, boundReq := none, kt := [] }) d.ss.objs } }

/-- The unit records that outlive a reset: the times of fences and retirement, kept with device time. -/
def UnitRec.afterReset (u : UnitRec) : UnitRec := { fences := u.fences, retired := u.retired }

/-- A unit record of a class on the compute die: engines, LIUs, digest engines, sublinks, ports. -/
def onCompute (key : Nat) : Bool := decide (key / 256 ≠ 3) && decide (key / 256 ≠ 6)

/-- The fault collector after a reset of the compute die (15 R308: the pending bits of groups 0 to 16 clear). -/
def Faults.afterCompute (f : Faults) : Faults := { f with
  cPend := (f.cPend / 2 ^ 17) * 2 ^ 17
  uPend := (f.uPend / 2 ^ 17) * 2 ^ 17
  acks := f.acks.filter (fun x => decide (17 ≤ x.1))
  units := Tbl.mapSet {} (fun k (u : UnitRec) => if onCompute k then u.afterReset else u) f.units
  due := []
  lowFlow := false
  injSource := 0
  injUnit := 0
  injErr := false
  injPending := false
  unitCls := 0
  unitIdx := 0
  unitOp := 0
  unitErr := false
  unitCause := 0
  thermCrit := false
  wedged := false }

/-- The Watershed after a reset of the compute die: links, frames, channels, templates and peer entries are the compute die's;
the credential, replicas, grants and the records of moves are the custody die's. A move whose context was lost is recorded as aborted
(17, Table 17.9). -/
def Watershed.afterCompute (w : Watershed) : Watershed := { w with
  linkUp := []
  tmplSel := 0
  tmplStage := 0
  tmpls := []
  peerSel := 0
  peers := []
  migs := w.migs.filterMap (fun m =>
    if m.source then some (if m.outcome.isSome then m else { m with st := 1, outcome := some (1, m.began) }) else none)
  grantWaits := []
  rehoming := none }

/-- The Flume after a reset of the compute die: untrained, nothing in flight, no lease outstanding. -/
def Flume.afterCompute (f : Flume) : Flume := {
  boot := f.boot
  presentCustody := f.presentCustody
  nextRevoke := f.nextRevoke
  nextProxy := f.nextProxy
  nextRequest := f.nextRequest
  fallback := f.fallback
  sbClear := f.sbClear
  clearFrom := f.clearFrom }

/-- Readiness of the compute die is lost (19, Table 19.7). -/
def Boot.afterCompute (b : Boot) : Boot := { b with
  flumeUp := false
  cdReady := false
  rsvReady := false
  srlReady := false
  profile := false
  configReady := false
  serviceReady := false
  unitsTested := false
  unitKeys := false
  pcieLink := false
  linkState := 0
  vfEnable := false
  numVfs := 0
  computeReset := true
  pcieLock := false
  stepReached := 0 }

/-- The outstanding key requests of commands, on their engines and in their records, each with its allotment; and those of ended commands. -/
def Device.requestsOut (d : Device) : List (Nat × Nat × Nat × Nat) :=
  d.cmds.flatMap (fun x => (x.2.saved.elim [] (fun r => r.arch.keys) ++ x.2.engine.elim [] (fun e => (d.eng e).arch.keys)).map
    (fun r => (r.eng, r.request, r.handle, x.2.allot))) ++
  (List.range 144).flatMap (fun e => (d.eng e).gone.map (fun g => (e, g.1, g.2.1, g.2.2)))

/-- Leaves whose delivery is in the Flume (09, Table 9.4). -/
def Device.leavesFlying (d : Device) : List (Nat × Nat × Nat) :=
  d.fl.toCompute.filterMap (fun f => match f.msg with
    | .keyDeliver e r _ true _ (some i) _ _ _ =>
      (d.requestsOut.find? (fun x => decide (x.1 = e) && decide (x.2.1 = r))).map (fun x => (x.2.2.2, x.2.2.1, i))
    | _ => none)

/-- Leaves reserved to commands that a reset ends (09, Table 9.4), still to be recorded: held by a command, on their way to one, or waiting for
their tree object. -/
def Device.leavesHeld (d : Device) : List (Nat × Nat × Nat) :=
  d.cmds.filterMap (fun x => x.2.leaf.map (fun l => (x.2.allot, l.1, l.2))) ++ d.leavesFlying ++
    d.ss.waiting.filterMap (fun w => w.leaf.map (fun i => (w.req.allot, w.req.handle, i)))

/-- The custody die records the leaves that a reset burned (09 R207). -/
def logLeaves (d : Device) : Device :=
  let l := d.cis.lost
  let d := { d with cis := { d.cis with lost := [], burned := satAdd 0xFFFF_FFFF d.cis.burned l.length } }
  foldOver (fun (x : Nat × Nat × Nat) d => record 0x4003 x.1 false x.2.1 x.2.2 0 0 d) l d

/-- A reset of the compute die (19 R391; 15, Table 15.7 step 6): everything it holds is lost, the Reservoir's contents with their
keys; targets being created are released (13, Table 13.9), waiting requests of the Wellhead discarded (12, Table 12.6). -/
def computeReset (d : Device) : Device :=
  let d := unbindTargets d
  { d with
    regs := resetWords false d.regs
    cnt := resetCounts false d.cnt
    allots := Tbl.mapSet {} (fun _ t => t.afterCompute) d.allots
    sqs := []
    cqs := []
    cmds := []
    routines := []
    oldImages := []
    ctxs := []
    cache := []
    cacheDirty := []
    weirs := []
    rsv := { retired := d.rsv.retired, spares := d.rsv.spares, retiredPages := d.rsv.retiredPages }
    engs := freshEngines d.part
    lats := []
    lius := []
    liuWait := []
    liuHigh := 0
    digs := []
    digArrive := []
    digWait := []
    digHigh := 0
    digSlotSel := 0
    whd := { d.whd with inst := Tbl.mapSet {} (fun _ (g : Drbg) => { g with queue := [] }) d.whd.inst }
    cis := { d.cis with waiting := [], lost := d.cis.lost ++ d.leavesHeld }
    lev := { d.lev with union := d.lev.union - (d.lev.union &&& 0x0C) }
    ss := { d.ss with xslots := [], waiting := [], attached := false, change := none }
    gates := []
    dselGate := 0
    dselRegion := 0
    dselErr := false
    dselCause := 0
    dstage := 0
    fl := d.fl.afterCompute
    flt := d.flt.afterCompute
    ws := d.ws.afterCompute
    md := { d.md with heldWrites := [], heldReads := [], waking := false, change := none, prof := none, profPending := none, locked := false, unlock := [], overlays := [] }
    boot := d.boot.afterCompute }

/-- Non-persistent slots are lost (13 R268). -/
def dropVolatileSlots (d : Device) : Device :=
  { d with cis := { d.cis with slots := d.cis.slots.filter (fun x => x.2.attr.persistent) } }

/-- The custody die's own volatile state is lost: fault history, Levee counts, Wellhead, windows, mode (13, 15, 16, 18). What MRAM
and the battery island hold stays. -/
def custodyReset (d : Device) : Device :=
  let d := dropVolatileSlots (unbindTargets d)
  { d with
    regs := resetWords true d.regs
    cnt := resetCounts true d.cnt
    allots := Tbl.mapSet {} (fun _ t => t.afterCustody) d.allots
    whd := {}
    cis := { slots := d.cis.slots, kerPresent := d.cis.kerPresent, kerA := d.cis.kerA, kerB := d.cis.kerB, kerCheck := d.cis.kerCheck, lost := d.cis.lost }
    ss := { d.ss with
      attached := false
      rootOk := false
      recovering := false
      iova := 0
      nslots := 0
      xslots := []
      waiting := []
      slotsHigh := 0
      cache := []
      change := none }
    fl := { boot := d.fl.boot, nextRevoke := d.fl.nextRevoke, nextProxy := d.fl.nextProxy, nextRequest := d.fl.nextRequest }
    flt := {
      lastFatal := d.flt.lastFatal
      countF := d.flt.countF
      units := Tbl.mapSet {} (fun _ (u : UnitRec) => u.afterReset) d.flt.units
      thermWarn := d.flt.thermWarn }
    lev := { d.lev with
      src := Tbl.mapSet {} (fun k (x : LevSource) => if k < 8 then { events := x.events } else {}) d.lev.src
      firings := []
      union := 0
      zeroizing := false
      zeroizeAll := false
      resetDue := false
      ctrlErr := false
      stimErr := false
      svcOpenUntil := none }
    evr := { d.evr with
      queued := 0
      dropSec := 0
      dropped := 0
      clearErr := false
      win := {}
      bmc := {} }
    md := {
      owner := d.md.owner
      ownerDigest := d.md.ownerDigest
      ownerKey := d.md.ownerKey
      copies := d.md.copies
      profFloor := d.md.profFloor
      debugCount := d.md.debugCount
      debugStrap := d.md.debugStrap }
    boot := { d.boot with cusReady := false, entropyReady := false, custodyReset := true }
    brd := { tap := d.brd.tap, debugTap := d.brd.debugTap } }

/-- Both dies. -/
def bothReset (d : Device) : Device := custodyReset (computeReset d)

/-! ## The hardware clear (01 R17, Table 1.4) -/

/-- What SB_CLEAR overwrites with zeros on the compute die: engines, LIU slots with the jobs that ran, digest states, key registers, cached contexts.
Without its keys nothing of the Reservoir can be read: its contents, the contexts among them, are gone (01 R17). DESIGN CHOICE (assumption
124): unreadable bytes are dropped. Entropy on its way is discarded (12, Table 12.6). -/
def hardClear (d : Device) : Device :=
  { d with
    engs := Tbl.mapSet {} (fun _ (g : Engine) => { g with arch := {}, leases := [], mg := {}, gone := [] }) d.engs
    lius := Tbl.mapSet {} (fun _ (u : Liu) => { u with slots := [], modulus := 0, n := 0, queue := [], failed := none }) d.lius
    digs := Tbl.mapSet {} (fun _ (g : Dig) => { g with job := none, expect := [], result := [], matched := false }) d.digs
    digArrive := []
    digWait := []
    cmds := Tbl.mapVals (fun _ (c : Cmd) => { c with streams := [], digGens := [], saved := none, staged := none }) d.cmds
    ctxs := []
    rsv := { d.rsv with mem := [], keys := 0, wrapKeys := 0, saveKeys := 0, keyRegs := [] }
    ss := { d.ss with nodes := [] }
    allots := Tbl.mapSet {} (fun _ (t : Allot) => { t with blobs := [] }) d.allots
    fl := { d.fl with toCompute := d.fl.toCompute.filter (fun f => match f.msg with
      | .entropyDeliver _ _ _ => false
      | _ => true) }
    cache := []
    cacheDirty := [] }

/-- SB_CLEAR is asserted: the compute die's clear starts, the custody die discards every unit key and the boot counter
advances (01 R17, 13 R265); targets being created are released. -/
def assertClear (d : Device) : Device :=
  let d := unbindTargets d
  { d with fl := { d.fl with sbClear := true, clearing := true, clearFrom := d.time, boot := d.fl.boot + 1, leases := [] } }

/-- The custody die holds SB_CLEAR for 40 µs (01 R17); it releases it then, once the clear is complete. -/
def releaseClear (d : Device) : Device :=
  if d.fl.sbClear && !d.fl.clearing && decide (d.fl.clearFrom + 40_000 ≤ d.time) then { d with fl := { d.fl with sbClear := false } } else d

/-- What the custody die zeroes at ZEROIZE_VOLATILE (12, Table 12.6; 13, Table 13.9). -/
def zeroizeCustody (d : Device) : Device :=
  let d := dropVolatileSlots (unbindTargets d)
  { d with
    whd := { d.whd with
      pool := 0
      inst := Tbl.mapSet {} (fun _ (g : Drbg) => if g.st = 3 then g else { g with st := 0, requests := 0, work := {} }) d.whd.inst }
    ss := { d.ss with cache := [] } }

/-- What ZEROIZE_ALL overwrites besides: every slot copy and the Sealed Store root record (13, Table 13.9); the Watershed credential and
every revocation (17 R356). -/
def zeroizeStores (d : Device) : Device :=
  { d with
    cis := { d.cis with slots := [] }
    ss := { d.ss with objs := [], dirs := [], written := [], cache := [], change := none, rootOk := false, blocks := 0, dataBlocks := 0, treeGen := 0, journal := 0, batch := [], toSend := [] }
    ws := { d.ws with cred := false, credBytes := [], credOk := false, member := 0, wsId := 0, notBefore := 0, notAfter := 0, revoked := [] } }

/-! ## Host accesses -/

/-- The device sleeps or wakes: host accesses are held (18 R373). -/
def Device.asleep (d : Device) : Bool := decide (d.md.mode = .retention) || d.md.waking

/-- The keys of every allotment, and the device key of the Reservoir, leave as UNIT_KEY_LOAD (01, Table 1.5; 13, Table 13.1). -/
def loadUnitKeys (d : Device) : Device :=
  let keys := (List.range 64).flatMap (fun a => (List.range 3).map (fun c => (a, c))) ++ [(64, 0)]
  foldOver (fun (x : Nat × Nat) d => toCompute (.unitKeyLoad x.1 x.2 (d.unitKey x.1 x.2)) d) keys d

/-- Every unit key is in its register. -/
def Device.keysLoaded (d : Device) : Bool :=
  decide (d.rsv.keys = 2 ^ 65 - 1) && decide (d.rsv.wrapKeys = 2 ^ 64 - 1) && decide (d.rsv.saveKeys = 2 ^ 64 - 1)

/-- A wake starts: power is restored, the sublinks retrain under their key, the Reservoir leaves self-refresh, and the unit keys leave anew (18, Table
18.5 steps 1 to 4). -/
def startWake (source : Nat) (d : Device) : Device :=
  if d.md.waking then d else
  let d := { d with md := { d.md with waking := true, wakeSource := source, wakeFrom := d.time } }
  let up (x : Sublink) : Sublink := { x with up := !x.fenced, lastRx := d.time, lastRxCompute := d.time }
  loadUnitKeys { d with
    fl := { d.fl with computeTime := d.time, sub0 := up d.fl.sub0, sub1 := up d.fl.sub1, lastBeat := d.time }
    rsv := { d.rsv with selfRefresh := false } }

/-- A BAR write that meets Retention is held and wakes the device (18 R373). -/
def holdWrite (fn off v : Nat) (d : Device) : Device :=
  let d := startWake 0 d
  { d with md := { d.md with heldWrites := d.md.heldWrites ++ [(fn, off, v)] } }

/-- A host access before Retention is complete cancels its entry (18 R372). -/
def cancelRetention (d : Device) : Device := match d.md.change with
  | some c =>
    if c.target ≠ .retention then d else
    let d := { d with md := { d.md with change := none } }
    -- A Low-flow condition that arose meanwhile is ordered again.
    if d.flt.lowFlowOrdered then toCompute (.faultAction .lowFlow) d else d
  | none => d

/-- A host access of function a: it cancels the entry to Retention, and clears the latch of a split 64-bit read (21 R430). -/
def hostAccess (a : Nat) (d : Device) : Device := (cancelRetention d).updAllot a (fun t => { t with latch64 := none })

/-- The host's link is up (19, Table 19.4): the compute die is neither in reset nor clearing. -/
def Device.linkLive (d : Device) : Bool := d.boot.configReady && !d.boot.computeReset && !d.fl.clearing

/-- BAR accesses reach a live die (21, Table 21.3): the compute die is not stopped by a Fatal fault or FREEZE. -/
def Device.barLive (d : Device) : Bool :=
  d.linkLive && !d.fl.sbStop &&
    (match d.flt.fatal with
     | some f => decide (f.stage < 2) || decide (f.stage = 4)
     | none => true)

/-! ## The register proxy (21 R432, R433) -/

/-- An offset whose register the custody die holds (21, Table 21.2). -/
def proxied (off : Nat) : Bool :=
  if off < 2 ^ 32 then isCustody off else decide (2 ^ 32 + 0x4000 ≤ off) && decide (off < 2 ^ 32 + 0x5000)

/-- Function fn has a proxied write under way, or an access that waits for one. -/
def Device.proxyBusy (d : Device) (fn : Nat) : Bool := d.fl.proxies.any (fun p => decide (p.fn = fn) && (p.write || p.here))

/-- An access of the proxy's list: it is sent, or it waits behind a proxied write of its function. -/
def proxyAccess (fn off : Nat) (write : Bool) (v : Nat) (d : Device) : Device :=
  let id := d.fl.nextProxy
  let p : ProxyAcc := { ident := id, fn := fn, offset := off, write := write, since := d.time, value := v, here := !proxied off }
  let d := { d with fl := { d.fl with proxies := d.fl.proxies ++ [p], nextProxy := id + 1 } }
  if !proxied off then d
  else toCustody (if write then .regWrite off fn v id else .regRead off fn id) d

/-- A read that reaches no live block: it completes with all ones when 10 µs have passed (21, Table 21.3). -/
def lostRead (fn off : Nat) (d : Device) : Device :=
  if !d.linkLive then d else
  let id := d.fl.nextProxy
  { d with fl := { d.fl with
    proxies := d.fl.proxies ++ [{ ident := id, fn := fn, offset := off, write := false, since := d.time }]
    nextProxy := id + 1 } }

/-- A host write to the page of function a. A page under teardown ignores it (14 R291). One of a custody register, or behind a proxied write of its
function, is the proxy's. -/
def pageWrite (a off v : Nat) (d : Device) (f : Device → Device) : Device :=
  if !d.barLive then d
  else if d.asleep then holdWrite a (0x1_0000_0000 + off) v d
  else if (d.allot a).flr.isSome then d
  else
    let d := hostAccess a d
    if proxied (0x1_0000_0000 + off) || d.proxyBusy a then proxyAccess a (0x1_0000_0000 + off) true v d else f d

/-- The block of a BAR0 offset is live (19, Table 19.4): before CD_READY only the DEV block and the custody window are. -/
def Device.blockLive (d : Device) (o : Nat) : Bool :=
  d.barLive && (d.boot.cdReady || decide (o < 0x1_0000) || (decide (0x0010_0000 ≤ o) && decide (o < 0x0016_0000)))

/-- A register of access RWL is locked (18 R381). -/
def Device.isLocked (d : Device) (o : Nat) : Bool := d.md.locked && !d.md.unlock.contains o

/-- A write ignored because its register is locked: counted (18 R381). -/
def lockedWrite (o : Nat) (d : Device) : Device :=
  let d := d.bump 0x0014_0010
  { d with md := { d.md with
    lockedFirst := if d.md.lockedSec = 0 then o else d.md.lockedFirst
    lockedSec := d.md.lockedSec + 1 } }

/-- A host write to a BAR0 word. -/
def barWrite (o v : Nat) (rwl : Bool) (d : Device) (f : Device → Device) : Device :=
  if !d.blockLive o then d
  else if d.asleep then holdWrite 0 o v d
  else
    let d := hostAccess 0 d
    if proxied o || d.proxyBusy 0 then proxyAccess 0 o true v d
    else if rwl && d.isLocked o then lockedWrite o d
    else f d

/-- A read in Retention wakes the device, which answers it at the end of the wake (18 R373). -/
def holdRead (fn off : Nat) (d : Device) : Device :=
  let d := startWake 1 d
  { d with md := { d.md with heldReads := d.md.heldReads ++ [(fn, off)] } }

/-- A host read of a BAR0 word: `f` answers it. -/
def barRead (o : Nat) (d : Device) (f : Device → Device) : Device :=
  if !d.barLive then lostRead 0 o d
  else if d.asleep then holdRead 0 o d
  else if !d.blockLive o then d.emit (.readReply 0 o 0)
  else
    let d := hostAccess 0 d
    if proxied o || d.proxyBusy 0 then proxyAccess 0 o false 0 d else f d

/-- A page word at its reset value, as it reads during a function-level reset (14 R291): FLR_BUSY is shown, READY is 0; the quotas are those of
the Base Profile (02, Table 2.17). -/
def Device.flrWord (d : Device) (a o : Nat) : Nat :=
  if 0xE000 ≤ o ∧ o < 0xE200 then (if o % 16 = 12 then 1 else 0)
  else match o with
    | 0x0000 => 4
    | 0x0004 => (d.allot a).sqQuota + (d.allot a).cqQuota * 2 ^ 16
    | 0x0018 => 0x42
    | 0x3008 => 0x40
    | _ => 0

/-- A host read of a page word. -/
def pageRead (a o : Nat) (d : Device) (f : Device → Device) : Device :=
  if !d.barLive then lostRead a (0x1_0000_0000 + o) d
  else if d.asleep then holdRead a (0x1_0000_0000 + o) d
  else if (d.allot a).flr.isSome then d.emit (.readReply a o (d.flrWord a o))
  else
    let d := hostAccess a d
    if proxied (0x1_0000_0000 + o) || d.proxyBusy a then proxyAccess a (0x1_0000_0000 + o) false 0 d else f d

end Sys2Proof.Machine
end

