-- ==== Sys2Proof/Machine/OpsRsv.lean ====
section
/-!
DEFINITION. Sys2Proof/Machine/OpsRsv.lean: the Reservoir as memory chips hold it, and its errors: lines encrypted under their keys, pages retired to
spares, what an uncorrectable error comes to by its region (04 R102, R105, R106, Tables 4.9, 4.11).
-/
namespace Sys2Proof.Machine

/-! ## Pages and lines -/

/-- The page that a page number now means: retired ones lie in the spare pages, in the order of their retirement (04 R105, Table 4.9; which spare
a page takes: DESIGN CHOICE, assumption 141). -/
def Reservoir.physPage (r : Reservoir) (p : Nat) : Nat :=
  if r.retiredPages.contains p then 0xD400_0000 / 4096 + (r.retiredPages.idxOf p) else p

/-- The allotment in whose partition an address lies, with its offset there (04, Table 4.9). -/
def Device.partOwner (d : Device) (a : Nat) : Option (Nat × Nat) :=
  (firstWhere (fun n => decide (d.partBase n ≤ a) && decide (a < d.partBase n + (d.allot n).rsvPart * 0x100_0000)) (List.range 64)).map
    (fun n => (n, a - d.partBase n))

/-- The command whose staging an address lies in. -/
def Device.stagingOwner (d : Device) (a : Nat) : Option Nat :=
  (firstWhere (fun x => decide (x.2.stageSize ≠ 0) && decide (x.2.stageBase ≤ a) && decide (a < x.2.stageBase + x.2.stageSize))
    d.cmds).map (fun x => x.1)

/-- The saved command whose slot of the save area an address lies in (05 R125). -/
def Device.saveOwner (d : Device) (a : Nat) : Option Nat :=
  let off := a - 0x2800_0000
  let al := off / 0x80_0000
  let i := (off % 0x80_0000) / 0x4_8000
  (firstWhere (fun (x : Nat × Cmd) => decide (x.2.allot = al) && (match x.2.saved with
    | some r => decide (r.slot = i)
    | none => false)) d.cmds).map (fun x => x.1)

/-- The key of the Reservoir controller that a line is encrypted under (04 R102, Table 4.9): that of an allotment, 0 to 63, or 64, the device's. -/
def Device.lineKey (d : Device) (a : Nat) : Nat :=
  if a < 0x1000_0000 then (d.ctx (a / 1024)).allot
  else if a < 0x2800_0000 then 64
  else if a < 0x4800_0000 then (a - 0x2800_0000) / 0x80_0000
  else if a < 0xC800_0000 then (match d.stagingOwner a with
    | some k => (d.cmdOr k).allot
    | none => 64)
  else match d.partOwner a with
    | some (n, _) => n
    | none => 64

/-- What the memory chips hold for the 64-byte line at address a: AES-256-XTS under its key, with the line's physical address as the tweak (04 R102).
-/
def Device.storedLine (d : Device) (a : Nat) : List Byte :=
  let line := a - a % 64
  let phys := d.rsv.physPage (line / 4096) * 4096 + line % 4096
  aesXts false (d.keyReg (d.lineKey line) 0) (toBytes 16 phys) (d.rsvRead line 64)

/-! ## Losses -/

/-- A Reservoir buffer's contents are lost (04, Table 4.11): its recorded length becomes 0, and RSV_BUFFER_LOST is posted after the completions
of the commands that are reading it (02 R47). -/
def loseBuffer (a b : Nat) (d : Device) : Device :=
  let ref := (d.allot a).ref b
  let hit := (d.cmds.filter (fun x => decide (x.2.allot = a) && x.2.started && !decide (x.2.phase = .ended) && eInRsv x.2.entry &&
    decide (eInAddr x.2.entry = ref) && !x.2.inDone)).map (fun x => x.1)
  let d := d.updAllot a (fun t => { t with bufs := Tbl.modify t.bufs b (fun x => { x with len := 0 }) })
  noticeAfter hit a 0x7011 2 ref 0 0 0 d

/-- An uncorrectable error in a context: a command that executes on it ends with CONTEXT_STATE, DETAIL 5, and is not replayed, one that waits in
its Weir's line finds it CLOSED; SESSION_LOST follows (04, Table 4.11). -/
def loseContext (n : Nat) (d : Device) : Device :=
  let hit := d.cmds.filter (fun x => x.2.takesCtx && decide (eCtx x.2.entry = n) && decide (x.2.allot = (d.ctx n).allot) &&
    !decide (x.2.phase = .ended))
  let d := foldOver (fun x d =>
    if x.2.started then haltWith x.1 stCtxState 5 0 d
    else if x.2.phase = .line then concludeUnstarted x.1 stCtxState 5 d else d) hit d
  settleAdmin (loseCtx n d)

/-! ## Errors (04 R105, R106) -/

/-- Retire a page: copied to a spare and remapped; with no spare left a Contained fault (04 R105). -/
def retirePage (p : Nat) (d : Device) : Device :=
  if d.rsv.retiredPages.contains p then d
  else if d.rsv.spares = 0 then raiseFault 0x55 0xFFFF none p d
  else { d with rsv := { d.rsv with
    retired := d.rsv.retired + 1
    spares := d.rsv.spares - 1
    retiredPages := d.rsv.retiredPages ++ [p]
    corrTimes := Tbl.erase d.rsv.corrTimes p } }

/-- A corrected error on a read of a page: three within 24 h retire it (04 R105). -/
def corrected (p : Nat) (d : Device) : Device :=
  let d := d.bump 0x0009_0008
  let day := 86_400_000_000_000
  let times := (Tbl.get [] d.rsv.corrTimes p).filter (fun t => decide (d.time < t + day)) ++ [d.time]
  let d := { d with rsv := { d.rsv with corrTimes := Tbl.put d.rsv.corrTimes p times } }
  if 3 ≤ times.length then retirePage p d else d

/-- The node block in a place of the node cache is dropped; the next access fetches it again through the block exchange (04, Table 4.11). -/
def dropNode (i : Nat) (d : Device) : Device := { d with ss := { d.ss with nodes := d.ss.nodes.take i ++ d.ss.nodes.drop (i + 1) } }

/-- The outcome of an uncorrectable error by its region (04, Table 4.11): the program store's other copy is used and rewritten, steward and
Watershed areas have no visible outcome. -/
def uncorrectable (a : Nat) (d : Device) : Device :=
  let d := d.bump 0x0009_000C
  let d := if a < 0x1000_0000 then loseContext (a / 1024) d
    else if a < 0x1800_0000 then d
    else if a < 0x2800_0000 then dropNode ((a - 0x1800_0000) / 4096) d
    else if a < 0x4800_0000 then raiseFault 0x51 0xFFFF (d.saveOwner a) a d
    else if a < 0xC800_0000 then raiseFault 0x51 0xFFFF (d.stagingOwner a) a d
    else if a < 0xD800_0000 then d
    else foldOver (fun n d =>
      let t := d.allot n
      match firstWhere (fun (x : Nat × RsvBuf) => decide (d.partBase n + x.2.place ≤ a) &&
        decide (a < d.partBase n + x.2.place + 2 ^ x.2.sizeLog2)) t.bufs with
      | some (b, _) => loseBuffer n b d
      | none => d) (List.range 64) d
  retirePage (a / 4096) d

/-- What a read of [a, a+n) meets: a corrected error is a Corrected fault and counts toward its page's retirement; an uncorrectable one has the
outcome of its region (04 R105, R106). -/
def meetRead (r : RsvRead) (a n : Nat) (d : Device) : Device := match r with
  | .clean => d
  | .corrected o => let at_ := a + o.toNat % max 1 n; corrected (at_ / 4096) (raiseFault 0x50 0xFFFF none at_ d)
  | .uncorrectable o => uncorrectable (a + o.toNat % max 1 n) d

end Sys2Proof.Machine
end

