-- ==== Sys2Proof/Machine/State.lean ====
section
/-!
DEFINITION. Sys2Proof/Machine/State.lean: the state of the block: the device and the queue of commands that wait; what a step can
answer beside a next state; the state right after reset.
-/
namespace Sys2Proof.Machine

/-- The device and the commands that wait, first in, first out. -/
structure State where
  dev : Device
  pending : List Instr
deriving DecidableEq, Repr

/-- Faults that stop the model. None: every command of the table has an effect the spec gives, and a command whose
condition does not hold leaves the device as it is. -/
inductive Fault where
deriving DecidableEq, Repr

/-- Refusals. -/
inductive Refusal where
  /-- A command of the table that has no meaning yet, by its mnemonic. Safe: the model stops. -/
  | notModelled (mnemonic : String)
deriving DecidableEq, Repr

/-- The outcome of a command that acts on the device: the queue stays as it is. -/
def State.on (s : State) (f : Device → Device) : Host.Outcome State Fault Refusal := .next { s with dev := f s.dev }

/-- A part before its first power-up: both dies in reset, no allotment, no owner, no profile, nothing recorded, no key; every word at the reset
value of its table, the engines that the part exposes idle and the others spare (05 R113; 19 R385). -/
def State.resetOf (p : Part) : State :=
  { dev := { part := p, regs := resetWords true (resetWords false []), engs := freshEngines p }, pending := [] }

/-- The block right after reset: a KQ128. DESIGN CHOICE: both parts are reset the same way, and the part is data of the state. -/
def State.reset : State := State.resetOf .kq128

end Sys2Proof.Machine
end

