-- ==== Sys2Proof/Machine/CmdLife.lean ====
section
/-!
DEFINITION. Sys2Proof/Machine/CmdLife.lean: the life of a command outside its instructions: Weir lines, placement, dispatch, input
staging, drain, commit (03, Table 3.4; 04; 05), preemption, the watchdog, the store buffer and the transfers that complete.
-/
namespace Sys2Proof.Machine

/-- An operation of a unit that the stopped compute die does not make. -/
def unlessStopped (d : Device) (f : Device → Device) : Device := if d.stopped then d else f d

/-! ## Waiting and the Weir (03 R71, R73; 04 R94, R97 to R99) -/

/-- What a context says to a command whose turn has come (03 R73, 04 Tables 4.1 and 4.6): go on, wait, or end. -/
inductive CtxAnswer where
  | go
  | wait
  | fail (status detail : Nat)
deriving DecidableEq, Repr

def Device.ctxAnswer (d : Device) (c : Cmd) : CtxAnswer :=
  if !c.takesCtx then .go else
  let x := d.ctx (eCtx c.entry)
  if x.st = .free ∨ x.allot ≠ c.allot then .fail stCtxAbsent 0
  else if x.st = .migrating then .wait
  else if x.st = .closed ∧ x.migratedOut then .fail stCtxAbsent 1
  else if acceptsCtx c.entry x then .go
  else .fail stCtxState x.st.code

/-- A 0x0C04 that finds its hold expired: the close is applied first (04, Table 4.6 row 3). -/
def expireBefore (c : Cmd) (d : Device) : Device :=
  let n := eCtx c.entry
  let x := d.ctx n
  if c.takesCtx ∧ c.attr.routine = 0x0C04 ∧ x.st = .held ∧ x.allot = c.allot ∧ x.holdExpiry ≤ d.time then expireCtx n d else d

/-- The command joins its Weir's line with its cost fixed (04 R97 to R99); a zero-cost one is dispatched at once. -/
def joinLine (k : Nat) (c : Cmd) (d : Device) : Device :=
  let w := d.weir c.weir
  if !w.en || w.allot != c.allot then conclude k stWeirShed c.weir 0 d else
  let cost := d.costOf c
  let d := d.tookFree (b2n cost.2)
  let first3 := c.attr.routine = 0x0C03
  let first5 := c.attr.routine = 0x0C05
  let spent (d : Device) : Device :=
    if first3 then d.updCtx (eCtx c.entry) (fun x => { x with free3 := false })
    else if first5 then d.updCtx (eCtx c.entry) (fun x => { x with free5 := false }) else d
  let d := d.updCmd k (fun c => { c with cost := cost.1, since := d.time, entropySince := none })
  if cost.1 = 0 then
    match release k d with
    | some d => spent d
    | none => d
  else
    let d := d.updWeir c.weir (fun w => { w with line := w.line ++ [k] })
    spent (d.updCmd k (fun c => { c with phase := .line }))

/-- 04 R97: a command clear of barrier, batch, context and entropy waits joins its Weir's line; before ENTROPY_READY every masked command waits (08, Table 8.7). -/
def execWeirJoin (k : Fin 4096) (s : State) : Host.Outcome State Fault Refusal :=
  s.on fun d => unlessStopped d fun d =>
    match d.cmd k with
    | none => d
    | some c =>
      if c.phase ≠ .waiting ∨ !d.barrierClear c ∨ !batchClear c ∨ !d.ctxTurn c then d else
      let d := expireBefore c d
      match d.ctxAnswer c with
      | .wait => d
      | .fail st det => conclude k st det 0 d
      | .go =>
        if (c.attr.needsRandom && !d.entropyAvailable) || (decide (c.attr.order ≠ 0) && !d.boot.entropyReady) then
          d.updCmd k (fun c => { c with entropySince := some (c.entropySince.getD d.time) })
        else joinLine k c d

/-- 04 R97: the command at the head of a line is charged and released when LEVEL covers its cost and staging has room
(R101). -/
def execWeirCharge (n : Fin 4096) (s : State) : Host.Outcome State Fault Refusal :=
  s.on fun d => unlessStopped d fun d =>
    let d := refill n d
    match (d.weir n).line with
    | [] => d
    | k :: rest =>
      let cost := (d.cmdOr k).cost
      if (d.weir n).covers cost then
        match release k d with
        | some d => chargeWeir n cost (d.updWeir n (fun w => { w with line := rest }))
        | none => d
      else d

/-- Milliseconds waited, saturating (03, Table 3.17). -/
def waitedMs (now since : Nat) : Nat := min ((now - since) / 1_000_000) 0xFFFF

/-- A command in a line is shed (04 R97; 03, Table 3.17). -/
def shed (k : Nat) (d : Device) : Device :=
  let c := d.cmdOr k
  let d := d.updWeir c.weir (fun w => { w with shed := (w.shed + 1) % 2 ^ 32, shedSec := w.shedSec + 1, shedAllot := c.allot })
  concludeUnstarted k stWeirShed (c.weir + waitedMs d.time c.since * 2 ^ 16) d

/-- The Sluice would charge the head of a Weir's line at this instant (04 R97, R101). -/
def Device.chargeable (d : Device) (w : Weir) : Bool := match w.line with
  | [] => false
  | h :: _ => w.covers (d.cmdOr h).cost && (release h d).isSome

/-- 04 R97: a command still in its line MAX_WAIT ms after joining is shed, one with MAX_WAIT 0 when it is at the head; what the Sluice can charge
at the same instant it charges first. -/
def execWeirShed (k : Fin 4096) (s : State) : Host.Outcome State Fault Refusal :=
  s.on fun d => unlessStopped d fun d =>
    match d.cmd k with
    | none => d
    | some c =>
      let d := refill c.weir d
      let w := d.weir c.weir
      if c.phase ≠ .line ∨ d.time < c.since + w.maxWait * 1_000_000 then d
      else if d.chargeable w ∨ (w.maxWait = 0 ∧ w.line.head? ≠ some k.val) then d
      else shed k d

/-- A write to WEIR_CTRL commits the staged words of a Weir (04 R99). -/
def weirCtrl (n v : Nat) (d : Device) : Device :=
  let d := refill n d
  let w := d.weir n
  let allot := field v 5 0
  let en := bitOf v 8
  let burst := max 1 (w.sBurst.getD w.burst)
  let rate := w.sRate.getD w.rate
  let moved := w.allot != allot
  let full := (!w.en && en) || moved
  let top : Int := (burst : Int) * 1024
  let l0 : Int := if full then top else min w.level top
  let level : Int := if rate = 0 then min l0 0 else l0
  let line := w.line
  let d := d.updWeir n (fun w => { w with
    rate := rate
    burst := burst
    maxWait := w.sWait.getD w.maxWait
    sRate := none
    sBurst := none
    sWait := none
    allot := allot
    en := en
    unlimited := bitOf v 9
    level := level
    shed := if moved then 0 else w.shed
    charged := if moved then 0 else w.charged })
  if !en || moved then foldOver shed line d else d

/-- 04 R99: a host write to WEIR_CTRL. -/
def execWeirCtrlWrite (n : Fin 4096) (v : BitVec 32) (s : State) : Host.Outcome State Fault Refusal :=
  s.on fun d => barWrite (0x000B_000C + 16 * n.val) v.toNat false d (weirCtrl n v.toNat)

/-! ## Dispatch (05 R116 to R120) -/

/-- 05 R116: a command that has waited 20 µs on a ready list without starting is taken by a free engine of another Lateral
its allotment may use. -/
def execReadySteal (k : Fin 4096) (e : Fin 144) (s : State) : Host.Outcome State Fault Refusal :=
  s.on fun d => unlessStopped d fun d =>
    match d.cmd k with
    | none => d
    | some c =>
      if c.phase = .ready ∧ c.readyAt + 20_000 ≤ d.time ∧ d.engineFree e ∧ latOf e ≠ c.lateral ∧ d.mayUse c.allot (latOf e) ∧
          d.startable e k then
        (startOn e k d).bump 0x000F_8008
      else d

/-- 05 R117: free engines of a Lateral take a command by deficit round robin, PRIORITY and the order of release; the
engine is the one R118 prefers. -/
def execEngineDispatch (l : Fin 16) (s : State) : Host.Outcome State Fault Refusal :=
  s.on fun d => unlessStopped d fun d =>
    let free := (enginesOf l).filter (fun e => d.engineFree e)
    let can (k : Nat) : Bool := free.any (fun e => d.startable e k)
    let ready := (((d.lat l).ready.filter can).map (fun k => (d.cmdOr k).allot)).eraseDups
    match d.drr l ready with
    | none => d
    | some (a, credit) =>
      match d.offer l a can with
      | none => d
      | some k =>
        match d.bestEngine k (free.filter (fun e => d.startable e k)) with
        | none => d
        | some e => startOn e k (d.updLat l (fun t => { t with credit := credit, lastServed := a }))

/-! ## Input staging (03 R62 to R64, R74) -/

/-- What reading an input comes to. -/
inductive InputEnd where
  | done
  | wait (addr len : Nat)
  | refused (operand cause region : Nat) (straddle : Bool) (addr len : Nat)
  | malformed
  | short (n : Nat)
  | long (n : Nat)
deriving DecidableEq, Repr

/-- Read host ranges through the allotment's gate, in order. -/
def readHost (d : Device) (a operand : Nat) (ps : List (Nat × Nat)) : InputEnd :=
  match checkAll d a a 0 true none ps with
  | (.permit, _, _) => .done
  | (.wait, p, n) => .wait p n
  | (.refuse c r st, p, n) => .refused operand c r st p n

/-- One entry of a gather list (03, Table 3.3): its address, length and LAST; none when a reserved bit is set. -/
def gatherFields (g : GatherEntry) : Option (Nat × Nat × Bool) :=
  if bitOf g.1.toNat 63 ∨ g.2.2.toNat / 2 ≠ 0 then none else some (g.1.toNat, g.2.1.toNat, bitOf g.2.2.toNat 0)

/-- Walk a gather list from entry i with `need` bytes of IN_LEN to come and `got` described so far (03 R63, R74). Beyond IN_LEN the entries are
read to LAST and their data are not: a malformed or refused entry met there is what the walk comes to (DESIGN CHOICE, assumption 132). -/
def walkGather (d : Device) (a base : Nat) : (fuel i need got : Nat) → List GatherEntry → InputEnd
  | 0, _, _, _, _ => .malformed
  | f + 1, i, need, got, l =>
    match readHost d a 2 [(base + 16 * i, 16)] with
    | .done =>
      (match gatherFields (l.headD (0, 0, 0)) with
       | none => .malformed
       | some (addr, len, last) =>
        match readHost d a 1 (pieces addr (min len need)) with
        | .done =>
          let got := got + len
          if last then
            if len < need then .short got
            else if need < len then .long (min got 0xFFFF_FFFF)
            else .done
          else if need < len then
            (match walkGather d a base f (i + 1) 0 got (l.drop 1) with
             | .done => .long (min got 0xFFFF_FFFF)
             | r => r)
          else walkGather d a base f (i + 1) (need - len) got (l.drop 1)
        | r => r)
    | r => r

/-- What a gather list comes to as a whole. -/
def gatherEnd (d : Device) (a : Nat) (c : Cmd) (l : List GatherEntry) : InputEnd :=
  let base := eInAddr c.entry % 2 ^ 63
  if base % 16 ≠ 0 then .malformed else walkGather d a base 1024 0 (eInLen c.entry) 0 l

/-- Where byte `pos` of a streamed gather list lies (03 R63): bytes of the list before entry i are `before`. The entry is read through the gate; the
answer is its host address, the bytes of its piece from there, and what the rest of the list comes to when that piece completes IN_LEN. -/
def gatherAt (d : Device) (a base pos inLen : Nat) : (fuel i before : Nat) → List GatherEntry → InputEnd ⊕ (Nat × Nat × InputEnd)
  | 0, _, _, _ => .inl .malformed
  | f + 1, i, before, l =>
    match readHost d a 2 [(base + 16 * i, 16)] with
    | .done =>
      (match gatherFields (l.headD (0, 0, 0)) with
       | none => .inl .malformed
       | some (addr, len, last) =>
        if pos < before + len then
          let rest := if before + len < inLen then .done else walkGather d a base (f + 1) i (inLen - before) before l
          .inr (addr + (pos - before), before + len - pos, rest)
        else if last then .inl (.short (before + len))
        else gatherAt d a base pos inLen f (i + 1) (before + len) (l.drop 1))
    | r => .inl r

/-- The outcome of a command's input (03 R62 to R64, R74): a flat buffer, a gather list or a Reservoir buffer. -/
def Device.inputEnd (d : Device) (c : Cmd) (l : List GatherEntry) : InputEnd :=
  let e := c.entry
  let n := eInLen e
  if n = 0 then .done
  else if eInRsv e then
    match d.bufFor c (eInAddr e) with
    | none => .refused 5 0 0xFFFF false 0 0
    | some (_, b) => if b.len < n then .short b.len else if n < b.len then .long b.len else .done
  else if bitOf (eInAddr e) 63 then gatherEnd d c.allot c l
  else readHost d c.allot 1 (pieces (eInAddr e) n)

/-- An input that cannot be staged ends the command (03 R74, Table 3.19; 14 R301) or waits at its gate. -/
def inputFails (k : Nat) (c : Cmd) (r : InputEnd) (d : Device) : Device := match r with
  | .done => d
  | .wait p n => gateWait c.allot (.input k) p n 0 d
  | .refused 5 _ rg st _ _ => haltWith k stAccess (violationDetail 5 rg 0 st) 0 d
  | .refused op cs rg st p n =>
    haltWith k stAccess (violationDetail op rg 0 st) 0 (reportRefusal c.allot c.allot p n 0 0xF1 cs rg st true d)
  | .malformed => haltWith k stRefused 0xFFFF_000A 0 d
  | .short n => haltWith k stShort n 0 d
  | .long n => haltWith k stLong n 0 d

/-- The bytes of a Reservoir buffer from an offset. -/
def Device.bufBytes (d : Device) (a : Nat) (b : RsvBuf) (off n : Nat) : List Byte := d.rsvRead (d.partBase a + b.place + off) n

/-- Auxiliary data are staged, and with them the input is complete (03, Table 3.4 step 4). -/
def stageAux (k : Nat) (c : Cmd) (inBytes aux : List Byte) (d : Device) : Device :=
  match (if c.attr.auxLen = 0 then .done else readHost d c.allot 3 (pieces (eAux c.entry) c.attr.auxLen)) with
  | .done =>
    let d := (d.rsvWrite c.inAt inBytes).rsvWrite c.auxAt (padTo c.attr.auxLen aux)
    d.updCmd k (fun c => { c with inDone := true })
  | .wait p n => gateWait c.allot (.aux k) p n 0 d
  | r => inputFails k c r d

/-- 03 R74: input staging of a command on a ready list ends. `lst` is its gather list and `data` its input as the host
memory holds them, `aux` the bytes at AUX_ADDR; `rd` says what the read of a Reservoir input met (04 R105, R106). Of a streamed input only the
auxiliary data are staged here; a command whose routine refuses its ROUTINE_ARGS or its AUX_ADDR has no input read (09 R195, 03 R86). -/
def execInputStaged (k : Fin 4096) (lst : List GatherEntry) (data aux : List Byte) (rd : RsvRead) (s : State) :
    Host.Outcome State Fault Refusal :=
  s.on fun d => unlessStopped d fun d =>
    match d.cmd k with
    | none => d
    | some c =>
      if c.phase ≠ .ready ∨ c.inDone then d
      else if c.earlyRefusal.isSome then d.updCmd k (fun c => { c with inDone := true })
      else if c.attr.stream then stageAux k c [] aux d
      else
        let e := c.entry
        let buf := if eInRsv e then d.bufFor c (eInAddr e) else none
        let d := match buf with
          | some (_, b) => meetRead rd (d.partBase c.allot + b.place) (eInLen e) d
          | none => d
        match d.inputEnd c lst with
        | .done => stageAux k c (match buf with
            | some (_, b) => d.bufBytes c.allot b 0 (eInLen e)
            | none => padTo (eInLen e) data) aux d
        | r => inputFails k c r d

/-- What the next arrival of a streamed input is (06 R140, 03 R63, R74): a refusal, a wait or a difference of length; or the place it is read
from, how many bytes the source still has there, and what is met once IN_LEN bytes have come. -/
def Device.streamNext (d : Device) (c : Cmd) (l : List GatherEntry) : InputEnd ⊕ (Nat × Nat × InputEnd) :=
  let e := c.entry
  let pos := c.inArrived
  let left := eInLen e - pos
  if eInRsv e then
    match d.bufFor c (eInAddr e) with
    | none => .inl (.refused 5 0 0xFFFF false 0 0)
    | some (_, b) =>
      if b.len ≤ pos then .inl (.short b.len)
      else .inr (d.partBase c.allot + b.place + pos, b.len - pos, if eInLen e < b.len then .long b.len else .done)
  else if bitOf (eInAddr e) 63 then
    let base := eInAddr e % 2 ^ 63
    if base % 16 ≠ 0 then .inl .malformed else gatherAt d c.allot base pos (eInLen e) 1024 0 0 l
  else .inr (eInAddr e + pos, left, .done)

/-- n bytes of streamed input come into the 1 MiB window of command k. -/
def takeStream (k : Nat) (c : Cmd) (bs : List Byte) (d : Device) : Device :=
  let d := bs.zipIdx.foldl (fun d y => d.rsvWrite (c.inAt + (c.inArrived + y.2) % 0x10_0000) [y.1]) d
  let got := c.inArrived + bs.length
  let d := d.updCmd k (fun c => { c with inArrived := got, input := c.input ++ bs })
  feedStreams k (updArchOf k (fun t => { t with inavail := got }) d)

/-- 06 R140, 03 R74: once the routine has begun, ES_INAVAIL being 0 at its entry (Table 6.9), streamed input arrives in the 1 MiB window, never
beyond ES_INCONS + 2^20. `lst` is the gather list and `data` the bytes
at the place read, as the host memory holds them; `rd` is what a read of a Reservoir input met. A list or buffer that describes more or less than
IN_LEN, or a malformed list, ends the command where the device finds it. -/
def execStreamedInputArrival (k : Fin 4096) (lst : List GatherEntry) (data : List Byte) (rd : RsvRead) (s : State) :
    Host.Outcome State Fault Refusal :=
  s.on fun d => unlessStopped d fun d =>
    match d.cmd k with
    | none => d
    | some c =>
      match d.archOf k with
      | none => d
      | some t =>
      if !c.attr.stream ∨ c.stageSize = 0 ∨ (c.phase ≠ .running ∧ c.phase ≠ .saved) ∨ c.earlyRefusal.isSome then d else
      let room := min (eInLen c.entry - c.inArrived) (t.incons + 0x10_0000 - c.inArrived)
      if room = 0 then d else
      let d := match (if eInRsv c.entry then d.bufFor c (eInAddr c.entry) else none) with
        | some (_, b) => meetRead rd (d.partBase c.allot + b.place + c.inArrived) room d
        | none => d
      match d.streamNext c lst with
      | .inl r => inputFails k c r d
      | .inr (place, has, last) =>
        let n := min room (if eInRsv c.entry then has else min has data.length)
        match (if eInRsv c.entry then .done else readHost d c.allot 1 (pieces place n)) with
        | .done =>
          let bs := if eInRsv c.entry then d.rsvRead place n else data.take n
          if c.inArrived + n < eInLen c.entry then takeStream k c bs d
          else (match last with
            | .done => takeStream k c bs d
            | r => inputFails k c r d)
        | r => inputFails k c r d

/-! ## Drain, commit (03 R68 to R70; 05 R115) -/

/-- No line of command k waits in a store buffer. -/
def Device.drained (d : Device) (k : Nat) : Bool := (List.range 16).all (fun l => !((d.lat l).sb.any (fun x => decide (x.slot = k))))

/-- 05 R115: every store of an ended routine has drained; its engine is free, and self-check and commit may begin. -/
def execStoreDrainDone (k : Fin 4096) (s : State) : Host.Outcome State Fault Refusal :=
  s.on fun d => unlessStopped d fun d =>
    match d.cmd k with
    | none => d
    | some c =>
      if c.phase ≠ .draining ∨ !d.drained k then d else
      let d := match c.engine with
        | some e => freeEngine e d
        | none => d
      if c.status = stOk then d.updCmd k (fun c => { c with phase := .checked, engine := none })
      else settleAdmin (conclude k c.status c.detail c.outLen (d.updCmd k (fun c => { c with engine := none })))

/-- What a context holds after a routine commits on it (04, Table 4.2; 09 R201; 04, Table 4.7 for what is still free). -/
def ctxAfter (r : Nat) (now : Nat) (win : Option (List Byte)) (x : Ctx) : Ctx :=
  let x := { x with
    lastRoutine := r
    lastUse := now
    commands := (x.commands + 1) % 2 ^ 64
    secret := match win with
      | some w => writeBytes [] 0 ((w.drop 64).take 960)
      | none => x.secret }
  match r with
  | 0x0C02 => { x with st := .active, clientOk := false, free3 := true }
  | 0x0C04 => { x with
      st := .active
      resumeCount := satAdd 0xFFFF x.resumeCount 1
      holdExpiry := 0
      clientOk := false
      free3 := true }
  | 0x0C03 => { x with clientOk := true, free5 := true }
  | 0x0C05 => { x with mka := true }
  | 0x0104 => { x with ephemeral := true, hybrid := false }
  | 0x0801 => { x with ephemeral := true, hybrid := true }
  | 0x0105 | 0x0803 => { x with ephemeral := false, hybrid := false }
  | _ => x

/-- Write the output of a commit (03 R68; 03 R64 for a Reservoir buffer). -/
def writeOutput (c : Cmd) (d : Device) : Device :=
  let n := c.outLen
  let bs := d.rsvRead c.outAt n
  if eOutRsv c.entry then
    match d.bufFor c (eOutAddr c.entry) with
    | some (b, x) =>
      let d := d.rsvWrite (d.partBase c.allot + x.place) bs
      d.updAllot c.allot (fun t => { t with bufs := Tbl.modify t.bufs b (fun x => { x with len := n }) })
    | none => d
  else if n = 0 then d
  else (pieces (eOutAddr c.entry) n).foldl (fun d p => hostWrite c.allot p.1 ((bs.drop (p.1 - eOutAddr c.entry)).take p.2) d) d

/-- The check of the whole output range before the first byte (03 R69; 04, Table 4.10). -/
def Device.outputEnd (d : Device) (c : Cmd) : InputEnd :=
  if eOutMax c.entry = 0 then .done
  else if eOutRsv c.entry then
    match d.bufFor c (eOutAddr c.entry) with
    | none => .refused 5 0 0xFFFF false 0 0
    | some (_, x) => if 2 ^ x.sizeLog2 < eOutMax c.entry then .refused 4 0 0xFFFF false 0 0 else .done
  else match checkAll d c.allot c.allot 1 true none (pieces (eOutAddr c.entry) c.outLen) with
    | (.permit, _, _) => .done
    | (.wait, p, n) => .wait p n
    | (.refuse cs rg st, p, n) => .refused 4 cs rg st p n

/-- Commands of one FIFO queue that sign with the same stateful key begin their commits in order (09 R208 rule 2). -/
def Device.leafTurn (d : Device) (c : Cmd) : Bool :=
  c.leaf.isNone || (d.sq c.allot c.sq).free ||
    !(d.ofQueue c.allot c.sq).any (fun x => decide (x.2.order < c.order) && decide (eKey x.2.entry = eKey c.entry) &&
      !decide (x.2.phase = .ended))

/-- The effects of a commit: output, context, completion status (03 R68; Table 3.4 step 7). -/
def applyCommit (k : Nat) (c : Cmd) (d : Device) : Device :=
  let d := writeOutput c d
  let win := match c.staged with
    | some g => g.window
    | none => none
  let d := if c.takesCtx then
      cacheCtx (eCtx c.entry) (d.updCtx (eCtx c.entry) (ctxAfter c.attr.routine d.time win)) else d
  settleAdmin (conclude k stOk c.detail c.outLen d)

/-- 03 R69: the commit. The whole output range is checked; a bound key-store target is then committed by the custody die
(13 R275), which acknowledges before the output is written. A refused piece ends the command. -/
def execCommit (k : Fin 4096) (s : State) : Host.Outcome State Fault Refusal :=
  s.on fun d => unlessStopped d fun d =>
    match d.cmd k with
    | none => d
    | some c =>
      if c.phase ≠ .checked ∨ !d.leafTurn c then d
      else if c.commitBegun then (if c.target.isNone then applyCommit k c d else d)
      else match d.outputEnd c with
        | .done =>
          let d := d.updCmd k (fun c => { c with commitBegun := true })
          match c.target with
          | some h => toCustody (.keyRequest 3 { handle := h, allot := c.allot, request := 4 + k, slot := k }) d
          | none => applyCommit k c d
        | .wait p n => gateWait c.allot (.output k) p n 1 d
        | .refused op cs rg st p n =>
          let d := if p = 0 ∧ n = 0 then d else reportRefusal c.allot c.allot p n 1 0xF2 cs rg st true d
          settleAdmin (conclude k stAccess (violationDetail op rg 1 st) 0 d)
        | _ => d

/-! ## Preemption (05 R121 to R125) -/

/-- Allotment a is over its engine share on a Lateral (14 R289): its engine time in the current 1 ms window exceeds W ÷ S of
the Lateral's. WEIGHT 0 is over whenever another allotment has a command ready. -/
def Device.overShare (d : Device) (l a : Nat) : Bool :=
  let t := d.lat l
  let here := (t.ready.map (fun k => (d.cmdOr k).allot) ++ (enginesOf l).filterMap (fun e => (d.eng e).slot.map (fun k =>
    (d.cmdOr k).allot))).eraseDups
  let w := (d.allot a).weight
  let sum := sumBy (fun b => (d.allot b).weight) here
  let all := d.latInService l * 2_000_000
  if w = 0 then (t.ready.any (fun k => (d.cmdOr k).allot != a)) else decide (w * all < Tbl.get 0 t.window a * sum)

/-- SLU_CTRL (05, Table 5.13). -/
def Device.sluSlice (d : Device) : Nat := field (d.reg 0x000F_8000) 11 0
def Device.sluWait (d : Device) : Nat := field (d.reg 0x000F_8000) 23 12

/-- Engine e runs a command that the waiting command c may preempt (05 R122 case 1). -/
def Device.eligible (d : Device) (l e : Nat) (c : Cmd) : Bool :=
  match (d.eng e).slot with
  | none => false
  | some j =>
    let r := d.cmdOr j
    d.savable e && decide (d.sluSlice * 2000 ≤ (d.eng e).arch.sliceCycles) &&
      ((decide (r.allot = c.allot) && decide (ePrio r.entry < ePrio c.entry)) ||
       (decide (r.allot ≠ c.allot) && d.overShare l r.allot))

/-- 05 R122 case 1: a command has waited SLU_CTRL.WAIT µs on a ready list, and the eligible command with the most engine time
since its dispatch is preempted. -/
def execPreemptTrigger (k : Fin 4096) (s : State) : Host.Outcome State Fault Refusal :=
  s.on fun d => unlessStopped d fun d =>
    match d.cmd k with
    | none => d
    | some c =>
      if !bitOf (d.reg 0x000F_8000) 31 ∨ !(d.lat c.lateral).ready.contains k ∨ d.time < c.readyAt + d.sluWait * 1000 then d else
      match leastBy (fun e => 10 ^ 12 - (d.eng e).arch.sliceCycles) ((enginesOf c.lateral).filter (fun e => d.eligible c.lateral e c)) with
      | none => d
      | some e => requestSave e d

/-- A delivery of a key or of entropy that engine e still waits for is on its way (06, Table 6.15). -/
def Device.deliveryComing (d : Device) (e : Nat) : Bool :=
  let t := (d.eng e).arch
  d.fl.toCompute.any (fun x => match x.msg with
    | .keyDeliver g r _ _ _ _ _ _ _ => decide (g = e) && t.keys.any (fun q => decide (q.eng = e) && decide (q.request = r) && q.asked)
    | .entropyDeliver c cls bs => decide (c = e) && decide (t.entAsked = some (cls, bs.length))
    | _ => false)

/-- The record of engine e can be taken: the command's reads have completed, deliveries on their way have landed, its stores have drained (05, Table 5.8
steps 2 and 3), and the engine has met no Contained fault (Table 5.9). -/
def Device.saveReady (d : Device) (e k : Nat) : Bool :=
  let t := (d.eng e).arch
  decide ((d.eng e).st = .saving) && d.drained k && t.rlds.isEmpty && t.lists.isEmpty && !d.deliveryComing e && !t.faulted

/-- 05 R123, Table 5.8: the command's reads and stores have completed and its record is written; the engine is free and the command
returns to a ready list. Its ent that still waits is abandoned, and asks again after the restore (06, Table 6.15). -/
def execSaveDone (e : Fin 144) (s : State) : Host.Outcome State Fault Refusal :=
  s.on fun d => unlessStopped d fun d =>
    match (d.eng e).slot with
    | none => d
    | some k =>
      if !d.saveReady e k then d else
      let d := (d.bump (engPage e + 0x018)).bump 0x000F_8004
      let d := if (d.eng e).arch.entAsked.isSome then dropEntropy e d else d
      let t := { (d.eng e).arch with entAsked := none }
      let d := d.updCmd k (fun c => { c with
        engine := none
        saved := c.saved.map (fun r => { r with arch := t, complete := true }) })
      let d := toReady k (latOf e) true d
      endSave e (freeEngine e ((refreshLeases e d).updArch e (fun t => { t with keys := [] })))

/-- 05 R121: ES_CYCLES reaches the run limit. -/
def execWatchdog (e : Fin 144) (s : State) : Host.Outcome State Fault Refusal :=
  s.on fun d => unlessStopped d fun d =>
    match (d.eng e).slot with
    | none => d
    | some k =>
      let c := d.cmdOr k
      if (d.eng e).st = .running ∧ c.phase = .running ∧ runLimit c ≤ (d.eng e).arch.cycles then
        takeTrap e k 0x09 (d.eng e).arch.cycles d
      else d

/-- 05 R111: an instruction-memory parity error refetches the page and re-executes: a Corrected fault, counted in ENG_ECC. -/
def execImemParityRefetch (e : Fin 144) (s : State) : Host.Outcome State Fault Refusal :=
  s.on fun d => unlessStopped d fun d =>
    if (d.eng e).st = .running then
      raiseFault 0x1A e (d.eng e).slot 0 (d.bump (engPage e + 0x020 + 16 * 2 ^ 32) 0xFFFF)
    else d

/-! ## Store buffer and transfers (05 R114; 06 R132 to R135) -/

/-- A drained line's bytes go to the Reservoir. -/
def writeLine (x : SbLine) (d : Device) : Device := x.bytes.foldl (fun d b => d.rsvWrite (x.line * 64 + b.1) [b.2]) d

/-- First byte and length of a line's written part. -/
def lineSpan (x : SbLine) : Nat × Nat := match x.bytes, x.bytes.getLast? with
  | b :: _, some z => (x.line * 64 + b.1, z.1 + 1 - b.1)
  | _, _ => (x.line * 64, 64)

/-- An imprecise refusal (05 R114): every line of the command is discarded, and it ends with ACCESS_IMPRECISE. -/
def imprecise (l : Nat) (x : SbLine) (cause region : Nat) (d : Device) : Device :=
  let c := d.cmdOr x.slot
  let d := reportRefusal (latGate l) c.allot 0 0 1 x.eng cause region false false d
  let d := d.updLat l (fun t => { t with imprecise := satAdd 0xFFFF_FFFF t.imprecise 1 })
  settleAdmin (haltWith x.slot stImprecise l 0 d)

/-- 05 R114: the line first written drains after its Headgate check. -/
def execStoreLineDrain (l : Fin 16) (s : State) : Host.Outcome State Fault Refusal :=
  s.on fun d => if d.frozen then d else
    match (d.lat l).sb with
    | [] => d
    | x :: rest =>
      let c := d.cmdOr x.slot
      let sp := lineSpan x
      match gateCheck d (latGate l) c.allot sp.1 sp.2 1 false c.window with
      | .permit => writeLine x (d.updLat l (fun t => { t with sb := rest }))
      | .wait => gateWait (latGate l) (.line l x.slot) sp.1 sp.2 1 d
      | .refuse cs rg _ => imprecise l x cs rg d

/-- 06 R133: the oldest outstanding rld of the engine delivers its bytes into operand memory; the data are those that the
Reservoir holds then. `rd` says what the read met (06, Table 6.6; 04, Table 4.11). -/
def execRldComplete (e : Fin 144) (rd : RsvRead) (s : State) : Host.Outcome State Fault Refusal :=
  s.on fun d => if d.frozen then d else
    match (d.eng e).arch.rlds with
    | [] => d
    | r :: rest =>
      meetRead rd r.rsv r.len (d.updArch e (fun t => { (t.write r.opm (d.rsvRead r.rsv r.len)) with rlds := rest }))

/-- What carrying out a DMA list comes to (06 R135): all of it done, a wait with the rest to come, a wait at the gate, or a refusal. -/
inductive DmaEnd where
  | done
  | blocked
  | wait (addr len kind : Nat)
  | refused (addr len kind cause region : Nat) (straddle : Bool)

/-- Bytes of the descriptor's next access: within 256 bytes of the Reservoir, or within the line of a buffered store. -/
def DmaDesc.piece (x : DmaDesc) : Nat := if x.write && !x.unbuf then min x.len (64 - x.rsv % 64) else min x.len (256 - x.rsv % 256)

/-- The descriptor without its next n bytes. -/
def DmaDesc.after (x : DmaDesc) (n : Nat) : DmaDesc := { x with opm := x.opm + n, rsv := x.rsv + n, len := x.len - n }

/-- A read waits for the command's own buffered lines there, and for an rld to the same operand memory; a write for an rld that still
fills its source (06 R132, Table 6.6). -/
def Device.dmaWaits (d : Device) (e k : Nat) (x : DmaDesc) (n : Nat) : Bool :=
  (d.eng e).arch.rlds.any (fun r => overlaps r.opm r.len x.opm n) || (!x.write && d.linesOver (latOf e) k x.rsv n)

/-- Carry out the descriptors of a list in order, each access checked as it is issued, as far as they go now. -/
def runDescs (e k : Nat) : (fuel : Nat) → List DmaDesc → Device → DmaEnd × List DmaDesc × Device
  | 0, l, d => (.blocked, l, d)
  | _, [], d => (.done, [], d)
  | f + 1, x :: t, d =>
    if x.len = 0 then runDescs e k f t d else
    let n := x.piece
    let kind := if x.write then 1 else 0
    if d.dmaWaits e k x n then (.blocked, x :: t, d)
    else if x.write && !x.unbuf then
      match sbPut (latOf e) k e x.rsv ((d.eng e).arch.read x.opm n) d with
      | some d => runDescs e k f (x.after n :: t) d
      | none => (.blocked, x :: t, d)
    else
      match rsvAccess d (latOf e) (d.cmdOr k) kind [(x.rsv, n)] with
      | (.wait, p, m) => (.wait p m kind, x :: t, d)
      | (.refuse cs rg st, p, m) => (.refused p m kind cs rg st, x :: t, d)
      | (.permit, _, _) =>
        if x.write then runDescs e k f (x.after n :: t) (d.rsvWrite x.rsv ((d.eng e).arch.read x.opm n))
        else runDescs e k f (x.after n :: t) (d.updArch e (fun a => a.write x.opm (d.rsvRead x.rsv n)))

/-- Accesses that a list can take at most. -/
def descFuel (l : List DmaDesc) : Nat := sumBy (fun x => x.len / 64 + 4) l + 1

/-- What the reads of a list met: `rd` tells of the first access of its first read (06, Table 6.6). -/
def meetList (rd : RsvRead) (l : List DmaDesc) (d : Device) : Device := match l.find? (fun x => !x.write) with
  | some x => meetRead rd x.rsv x.piece d
  | none => d

/-- 06 R135: the oldest DMA list of the engine is carried out: it completes, or what is left of it waits for the store buffer, an rld or the
gate. `rd` says what its reads met when it completes. -/
def execDmaListComplete (e : Fin 144) (rd : RsvRead) (s : State) : Host.Outcome State Fault Refusal :=
  s.on fun d => if d.frozen then d else
    match (d.eng e).arch.lists, (d.eng e).slot with
    | x :: rest, some k =>
      let r := runDescs e k (descFuel x.descs) x.descs d
      let left : DmaList := { x with descs := r.2.1 }
      let d := r.2.2.updArch e (fun t => { t with lists := if r.2.1 = [] then rest else left :: rest })
      (match r.1 with
       | .wait p n kind => gateWait (latGate (latOf e)) (.engine k) p n kind d
       | .refused p n kind cs rg st => settleAdmin (preciseRefusal e k p n kind cs rg st d)
       | .done => meetList rd x.descs d
       | .blocked => d)
    | _, _ => d

/-- 01 R15: a lease reaches 4,096 uses or 10 ms: the engine drops it and scrubs the key. -/
def execLeaseExpire (e : Fin 144) (h : BitVec 32) (s : State) : Host.Outcome State Fault Refusal :=
  s.on fun d =>
    d.updEng e (fun g => { g with
      leases := g.leases.filter (fun l => !(decide (l.handle = h.toNat) && (decide (4096 ≤ l.uses) || decide (l.ends ≤ d.time)))) })

end Sys2Proof.Machine
end

