-- ==== Sys2Proof/Machine/Liu.lean ====
section
/-!
DEFINITION. Sys2Proof/Machine/Liu.lean: rows 119 and 256 to 269, the long-integer units (10).
-/
namespace Sys2Proof.Machine
open Sys2Proof

/-- The lowest job identifier that is not outstanding. -/
def EngArch.freeJob (t : EngArch) : Nat := (firstWhere (fun i => !(t.jobs.any (fun j => decide (j.ident = i)))) (List.range 8)).getD 0

/-- 10 R224, R226: submit an LIU job; the first one binds an LIU, or waits for one. A job after one with RELEASE waits for the end of that
binding. -/
def execJobLiu (e : Fin 144) (rd rs1 : BitVec 5) (s : State) : Host.Outcome State Fault Refusal :=
  s.on fun d => engRun e (fun k t d =>
    let p := (t.getX rs1).toNat
    let ident := t.freeJob
    let j := liuJobAt t p ident
    if 8 ≤ t.jobs.length then .trap 0x0C 4
    else if !t.readsDone || (liuReads p j).any (fun r => t.awaits r.1 r.2) then .stall 0
    else
      let put (u : Nat) (d : Device) : EngRes :=
        let j := if (d.liu u).failed.isSome then { j with outcome := some (4, 0, 0) } else j
        let o : JobOut := { ident := ident, unit := 0, writes := liuWrites j }
        let d := d.updLiu u (fun x => { x with queue := x.queue ++ [j] })
        .next (d.updArch e (fun t => EngArch.setX { t with jobs := t.jobs ++ [o] } rd (BitVec.ofNat 64 ident)))
      match d.liuOf k with
      | some u => if (d.liu u).queue.any (fun j => j.release) then .stall 0 else put u d
      | none =>
        match (if d.liuWait.any (fun x => x ≠ k) then none else d.liuFor (latOf e)) with
        | some u => put u (bindLiu u k d)
        | none => .wait 0 (waitLiu k d)) d

/-- 10 R224: the first waiting request is granted when an LIU is free. -/
def execLiuBindGrant (s : State) : Host.Outcome State Fault Refusal :=
  s.on fun d => unlessStopped d fun d =>
    match d.liuWait with
    | [] => d
    | k :: _ =>
      match d.liuFor (d.cmdOr k).lateral with
      | some u => bindLiu u k d
      | none => d

/-- 10 R228: the next job reaches its LIU and is checked for form. -/
def execLiuJobArrive (u : Fin 32) (s : State) : Host.Outcome State Fault Refusal :=
  s.on fun d => unlessStopped d fun d =>
    d.updLiu u (fun x =>
      let new (j : LiuJob) : LiuJob := { j with arrived := true, outcome := if j.outcome.isSome then j.outcome else j.malformed }
      match firstWhere (fun (j : LiuJob) => !j.arrived) x.queue with
      | none => x
      | some j => { x with queue := mapWhere (fun (y : LiuJob) => decide (y.ident = j.ident)) new x.queue })

/-- 10 R230, R233: SETMOD converts every Montgomery-form slot back, checks and sets the modulus, or leaves none set. -/
def execLiuSetmod (u : Fin 32) (s : State) : Host.Outcome State Fault Refusal :=
  s.on fun d => liuStep u 0x01 (fun j c d =>
    let x := d.liu u
    let held := countWhere (fun (y : Nat × LiuSlot) => y.2.mont) x.slots
    let conv := held * liuLm x.n
    let at0 := j.startOf c .mul 0
    let plain (v : LiuSlot) : LiuSlot := { v with mont := false }
    let m := (x.slot c.src1).val.toNat
    let ok := liuModOk m c.len
    let d := d.updLiu u (fun x => { x with
      slots := Tbl.mapSet {} (fun _ v => plain v) x.slots
      modulus := if ok then m else 0
      n := if ok then c.len else 0 })
    if ok then putJob u (j.ran c .mul at0 conv (4 * c.len + 40) (4 * c.len + 40) []) d
    else liuRefuse u j c 1 (at0 + conv + 2 * x.n + 16) d) d

/-- 10 R227: LOAD puts the LEN bytes into DST, zero above them, in plain form. -/
def execLiuLoad (u : Fin 32) (s : State) : Host.Outcome State Fault Refusal :=
  s.on fun d => liuStep u 0x02 (fun j c d =>
    let bs := if c.be then c.bytes.reverse else c.bytes
    liuMove u j c { val := BitVec.ofNat 8192 (ofBytes bs) } d) d

/-- 10 R227: STORE writes the low LEN bytes of SRC1's plain value at OPM. -/
def execLiuStore (u : Fin 32) (s : State) : Host.Outcome State Fault Refusal :=
  s.on fun d => liuStep u 0x03 (fun j c d =>
    let x := d.liu u
    let v := x.slot c.src1
    let bs := toBytes c.len v.val.toNat
    let bs := if c.be then bs.reverse else bs
    let lm := b2n v.mont * liuLm x.n
    let cost := liuCost c x.n
    let at0 := j.startOf c .move lm
    let k := x.bound.getD 0
    let d := updArchOf k (fun t => t.write c.opm bs) d
    let d := updJobOut k j.ident 0 (fun o => { o with writes := dropFirst (fun w => decide (w = (c.opm, c.len))) o.writes }) d
    putJob u (j.ran c .move at0 lm cost.2.1 cost.2.2 []) d) d

/-- 10 R227: ZERO. -/
def execLiuZero (u : Fin 32) (s : State) : Host.Outcome State Fault Refusal :=
  s.on fun d => liuStep u 0x04 (fun j c d => liuMove u j c {} d) d

/-- 10 R227, R231: COPY keeps the source's form. -/
def execLiuCopy (u : Fin 32) (s : State) : Host.Outcome State Fault Refusal :=
  s.on fun d => liuStep u 0x05 (fun j c d => liuMove u j c ((d.liu u).slot c.src1) d) d

/-- 10 R231: modular addition. -/
def execLiuAdd (u : Fin 32) (s : State) : Host.Outcome State Fault Refusal := s.on (liuStep u 0x06 (liuRun u))
/-- 10 R231: modular subtraction. -/
def execLiuSub (u : Fin 32) (s : State) : Host.Outcome State Fault Refusal := s.on (liuStep u 0x07 (liuRun u))
/-- 10 R231: modular product. -/
def execLiuMul (u : Fin 32) (s : State) : Host.Outcome State Fault Refusal := s.on (liuStep u 0x08 (liuRun u))
/-- 10 R231: modular square. -/
def execLiuSqr (u : Fin 32) (s : State) : Host.Outcome State Fault Refusal := s.on (liuStep u 0x09 (liuRun u))
/-- 10 R231: modular inverse. -/
def execLiuInv (u : Fin 32) (s : State) : Host.Outcome State Fault Refusal := s.on (liuStep u 0x0A (liuRun u))
/-- 10 R231: modular exponentiation. -/
def execLiuExp (u : Fin 32) (s : State) : Host.Outcome State Fault Refusal := s.on (liuStep u 0x0B (liuRun u))

/-- 10 R229, R225: a job ends and its status word travels to the engine; after a failed one the command's later jobs are skipped; RELEASE
ends the binding of a job that ran. -/
def execLiuJobEnd (u : Fin 32) (s : State) : Host.Outcome State Fault Refusal :=
  s.on fun d => unlessStopped d fun d =>
    match (d.liu u).bound, (d.liu u).queue with
    | some k, j :: rest =>
      if (d.liu u).faulted || !j.arrived || (j.outcome.isNone && decide (j.pos < j.cmds.length)) then d else
      let r := j.outcome.getD (0, 0, 0)
      let bad := decide (r.1 = 1) || decide (r.1 = 3)
      let skip (x : LiuJob) : LiuJob := { x with outcome := some (4, 0, 0) }
      let d := d.bump (0x0006_0008 + 0x100 * u)
      let d := d.updLiu u (fun x => { x with
        queue := if bad then rest.map skip else rest
        failed := if bad then some j.ident else x.failed
        busy := (x.busy + j.finish) % 2 ^ 64 })
      let d := updJobOut k j.ident 0 (fun o => { o with word := some (liuStatus u r j.finish) }) d
      if j.release ∧ r.1 = 0 then settleAdmin (liuFree u d) else d
    | _, _ => d

end Sys2Proof.Machine
end

