-- ==== Sys2Proof/Machine/Context.lean ====
section
/-!
DEFINITION. Sys2Proof/Machine/Context.lean: session contexts, hold expiry, Reservoir buffers, scrubbing and page retirement (04).
-/
namespace Sys2Proof.Machine

/-! ## Context admin commands (04 R92, R93) -/

def ctxOf (e : Entry) : Nat := field (bytesAt e 4 4) 17 0
/-- CONTEXT_ID in bytes 4 to 7, bits [31:18] reserved. -/
def ctxParam : List (Nat × Nat) := [(4, 255), (5, 255), (6, 3)]

/-- An admin command that names one context (04, Table 4.5): refused when the context is FREE or another allotment's; for a
CLOSED one with MIGRATED_OUT DETAIL 1, unless the command is CTX_FREE. It waits for earlier commands on the context (R92)
and, for `waits`, while the context is MIGRATING. -/
def onContext (a : Nat) (e : Entry) (o : Nat) (isFree waits : Bool) (d : Device) (k : Nat → Ctx → Device → Device) : Device :=
  let n := ctxOf e
  let x := d.ctx n
  if !d.ctxQuietFor a n o then d
  else if x.st = .free ∨ x.allot ≠ a then admDone a stCtxAbsent 0 0 d
  else if x.st = .closed ∧ x.migratedOut ∧ !isFree then admDone a stCtxAbsent 0 1 d
  else if waits && decide (x.st = .migrating) then d
  else k n x d

/-- HOLD_TIME is 1 to 86,400 s. -/
def holdTimeOk (h : Nat) : Bool := decide (1 ≤ h) && decide (h ≤ 86400)

/-- The lowest context that is FREE (04 R92). -/
def Device.freeCtx (d : Device) : Option Nat := Tbl.lowestFree d.ctxs 0 262144

/-- 04 R92, R93: CTX_ALLOC. -/
def execCtxAlloc (a : Fin 64) (s : State) : Host.Outcome State Fault Refusal :=
  s.on fun d => admin a 0x0020 false (wholeBytes 8 19) [] d fun e _ d =>
    if !holdTimeOk (bytesAt e 16 4) then admRefuse a 0x21 d
    else if (d.allot a).ctxQuota ≤ d.ctxTaken a then admRefuse a 0x20 d
    else match d.freeCtx with
      | none => admRefuse a 0x20 d
      | some n =>
        let d := d.updCtx n (fun _ => {
          st := .opened
          allot := a
          label := bytesAt e 8 8
          holdTime := bytesAt e 16 4
          born := d.time })
        admDone a stOk 0 n d

/-- 04 R93, Table 4.2: CTX_HOLD moves an ACTIVE context to HELD; its hold timer starts. -/
def execCtxHold (a : Fin 64) (s : State) : Host.Outcome State Fault Refusal :=
  s.on fun d => admin a 0x0021 false ctxParam [] d fun e o d =>
    onContext a e o false true d fun n x d =>
      if x.st ≠ .active then admDone a stCtxState 0 x.st.code d
      else admDone a stOk 0 0 (d.updCtx n (fun x => { x with
        st := .held
        heldAt := d.time
        holdExpiry := d.time + x.holdTime * 1_000_000_000 }))

/-- 04 R93: CTX_CLOSE; of a CLOSED context nothing changes. -/
def execCtxClose (a : Fin 64) (s : State) : Host.Outcome State Fault Refusal :=
  s.on fun d => admin a 0x0022 false ctxParam [] d fun e o d =>
    onContext a e o false true d fun n x d =>
      admDone a stOk 0 0 (if x.st = .closed then d else closeCtx n d)

/-- 04 R93: CTX_FREE returns a CLOSED context to FREE. -/
def execCtxFree (a : Fin 64) (s : State) : Host.Outcome State Fault Refusal :=
  s.on fun d => admin a 0x0023 false ctxParam [] d fun e o d =>
    onContext a e o true false d fun n x d =>
      if x.st ≠ .closed then admDone a stCtxState 0 x.st.code d
      else admDone a stOk 0 0 { (d.updCtx n (fun _ => {})) with cache := d.cache.filter (fun m => m ≠ n) }

/-- 04 R93: CTX_SET; with SET_HOLD on a HELD context the expiry moves, and a passed one closes the context at once. -/
def execCtxSet (a : Fin 64) (s : State) : Host.Outcome State Fault Refusal :=
  s.on fun d => admin a 0x0024 false (ctxParam ++ wholeBytes 8 19 ++ [(20, 3)]) [] d fun e o d =>
    let setHold := bitOf (bytesAt e 20 1) 1
    let setLabel := bitOf (bytesAt e 20 1) 0
    if setHold && !holdTimeOk (bytesAt e 16 4) then admRefuse a 0x21 d else
    onContext a e o false true d fun n x d =>
      let d := if setLabel then d.updCtx n (fun x => { x with label := bytesAt e 8 8 }) else d
      let d := if setHold then d.updCtx n (fun x => { x with
          holdTime := bytesAt e 16 4
          holdExpiry := if x.st = .held then x.heldAt + bytesAt e 16 4 * 1_000_000_000 else x.holdExpiry }) else d
      let d := if setHold ∧ x.st = .held ∧ (d.ctx n).holdExpiry ≤ d.time then expireCtx n d else d
      admDone a stOk 0 0 d

/-- The header CTX_READ writes for a context (04, Table 4.5). -/
def Device.readHeader (d : Device) (a n : Nat) : List Byte :=
  let x := d.ctx n
  if x.st = .free ∨ (x.allot ≠ a ∧ a ≠ 0) then zeros 64 else x.header d.time

/-- 04 R93: CTX_READ copies out COUNT headers. -/
def execCtxRead (a : Fin 64) (s : State) : Host.Outcome State Fault Refusal :=
  s.on fun d => admin a 0x0025 false (ctxParam ++ wholeBytes 8 19) [(8, 64)] d fun e o d =>
    let n := ctxOf e
    let count := bytesAt e 16 4
    if count = 0 ∨ 4096 < count ∨ 262144 < n + count then admRefuse a 0x4 d
    else if !(List.range count).all (fun i => d.ctxQuietFor a (n + i) o) then d
    else admResult a (bytesAt e 8 8) ((List.range count).flatMap (fun i => d.readHeader a (n + i))) d
      (admDone a stOk (count * 64) 0)

/-! ## Fetch, loss, expiry (04 R94, R95, R106, R108) -/

/-- 04 R95: a context is fetched into the cache; `rd` is what the read of its lines met (R105, R106). -/
def execContextFetchDone (n : Fin 262144) (rd : RsvRead) (s : State) : Host.Outcome State Fault Refusal :=
  s.on fun d => if d.frozen ∨ (d.ctx n).st = .free ∨ d.cache.contains n.val then d else
    let d := meetRead rd (n.val * 1024) 1024 (d.bump 0x000A_0200)
    match rd with
    | .uncorrectable _ => d
    | _ => cacheCtx n d

/-- A 0x0C04 on the context has been charged and has not ended (04, Table 4.6). -/
def Device.resuming (d : Device) (n : Nat) : Bool :=
  d.cmds.any (fun x => decide (x.2.attr.routine = 0x0C04) && decide (eCtx x.2.entry = n) && decide (x.2.allot = (d.ctx n).allot) &&
    x.2.started && !decide (x.2.phase = .ended))

/-- Close a HELD context whose hold has expired; a 0x0C04 in its line completes with CONTEXT_STATE, DETAIL 5 (04, Table
4.6). -/
def expireHold (n : Nat) (d : Device) : Device :=
  let x := d.ctx n
  if x.st ≠ .held ∨ d.time < x.holdExpiry ∨ d.resuming n then d else
  let d := expireCtx n d
  let inLine := d.cmds.filter (fun y => decide (y.2.attr.routine = 0x0C04) && decide (eCtx y.2.entry = n) &&
    decide (y.2.allot = x.allot) && decide (y.2.phase = .line))
  foldOver (fun y d => concludeUnstarted y.1 stCtxState 5 d) inLine d

/-- 04 R94: HOLD_EXPIRY of a context is reached. -/
def execHoldExpired (n : Fin 262144) (s : State) : Host.Outcome State Fault Refusal :=
  s.on fun d => if d.md.mode = .retention then d else expireHold n d

/-- SESSION_HOLD_EXPIRED for each allotment with an expiry since the last sweep (04 R108), after the completions of the resumptions that the
expiry ended (02 R47). -/
def postExpired (d : Device) : Device :=
  foldOver (fun a d =>
    let t := d.allot a
    if t.expired = 0 then d else
    let d := d.updAllot a (fun t => { t with expired := 0, expiredLow := 0 })
    let hit := (d.cmds.filter (fun x => decide (x.2.allot = a) && decide (x.2.attr.routine = 0x0C04) && decide (x.2.phase = .ended) &&
      decide (x.2.status = stCtxState ∧ x.2.detail = 5))).map (fun x => x.1)
    noticeAfter hit a 0x9001 0 t.expired t.expiredLow 0 0 d)
    (List.range 64) d

/-- The last whole multiple of 100 ms of device time, by its number. -/
def Device.sweepNow (d : Device) : Nat := d.time / 100_000_000

/-- 04 R94, R108: the sweep at every whole multiple of 100 ms of device time closes expired holds and posts. Device time may step over a multiple
(01 R19): the sweep is due from the first count that has reached it. -/
def execExpirySweep (s : State) : Host.Outcome State Fault Refusal :=
  s.on fun d => if d.sweepNow ≤ d.lastSweep ∨ d.md.mode = .retention then d
    else postExpired (foldOver (fun x d => expireHold x.1 d) d.ctxs { d with lastSweep := d.sweepNow })

/-! ## Reservoir buffers (04 R103, R104) -/

/-- 04 R103: RSV_ALLOC. -/
def execRsvAlloc (a : Fin 64) (s : State) : Host.Outcome State Fault Refusal :=
  s.on fun d => admin a 0x0028 false (wholeBytes 4 4) [] d fun e _ d =>
    let k := bytesAt e 4 1
    if k < 12 ∨ 24 < k then admRefuse a 0x24 d
    else match Tbl.lowestFree (d.allot a).bufs 0 4096 with
      | none => admRefuse a 0x23 d
      | some b => match d.findPlace a k with
        | none => admRefuse a 0x22 d
        | some p =>
          let d := d.updAllot a (fun t => { t with bufs := Tbl.put t.bufs b { place := p, sizeLog2 := k } })
          admDone a stOk 0 ((d.allot a).ref b) d

/-- 04 R104: RSV_FREE waits for the consumed commands that refer to the buffer, then frees it; for commands consumed from now on its GEN is
stale. -/
def execRsvFree (a : Fin 64) (s : State) : Host.Outcome State Fault Refusal :=
  s.on fun d => admin a 0x0029 false (wholeBytes 8 15) [] d fun e _ d =>
    match (d.allot a).bufOf (bytesAt e 8 8) with
    | none => admRefuse a 0x25 d
    | some (b, _) =>
      if d.bufUsers a (bytesAt e 8 8) d.order then
        admWait a (.buffer b) (d.updAllot a (fun t => { t with bufs := Tbl.modify t.bufs b (fun x => { x with freeAt := some d.order }) }))
      else admDone a stOk 0 0 (freeBuf a b d)

/-! ## Errors, scrubbing, retirement (04 R105, R106) -/

/-- 04 R105: a pass of the background scrub, with the errors it met: address, and whether it was uncorrectable. -/
def execRsvScrubPass (errs : List (BitVec 34 × Bool)) (s : State) : Host.Outcome State Fault Refusal :=
  s.on fun d => if !d.rsv.trained || d.rsv.selfRefresh then d else
    foldOver (fun x d =>
      let a := x.1.toNat
      if x.2 then uncorrectable a (raiseFault 0x54 0xFFFF none a d)
      else corrected (a / 4096) (raiseFault 0x53 0xFFFF none a d)) errs d

/-- RSV_PAGE_OP.GO (04, Table 4.16): refused when the page is already retired or no spare is left. -/
def pageOp (page : Nat) (retire : Bool) (d : Device) : Device :=
  if d.rsv.opBusy then d
  else if d.rsv.retiredPages.contains page ∨ (retire ∧ d.rsv.spares = 0) then
    { d with rsv := { d.rsv with opPage := page, opRetire := retire, opErr := true } }
  else { d with rsv := { d.rsv with opPage := page, opRetire := retire, opBusy := true, opErr := false } }

/-- 04 R105: RSV_PAGE_OP.GO with RETIRE = 0. -/
def execRsvPageScrub (page : BitVec 22) (s : State) : Host.Outcome State Fault Refusal :=
  s.on fun d => barWrite 0x0009_0018 (page.toNat + 2 ^ 28) false d (pageOp page.toNat false)

/-- 04 R105: RSV_PAGE_OP.GO with RETIRE = 1. -/
def execRsvPageRetire (page : BitVec 22) (s : State) : Host.Outcome State Fault Refusal :=
  s.on fun d => barWrite 0x0009_0018 (page.toNat + 2 ^ 28 + 2 ^ 29) false d (pageOp page.toNat true)

/-- 04 R105: the page operation ends and BUSY clears; `errs` are the errors a scrub met. -/
def execRsvPageOpDone (errs : List (BitVec 12 × Bool)) (s : State) : Host.Outcome State Fault Refusal :=
  s.on fun d =>
    if !d.rsv.opBusy then d else
    let p := d.rsv.opPage
    let d := { d with rsv := { d.rsv with opBusy := false } }
    if d.rsv.opRetire then retirePage p d
    else foldOver (fun x d => if x.2 then uncorrectable (p * 4096 + x.1.toNat) d else corrected p d) errs d

end Sys2Proof.Machine
end

