-- ==== Sys2Proof/Machine/HostQueue.lean ====
section
/-!
DEFINITION. Sys2Proof/Machine/HostQueue.lean: doorbells, scans, completions, notices and interrupts (02), and the queue-management
admin commands.
-/
namespace Sys2Proof.Machine

/-! ## Scans -/

/-- How many of n entries from index i are permitted to be read by gate a (02 R27: aligned 64-byte reads). -/
def readable (d : Device) (a base : Nat) : (n i : Nat) → Nat × Option (Verdict × Nat)
  | 0, _ => (0, none)
  | n + 1, i => match gateCheck d a a (base + i * 64) 64 0 true none with
    | .permit => let r := readable d a base n (i + 1); (r.1 + 1, r.2)
    | v => (0, some (v, base + i * 64))

/-- Issue the next burst of submission queue n (02 R29): from 1 to 8 entries, never across the end of the ring, no more than
the free command slots. None left: PENDING (R30). -/
def issueBurst (a n : Nat) (d : Device) : Device :=
  let q := d.sq a n
  let want := min 8 (min (q.depth - q.fetchIdx) (d.slotsLeft a))
  if want = 0 then
    (d.updSq a n (fun q => { q with pend := true })).bump 0x0002_0008
  else match readable d a q.base want q.fetchIdx with
    | (0, some (.wait, p)) => gateWait a (.ring a n) p 64 0 d
    | (0, some (.refuse c r st, p)) => sqError a n 1 p (reportRefusal a a p 64 0 0xF0 c r st true d)
    | (k, _) => (d.updSq a n (fun q => { q with burst := k })).emit (.burstRead a n q.fetchIdx k)

/-- A scan of submission queue n starts at its fetch position (02 R28). -/
def startScan (a n : Nat) (d : Device) : Device :=
  issueBurst a n (d.updSq a n (fun q => { q with scanning := true, rescan := false, pend := false }))

/-- A scan ends on OWN = 0; one further scan starts when a doorbell came meanwhile (02, Table 2.4). -/
def endScan (a n : Nat) (d : Device) : Device :=
  let again := (d.sq a n).rescan
  let d := d.updSq a n (fun q => { q with scanning := false, rescan := false, burst := 0 })
  if again then startScan a n d else d

/-- 02 R28, R30: a doorbell of submission queue n. -/
def sqDoorbell (a : Nat) (n : Nat) (d : Device) : Device :=
  let q := d.sq a n
  if !q.present then d.updAllot a (fun t => { t with badDoorbell := true })
  else if q.disable || q.error then d
  else if q.scanning || q.pend then d.updSq a n (fun q => { q with rescan := true })
  else if d.frozen then d.updSq a n (fun q => { q with scanning := true, pend := true })
  else startScan a n d

/-- The host write that does it. -/
def execSqDoorbell (a : Fin 64) (n : Fin 1024) (s : State) : Host.Outcome State Fault Refusal :=
  s.on fun d => pageWrite a (0x1000 + 4 * n.val) (0) d (sqDoorbell a n)

/-- Issue the next burst of the admin ring (02 R36). -/
def issueAdm (a : Nat) (d : Device) : Device :=
  let q := d.adm a
  match readable d a q.sqBase (min 8 (q.depth - q.fetchIdx)) q.fetchIdx with
  | (0, some (.wait, p)) => gateWait a (.admRing a) p 64 0 d
  | (0, some (.refuse c r st, p)) => admError a false 1 p (reportRefusal a a p 64 0 0xF0 c r st true d)
  | (k, _) => (d.updAdm a (fun q => { q with burst := k })).emit (.burstRead a 0xFFFF q.fetchIdx k)

/-- 02 R36: the admin doorbell starts a scan of the admin submission ring. -/
def admDoorbell (a : Nat) (d : Device) : Device :=
  let q := d.adm a
  if !q.enable || q.error then d
  else if q.scanning || d.frozen then d.updAdm a (fun q => { q with rescan := true })
  else issueAdm a (d.updAdm a (fun q => { q with scanning := true, rescan := false }))

/-- The host write that does it. -/
def execAdmDoorbell (a : Fin 64) (s : State) : Host.Outcome State Fault Refusal :=
  s.on fun d => pageWrite a (0x001C) (0) d (admDoorbell a)

/-- A stop has ended: scans that waited go on (16, Table 16.2 FREEZE). -/
def resumeScans (d : Device) : Device :=
  foldOver (fun a d => if (d.adm a).rescan && !(d.adm a).scanning then
    issueAdm a (d.updAdm a (fun q => { q with scanning := true, rescan := false })) else d) (List.range 64) d

/-- Admission, batch assembly and the command slot of one consumed entry (02 R27, R48; 03 R60, R72). -/
def newCmd (a n : Nat) (e : Entry) (t : RoutineAttr) (d : Device) : Cmd :=
  { entry := e, allot := a, sq := n, order := d.order + 1, attr := t, weir := eWeir e, since := d.time }

/-- Conclude every member of a batch that neither check 1 of Table 3.6 nor an ABORT (03 R83) has concluded. -/
def refuseBatch (det : Nat) (members : List Nat) (d : Device) : Device :=
  foldOver (fun k d =>
    let c := d.cmdOr k
    if c.phase = .ended ∧ (c.detail = 0xFFFF_0004 ∨ c.status = stAborted) then d else conclude k stRefused det 0 d) members d

/-- Close the batch under assembly (02 R48): the members are counted, differing bits or a missing BATCH_LAST refuse all; of a batch with both the
differing bits are reported (DESIGN CHOICE, assumption 129). -/
def closeBatch (a n : Nat) (last : Bool) (d : Device) : Device :=
  let members := (d.sq a n).batch
  let d := sealBatch a n d
  if members.any (fun k =>
      let c := d.cmdOr k
      eOneCqe c.entry != c.batchOne || eErrOnly c.entry != c.batchErr) then refuseBatch 0xFFFF_0002 members d
  else if !last then refuseBatch 0xFFFF_0001 members d
  else d

/-- Consume one owned entry of submission queue n (02 R27, R48; 03 R72). -/
def consume (a n : Nat) (e : Entry) (d : Device) : Device :=
  match d.freeSlot with
  | none => d
  | some k =>
    let r := d.admitLate a e
    let c := newCmd a n e r.1 d
    let d := { d with order := d.order + 1 }
    let d := d.updSq a n (fun q => { q with fetchIdx := (q.fetchIdx + 1) % q.depth, consumed := q.consumed + 1 })
    -- A run of members that an entry without BATCH breaks is closed without BATCH_LAST (DEDUCED).
    let d := if !eBatch e && decide ((d.sq a n).batch ≠ []) then closeBatch a n false d else d
    let stray := !eBatch e && (eBatchLast e || eOneCqe e)
    let outcome : Option (Nat × Nat × Nat) :=
      if !reservedClean e then some (stRefused, 0xFFFF_0004, 0)
      else if stray then some (stRefused, 0xFFFF_0003, 0)
      else r.2
    let members := (d.sq a n).batch
    let c := if eBatch e then { c with batch := some (if members = [] then d.nextBatch else
      (match members with
       | m :: _ => (match (d.cmdOr m).batch with
          | some (i, _) => i
          | none => d.nextBatch)
       | [] => d.nextBatch), members.length + 1) } else c
    let d := if eBatch e && decide (members = []) then { d with nextBatch := d.nextBatch + 1 } else d
    let d := { d with cmds := Tbl.put d.cmds k c }
    let d := match outcome with
      | some (st, det, ol) => conclude k st det ol d
      | none => d
    if eBatch e then
      let d := d.updSq a n (fun q => { q with batch := q.batch ++ [k] })
      if eBatchLast e then closeBatch a n true d
      else if 256 ≤ members.length + 1 then closeBatch a n false d
      else d
    else d

/-- Examine the entries of a burst in ring order (02 R27 to R29): the first with OWN = 0 ends the scan; an owned one has its
CONTROL word written back and is consumed. Bursts of other queues may have taken the slots that were free when this one was issued: with none
left the entry stays the device's, unread and unconsumed, and the queue is PENDING (R30). A write-back that the gate refuses puts the queue in
ERROR (R53). -/
def examine (a n : Nat) : List Entry → Device → Device
  | [], d =>
    let d := d.updSq a n (fun q => { q with burst := 0 })
    issueBurst a n d
  | e :: rest, d =>
    if !eOwn e then endScan a n d
    else if d.slotsLeft a = 0 then
      (d.updSq a n (fun q => { q with burst := 0, pend := true })).bump 0x0002_0008
    else
    let q := d.sq a n
    let addr := q.base + q.fetchIdx * 64 + 60
    match gateCheck d a a addr 4 1 true none with
    | .wait => gateWait a (.writeBack a (some n)) addr 4 1 (d.updSq a n (fun q => { q with burst := rest.length + 1 }))
    | .refuse c r st => sqError a n 2 addr (reportRefusal a a addr 4 1 0xF0 c r st true d)
    | .permit =>
      let d := hostWrite a addr (toBytes 4 (eControl e % 2 ^ 31)) d
      examine a n rest (consume a n e d)

/-- Consume the owned entries of an admin burst. -/
def examineAdm (a : Nat) : List Entry → Device → Device
  | [], d => issueAdm a (d.updAdm a (fun q => { q with burst := 0 }))
  | e :: rest, d =>
    let q := d.adm a
    if !eOwn e then
      let d := d.updAdm a (fun q => { q with scanning := false, rescan := false, burst := 0 })
      if q.rescan then issueAdm a (d.updAdm a (fun q => { q with scanning := true })) else d
    else
      let addr := q.sqBase + q.fetchIdx * 64 + 60
      match gateCheck d a a addr 4 1 true none with
      | .wait => gateWait a (.writeBack a none) addr 4 1 (d.updAdm a (fun q => { q with burst := rest.length + 1 }))
      | .refuse c r st => admError a false 2 addr (reportRefusal a a addr 4 1 0xF0 c r st true d)
      | .permit =>
        let d := hostWrite a addr (toBytes 4 (eControl e % 2 ^ 31)) d
        let d := { d with order := d.order + 1 }
        examineAdm a rest (d.updAdm a (fun q => { q with
          fetchIdx := (q.fetchIdx + 1) % q.depth
          cmds := q.cmds ++ [(d.order, e)] }))

/-- The burst that arrives, as many entries as were read. -/
def burstOf (n : Nat) (data : List Entry) : List Entry := (List.range n).map (fun i => data.getD i 0)

/-- 02 R29: the data of a burst read arrive for a submission queue, or for the admin queue when `q` is none; `err` says that the PCIe read
completed with an error, which puts the queue in ERROR with cause 3 (R30, R53). A burst that arrives after DISABLE, in ERROR or in a teardown is
discarded (R30, R51, R53). -/
def execBurstDataArrive (a : Fin 64) (q : Option (Fin 1024)) (data : List Entry) (err : Bool) (s : State) : Host.Outcome State Fault Refusal :=
  s.on fun d => if d.stopped || d.scansPaused then d else match q with
    | some n =>
      let t := d.sq a n
      if t.burst = 0 then d
      else if t.disable || t.error || (d.allot a).flr.isSome then
        d.updSq a n (fun t => { t with burst := 0, scanning := false, rescan := false })
      else if err then sqError a n 3 (t.base + t.fetchIdx * 64) d
      else examine a n (burstOf t.burst data) d
    | none =>
      let t := d.adm a
      if t.burst = 0 then d
      else if !t.enable || t.error || (d.allot a).flr.isSome then
        admSettle a (d.updAdm a (fun t => { t with burst := 0, scanning := false, rescan := false }))
      else if err then admError a false 3 (t.sqBase + t.fetchIdx * 64) d
      else examineAdm a (burstOf t.burst data) d

/-- 02 R30: a PENDING queue resumes its scan when a command slot is free. -/
def execScanResume (a : Fin 64) (n : Fin 1024) (s : State) : Host.Outcome State Fault Refusal :=
  s.on fun d =>
    let q := d.sq a n
    if q.present && q.pend && !q.disable && !q.error && (d.allot a).flr.isNone && !d.stopped && !d.scansPaused && decide (0 < d.slotsLeft a) then
      issueBurst a n (d.updSq a n (fun q => { q with pend := false }))
    else d

/-! ## Completion queues -/

/-- A HEAD write is valid when it does not pass TAIL (02 R33). -/
def headOk (old tail new : Nat) : Bool := decide ((new + 65536 - old) % 65536 ≤ (tail + 65536 - old) % 65536)

/-- Command slots are freed: their completion is written, suppressed or discarded (02 R30). -/
def retireCmds (a n : Nat) (slots : List Nat) (d : Device) : Device :=
  let d := forgetSlots slots { d with cmds := d.cmds.filter (fun x => !slots.contains x.1) }
  let d := d.updSq a n (fun q => { q with posted := q.posted + slots.length })
  settleAdmin (postDue (afterQueue a n d))

/-- Write the completions that wait for room, in order (02 R34). -/
def drainCq : (fuel : Nat) → (a n : Nat) → Device → Device
  | 0, _, _, d => d
  | f + 1, a, n, d =>
    let q := d.cq a n
    match q.waiting with
    | [] => d
    | (x, k, sqn) :: rest =>
      if q.room then
        match writeCqe a n x d with
        | (.held, d) => d
        | (_, d) =>
          let d := d.updCq a n (fun q => { q with waiting := rest })
          let slots := (d.cmds.filter (fun y => decide (y.1 = k) || (sameBatch (d.cmdOr k) y.2 && y.2.batchOne))).map
            (fun y => y.1)
          drainCq f a n (retireCmds a sqn slots d)
      else d

/-- 02 R33: a write of CQ_HEAD[n].HEAD. PARAM1 of QUEUE_HEAD_INVALID, the value written, is its HEAD field (DESIGN CHOICE, assumption 130). -/
def cqHeadWrite (a : Nat) (n : Nat) (head : Nat) (d : Device) : Device :=
  let q := d.cq a n
  if !q.present then d
  else if headOk q.head q.tail head then
    drainCq 4097 a n (d.updCq a n (fun q => { q with head := head }))
  else notice a 0x7001 1 n head 0 0 d

/-- The host write that does it. -/
def execCqHeadWrite (a : Fin 64) (n : Fin 1024) (head : BitVec 16) (s : State) : Host.Outcome State Fault Refusal :=
  s.on fun d => pageWrite a (0x2000 + 4 * n.val) (head.toNat) d (cqHeadWrite a n head.toNat)

/-- 02 R36: a write of ADM_CQ_HEAD. -/
def admCqHeadWrite (a : Nat) (head : Nat) (d : Device) : Device :=
  let q := d.adm a
  if headOk q.head q.tail head then
    admSettle a (drainAdm 4097 a (d.updAdm a (fun q => { q with head := head })))
  else notice a 0x7001 1 (0xFFFF + 1 * 2 ^ 16) head 0 0 d

/-- The host write that does it. -/
def execAdmCqHeadWrite (a : Fin 64) (head : BitVec 16) (s : State) : Host.Outcome State Fault Refusal :=
  s.on fun d => pageWrite a (0x0020) (head.toNat) d (admCqHeadWrite a head.toNat)

/-- 02 R54: a write of NTC_HEAD; room lets NOTICES_LOST and held notices be written (R55). -/
def ntcHeadWrite (a : Nat) (head : Nat) (d : Device) : Device :=
  let r := (d.allot a).ntc
  if headOk r.head r.tail head then
    notesRoom a (d.updNtc a (fun r => { r with head := head }))
  else notice a 0x7001 1 (2 * 2 ^ 16) head 0 0 d

/-- The host write that does it. -/
def execNtcHeadWrite (a : Fin 64) (head : BitVec 16) (s : State) : Host.Outcome State Fault Refusal :=
  s.on fun d => pageWrite a (0x300C) (head.toNat) d (ntcHeadWrite a head.toNat)

/-! ## Stopping a queue -/

/-- Consumed entries of a queue that have not started complete with QUEUE_DISABLED, in their ordering place (02 R51). -/
def disableSq (a n : Nat) (d : Device) : Device :=
  let d := d.updSq a n (fun q => { q with
    disable := true
    scanning := false
    rescan := false
    pend := false })
  let d := dropBatch a n d
  foldOver (fun x d =>
    let c := d.cmdOr x.1
    if c.phase = .ended ∨ c.started then d else concludeUnstarted x.1 stQueueDisabled 0 d) (d.ofQueue a n) d

/-- 02 R51: DISABLE is set. -/
def sqDisable (a : Nat) (n : Nat) (d : Device) : Device :=
  if !(d.sq a n).present || (d.sq a n).disable then d else disableSq a n d

/-- The host write that does it. -/
def execSqDisable (a : Fin 64) (n : Fin 1024) (s : State) : Host.Outcome State Fault Refusal :=
  s.on fun d => pageWrite a (0x6000 + 4 * n.val) (1) d (sqDisable a n)

/-- 02 R52: clearing DISABLE is honoured only while IDLE = 1; a queue in ERROR stays disabled (R53). -/
def sqReenable (a : Nat) (n : Nat) (d : Device) : Device :=
  let q := d.sq a n
  if q.present && q.idle && !q.error then
    d.updSq a n (fun q => { q with disable := false, idle := false })
  else d

/-- The host write that does it. -/
def execSqReenable (a : Fin 64) (n : Fin 1024) (s : State) : Host.Outcome State Fault Refusal :=
  s.on fun d => pageWrite a (0x6000 + 4 * n.val) (0) d (sqReenable a n)

/-- 02 R52: IDLE sets when no fetch is outstanding and every consumed entry has completed; a waiting DELETE_SQ then ends. -/
def execSqIdle (a : Fin 64) (n : Fin 1024) (s : State) : Host.Outcome State Fault Refusal :=
  s.on fun d =>
    if d.sqDrained a n then settleAdmin (d.updSq a n (fun q => { q with idle := true })) else d

/-- ADM_CTRL and NTC_CTRL as a write of ENABLE alone spells them (02, Tables 2.19, 2.24). -/
def admCtrlWord (d : Device) (a en : Nat) : Nat :=
  let q := d.adm a
  en + 8 * b2n q.irqEn + q.depthLog2 * 16 + q.vector * 256
def ntcCtrlWord (d : Device) (a en : Nat) : Nat :=
  let r := (d.allot a).ntc
  en + r.depthLog2 * 16 + r.vector * 256 + b2n r.irqEn * 2 ^ 16

/-- 02 R36, Table 2.19: setting ENABLE runs the admin queue and resets its fetch position and counts. Ignored while READY = 0, and, as
R52 has it, while IDLE = 0.
Clearing and setting it again leaves ERROR. -/
def admEnable (a : Nat) (d : Device) : Device :=
  let q := d.adm a
  if !(d.allot a).ready || q.enable || !q.idle then d
  else d.updAdm a (fun q => { q with
    enable := true
    idle := false
    error := false
    cqBad := false
    cause := 0
    failAddr := 0
    fetchIdx := 0
    head := 0
    tail := 0
    scanning := false
    rescan := false
    burst := 0 })

/-- The host write that does it. -/
def execAdmEnable (a : Fin 64) (s : State) : Host.Outcome State Fault Refusal :=
  s.on fun d => pageWrite a (0x0018) (admCtrlWord d a 1) d (admEnable a)

/-- 02 R36, Table 2.19: clearing ENABLE acts as DISABLE (R51, R52): no further fetch; entries not yet begun complete with
QUEUE_DISABLED. -/
def admDisable (a : Nat) (d : Device) : Device :=
  let q := d.adm a
  if !q.enable then d else
  let keep := if q.waits = .none then [] else q.cmds.take 1
  let drop := if q.waits = .none then q.cmds else q.cmds.drop 1
  let d := d.updAdm a (fun q => { q with
    enable := false
    scanning := false
    rescan := false
    cmds := keep
    cqWaiting := if q.cqBad then [] else q.cqWaiting ++ drop.map (fun x => mkCqe (bytesAt x.2 0 2) 0xFFFF stQueueDisabled false 0 0 0) })
  admSettle a (drainAdm 4097 a d)

/-- The host write that does it. -/
def execAdmDisable (a : Fin 64) (s : State) : Host.Outcome State Fault Refusal :=
  s.on fun d => pageWrite a (0x0018) (admCtrlWord d a 0) d (admDisable a)

/-- 02 R55, Table 2.24: setting NTC_CTRL.ENABLE resets the counts, ends ERROR and writes the held notices. -/
def ntcEnable (a : Nat) (d : Device) : Device :=
  let r := (d.allot a).ntc
  if r.enable then d
  else notesRoom a (d.updNtc a (fun r => { r with enable := true, error := false, head := 0, tail := 0 }))

/-- The host write that does it. -/
def execNtcEnable (a : Fin 64) (s : State) : Host.Outcome State Fault Refusal :=
  s.on fun d => pageWrite a (0x3008) (ntcCtrlWord d a 1) d (ntcEnable a)

/-- 02 R55: clearing NTC_CTRL.ENABLE stops notice writes. -/
def ntcDisable (a : Nat) (d : Device) : Device :=
  d.updNtc a (fun r => { r with enable := false })

/-- The host write that does it. -/
def execNtcDisable (a : Fin 64) (s : State) : Host.Outcome State Fault Refusal :=
  s.on fun d => pageWrite a (0x3008) (ntcCtrlWord d a 0) d (ntcDisable a)

/-- 02 R30, 00 R6: writing 1 to ALLOT_STATUS.BAD_DOORBELL clears it. -/
def badDoorbellClear (a : Nat) (d : Device) : Device :=
  d.updAllot a (fun t => { t with badDoorbell := false })

/-- The host write that does it. -/
def execBadDoorbellClear (a : Fin 64) (s : State) : Host.Outcome State Fault Refusal :=
  s.on fun d => pageWrite a (0x0000) (8) d (badDoorbellClear a)

/-! ## Interrupts -/

/-- Send the pending messages that are no longer masked (02 R57). -/
def sendPending (a : Nat) (d : Device) : Device :=
  foldOver (fun v d =>
    let t := d.allot a
    let m := t.vec v
    if m.pending && t.msixEnable && !t.funcMask && !m.mask then
      (d.updAllot a (fun t => { t with vecs := Tbl.upd {} t.vecs v (fun m => { m with pending := false }) })).emit
        (.msix a v m.addr m.data)
    else d) (List.range 32) d

/-- 02 R56, R57: the host changes a mask. `what` says which: 0 the Mask bit of vector v, 1 the Function Mask, 2 MSI-X Enable; `on` whether it
lets messages pass (the mask bits become 0, the enable 1) or stops them. Messages that are pending and no longer masked are sent. -/
def msixUnmask (a : Nat) (what : Fin 3) (v : Nat) (on : Bool) (d : Device) : Device :=
  sendPending a (d.updAllot a (fun t => match what with
    | 0 => { t with vecs := Tbl.upd {} t.vecs v (fun m => { m with mask := !on }) }
    | 1 => { t with funcMask := !on }
    | 2 => { t with msixEnable := on }))

/-- The host write that does it. -/
def execMsixUnmask (a : Fin 64) (what : Fin 3) (v : Fin 32) (on : Bool) (s : State) : Host.Outcome State Fault Refusal :=
  s.on fun d => pageWrite a (if what.val = 0 then 0xE00C + 16 * v.val else 0x10000 + what.val) (b2n (decide (what.val ≠ 2) != on)) d
    (msixUnmask a what v on)

/-- 02 R57, R438: COAL_TIME µs after the oldest unsignalled entry, a queue with IRQ_EN signals, whatever has become of the queue since. -/
def execCoalTimer (a : Fin 64) (n : Fin 1024) (s : State) : Host.Outcome State Fault Refusal :=
  s.on fun d => if (d.allot a).flr.isNone && (d.cq a n).present then coalSignal a n d else d

/-! ## Queue management (02 R37 to R40) -/

/-- Queues that exist, of allotment a and of all. -/
def Device.sqHeld (d : Device) (a : Nat) : Nat := countWhere (fun x => x.1 / 1024 = a) d.sqs
def Device.cqHeld (d : Device) (a : Nat) : Nat := countWhere (fun x => x.1 / 1024 = a) d.cqs

/-- Coalescing settings that Table 2.9 refuses. -/
def coalBad (count time : Nat) : Bool := (decide (1 < count) && decide (time = 0)) || decide (1023 < time)

/-- Bytes of CREATE_CQ and MODIFY_CQ (02, Table 2.7). -/
def cqParams : List (Nat × Nat) := wholeBytes 4 16 ++ [(17, 1), (18, 255), (20, 255), (21, 255)]

/-- The whole ring lies in one enabled region of the allotment with no disabled eighth, with the permissions asked
(02 R40). The check looks at the descriptors alone, whatever state the gate is in (DESIGN CHOICE, assumption 131). -/
def ringPlaced (d : Device) (a base size : Nat) (r w : Bool) : Bool :=
  (List.range 16).any (fun i =>
    let x := (d.gate a).region i
    descEn x && decide (descAllot x = a) && decide (descBase x ≤ base) && decide (base + size ≤ descBase x + 2 ^ descLog2 x) &&
      (List.range 8).all (fun k => !bitOf (descSubdis x) k ||
        !overlaps base size (descBase x + k * 2 ^ (descLog2 x - 3)) (2 ^ (descLog2 x - 3))) &&
      (!r || descPerm x 0) && (!w || descPerm x 1))

/-- The check of R40 waits at a closed gate like an access (14, Table 14.5). -/
def ringCheck (a base size : Nat) (r w : Bool) (d : Device) (k : Device → Device) : Device :=
  if (d.gate a).close then gateWait a (.createRing a) base size 1 d
  else if ringPlaced d a base size r w then k d
  else admDone a stAccess 0 0 d

/-- 02 R38 to R40: CREATE_CQ. -/
def execCreateCq (a : Fin 64) (s : State) : Host.Outcome State Fault Refusal :=
  s.on fun d => admin a 0x0001 false cqParams [(8, 4096)] d fun e _ d =>
    let n := bytesAt e 4 2
    let depth := bytesAt e 6 2
    let base := bytesAt e 8 8
    if 1023 < n then admRefuse a 0x1 d
    else if (d.cq a n).present then admRefuse a 0x2 d
    else if !isPow2Between depth 16 4096 then admRefuse a 0x4 d
    else if (d.allot a).cqQuota ≤ d.cqHeld a then admRefuse a 0x6 d
    else if 16384 ≤ d.cqs.length then admRefuse a 0x7 d
    else if 31 < bytesAt e 16 1 then admRefuse a 0xA d
    else if coalBad (bytesAt e 18 1) (bytesAt e 20 2) then admRefuse a 0xB d
    else ringCheck a base (depth * 16) false true d fun d =>
      admDone a stOk 0 0 (d.updCq a n (fun _ => {
        present := true
        depth := depth
        base := base
        vector := bytesAt e 16 1
        irqEn := bitOf (bytesAt e 17 1) 0
        coalCount := bytesAt e 18 1
        coalTime := bytesAt e 20 2 }))

/-- 02 R38: DELETE_CQ refuses a queue with a bound submission queue. -/
def execDeleteCq (a : Fin 64) (s : State) : Host.Outcome State Fault Refusal :=
  s.on fun d => admin a 0x0002 false (wholeBytes 4 5) [] d fun e _ d =>
    let n := bytesAt e 4 2
    if 1023 < n then admRefuse a 0x1 d
    else if !(d.cq a n).present then admRefuse a 0x3 d
    else if d.sqs.any (fun x => decide (x.1 / 1024 = a) && decide (x.2.cqId = n)) then admRefuse a 0x9 d
    else admDone a stOk 0 0 (removeCq a n d)

/-- 02 R35, R38 to R40: CREATE_SQ. Of several reasons of Table 2.9 that hold at once the first tested here is reported (DESIGN CHOICE, assumption
127). -/
def execCreateSq (a : Fin 64) (s : State) : Host.Outcome State Fault Refusal :=
  s.on fun d => admin a 0x0003 false (wholeBytes 4 18) [(8, 4096)] d fun e _ d =>
    let n := bytesAt e 4 2
    let depth := bytesAt e 6 2
    let base := bytesAt e 8 8
    let q := bytesAt e 16 2
    if 1023 < n then admRefuse a 0x1 d
    else if (d.sq a n).present then admRefuse a 0x2 d
    else if !isPow2Between depth 16 4096 then admRefuse a 0x4 d
    else if (d.allot a).sqQuota ≤ d.sqHeld a then admRefuse a 0x6 d
    else if 16384 ≤ d.sqs.length then admRefuse a 0x7 d
    else if 1023 < q ∨ !(d.cq a q).present then admRefuse a 0x8 d
    else if 1 < bytesAt e 18 1 then admRefuse a 0xC d
    else ringCheck a base (depth * 64) true true d fun d =>
      admDone a stOk 0 0 (d.updSq a n (fun _ => {
        present := true
        depth := depth
        base := base
        cqId := q
        free := decide (bytesAt e 18 1 = 1) }))

/-- 02 R38: DELETE_SQ sets DISABLE, waits for IDLE, then removes the queue. -/
def execDeleteSq (a : Fin 64) (s : State) : Host.Outcome State Fault Refusal :=
  s.on fun d => admin a 0x0004 false (wholeBytes 4 5) [] d fun e _ d =>
    let n := bytesAt e 4 2
    if 1023 < n then admRefuse a 0x1 d
    else if !(d.sq a n).present then admRefuse a 0x3 d
    else
      let d := if (d.sq a n).disable then d else disableSq a n d
      if (d.sq a n).idle then admDone a stOk 0 0 (removeSq a n d) else admWait a (.queueIdle n) d

/-- The 64-byte result record of QUERY_QUEUE (02, Table 2.8). -/
def queueRecord (a n kind : Nat) (d : Device) : List Byte :=
  let sq := d.sq a n
  let cq := d.cq a n
  toBytes 64 (if kind = 0 then
    pack [(1, if sq.error then 4 else if !sq.disable then 1 else if sq.idle then 3 else 2), (1, b2n sq.free), (2, sq.depth),
      (2, sq.cqId), (2, sq.fetchIdx), (8, sq.consumed), (8, sq.posted), (2, (d.ofQueue a n).length),
      (2, if sq.error then sq.cause else 0)]
  else
    pack [(1, if cq.error then 4 else 1), (1, b2n cq.irqEn), (2, cq.depth),
      (2, countWhere (fun x => decide (x.1 / 1024 = a) && decide (x.2.cqId = n)) d.sqs), (2, cq.head), (8, cq.written),
      (8, 0), (2, countWhere (fun x => decide (x.2.allot = a) && decide ((d.sq a x.2.sq).cqId = n)) d.cmds),
      (2, if cq.error then cq.cause else 0)])

/-- 02 R38: QUERY_QUEUE writes a 64-byte record. Of a KIND above 1, for which Table 2.9 names no reason, DETAIL 0x3 (DESIGN CHOICE, assumption 127). -/
def execQueryQueue (a : Fin 64) (s : State) : Host.Outcome State Fault Refusal :=
  s.on fun d => admin a 0x0005 false (wholeBytes 4 6 ++ wholeBytes 8 15) [(8, 64)] d fun e _ d =>
    let n := bytesAt e 4 2
    let kind := bytesAt e 6 1
    if 1023 < n then admRefuse a 0x1 d
    else if 1 < kind ∨ (kind = 0 ∧ !(d.sq a n).present) ∨ (kind = 1 ∧ !(d.cq a n).present) then admRefuse a 0x3 d
    else admResult a (bytesAt e 8 8) (queueRecord a n kind d) d (admDone a stOk 64 0)

/-- 02 R438: MODIFY_CQ applies at once to the entries already unsignalled. -/
def execModifyCq (a : Fin 64) (s : State) : Host.Outcome State Fault Refusal :=
  s.on fun d => admin a 0x0006 false cqParams [] d fun e _ d =>
    let n := bytesAt e 4 2
    if 1023 < n then admRefuse a 0x1 d
    else if !(d.cq a n).present then admRefuse a 0x3 d
    else if 31 < bytesAt e 16 1 then admRefuse a 0xA d
    else if coalBad (bytesAt e 18 1) (bytesAt e 20 2) then admRefuse a 0xB d
    else
      let d := d.updCq a n (fun q => { q with
        vector := bytesAt e 16 1
        irqEn := bitOf (bytesAt e 17 1) 0
        coalCount := bytesAt e 18 1
        coalTime := bytesAt e 20 2 })
      admDone a stOk 0 0 (coalSignal a n d)

/-- Opcodes that Table 2.6 and the chapters assign, with allotment 0's own from 0x0040 (02, 03 Table 3.15, 04 Table 4.4, 13
Table 13.15, 15 Table 15.10a, 17 R366, 18 R385). -/
def opcodeAssigned (op : Nat) : Bool :=
  [0x01, 0x02, 0x03, 0x04, 0x05, 0x06, 0x10, 0x20, 0x21, 0x22, 0x23, 0x24, 0x25, 0x26, 0x27, 0x28, 0x29, 0x30, 0x31, 0x32,
    0x33, 0x38, 0x39, 0x3A, 0x40, 0x41, 0x42, 0x43, 0x50, 0x51, 0x52, 0x53, 0x54, 0x55, 0x60, 0x61, 0x62, 0x63, 0x64, 0x65,
    0x70, 0x71, 0x72, 0x73].contains op

/-- Opcodes of Table 2.6 and of the key chapter that only allotment 0 issues (02 R37; 13, Table 13.15; 14; 15 R326). -/
def opcodeOwner (op : Nat) : Bool := (decide (0x40 ≤ op) && decide (op ≤ 0x7F)) || decide (0x38 ≤ op ∧ op ≤ 0x3A)

/-- 02 R37, Table 2.9: an opcode reserved to allotment 0 and issued by a VF (0x0000_000E), or not assigned (0x0000_000D),
or not accepted in the mode, in that order. -/
def execUnassignedOpcode (a : Fin 64) (s : State) : Host.Outcome State Fault Refusal :=
  s.on fun d => match admFront a d with
    | none => d
    | some (_, e) =>
      let op := bytesAt e 2 2
      if opcodeOwner op && a.val != 0 then admRefuse a 0xE d
      else if !opcodeAssigned op then admRefuse a 0xD d
      else d

/-! ## Abort by tag (03 R82, R83) -/

/-- What an abort does with one matched command (03, Table 3.18). -/
def abortCmd (k : Nat) (d : Device) : Device :=
  let c := d.cmdOr k
  if c.phase = .ended then d
  else if c.started then haltWith k stAborted 2 0 d else concludeUnstarted k stAborted 1 d

/-- A command that ABORT matches: consumed, its completion neither written nor suppressed, its commit not begun, its tag equal under the mask
(03 R82). -/
def abortMatches (a sq tag mask : Nat) (c : Cmd) : Bool :=
  decide (c.allot = a) && (decide (sq = 0xFFFF) || decide (c.sq = sq)) && !c.commitBegun &&
    decide (eTag c.entry &&& mask = tag &&& mask)

/-- 03 R82, R83: ABORT. -/
def execAbort (a : Fin 64) (s : State) : Host.Outcome State Fault Refusal :=
  s.on fun d => admin a 0x0010 false (wholeBytes 4 9) [] d fun e _ d =>
    let n := bytesAt e 4 2
    if n ≠ 0xFFFF ∧ (1023 < n ∨ !(d.sq a n).present) then admRefuse a 0x3 d else
    let hit := (d.cmds.filter (fun x => abortMatches a n (bytesAt e 6 2) (bytesAt e 8 2) x.2)).map (fun x => x.1)
    admDone a stOk 0 hit.length (foldOver abortCmd hit d)

/-! ## Completion entries (02 R41 to R50) -/

/-- An entry waits for room in its completion queue. -/
def Device.parked (d : Device) (k : Nat) : Bool :=
  let c := d.cmdOr k
  (d.cq c.allot (d.sq c.allot c.sq).cqId).waiting.any (fun w =>
    decide (w.2.1 = k) || (sameBatch (d.cmdOr w.2.1) c && c.batchOne))

/-- The ordering promises let the completion of the commands `unit` of a queue be written: on a FIFO queue every earlier entry,
and for a barrier unit every earlier entry outside it, has its completion written or at least ahead of it in the same completion
queue. -/
def Device.completionOrdered (d : Device) (c : Cmd) (first : Nat) : Bool :=
  !(d.ofQueue c.allot c.sq).any (fun x => decide (x.2.order < first) && !d.parked x.1 &&
    (!(d.sq c.allot c.sq).free || (d.inBarrier c && !sameBatch c x.2)))

/-- Members of a batch in their order of submission. -/
def Device.members (d : Device) (c : Cmd) : List (Nat × Cmd) :=
  (d.cmds.filter (fun x => sameBatch c x.2)).mergeSort (fun x y => decide (x.2.order ≤ y.2.order))

/-- The completion entry of a one-completion batch (02 R49). A batch refused as a whole under Table 2.10 keeps the form of R49, the position of its
first member in DETAIL (DESIGN CHOICE, assumption 129). -/
def batchCqe (c : Cmd) (ms : List Cmd) : Nat × CqEntry :=
  let bad := ms.filter (fun m => m.status ≠ stOk)
  let lastTag := match ms.getLast? with
    | some m => eTag m.entry
    | none => 0
  let ol := sumBy (fun m => m.outLen) ms
  match bad with
  | [] =>
    let det := match ms.getLast? with
      | some m => m.detail
      | none => 0
    (stOk, mkCqe lastTag c.sq stOk true ms.length ol det)
  | b :: _ =>
    let pos := match b.batch with
      | some (_, p) => p - 1
      | none => 0
    (b.status, mkCqe lastTag c.sq b.status true ms.length ol (pos + bad.length * 2 ^ 16))

/-- Write, suppress or park one completion entry (02 R31, R34, R50). -/
def postCompletion (c : Cmd) (k : Nat) (slots : List Nat) (status : Nat) (x : CqEntry) (errOnly : Bool) (d : Device) : Device :=
  let a := c.allot
  let n := (d.sq a c.sq).cqId
  if d.parked k then d
  else if errOnly && decide (status = stOk) then
    -- A suppressed completion keeps its place: it waits until the entries ahead of it have posted (R41, R50).
    if (d.ofQueue a c.sq).any (fun y => decide (y.2.order < c.order) && d.parked y.1 && !slots.contains y.1 &&
      !(d.sq a c.sq).free) then d
    else retireCmds a c.sq slots d
  else
    let q := d.cq a n
    if q.error then retireCmds a c.sq slots d
    else if !q.room || decide (q.waiting ≠ []) then d.updCq a n (fun q => { q with waiting := q.waiting ++ [(x, k, c.sq)] })
    else match writeCqe a n x d with
      | (.held, d) => d
      | (_, d) => retireCmds a c.sq slots d

/-- The completion entry of the command in slot k is written when the ordering promises allow (02 R41 to R50). -/
def completeSlot (k : Nat) (d : Device) : Device :=
  match d.cmd k with
  | none => d
  | some c =>
    if c.phase ≠ .ended ∨ (d.allot c.allot).flr.isSome ∨ d.frozen ∨ !batchClear c then d
    else
      if c.batchOne then
        let ms := d.members c
        if ms.all (fun m => decide (m.2.phase = .ended)) ∧
            d.completionOrdered c (match ms with
              | m :: _ => m.2.order
              | [] => c.order) then
          let x := batchCqe c (ms.map (fun m => m.2))
          postCompletion c k (ms.map (fun m => m.1)) x.1 x.2 c.batchErr d
        else d
      else if d.completionOrdered c c.order then
        let pos := match c.batch with
          | some (_, p) => p
          | none => 0
        postCompletion c k [k] c.status
          (mkCqe (eTag c.entry) c.sq c.status c.batch.isSome pos c.outLen c.detail) (if c.batch.isSome then c.batchErr else eErrOnly c.entry) d
      else d

/-- 02 R41: the completion entry of command slot k is written when the ordering promises and the room allow. -/
def execCompletionWrite (k : Fin 4096) (s : State) : Host.Outcome State Fault Refusal :=
  s.on fun d => completeSlot k d

end Sys2Proof.Machine
end

