-- ==== Sys2Proof/Machine/WsFrame.lean ====
section
/-!
DEFINITION. Sys2Proof/Machine/WsFrame.lean: frames of the Watershed (17 R353 to R355, R359): header templates, the Watershed header, protection of a
channel, what goes out and what comes in, links.
-/
namespace Sys2Proof.Machine

/-! ## Configuration (17, Table 17.14) -/

def Device.wsEn (d : Device) : Bool := bitOf (d.reg 0x000D_0000) 0
def Device.wsMember (d : Device) : Nat := field (d.reg 0x000D_0000) 25 16
def Device.wsOwnId (d : Device) : Nat := d.reg 0x000D_0008 + d.reg 0x000D_000C * 2 ^ 32
def Device.plenMax (d : Device) : Nat := d.reg 0x000D_0024

/-- The local addresses as the registers hold them: octet i of an address at bits [8i+7:8i]. -/
def Device.wsMac (d : Device) : Nat := d.reg 0x000D_0028 + field (d.reg 0x000D_002C) 15 0 * 2 ^ 32
def Device.wsIp4 (d : Device) : Nat := d.reg 0x000D_0034
def Device.wsIp6 (d : Device) : Nat :=
  d.reg 0x000D_0040 + d.reg 0x000D_0044 * 2 ^ 32 + d.reg 0x000D_0048 * 2 ^ 64 + d.reg 0x000D_004C * 2 ^ 96
def Device.wsUdp (d : Device) : Nat := field (d.reg 0x000D_0030) 15 0

/-! ## Message payloads (17, Tables 17.3, 17.7) -/

/-- TYPE. -/
def WsMsg.typ : WsMsg → Nat
  | .joinInit _ => 0x01
  | .joinResp _ => 0x02
  | .joinFin _ => 0x03
  | .joinAck => 0x04
  | .joinReject _ => 0x05
  | .keepalive => 0x10
  | .close => 0x11
  | .migPull _ _ _ _ => 0x20
  | .migOffer _ _ _ _ => 0x21
  | .migReady _ _ => 0x22
  | .migRelease _ => 0x23
  | .migAbort _ _ => 0x24
  | .migQuery _ => 0x25
  | .keyRepl _ _ _ _ _ => 0x30
  | .keyReplAck _ _ => 0x31
  | .keyReplDestroy _ => 0x32
  | .grantReq _ _ _ => 0x40
  | .grant _ _ _ _ => 0x41
  | .grantRefuse _ _ _ => 0x42
  | .rehome _ _ _ => 0x43

/-- Keys of a channel: A→B, B→A, K_kt (17, Table 17.5 step 4). -/
def Peer.keyOf (p : Peer) (i : Nat) : List Byte := (p.keys.drop (32 * i)).take 32
/-- The direction in which this device sends: 0 is A→B. -/
def Peer.dirTx (p : Peer) : Nat := if p.initiator then 0 else 1

/-- A message's payload. KEY_REPL carries the object wrapped under the channel's key-transport key; a context's header is as it stands in the
context store while it is MIGRATING. -/
def Device.wsPayload (d : Device) (m : Nat) : WsMsg → List Byte
  | .joinInit b | .joinResp b | .joinFin b => b
  | .joinReject r => toBytes 1 r
  | .migPull q c a l => toBytes 4 q ++ toBytes 4 c ++ toBytes 1 a ++ zeros 3 ++ toBytes 8 l
  | .migOffer q c h x =>
    toBytes 4 q ++ toBytes 4 c ++ toBytes 4 h ++ toBytes 1 x.allot ++ zeros 7 ++ x.header d.time ++ readBytes x.secret 0 960
  | .migReady q c => toBytes 4 q ++ toBytes 4 c
  | .migRelease q | .migQuery q => toBytes 4 q
  | .migAbort q r => toBytes 4 q ++ toBytes 1 r
  | .keyRepl t a g mat tree =>
    toBytes 4 t ++ wrapObject ((d.peer m).keyOf 2) (objHeader a.usage a.flags a.allot a.family a.variant a.paramSet mat.length g a.extra) mat ++ tree
  | .keyReplAck t s => toBytes 4 t ++ toBytes 1 s
  | .keyReplDestroy t => toBytes 4 t
  | .grantReq h q n => toBytes 4 h ++ toBytes 4 q ++ toBytes 4 n
  | .grant h q f n => toBytes 4 h ++ toBytes 4 q ++ toBytes 8 f ++ toBytes 4 n
  | .grantRefuse h q r => toBytes 4 h ++ toBytes 4 q ++ toBytes 1 r
  | .rehome h r c => toBytes 4 h ++ toBytes 4 r ++ toBytes 8 c
  | .joinAck | .keepalive | .close => []

/-! ## Frames that go out (17 R355, R359) -/

/-- The Watershed header (17, Table 17.2). -/
def wsHead (typ src dst : Nat) (first last : Bool) (plen seq ack : Nat) : List Byte :=
  toBytes 24 (pack [(2, 0x574B), (1, 1), (1, typ), (2, src), (2, dst), (1, b2n first + 2 * b2n last), (1, 0), (2, plen), (8, seq), (4, ack)])

/-- A payload cut into the frames that it spans, one at least. -/
def wsChunks (n : Nat) (bs : List Byte) : List (List Byte) :=
  (List.range (max 1 ((bs.length + n - 1) / max 1 n))).map (fun i => (bs.drop (i * n)).take n)

/-- The nonce of a frame: the direction word, then SEQ. -/
def wsNonce (dir seq : Nat) : List Byte := toBytes 4 dir ++ toBytes 8 seq

/-- The frames of a message on a channel, under the sending direction's key. -/
def Device.sealedFrames (d : Device) (m : Nat) (msg : WsMsg) : List WsFrame :=
  let p := d.peer m
  let cs := wsChunks d.plenMax (d.wsPayload m msg)
  cs.zipIdx.map (fun (c, i) =>
    let seq := p.txSeq + 1 + i
    let last := decide (i + 1 = cs.length)
    let head := wsHead msg.typ d.wsMember m (decide (i = 0)) last c.length seq (p.rxSeq % 2 ^ 32)
    { seq := seq, sealed := head ++ gcmSeal (p.keyOf p.dirTx) (wsNonce p.dirTx seq) head c, msg := msg, last := last, sent := d.time })

/-- The frames of a clear message. -/
def Device.clearFrames (d : Device) (m : Nat) (msg : WsMsg) : List (List Byte) :=
  let cs := wsChunks d.plenMax (d.wsPayload m msg)
  cs.zipIdx.map (fun (c, i) => wsHead msg.typ d.wsMember m (decide (i = 0)) (decide (i + 1 = cs.length)) c.length 0 0 ++ c)

/-- Bytes v at place i. -/
def setBytes (bs : List Byte) (i : Nat) (v : List Byte) : List Byte := bs.take i ++ v ++ bs.drop (i + v.length)

/-- The Internet checksum of a byte sequence: the complement of its ones' complement sum of 16-bit words in network order. -/
def inetSum (bs : List Byte) : Nat :=
  let s := sumBy (fun i => (bs.getD (2 * i) 0).toNat * 256 + (bs.getD (2 * i + 1) 0).toNat) (List.range ((bs.length + 1) / 2))
  let fold (x : Nat) : Nat := x % 65536 + x / 65536
  65535 - fold (fold (fold s))

/-- The UDP header at u of a header that precedes n bytes: its length, its checksum over the pseudo-header. A sum of 0 is sent as all ones. -/
def fillUdp (h : List Byte) (u : Nat) (pseudo body : List Byte) : List Byte :=
  let h := setBytes h (u + 4) (beBytes 2 (8 + body.length) ++ zeros 2)
  let c := inetSum (pseudo ++ h.drop u ++ body)
  setBytes h (u + 6) (beBytes 2 (if c = 0 then 0xFFFF else c))

/-- A frame from a template: the packet engine fills in lengths and checksums and copies every other byte; the MAC pads a frame to 60 bytes before its
FCS (17 R355; IEEE 802.3 Clause 4). -/
def Tmpl.frame (t : Tmpl) (body : List Byte) : List Byte :=
  let h := (toBytes 72 t.bytes.toNat).take t.len
  let u := t.len - 8
  let n := 8 + body.length
  let h := match t.kind with
    | 1 =>
      let ip := t.len - 28
      let h := setBytes h (ip + 2) (beBytes 2 (20 + n))
      let h := setBytes h (ip + 10) (zeros 2)
      let h := setBytes h (ip + 10) (beBytes 2 (inetSum ((h.drop ip).take 20)))
      fillUdp h u ((h.drop (ip + 12)).take 8 ++ [0, 17] ++ beBytes 2 n) body
    | 2 =>
      let ip := t.len - 48
      let h := setBytes h (ip + 4) (beBytes 2 n)
      fillUdp h u ((h.drop (ip + 8)).take 32 ++ beBytes 4 n ++ [0, 0, 0, 17]) body
    | _ => h
  let f := h ++ body
  f ++ zeros (60 - f.length)

/-- The port that a frame for a member goes out on, with its template: the lowest-numbered whose link is up and for which the entry names a template
(17 R355). -/
def Device.portFor (d : Device) (m : Nat) : Option (Nat × Tmpl) :=
  let p := d.peer m
  let at_ (port : Nat) (use : Bool) (i : Nat) : Option (Nat × Tmpl) :=
    let x : Tmpl := Tbl.get {} d.ws.tmpls i
    if use && x.valid && decide (x.link / 4 = port) && Tbl.get false d.ws.linkUp x.link then some (port, x) else none
  (at_ 0 p.useP0 p.tmplP0).orElse (fun _ => at_ 1 p.useP1 p.tmplP1)

/-- Where a member's frames lie in the transmit buffers of the Reservoir, a port's in the receive buffers (04, Table 4.9): DESIGN CHOICE, assumption
156. -/
def wsTxAt (m : Nat) : Nat := 0xCC00_0000 + m * 0x8000
def wsRxAt (port : Nat) : Nat := 0xD000_0000 + port * 0x200_0000

/-- The packet engine or a port moves a frame through HG_WS (14, Table 14.3): it waits at the closed gate, or is refused, reported and dropped. -/
def throughWs (who : AccessOf) (master addr len kind : Nat) (d : Device) (go : Device → Device) : Device :=
  match checkAll d 82 0 kind false none (linePieces addr len) with
  | (.permit, _, _) => go d
  | (.wait, a, n) => gateWait 82 who a n kind d
  | (.refuse c rg st, a, n) => reportRefusal 82 0 a n kind master c rg st true d

/-- A frame goes out, when a port can carry it. -/
def wsOut (m : Nat) (bytes : List Byte) (d : Device) : Device :=
  match d.portFor m with
  | some (port, t) =>
    throughWs (.frameOut m bytes) 0xE2 (wsTxAt m) bytes.length 0 d
      (fun d => (d.emit (.frame port (t.frame bytes))).updPeer m (fun p => { p with lastTx := d.time }))
  | none => d

/-- Traffic that keeps a channel from being idle: every message but KEEPALIVE. -/
def WsMsg.isTraffic : WsMsg → Bool
  | .keepalive => false
  | _ => true

/-- Messages that a new channel carries on with. -/
def WsMsg.survives : WsMsg → Bool
  | .keepalive | .joinAck | .close | .keyRepl _ _ _ _ _ | .keyReplDestroy _ => false
  | _ => true

/-- Send on an open channel: each frame with its SEQ, kept as it is sent until acknowledged (17 R359). -/
def sendUp (m : Nat) (msg : WsMsg) (d : Device) : Device :=
  let fs := d.sealedFrames m msg
  let d := d.updPeer m (fun p => { p with
    unacked := p.unacked ++ fs
    txSeq := p.txSeq + fs.length
    lastTraffic := if msg.isTraffic then d.time else p.lastTraffic })
  foldOver (fun (f : WsFrame) d => wsOut m f.sealed d) fs d

/-- Send a clear message. -/
def sendClear (m : Nat) (msg : WsMsg) (d : Device) : Device := foldOver (fun f d => wsOut m f d) (d.clearFrames m msg) d

/-! ## Links (17 R353, R355) -/

/-- Messages not acknowledged are sent again where the frames of a member now go out on another port (17 R355). -/
def resendMoved (before : Device) (d : Device) : Device :=
  foldOver (fun (x : Nat × Peer) d =>
    if x.2.up && decide ((before.portFor x.1).map Prod.fst ≠ (d.portFor x.1).map Prod.fst) then
      foldOver (fun (w : WsFrame) d => wsOut x.1 w.sealed d) x.2.unacked d
    else d) d.ws.peers d

/-- A link goes down: LINK_DOWN, and what it carried moves to the other port. -/
def dropLink (l : Nat) (d : Device) : Device :=
  if !Tbl.get false d.ws.linkUp l then d
  else
    let down := { d with ws := { d.ws with linkUp := Tbl.set false d.ws.linkUp l false } }
    resendMoved d (notice 0 0x8002 1 l 0 0 0 (record 0x8002 0 false l 0 0 0 down))

/-- Every link of a port goes down: the port is fenced (15, Table 15.2 group 13). -/
def dropPort (p : Nat) (d : Device) : Device := foldOver dropLink [4 * p, 4 * p + 1, 4 * p + 2, 4 * p + 3] d

/-! ## The frame filter (17 R354) -/

/-- Byte i of a frame. -/
def frameByte (f : List Byte) (i : Nat) : Nat := (f.getD i 0).toNat
/-- Two bytes in network order. -/
def frameBe16 (f : List Byte) (i : Nat) : Nat := frameByte f i * 256 + frameByte f (i + 1)

/-- Where the Watershed header of an accepted frame begins; none: the frame is no Watershed frame. EtherTypes 0x8100, 0x0800 and 0x86DD,
protocol and next header 17 are the standards'. -/
def Device.wsFilter (d : Device) (f : List Byte) : Option Nat :=
  let tag := if frameBe16 f 12 = 0x8100 then 4 else 0
  let typ := frameBe16 f (12 + tag)
  let o := 14 + tag
  if typ = 0x8A5C then (if ofBytes (f.take 6) = d.wsMac then some o else none)
  else if typ = 0x0800 then
    if frameByte f o = 0x45 ∧ frameByte f (o + 6) % 64 = 0 ∧ frameByte f (o + 7) = 0 ∧ frameByte f (o + 9) = 17 ∧
        word f (o + 16) 4 = d.wsIp4 ∧ frameBe16 f (o + 22) = d.wsUdp then some (o + 28) else none
  else if typ = 0x86DD then
    if frameByte f o / 16 = 6 ∧ frameByte f (o + 6) = 17 ∧ word f (o + 24) 16 = d.wsIp6 ∧ frameBe16 f (o + 42) = d.wsUdp then some (o + 48)
    else none
  else none

/-! ## The Watershed header (17, Tables 17.2, 17.3) -/

/-- Types that travel encrypted; the clear types are 0x01, 0x02, 0x03 and 0x05. -/
def wsEncrypted (t : Nat) : Bool :=
  [0x04, 0x10, 0x11, 0x20, 0x21, 0x22, 0x23, 0x24, 0x25, 0x30, 0x31, 0x32, 0x40, 0x41, 0x42, 0x43].contains t
def wsClear (t : Nat) : Bool := [0x01, 0x02, 0x03, 0x05].contains t

/-- The length of a whole message fits its type. -/
def wsLenOk (t n : Nat) : Bool := match t with
  | 0x01 => n == 7899
  | 0x02 => n == 11104
  | 0x03 => n == 3309
  | 0x05 => n == 1
  | 0x20 => n == 20
  | 0x21 => n == 1044
  | 0x22 => n == 8
  | 0x23 => n == 4
  | 0x24 => n == 5
  | 0x25 => n == 4
  | 0x30 => decide (44 ≤ n)
  | 0x31 => n == 5
  | 0x32 => n == 4
  | 0x40 => n == 12
  | 0x41 => n == 20
  | 0x42 => n == 9
  | 0x43 => n == 16
  | _ => n == 0

/-- The header's fields; `head` are its 24 bytes, `body` what follows: the payload, with its tag where it is encrypted. -/
structure WsHeader where
  typ : Nat
  src : Nat
  first : Bool
  last : Bool
  seq : Nat
  ack : Nat
  head : List Byte
  body : List Byte

/-- Read and check the header at `o` of a frame (R355): MAGIC, VERSION, a known TYPE, SRC a peer entry with EN = 1, DST this device, reserved
bits 0, PLEN, SEQ and ACK 0 for a clear type. -/
def Device.wsHeader (d : Device) (f : List Byte) (o : Nat) : Option WsHeader :=
  let t := frameByte f (o + 3)
  let src := word f (o + 4) 2
  let plen := word f (o + 10) 2
  let seq := word f (o + 12) 8
  let ack := word f (o + 20) 4
  let tag := if wsEncrypted t then 16 else 0
  if word f o 2 = 0x574B ∧ frameByte f (o + 2) = 1 ∧ (wsEncrypted t ∨ wsClear t) ∧ src < 1024 ∧ (d.peer src).en ∧ word f (o + 6) 2 = d.wsMember ∧
      frameByte f (o + 8) < 4 ∧ frameByte f (o + 9) = 0 ∧ plen ≤ d.plenMax ∧ o + 24 + plen + tag ≤ f.length ∧ (wsEncrypted t ∨ (seq = 0 ∧ ack = 0)) then
    some {
      typ := t
      src := src
      first := bitOf (frameByte f (o + 8)) 0
      last := bitOf (frameByte f (o + 8)) 1
      seq := seq
      ack := ack
      head := (f.drop o).take 24
      body := (f.drop (o + 24)).take (plen + tag) }
  else none

/-- Frames dropped under R354 and R355 (WS_RXDROP). -/
def rxDrop (port : Nat) (d : Device) : Device := d.bump (0x000D_010C + 0x40 * port)

/-! ## Reassembly (17 R355, R359) -/

/-- What a frame does to the message under reassembly: none when it does not fit; else the new part, and the message once it is whole. -/
def joinPart (part : Option (Nat × List Byte)) (x : RxFrame) : Option (Option (Nat × List Byte) × Option (Nat × List Byte)) :=
  let whole : Option (Nat × List Byte) := match part with
    | some (t, bs) => if x.first ∨ t ≠ x.typ then none else some (t, bs ++ x.body)
    | none => if x.first then some (x.typ, x.body) else none
  match whole with
  | none => none
  | some (t, bs) =>
    if 65536 < bs.length then none
    else if !x.last then some (some (t, bs), none)
    else if wsLenOk t bs.length then some (none, some (t, bs)) else none

/-- Deliver one frame of a channel, in order: dropped and counted when it does not fit. -/
def deliverFrame (port m : Nat) (x : RxFrame) (d : Device) : Device :=
  let d := d.updPeer m (fun p => { p with rxSeq := p.rxSeq + 1, lastTraffic := if x.typ = 0x10 then p.lastTraffic else d.time })
  match joinPart (d.peer m).part x with
  | none => rxDrop port (d.updPeer m (fun p => { p with part := none }))
  | some (part, whole) => d.updPeer m (fun p => { p with part := part, inbox := p.inbox ++ whole.toList })

/-- Deliver the frames that arrived early and are now in order. -/
def deliverEarly (port m : Nat) : (fuel : Nat) → Device → Device
  | 0, d => d
  | f + 1, d =>
    let p := d.peer m
    match firstWhere (fun x => decide (x.1 = p.rxSeq + 1)) p.early with
    | none => d
    | some (q, x) =>
      deliverEarly port m f (deliverFrame port m x (d.updPeer m (fun p => { p with early := p.early.filter (fun y => y.1 ≠ q) })))

/-! ## Acknowledgements (17 R359) -/

/-- What the acknowledgement of a message brings: a destroyed replica is forgotten (R362), a REHOME is confirmed (R364). -/
def messageAcked (m : Nat) (msg : WsMsg) (d : Device) : Device := match msg with
  | .keyReplDestroy t => { d with ws := { d.ws with replicas := d.ws.replicas.filter (fun r => !(decide (r.member = m) && decide (r.target = t) && r.destroying)) } }
  | .rehome _ _ n => match d.ws.rehoming with
    | none => d
    | some r =>
      let keep := d.ws.replicas.filter (fun x => !(decide (x.handle = r.handle) && decide (x.member = m) && decide (x.target = r.replica)))
      let d := { d with ws := { d.ws with rehoming := none, replicas := keep } }
      let d := notice 0 0x8023 0 r.handle m (n % 2 ^ 32) 0 (record 0x8023 0 false r.handle m (n % 2 ^ 32) 0 d)
      if (d.adm 0).waits = .rehome then admDone 0 stOk 0 0 d else d
  | _ => d

/-- ACK acknowledges every frame up to it; a message is acknowledged with its last frame. -/
def wsAck (m ack : Nat) (d : Device) : Device :=
  let done := (d.peer m).unacked.filter (fun w => decide (w.seq ≤ ack) && w.last)
  let d := d.updPeer m (fun p => { p with unacked := p.unacked.filter (fun w => decide (ack < w.seq)) })
  foldOver (fun (w : WsFrame) d => messageAcked m w.msg d) done d

/-- A frame of an encrypted type whose tag verifies, with its payload: it counts as valid; one delivered already is dropped without count. -/
def channelFrame (port : Nat) (h : WsHeader) (body : List Byte) (d : Device) : Device :=
  let m := h.src
  let p := d.peer m
  let x : RxFrame := { typ := h.typ, first := h.first, last := h.last, body := body }
  let d := wsAck m h.ack (d.updPeer m (fun p => { p with lastRx := d.time }))
  if h.seq = p.rxSeq + 1 then deliverEarly port m 256 (deliverFrame port m x d)
  else if h.seq ≤ p.rxSeq ∨ p.early.any (fun y => decide (y.1 = h.seq)) then d
  else if p.early.length < 256 ∧ h.seq ≤ p.rxSeq + 257 then d.updPeer m (fun p => { p with early := p.early ++ [(h.seq, x)] })
  else rxDrop port d

/-- A frame of a clear type. -/
def clearFrame (port : Nat) (h : WsHeader) (d : Device) : Device :=
  let x : RxFrame := { typ := h.typ, first := h.first, last := h.last, body := h.body }
  let part := if h.first then none else (d.peer h.src).partClear
  match joinPart part x with
  | none => rxDrop port (d.updPeer h.src (fun p => { p with partClear := none }))
  | some (part, whole) => d.updPeer h.src (fun p => { p with partClear := part, inbox := p.inbox ++ whole.toList })

/-- The payload of a frame on its channel: opened under the receiving direction's key, the header as additional data (R359). -/
def Device.wsOpened (d : Device) (h : WsHeader) : Option (List Byte) :=
  let p := d.peer h.src
  if p.up || decide (p.join = 3) then gcmOpen (p.keyOf (1 - p.dirTx)) (wsNonce (1 - p.dirTx) h.seq) h.head h.body else none

/-- A frame that the filter accepts enters the receive buffers, and the steward takes it. -/
def takeFrame (port : Nat) (frame : List Byte) (h : WsHeader) (d : Device) : Device :=
  throughWs (.frameIn port frame) (0xE0 + port) (wsRxAt port) (h.head ++ h.body).length 1 d fun d =>
    if wsClear h.typ then clearFrame port h d
    else match d.wsOpened h with
      | none => rxDrop port d
      | some body => channelFrame port h body d

/-- A frame without its FCS reaches the filter of a port (R354, R355). -/
def frameArrives (port : Nat) (frame : List Byte) (d : Device) : Device :=
  match (d.wsFilter frame).bind (d.wsHeader frame) with
  | none => rxDrop port d
  | some h => takeFrame port frame h d

end Sys2Proof.Machine
end

