-- ==== Sys2Proof/Machine/OpsGate.lean ====
section
/-!
DEFINITION. Sys2Proof/Machine/OpsGate.lean: closing, draining and opening a Headgate, the timeout of accesses that wait at a closed one, the
descriptor window (14 R296 to R300).
-/
namespace Sys2Proof.Machine

/-- A write-back of queue `sq` waits at gate g: its burst read has been answered (14 R298). -/
def Device.heldBack (d : Device) (g : Nat) (sq : Option Nat) : Bool := (d.gate g).waiting.any (fun w => decide (w.who = .writeBack g sq))

/-- No old-rule access of gate g is outstanding (14 R298): bursts of the allotment's rings, engine reads issued. -/
def Device.gateQuiet (d : Device) (g : Nat) : Bool :=
  if g < 64 then (decide ((d.adm g).burst = 0) || d.heldBack g none) &&
    d.sqs.all (fun x => !decide (x.1 / 1024 = g) || decide (x.2.burst = 0) || d.heldBack g (some (x.1 % 1024)))
  else if g < 80 then (enginesOf (g - 64)).all (fun e => decide ((d.eng e).arch.rlds = []))
  else true

/-- CLOSE is set: takes effect at a clock edge (14 R298). -/
def closeGate (g : Nat) (d : Device) : Device :=
  if (d.gate g).close then d else d.updGate g (fun t => { t with close := true, drained := false, written := 0 })

/-! ## Steward accesses (01 R8; 14, Table 14.3) -/

/-- The check of a steward access: gate 83, then for host memory gate 0. The gate that decides is answered. -/
def Device.stewardCheck (d : Device) (addr len kind : Nat) (host : Bool) : Verdict × Nat :=
  match gateCheck d 83 0 addr len kind host none with
  | .permit => if host then (gateCheck d 0 0 addr len kind true none, 0) else (.permit, 83)
  | v => (v, 83)

/-- An access of a steward core: performed and answered, held at a closed gate, or refused, reported and answered. `data` is what is written, or what
host memory holds. -/
def stewardAccess (core addr len kind : Nat) (host : Bool) (ident : Nat) (data : List Byte) (d : Device) : Device :=
  match d.stewardCheck addr len kind host with
  | (.permit, _) =>
    if kind = 0 then toCustody (.stwReply ident true (if host then data else d.rsvRead addr len)) d
    else toCustody (.stwReply ident true []) (if host then hostWrite 0 addr data d else d.rsvWrite addr data)
  | (.wait, g) => gateWait g (.steward core host ident data) addr len kind d
  | (.refuse c rg st, g) => toCustody (.stwReply ident false []) (reportRefusal g 0 addr len kind (0xF8 + core) c rg st true d)

/-- An access that waited is made again. What a command of the table makes again by itself only leaves the gate. -/
def retryAccess (w : GateWait) (d : Device) : Device := match w.who with
  | .ring a n => if (d.sq a n).scanning && decide ((d.sq a n).burst = 0) then issueBurst a n d else d
  | .completion a n => drainCq 4097 a n d
  | .notice a => notesRoom a d
  | .admCqe a => drainAdm 4097 a d
  | .admRing a => if (d.adm a).scanning && decide ((d.adm a).burst = 0) then issueAdm a d else d
  | .steward c host i data => stewardAccess c w.addr w.len w.kind host i data d
  | .frameOut m bs => wsOut m bs d
  | .frameIn p bs => frameArrives p bs d
  | _ => d

/-- CLOSE is cleared: waiting accesses are checked, in arrival order, under the rules now in force; descriptors written are
recorded (14 R298, R303). -/
def openGate (g : Nat) (d : Device) : Device :=
  let t := d.gate g
  if !t.close then d else
  let d := d.updGate g (fun t => { t with
    close := false
    drained := false
    written := 0
    waiting := [] })
  let d := if t.written = 0 then d else recordCompute 0x6010 (if g < 64 then g else 0) false g t.written 0 0 d
  foldOver retryAccess t.waiting d

/-- The allotment of an access that waits, its MASTER code (14, Table 14.3). -/
def GateWait.allotOf (d : Device) (w : GateWait) : Nat := match w.who with
  | .ring a _ | .writeBack a _ | .completion a _ | .notice a | .createRing a | .admRing a | .admCqe a | .admData a => a
  | .input k | .aux k | .output k | .engine k | .line _ k | .digest k _ => (d.cmdOr k).allot
  | .steward _ _ _ _ | .exchange | .frameOut _ _ | .frameIn _ _ => 0
def GateWait.master (d : Device) (w : GateWait) : Nat := match w.who with
  | .ring _ _ | .writeBack _ _ | .completion _ _ | .notice _ | .createRing _ | .admRing _ | .admCqe _ => 0xF0
  | .admData _ => if w.kind = 1 then 0xF4 else 0xF0
  | .input _ | .aux _ => 0xF1
  | .output _ => 0xF2
  | .engine k => (d.cmdOr k).engine.getD 0
  | .line l k => match firstWhere (fun (x : SbLine) => decide (x.slot = k)) (d.lat l).sb with
    | some x => x.eng
    | none => 0
  | .digest _ u => 0xD0 + u
  | .steward c _ _ _ => 0xF8 + c
  | .exchange => 0xF8
  | .frameOut _ _ => 0xE2
  | .frameIn p _ => 0xE0 + p

/-- The consequence of a refusal with cause CLOSED (14 R299): what the same access meets when its gate refuses it (02 R36, R40, R53, R55; 03,
Table 3.19). -/
def closedFault (w : GateWait) (d : Device) : Device := match w.who with
  | .ring a n => sqError a n 1 w.addr d
  | .writeBack a (some n) => sqError a n 2 w.addr d
  | .writeBack a none => admError a false 2 w.addr d
  | .completion a n => cqError a n 2 w.addr d
  | .notice a => recordCompute 0x7003 a false 0x0002_0000 2 (w.addr % 2 ^ 32) (w.addr / 2 ^ 32)
      (d.updNtc a (fun r => { r with error := true }))
  | .createRing a => admDone a stAccess 0 0 d
  | .admRing a => admError a false 1 w.addr d
  | .admCqe a => admError a true 2 w.addr d
  | .admData a => admDone a stAccess 0 (violationDetail 4 0xFFFF w.kind false) d
  | .input k => haltWith k stAccess (violationDetail 1 0xFFFF 0 false) 0 d
  | .aux k => haltWith k stAccess (violationDetail 3 0xFFFF 0 false) 0 d
  | .output k => haltWith k stAccess (violationDetail 4 0xFFFF 1 false) 0 d
  | .engine k => haltWith k stAccess (violationDetail 6 0xFFFF w.kind false) 0 d
  | .digest k _ => haltWith k stAccess (violationDetail 7 0xFFFF 0 false) 0 d
  | .line l k =>
    let d := d.updLat l (fun t => { t with imprecise := satAdd 0xFFFF_FFFF t.imprecise 1 })
    haltWith k stImprecise l 0 d
  | .steward _ _ i _ => toCustody (.stwReply i false []) d
  | .frameOut _ _ | .frameIn _ _ => d
  | .exchange => admDone 0 stAccess 0 (violationDetail 4 0xFFFF w.kind false) d

/-- The access waited HG_LIMIT µs: it is refused with cause CLOSED and reported (14 R299, R301, R302). -/
def closedTimeout (g : Nat) (w : GateWait) (d : Device) : Device :=
  let line := match w.who with
    | .line _ _ => true
    | _ => false
  let a := w.allotOf d
  let m := w.master d
  let d := d.updGate g (fun t => { t with waiting := t.waiting.filter (fun x => x ≠ w) })
  closedFault w (reportRefusal g a w.addr w.len w.kind m 4 0xFFFF false (!line) d)

/-! ## The descriptor window -/

/-- A descriptor is valid for a gate (14 R296). -/
def descValid (g : Nat) (r : Rec32) : Bool :=
  let reserved := decide (field (bytesAt r 8 1) 7 6 = 0) && decide (field (bytesAt r 10 1) 7 4 = 0) &&
    decide (field (bytesAt r 11 1) 7 6 = 0) && decide (field (bytesAt r 12 1) 7 1 = 0) && decide (bytesAt r 13 19 = 0)
  reserved && (!descEn r ||
    (decide (16 ≤ descLog2 r) && decide (descLog2 r ≤ 40) && decide (descBase r % 2 ^ descLog2 r = 0) &&
      (if g < 64 then decide (descAllot r = g) && !descHost r
       else (descHost r || decide (descBase r + 2 ^ descLog2 r ≤ 2 ^ 34)) &&
         (!descHost r || (decide (g = 83) && decide (descAllot r = 0))))))

/-- A write to HG_DSEL selects a descriptor and loads the staging words with it (14, Table 14.10). -/
def selectDesc (v : Nat) (d : Device) : Device :=
  let g := field v 6 0
  let r := field v 21 16
  { d with dselGate := g, dselRegion := r, dstage := (d.gate g).region r }

/-- A write to a staging word. -/
def stageDesc (i v : Nat) (d : Device) : Device :=
  { d with dstage := BitVec.ofNat 256 (withField d.dstage.toNat (32 * i + 31) (32 * i) v) }

/-- Why a commit of the staged descriptor is refused, in the order 4, 2, 1, 3; 0 when it is not (14, Table 14.10). -/
def Device.descRefusal (d : Device) : Nat :=
  let g := d.dselGate
  let t := d.gate g
  if 84 ≤ g ∨ regionCount g ≤ d.dselRegion then 4
  else if d.isLocked (0x0008_0000 + 0x10 * g) then 2
  else if !(t.close && t.drained) then 1
  else if !descValid g d.dstage then 3
  else 0

/-- A write to HG_DDATA[7] commits all eight staging words, or is refused and leaves them as they were (14 R298, Tables 14.5,
14.10). -/
def commitDesc (v : Nat) (d : Device) : Device :=
  let t := stageDesc 7 v d
  let c := t.descRefusal
  if c ≠ 0 then { d with dselErr := true, dselCause := c } else
  let r := t.dselRegion
  let rec_ := t.dstage
  let d := { t with dselErr := false, dselCause := 0 }
  d.updGate d.dselGate (fun t => { t with
    regions := Tbl.set 0 t.regions r rec_
    written := t.written + 1
    badRegions := t.badRegions.filter (fun x => x ≠ r) })

end Sys2Proof.Machine
end

