-- ==== Sys2Proof/Machine/OpsRegs.lean ====
section
/-!
DEFINITION. Sys2Proof/Machine/OpsRegs.lean: the host-writable registers that have no command of their own: what a write of each stores
(fields out of range, reserved bits), which are RWL, and what they read as (02, 04, 05, 11 to 18, 21).
-/
namespace Sys2Proof.Machine

/-- A value inside its range, else the value that the table stores instead. -/
def within (v lo hi other : Nat) : Nat := if lo ≤ v ∧ v ≤ hi then v else other

/-- What a write of v to a word held in `regs` stores (05 Table 5.13, 11 Table 11.11, 12 Table 12.8, 13 Table 13.19, 14 Table
14.10, 15 Table 15.14, 16 Table 16.11, 17 Table 17.14, 04 Table 4.16); none: no such word. -/
def storedWord (o v : Nat) : Option Nat :=
  if o = 0x000F_8000 then some (within (field v 11 0) 10 4000 100 + within (field v 23 12) 10 4000 50 * 2 ^ 12 + field v 31 31 * 2 ^ 31)
  else if o = 0x0007_1000 then some (within (field v 11 0) 1 4000 20 + within (field v 23 12) 1 4000 5 * 2 ^ 12 + field v 31 31 * 2 ^ 31)
  else if o = 0x0008_1000 then some (within (field v 13 0) 1 10000 100)
  else if o = 0x0009_0004 then some (within (field v 7 0) 1 24 4)
  else if o = 0x000C_0808 then some (field v 0 0 + (if field v 15 8 = 0 then 50 else field v 15 8) * 2 ^ 8 + field v 31 16 * 2 ^ 16)
  else if o = 0x0011_0014 then some (field v 11 0)
  else if o = 0x0013_0004 then some (within (field v 9 0) 1 1000 10)
  else if o = 0x0015_000C then some (within (field v 9 0) 1 1000 100)
  else if 0x0011_0100 ≤ o ∧ o < 0x0011_0190 then
    let s := (o - 0x0011_0100) / 8
    if (o - 0x0011_0100) % 8 = 0 then
      some (field v 6 1 * 2 + 1 + (if s < 8 then field v 8 8 * 2 ^ 8 else 0) + (if field v 23 16 = 0 then 1 else field v 23 16) * 2 ^ 16)
    else
      let w := field v 13 0
      some ((if w = 0 then 1 else min w 16000) + field v 14 14 * 2 ^ 14)
  else if o = 0x000D_0000 then some (field v 0 0 + field v 25 16 * 2 ^ 16)
  else if o = 0x000D_0008 ∨ o = 0x000D_000C ∨ o = 0x000D_0028 ∨ o = 0x000D_0034 ∨ (0x000D_0040 ≤ o ∧ o < 0x000D_0050) then some v
  else if o = 0x000D_002C then some (field v 15 0)
  else if o = 0x000D_0014 then some (within (field v 15 0) 1 10000 50 + within (field v 31 16) 10 60000 1000 * 2 ^ 16)
  else if o = 0x000D_0018 then some (if field v 20 0 = 0 then 1024 else min (field v 20 0) 1048576)
  else if o = 0x000D_001C then some (field v 20 0)
  else if o = 0x000D_0020 then some (field v 15 0)
  else if o = 0x000D_0024 then some (within (field v 13 0) 512 8192 1400)
  else if o = 0x000D_0030 then some (field v 15 0)
  else if o = 0x000D_0100 ∨ o = 0x000D_0140 then some (field v 3 0)
  else none

/-- Registers of access RWL (04, 05, 11 to 17). -/
def isRwl (o : Nat) : Bool :=
  (storedWord o 0).isSome ||
  (decide (0x0002_1000 ≤ o) && decide (o < 0x0002_1400) && decide (o % 16 < 12)) ||
  (decide (0x0008_0000 ≤ o) && decide (o < 0x0008_0540) && decide (o % 16 = 0)) ||
  (decide (0x0009_0100 ≤ o) && decide (o < 0x0009_0200)) ||
  (decide (0x000A_0000 ≤ o) && decide (o < 0x000A_0200) && decide (o % 8 = 0)) ||
  (decide (0x0010_0100 ≤ o) && decide (o < 0x0010_0200))

/-- ALLOT_LAT rules (14 R288): a Lateral dedicated to n is in no other MAY_USE; a Lateral dedicated elsewhere is not in n's. -/
def Device.latAllowed (d : Device) (n mayUse dedicated : Nat) : Bool :=
  (List.range 64).all (fun m => m == n ||
    ((List.range 16).all (fun l =>
      !(bitOf dedicated l && (bitOf (d.allot m).mayUse l || bitOf (d.allot m).dedicated l)) &&
      !(bitOf mayUse l && bitOf (d.allot m).dedicated l))))

/-- A write to the register-level job of a digest engine acts only while it is under test and no job runs (11 R250). -/
def digWrite (k r v : Nat) (d : Device) : Device :=
  if (d.dig k).st ≠ 3 ∨ (d.dig k).busyFlag then d else
  d.updDig k (fun g =>
    if r = 0x04 then { g with
      alg := field v 3 0
      cshake := bitOf v 4
      compare := bitOf v 5
      outLen := field v 14 8 }
    else if r = 0x08 then { g with len := v }
    else if r = 0x0C then { g with srcLen := v }
    else if r = 0x10 then { g with src := (g.src / 2 ^ 32) * 2 ^ 32 + v }
    else if r = 0x14 then { g with src := (v % 4) * 2 ^ 32 + g.src % 2 ^ 32 }
    else if 0x80 ≤ r ∧ r < 0xC0 then
      let e := (List.range 64).map (fun i => g.expect.getD i 0)
      { g with expect := e.take (r - 0x80) ++ toBytes 4 v ++ e.drop (r - 0x7C) }
    else g)

/-- WS_PEER_CFG of the selected peer entry (17 R355, Table 17.14). -/
def peerCfg (v : Nat) (d : Device) : Device :=
  d.updPeer d.ws.peerSel (fun p => { p with
    tmplP0 := field v 7 0
    tmplP1 := field v 15 8
    useP0 := bitOf v 16
    useP1 := bitOf v 17
    en := bitOf v 18 })

/-- A write to a BAR0 register without a command of its own; a write to any other offset is ignored (21 R428). -/
def writeWord (o v : Nat) (d : Device) : Device :=
  match storedWord o v with
  | some w => d.setReg o w
  | none =>
    let n := (o - 0x0002_1000) / 16
    if 0x0002_1000 ≤ o ∧ o < 0x0002_1400 then
      if o % 16 = 0 then d.updAllot n (fun t => { t with inflightQuota := min (field v 12 0) 4096 })
      else if o % 16 = 4 then
        if d.latAllowed n (field v 15 0) (field v 31 16) then
          d.updAllot n (fun t => { t with mayUse := field v 15 0, dedicated := field v 31 16 })
        else d
      else if o % 16 = 8 then d.updAllot n (fun t => { t with weight := field v 7 0 })
      else d
    else if 0x0007_0000 ≤ o ∧ o < 0x0007_0800 then digWrite ((o - 0x0007_0000) / 256) (o % 256) v d
    else if o = 0x0007_100C then { d with digSlotSel := field v 5 0 }
    else if 0x0008_0000 ≤ o ∧ o < 0x0008_0540 ∧ o % 16 = 0 then
      if bitOf v 0 then closeGate ((o - 0x0008_0000) / 16) d else openGate ((o - 0x0008_0000) / 16) d
    else if 0x0008_1010 ≤ o ∧ o < 0x0008_102C then stageDesc ((o - 0x0008_1010) / 4) v d
    else if o = 0x0009_0018 then { d with rsv := { d.rsv with opPage := field v 21 0, opRetire := bitOf v 29 } }
    else if 0x000A_0000 ≤ o ∧ o < 0x000A_0200 ∧ o % 8 = 0 then
      d.updAllot ((o - 0x000A_0000) / 8) (fun t => { t with ctxQuota := min (field v 18 0) 262144 })
    else if 0x000B_0000 ≤ o ∧ o < 0x000C_0000 then
      let w := (o - 0x000B_0000) / 16
      if o % 16 = 0 then d.updWeir w (fun t => { t with sRate := some v })
      else if o % 16 = 4 then d.updWeir w (fun t => { t with sBurst := some (if v = 0 then 1 else min v 0x7FFF_FFFF) })
      else if o % 16 = 8 then d.updWeir w (fun t => { t with sWait := some (min (field v 15 0) 60000) })
      else weirCtrl w v d
    else if o = 0x000C_0010 then { d with flt := { d.flt with injSource := field v 7 0, injUnit := field v 15 8 } }
    else if o = 0x000C_0020 then { d with flt := { d.flt with unitCls := field v 2 0, unitIdx := field v 15 8 } }
    else if o = 0x000C_0024 then { d with flt := { d.flt with unitOp := field v 1 0 } }
    else if o = 0x000C_0810 then { d with flt := { d.flt with histAge := field v 4 0 } }
    else if 0x0010_0100 ≤ o ∧ o < 0x0010_0200 then
      d.updAllot ((o - 0x0010_0100) / 4) (fun t => { t with cisQuota := min (field v 12 0) 4096 })
    else if o = 0x0012_0000 then { d with evr := { d.evr with win := { d.evr.win with area := bitOf v 0 } } }
    else if o = 0x0013_0014 then { d with whd := { d.whd with injGroup := field v 4 0, injFb := bitOf v 5 } }
    else if o = 0x0013_0020 then { d with whd := { d.whd with drbgSel := field v 3 0 } }
    else if o = 0x0013_0050 then { d with whd := { d.whd with rawGroup := field v 4 0, rawFb := bitOf v 5 } }
    else if o = 0x0013_0054 then { d with whd := { d.whd with rawCursor := field v 10 0 } }
    else if o = 0x000D_0200 then { d with ws := { d.ws with tmplSel := field v 7 0 } }
    else if 0x000D_0240 ≤ o ∧ o < 0x000D_0288 then
      let i := o - 0x000D_0240
      { d with ws := { d.ws with tmplStage := BitVec.ofNat 576 (withField d.ws.tmplStage.toNat (8 * i + 31) (8 * i) v) } }
    else if o = 0x000D_0300 then { d with ws := { d.ws with peerSel := field v 9 0 } }
    else if o = 0x000D_0304 then peerCfg v d
    else d

/-- What an RW or RWL word reads as, for the reads of an overlay (18 R382). -/
def readWord (o : Nat) (d : Device) : Nat :=
  if (storedWord o 0).isSome then d.reg o else
  let n := (o - 0x0002_1000) / 16
  if 0x0002_1000 ≤ o ∧ o < 0x0002_1400 then
    if o % 16 = 0 then (d.allot n).inflightQuota + d.inflight n * 2 ^ 16
    else if o % 16 = 4 then (d.allot n).mayUse + (d.allot n).dedicated * 2 ^ 16
    else if o % 16 = 8 then (d.allot n).weight
    else 0
  else if 0x0008_0000 ≤ o ∧ o < 0x0008_0540 ∧ o % 16 = 0 then b2n (d.gate ((o - 0x0008_0000) / 16)).close
  else if 0x0009_0100 ≤ o ∧ o < 0x0009_0200 then (d.allot ((o - 0x0009_0100) / 4)).rsvPart
  else if 0x000A_0000 ≤ o ∧ o < 0x000A_0200 ∧ o % 8 = 0 then (d.allot ((o - 0x000A_0000) / 8)).ctxQuota
  else if 0x000B_0000 ≤ o ∧ o < 0x000C_0000 then
    let w := d.weir ((o - 0x000B_0000) / 16)
    if o % 16 = 0 then w.rate
    else if o % 16 = 4 then w.burst
    else if o % 16 = 8 then w.maxWait
    else w.allot + b2n w.en * 2 ^ 8 + b2n w.unlimited * 2 ^ 9
  else if 0x0010_0100 ≤ o ∧ o < 0x0010_0200 then (d.allot ((o - 0x0010_0100) / 4)).cisQuota
  else 0

/-- Registers that overlays and profile records may name (18 R383). -/
def overlayMay (o : Nat) : Bool :=
  decide (o % 4 = 0) && (isRwl o || (decide (0x000B_0000 ≤ o) && decide (o < 0x000C_0000)))

/-- A write to a word of an allotment page without a command of its own (02, Tables 2.18, 2.19, 2.23, 2.24; 04 Table 4.18; 16
Table 16.12). -/
def writePage (a o v : Nat) (d : Device) : Device :=
  let q := d.adm a
  let r := (d.allot a).ntc
  let low (x : Nat) : Nat := (x / 2 ^ 32) * 2 ^ 32 + (v / 4096) * 4096
  let high (x : Nat) : Nat := x % 2 ^ 32 + v * 2 ^ 32
  let admOpen := !q.enable && q.idle
  if o = 0x0008 then if admOpen then d.updAdm a (fun q => { q with sqBase := low q.sqBase }) else d
  else if o = 0x000C then if admOpen then d.updAdm a (fun q => { q with sqBase := high q.sqBase }) else d
  else if o = 0x0010 then if admOpen then d.updAdm a (fun q => { q with cqBase := low q.cqBase }) else d
  else if o = 0x0014 then if admOpen then d.updAdm a (fun q => { q with cqBase := high q.cqBase }) else d
  else if o = 0x0018 then
    let lg := field v 7 4
    let d := d.updAdm a (fun q => { q with
      irqEn := bitOf v 3
      vector := field v 12 8
      depthLog2 := if q.idle && decide (4 ≤ lg) && decide (lg ≤ 12) then lg else q.depthLog2 })
    if bitOf v 0 then admEnable a d else admDisable a d
  else if o = 0x3000 then if r.enable then d else d.updNtc a (fun r => { r with base := low r.base })
  else if o = 0x3004 then if r.enable then d else d.updNtc a (fun r => { r with base := high r.base })
  else if o = 0x3008 then
    let lg := field v 7 4
    let d := d.updNtc a (fun r => { r with
      vector := field v 12 8
      irqEn := bitOf v 16
      depthLog2 := if !r.enable && decide (4 ≤ lg) && decide (lg ≤ 12) then lg else r.depthLog2 })
    if bitOf v 0 then ntcEnable a d else ntcDisable a d
  else if o = 0x4000 then d.updAllot a (fun t => { t with evwArea := bitOf v 0 })
  else if o = 0x5000 then d.updAllot a (fun t => { t with wstSel := field v 11 0 })
  else if 0xE000 ≤ o ∧ o < 0xE200 then
    let n := (o - 0xE000) / 16
    d.updAllot a (fun t => { t with vecs := Tbl.upd {} t.vecs n (fun m =>
      if o % 16 = 0 then { m with addr := (m.addr / 2 ^ 32) * 2 ^ 32 + (v / 4) * 4 }
      else if o % 16 = 4 then { m with addr := m.addr % 2 ^ 32 + v * 2 ^ 32 }
      else if o % 16 = 8 then { m with data := v }
      else { m with mask := bitOf v 0 }) }) |> sendPending a
  else d

end Sys2Proof.Machine
end

