-- ==== Sys2Proof/Machine/OpsMode.lean ====
section
/-!
DEFINITION. Sys2Proof/Machine/OpsMode.lean: Mode Overlays and changes of mode (18 R369, R370, R382, R384), the Base Profile: its format, its
checks and its application (18 R378 to R381).
-/
namespace Sys2Proof.Machine

/-! ## Overlays (18 R382) -/

def Device.overlay (d : Device) (m : Nat) : Overlay := Tbl.get {} d.md.overlays m
def Device.updOverlay (d : Device) (m : Nat) (f : Overlay → Overlay) : Device :=
  { d with md := { d.md with overlays := Tbl.upd {} d.md.overlays m f } }

/-- The value of a word under a mask, from another word. -/
def merge (old new mask : Nat) : Nat := (old - (old &&& mask)) + (new &&& mask)

/-- Saved bits are kept by offset and mask: two triples of one overlay with one offset have disjoint masks (18 R383). -/
def tripleKey (t : Triple) : Nat := t.offset + t.mask * 2 ^ 32

/-- Apply one triple of mode m's overlay. -/
def applyTriple (m : Nat) (t : Triple) (d : Device) : Device :=
  let old := readWord t.offset d
  let d := d.updOverlay m (fun o => { o with saved := (o.saved.filter (fun x => x.1 ≠ tripleKey t)) ++ [(tripleKey t, old &&& t.mask)] })
  writeWord t.offset (merge old t.value t.mask) d

/-- Revert one triple of mode m's overlay. -/
def revertTriple (m : Nat) (t : Triple) (d : Device) : Device :=
  let old := readWord t.offset d
  let was := match firstWhere (fun (x : Nat × Nat) => decide (x.1 = tripleKey t)) (d.overlay m).saved with
    | some x => x.2
    | none => old &&& t.mask
  writeWord t.offset (merge old was t.mask) d

/-- Triples in listed order. -/
def runTriples (revert : Bool) (m : Nat) (ts : List Triple) (d : Device) : Device :=
  foldOver (fun t d => if revert then revertTriple m t d else applyTriple m t d) ts d

/-- Chunks of at most 16 triples (01, Table 1.5 MODE_APPLY). -/
def chunks16 : (fuel : Nat) → List Triple → List (List Triple)
  | 0, _ => []
  | f + 1, l => if l.length ≤ 16 then [l] else l.take 16 :: chunks16 f (l.drop 16)

/-- Send the compute die's triples of mode m's overlay: phase 0 apply, 1 revert. The last message is confirmed. -/
def sendOverlay (m phase : Nat) (ts : List Triple) (d : Device) : Device :=
  let cs := chunks16 9 ts
  foldOver (fun (x : List Triple × Nat) d => toCompute (.modeApply m phase x.1 (decide (x.2 + 1 = cs.length))) d) cs.zipIdx d

/-- The triples of an overlay on each die. -/
def Overlay.custody (o : Overlay) : List Triple := o.triples.filter (fun t => isCustody t.offset)
def Overlay.compute (o : Overlay) : List Triple := o.triples.filter (fun t => !isCustody t.offset)

/-- The overlay of a mode whole, where its exchange is part of a longer step (bring-up, profile application). -/
def applyOverlay (m : Nat) (d : Device) : Device := runTriples false m (d.overlay m).triples d
def revertOverlay (m : Nat) (d : Device) : Device := runTriples true m (d.overlay m).triples d

/-! ## Changes of mode -/

/-- The second half of a change: the target's overlay is applied. -/
def applyPhase (target : Mode) (cause : Nat) (byAdmin : Bool) (d : Device) : Device :=
  let o := d.overlay target.code
  let d := runTriples false target.code o.custody d
  let d := { d with md := { d.md with change := some {
    target := target
    phase := 1
    cause := cause
    since := d.time
    byAdmin := byAdmin } } }
  sendOverlay target.code 0 o.compute d

/-- A change of mode begins: the present mode's overlay is reverted, then the target's is applied (18 R382). One change runs at a
time (R370): while one runs, nothing begins. -/
def beginChange (target : Mode) (cause : Nat) (byAdmin : Bool) (d : Device) : Device :=
  if d.md.change.isSome then d else
  let m := d.md.mode.code
  let o := d.overlay m
  let d := runTriples true m o.custody d
  if o.compute = [] then applyPhase target cause byAdmin d else
  let d := { d with md := { d.md with change := some {
    target := target
    phase := 2
    cause := cause
    since := d.time
    byAdmin := byAdmin } } }
  sendOverlay m 1 o.compute d

/-- The mode is entered: DEV_MODE changes, the change is counted, 0x1001 is recorded and posted to every allotment (18, Tables
18.14, 18.16). -/
def enterMode (target : Mode) (cause : Nat) (d : Device) : Device :=
  let old := d.md.mode
  let d := { d with md := { d.md with mode := target, prev := old, change := none } }
  let d := d.bump 0x0014_000C
  let n := (d.overlay target.code).triples.length
  let d := record 0x1001 0 true target.code old.code cause n d
  noticeAll 0x1001 0 target.code old.code cause n d

/-! ## Low-flow conditions (15 R317, 18 R370) -/

def Device.lowFlowCond (d : Device) : Bool := (d.boot.cdReady && d.anyShort) || d.flt.thermWarn

/-- Cause word of 0x1001 for an entry to Low-flow. -/
def Device.lowFlowCause (d : Device) : Nat := if d.flt.thermWarn && !d.anyShort then 3 else 2

/-- The first Lateral that is short of engines. -/
def Device.shortLateral (d : Device) : Nat := ((List.range 16).find? (fun l => d.latShort l)).getD 0

/-- Each condition of R317 that has arisen or ended is logged (15, Table 15.12): an engine shortage with its Lateral. -/
def lowFlowEvents (d : Device) : Device :=
  let d := match d.boot.cdReady && d.anyShort, d.flt.shortSeen with
    | true, none => recordAs 0x3008 custodySource 0 false d.time 0 1 d.shortLateral 0
        { d with flt := { d.flt with shortSeen := some d.shortLateral } }
    | false, some l => recordAs 0x3008 custodySource 0 false d.time 0 0 l 0 { d with flt := { d.flt with shortSeen := none } }
    | _, _ => d
  if d.flt.thermWarn = d.flt.thermSeen then d
  else recordAs 0x3008 0x8B 0 false d.time 1 (b2n d.flt.thermWarn) 0 0 { d with flt := { d.flt with thermSeen := d.flt.thermWarn } }

/-- A Low-flow condition has arisen or ended: 0x3008 is logged, the entry is ordered in Service, noted in Maintenance and
Retention; the 1 s of R317 counts from the end of the last condition. -/
def lowFlowCheck (d : Device) : Device :=
  let d := lowFlowEvents d
  let c := d.lowFlowCond
  if c && !d.flt.lowFlowOrdered then
    let d := { d with flt := { d.flt with lowFlowOrdered := true } }
    if d.md.mode = .service then toCompute (.faultAction .lowFlow) d
    else if d.md.mode = .maintenance ∨ d.md.mode = .retention then { d with md := { d.md with lowFlowNoted := true } }
    else d
  else if !c && d.flt.lowFlowOrdered then
    let d := { d with flt := { d.flt with lowFlowOrdered := false, clearSince := d.time } }
    { d with md := { d.md with lowFlowNoted := false } }
  else d

/-- A Low-flow condition that arose during a change is met when the change is over: one change runs at a time (18 R370). -/
def lowFlowNext (d : Device) : Device :=
  if d.md.mode = .service ∧ d.lowFlowCond ∧ d.flt.lowFlowOrdered then beginChange .lowFlow d.lowFlowCause false d else d

/-- Service, or Low-flow when its conditions hold (18, Table 18.2). -/
def Device.serviceOrLow (d : Device) : Mode := if d.lowFlowCond then .lowFlow else .service

/-! ## The Base Profile: format (18 R378, Tables 18.8, 18.9) -/

/-- A profile is refused with a DETAIL at a section and a record; `section_` is the type of the section, 7 + m for the overlay of mode m, until
`placed` puts its index in the profile (that index counts from 0 in the profile's order: DESIGN CHOICE, assumption 158). -/
structure ProfRefusal where
  detail : Nat
  section_ : Nat := 0
  record_ : Nat := 0
deriving DecidableEq, Repr

/-- Cut a body into records of n bytes; a part record fails. -/
def records (n : Nat) : (fuel : Nat) → List Byte → Option (List (List Byte))
  | 0, _ => none
  | f + 1, l => if l = [] then some [] else if l.length < n then none else (records n f (l.drop n)).map (l.take n :: ·)

/-- The sections: type and body, for as many as the header counts. -/
def sections : (count : Nat) → List Byte → Option (List (Nat × List Byte))
  | 0, l => if l = [] then some [] else none
  | c + 1, l =>
    let len := word l 4 4
    if l.length < 8 ∨ word l 2 2 ≠ 0 ∨ l.length < 8 + len then none
    else (sections c (l.drop (8 + len))).map ((word l 0 2, (l.drop 8).take len) :: ·)

def tripleOf (l : List Byte) : Triple := { offset := word l 0 4, value := word l 4 4, mask := word l 8 4 }

/-- Put one section into the profile; none when its body does not follow Table 18.9. -/
def addSection (p : Profile) (x : Nat × List Byte) : Option Profile :=
  let b := x.2
  let recs (n : Nat) := records n (b.length + 1) b
  match x.1 with
  | 1 => (recs 8).map (fun rs => { p with regs := rs.map (fun r => (word r 0 4, word r 4 4)) })
  | 2 => (recs 36).bind (fun rs => if rs.any (fun r => word r 2 2 ≠ 0) then none else
      some { p with descs := rs.map (fun r => (word r 0 1, word r 1 1, BitVec.ofNat 256 (word r 4 32))) })
  | 3 => (recs 20).bind (fun rs => if rs.any (fun r => word r 2 2 ≠ 0) then none else
      some { p with weirs := rs.map (fun r => (word r 0 2, [word r 4 4, word r 8 4, word r 12 4, word r 16 4])) })
  | 4 => (recs 8).bind (fun rs => if rs.any (fun r => word r 1 1 ≠ 0 ∨ word r 6 2 ≠ 0) then none else
      some { p with quotas := rs.map (fun r => (word r 0 1, word r 2 2, word r 4 2)) })
  | 5 => if b.length = 16 ∧ word b 8 8 = 0 then some { p with keys := some (word b 0 4, word b 4 4) } else none
  | 6 => (recs 4).map (fun rs => { p with unlock := rs.map (fun r => word r 0 4) })
  | 7 =>
    let n := word b 2 2
    if b.length < 4 ∨ word b 1 1 ≠ 0 ∨ 128 < n ∨ b.length ≠ 4 + 12 * n then none
    else (records 12 (n + 1) (b.drop 4)).map (fun rs => { p with overlays := p.overlays ++ [(word b 0 1, rs.map tripleOf)] })
  | _ => none

/-- No section type is repeated beyond R378: types 1 to 6 once, type 7 once for each mode. -/
def sectionsOnce (ss : List (Nat × List Byte)) : Bool :=
  let keys := ss.map (fun x => if x.1 = 7 then 7 + 256 * (1 + word x.2 0 1) else x.1)
  decide (keys.eraseDups.length = keys.length)

def profileMagic : Nat := 0x5042_514B
def signatureLen : Nat := 4627

/-- The format check of R379: the header follows Table 18.8, sections add up to LENGTH, none is repeated. -/
def parseProfile (img : List Byte) : Option Profile :=
  let n := word img 12 4
  let count := word img 6 2
  if img.length < 64 + signatureLen ∨ word img 0 4 ≠ profileMagic ∨ word img 4 2 ≠ 1 ∨ count = 0 ∨ 16 < count ∨
      n ≠ img.length ∨ 196608 < n ∨ word img 24 8 ≠ 0 then none
  else
    match sections count ((img.take (n - signatureLen)).drop 64) with
    | none => none
    | some ss =>
      if !sectionsOnce ss then none
      else ss.foldl (fun (p : Option Profile) x => p.bind (fun p => addSection p x))
        (some { version := word img 8 4, digest := sha3_256 img })

/-! ## The Base Profile: content checks (18 R379, R383, R384) -/

/-- The first record of a list that fails. -/
def firstBad {α : Type} (sec : Nat) (bad : α → Bool) : (i : Nat) → List α → Option ProfRefusal
  | _, [] => none
  | i, x :: t => if bad x then some { detail := 0x55, section_ := sec, record_ := i } else firstBad sec bad (i + 1) t

/-- Overlay triples of a mode: targets R383 allows, disjoint masks on one offset, COUNT 0 for modes 0, 1 and 7. -/
def overlayBad (x : Nat × List Triple) : Bool :=
  decide (8 ≤ x.1) || (decide (x.1 = 0 ∨ x.1 = 1 ∨ x.1 = 7) && decide (x.2 ≠ [])) ||
  x.2.any (fun t => !overlayMay t.offset) ||
  x.2.zipIdx.any (fun a => x.2.zipIdx.any (fun b => decide (a.2 < b.2) && decide (a.1.offset = b.1.offset) &&
    decide (a.1.mask &&& b.1.mask ≠ 0)))

/-- The words that a profile's REGISTERS section gives, the last record of an offset deciding. -/
def Profile.regOf (p : Profile) (o : Nat) : Nat := p.regs.foldl (fun v r => if r.1 = o then r.2 else v) 0
def Profile.names (p : Profile) (o : Nat) : Bool := p.regs.any (fun r => r.1 = o)

/-- Quota sums (04 R87, R100; 13 R268; 18 R379). -/
def Profile.sumsOk (p : Profile) : Bool :=
  let s (f : Nat → Nat) : Nat := sumBy f (List.range 64)
  decide (s (fun n => min (field (p.regOf (0x000A_0000 + 8 * n)) 18 0) 262144) ≤ 262144) &&
  decide (s (fun n => field (p.regOf (0x0009_0100 + 4 * n)) 9 0) * 16 ≤ 12928) &&
  decide (s (fun n => field (p.regOf (0x0010_0100 + 4 * n)) 12 0) ≤ 4096)

/-- Queue quota sums (18 R379). -/
def Profile.queuesOk (p : Profile) : Bool :=
  decide (sumBy (fun q => q.2.1) p.quotas ≤ 16384) && decide (sumBy (fun q => q.2.2) p.quotas ≤ 16384) &&
  p.quotas.all (fun q => decide (q.1 < 64) && decide (q.2.1 ≤ 1024) && decide (q.2.2 ≤ 1024))

/-- ALLOT_LAT values obey R288 among themselves. -/
def Profile.latOk (p : Profile) : Bool :=
  let lat (n : Nat) : Nat := p.regOf (0x0002_1004 + 16 * n)
  (List.range 64).all (fun n => (List.range 64).all (fun m => m == n ||
    decide (field (lat n) 31 16 &&& (field (lat m) 15 0 ||| field (lat m) 31 16) = 0)))

/-- No quota falls below present use, no partition changes that holds buffers (18 R379). -/
def Device.profFits (d : Device) (p : Profile) : Bool :=
  (List.range 64).all (fun n =>
    let t := d.allot n
    decide (d.ctxUsed n ≤ field (p.regOf (0x000A_0000 + 8 * n)) 18 0) &&
    decide (d.inflight n ≤ field (p.regOf (0x0002_1000 + 16 * n)) 12 0) &&
    decide (countWhere (fun x => decide (x.2.attr.st ≠ 0) && decide (x.2.attr.allot = n)) d.cis.slots ≤
      field (p.regOf (0x0010_0100 + 4 * n)) 12 0) &&
    decide (d.sqHeld n ≤ sumBy (fun q => if q.1 = n then q.2.1 else 0) p.quotas) &&
    decide (d.cqHeld n ≤ sumBy (fun q => if q.1 = n then q.2.2 else 0) p.quotas) &&
    (decide (t.bufs = []) || decide (t.rsvPart = field (p.regOf (0x0009_0100 + 4 * n)) 9 0)))

/-- A Weir record is within its ranges (04, Table 4.17). -/
def weirBad (x : Nat × List Nat) : Bool :=
  let g (i : Nat) : Nat := x.2.getD i 0
  decide (4096 ≤ x.1) || decide (g 1 = 0) || decide (0x7FFF_FFFF < g 1) || decide (60000 < g 2) || decide (field (g 3) 7 6 ≠ 0) ||
    decide (field (g 3) 31 10 ≠ 0)

/-- The content checks, in the order listed; the first failure decides. -/
def Device.profContent (d : Device) (p : Profile) : Option ProfRefusal :=
  (firstBad 1 (fun (r : Nat × Nat) => !overlayMay r.1) 0 p.regs).orElse fun _ =>
  (firstBad 6 (fun o => !overlayMay o) 0 p.unlock).orElse fun _ =>
  (firstBad 2 (fun (x : Nat × Nat × Rec32) => decide (84 ≤ x.1) || decide (regionCount x.1 ≤ x.2.1) || !descValid x.1 x.2.2) 0 p.descs).orElse fun _ =>
  (firstBad 3 weirBad 0 p.weirs).orElse fun _ =>
  if !p.sumsOk then some { detail := 0x55, section_ := 1 }
  else if !p.queuesOk then some { detail := 0x55, section_ := 4 }
  else if !p.latOk then some { detail := 0x55, section_ := 1 }
  else if !d.profFits p then some { detail := 0x55, section_ := 1 }
  else ((p.overlays.find? overlayBad).map (fun x => { detail := 0x55, section_ := 7 + x.1 }))

/-- The index of the section that a refusal names, by its type. -/
def ProfRefusal.placed (img : List Byte) (r : ProfRefusal) : ProfRefusal :=
  let ss := (sections (word img 6 2) ((img.take (img.length - signatureLen)).drop 64)).getD []
  let i := ss.findIdx (fun x => (if x.1 = 7 then 7 + word x.2 0 1 else x.1) = r.section_)
  { r with section_ := if i < ss.length then i else 0 }

/-- The checks of R379 in order. The DEVICE_ID of bytes 16 to 23 is 0 or the serial number; bytes 32 to 63 are the digest of the
owner key. -/
def Device.profCheck (d : Device) (img : List Byte) : Except (Nat × ProfRefusal) Profile :=
  match parseProfile img with
  | none => .error (stRefused, { detail := 0x53 })
  | some p =>
    let n := img.length - 4627
    if word img 32 32 ≠ d.md.ownerDigest.toNat ∨ mldsa87 "KQ BASE PROFILE" d.md.ownerKey (img.take n) (img.drop n) ≠ 0 then .error (stVerifyFalse, { detail := 3 })
    else if p.version ≤ d.md.profFloor then .error (stRefused, { detail := 0x54 })
    else if word img 16 8 ≠ 0 ∧ word img 16 8 ≠ Config.serial.toNat then .error (stRefused, { detail := 0x56 })
    else match d.profContent p with
      | some r => .error (stRefused, r.placed img)
      | none => .ok p

/-! ## The Base Profile: application (18 R380, Table 18.10) -/

/-- The committed profile replaces the inactive copy in its place: the one that is not in force, or the older one where none is (18 R380). -/
def commitProfile (p : Profile) (d : Device) : Device :=
  let newest := d.md.copies.foldl (fun m c => max m c.gen) 0
  let inForce := match d.md.prof with
    | some f => f.gen
    | none => newest
  let p := { p with gen := newest + 1 }
  let copies := if d.md.copies.length < 2 then d.md.copies ++ [p] else d.md.copies.map (fun c => if c.gen = inForce then c else p)
  { d with md := { d.md with copies := copies, profFloor := p.version, profPending := some p } }

/-- Every register that a profile covers takes its reset value: the RW and RWL words of R383, quotas, Weirs, descriptors. -/
def clearCovered (d : Device) : Device :=
  let d := { d with
    regs := resetWords false (resetWords true d.regs)
    weirs := Tbl.mapSet {} (fun _ (w : Weir) => { shedSec := w.shedSec, shedAllot := w.shedAllot }) d.weirs }
  let d := { d with gates := Tbl.mapSet {} (fun _ (g : Gate) => { g with regions := [], badRegions := [], written := 0 }) d.gates }
  { d with allots := Tbl.mapSet {} (fun _ (t : Allot) => { t with
      sqQuota := 0
      cqQuota := 0
      inflightQuota := 0
      mayUse := 0
      dedicated := 0
      weight := 0
      ctxQuota := 0
      rsvPart := 0
      cisQuota := 0 }) d.allots }

/-- One WEIR record: the four words as one commit, LEVEL at BURST (04 R99). A command in a line whose Weir is cleared by the
record is shed by that commit. -/
def applyWeir (x : Nat × List Nat) (line : List Nat) (d : Device) : Device :=
  let g (i : Nat) : Nat := x.2.getD i 0
  let d := d.updWeir x.1 (fun w => { w with
    sRate := some (g 0)
    sBurst := some (g 1)
    sWait := some (g 2)
    line := line })
  let d := weirCtrl x.1 (g 3) d
  d.updWeir x.1 (fun w => { w with level := if w.rate = 0 then 0 else (w.burst : Int) * 1024, rem := 0 })

/-- RSV_PART[n]: partitions change size only with the Base Profile (04 R100; that a host write of an unlocked one leaves it is DEDUCED, assumption
142). -/
def isPart (o : Nat) : Bool := decide (0x0009_0100 ≤ o) && decide (o < 0x0009_0200)

/-- One record of the REGISTERS section. -/
def profileWord (r : Nat × Nat) (d : Device) : Device :=
  if isPart r.1 then d.updAllot ((r.1 - 0x0009_0100) / 4) (fun t => { t with rsvPart := field r.2 9 0 }) else writeWord r.1 r.2 d

/-- What the partitions hold, as they lay in device `old`, at the places they now have: partitions with buffers keep their size (18 R379) and their
contents (04 R103). -/
def partMove (old d : Device) : Device :=
  let move (t : Tbl Byte) (c : Nat × Byte) : Tbl Byte :=
    if c.1 < 0xD800_0000 then Tbl.set 0 t c.1 c.2 else match old.partOwner c.1 with
      | some (n, off) => if off < (d.allot n).rsvPart * 0x100_0000 then Tbl.set 0 t (d.partBase n + off) c.2 else t
      | none => t
  { d with rsv := { d.rsv with mem := d.rsv.mem.foldl move [] } }

/-- Step 4: the profile's sections in order. A Weir without a record takes its reset value: its line is shed (04 R99). -/
def applySections (p : Profile) (d : Device) : Device :=
  let old := d.weirs
  let was := d
  let d := clearCovered d
  let d := foldOver (fun (w : Nat × Weir) d => if p.weirs.any (fun x => decide (x.1 = w.1)) then d else foldOver shed w.2.line d) old d
  let d := foldOver (fun (q : Nat × Nat × Nat) d => d.updAllot q.1 (fun t => { t with sqQuota := q.2.1, cqQuota := q.2.2 })) p.quotas d
  let d := partMove was (foldOver profileWord p.regs d)
  let d := foldOver (fun (w : Nat × List Nat) d => applyWeir w (Tbl.get {} old w.1).line d) p.weirs d
  foldOver (fun (x : Nat × Nat × Rec32) d => d.updGate x.1 (fun g => { g with regions := Tbl.set 0 g.regions x.2.1 x.2.2 })) p.descs d

/-- Steps 4 and 5: applied and locked; overlays of the profile become those of the modes. -/
def applyProfile (p : Profile) (d : Device) : Device :=
  let d := applySections p d
  let ov := p.overlays.foldl (fun (t : Tbl Overlay) x => Tbl.set {} t x.1 { triples := x.2 }) []
  { d with
    md := { d.md with
      prof := some p
      profPending := none
      overlays := ov
      locked := true
      unlock := p.unlock }
    boot := { d.boot with profile := true } }

/-- The record of a loaded profile (18, Table 18.14). -/
def recordProfile (p : Profile) (d : Device) : Device :=
  let dig := p.digest.toNat % 2 ^ 32
  let d := record 0xA001 0 false p.version dig p.gen 0 d
  d

end Sys2Proof.Machine
end

