-- ==== Sys2Proof/Machine/OpsWell.lean ====
section
/-!
DEFINITION. Sys2Proof/Machine/OpsWell.lean: mask generators are seeded (08 R182, R183), the Wellhead's sources and DRBG instances
(12 R252 to R260), the start of a bring-up and the reset that ends a Fatal fault (15, Table 15.7; 19 R388, R392, R400).
-/
namespace Sys2Proof.Machine

/-! ## Mask generators -/

/-- Reseed material is XORed into the first 512 bits of the rate, the state permuted, the count reset; the FIFO keeps what it holds (08 R182). -/
def mgSeed (m : BitVec 512) (g : MaskGen) : MaskGen :=
  { g with
    state := keccakBits 24 (g.state ^^^ m.zeroExtend 1600)
    blocks := 0
    seeded := true
    atLimit := false
    reqPending := false }

/-- An engine that enters service after ENTROPY_READY receives its first seed (08 R183). -/
def seedEngine (e : Nat) (d : Device) : Device :=
  if d.boot.entropyReady && !(d.eng e).mg.seeded then
    (d.updEng e (fun g => { g with mg := mgSeed (d.freeVal 512) g.mg })).tookFree
  else d

/-! ## DRBG instances -/

/-- The instance that takes over the Lateral of a fenced one: the next in service above it, counting modulo 16 (12 R259). -/
def Device.nextInstance (d : Device) (n : Nat) : Option Nat :=
  firstWhere (fun m => decide ((d.drbg m).st ≠ 3)) ((List.range 15).map (fun i => (n + 1 + i) % 16))

/-- The instance that serves a Lateral: its own unless fenced. -/
def Device.instanceOf (d : Device) (l : Nat) : Nat := if (d.drbg l).st = 3 then (d.nextInstance l).getD l else l

/-- Instances in service, as a bitmap. -/
def Device.instances (d : Device) : Nat := sumBy (fun n => b2n (decide ((d.drbg n).st = 1)) * 2 ^ n) (List.range 16)

/-- The source that feeds the conditioner: 0 main, 1 fallback. -/
def Device.feedNow (d : Device) : Nat := if d.whd.main.inService && d.whd.main.testing.isNone then 0 else 1

/-- Some instance is not fenced (12, Table 12.6). -/
def Device.someInstance (d : Device) : Bool := (List.range 16).any (fun n => decide ((d.drbg n).st ≠ 3))

/-- A change of the sources or instances in service takes effect: while no source is, the instances stop; the outage counts from its
start (12 R260, Table 12.6). -/
def sourcesChanged (d : Device) : Device :=
  let d := { d with whd := { d.whd with feed := d.feedNow } }
  let stop (g : Drbg) : Drbg := if g.st = 1 then { g with st := 2 } else g
  let d := if d.sourceUp then d else { d with whd := { d.whd with inst := Tbl.mapSet {} (fun _ g => stop g) d.whd.inst } }
  if d.sourceUp && d.someInstance then { d with whd := { d.whd with outage := none, outageTest := false } }
  else { d with whd := { d.whd with outage := some (d.whd.outage.getD d.time) } }

/-- An instance is fenced: its queue moves, in order, to the next in service (12 Table 12.6, Table 12.7). -/
def fenceDrbg (n : Nat) (d : Device) : Device :=
  let q := (d.drbg n).queue
  let to_ := d.nextInstance n
  let d := d.updDrbg n (fun g => { g with st := 3, queue := if to_.isSome then [] else g.queue })
  let d := match to_ with
    | some m => d.updDrbg m (fun g => { g with queue := g.queue ++ q })
    | none => d
  let d := record 0x5007 0 true n (to_.getD 0xFFFF_FFFF) 0 0 (sourcesChanged d)
  noticeAll 0x5007 1 n (to_.getD 0xFFFF_FFFF) 0 0 d

/-! ## Bring-up begins -/

/-- Bits of DEV_RESET_CAUSE (19, Table 19.7). -/
def causePower : Nat := 1
def causeResetN : Nat := 2
def causePerst : Nat := 4
def causeFatal : Nat := 8
def causeDouble : Nat := 16
def causeLevee : Nat := 32

/-- The latch of the battery island is copied into the recorder before any other record (16 R343, Table 16.10), then cleared. -/
def copyLatch (d : Device) : Device :=
  let n := d.lev.alarms.length
  let lost := d.lev.alarmLost
  let d := foldOver (fun (x : BitVec 64 × Nat) d =>
    let ticks := bytesAt x.1 2 6
    recordAs 0x2020 custodySource 0 false (ticks * 1_000_000_000 / 32768) (bytesAt x.1 0 2) x.2 (ticks % 2 ^ 32) (ticks / 2 ^ 32) d)
    d.lev.alarms.zipIdx d
  let d := if lost = 0 then d else record 0x2021 0 false lost 0 0 0 d
  { d with lev := { d.lev with alarms := [], alarmLost := 0, copied := n, overflow := lost } }

/-- Steps 1 and 2: the custody die leaves reset, the latch is copied, BRINGUP_START is appended. -/
def startBringup (cause attempt : Nat) (d : Device) : Device :=
  let d := { d with
    fl := { d.fl with fallback := true }
    lev := { d.lev with onBattery := false, src := Tbl.mapSet {} (fun _ (x : LevSource) => { x with fired := false, testSeen := false, noted := false }) d.lev.src }
    boot := { d.boot with
      custodyReset := false
      resetCause := cause
      attempt := attempt
      began := d.time
      stepReached := 2
      fail := false
      failStep := 0
      doneUs := 0 } }
  record 0xB001 0 false cause attempt 0 0 (copyLatch d)

/-- A compute-die reset passes through Bring-up; Debug stays Debug (18 R369). -/
def intoBringup (d : Device) : Device :=
  if d.md.mode = .debug ∨ d.md.mode = .bringup then { d with md := { d.md with change := none } } else
  let old := d.md.mode
  let d := { d with md := { d.md with mode := .bringup, prev := old, change := none } }
  record 0x1001 0 true 0 old.code 6 0 (d.bump 0x0014_000C)

/-- The step of Table 19.3 that has not completed. -/
def Device.bringupStep (d : Device) : Nat :=
  let b := d.boot
  if b.custodyReset then 1
  else if b.computeReset then 3
  else if !b.cusReady then 4
  else if !d.fl.trained then 5
  else if !b.unitsTested then 7
  else if !b.rsvReady then 8
  else if !b.unitKeys then 9
  else if b.stepReached < 10 then 10
  else if b.stepReached < 11 then 11
  else 12

/-- Both dies reset by a Levee RESET, and a new bring-up from step 1 (16 R337; 19, Table 19.5a). -/
def leveeReset (d : Device) : Device := startBringup causeLevee 1 { bothReset d with flt := { (bothReset d).flt with fatal := none } }

/-- A reset of the compute die alone: bring-up goes on from step 3 (19 R391, R400). -/
def restartCompute (cause attempt : Nat) (d : Device) : Device :=
  let d := logLeaves (computeReset (intoBringup d))
  { d with boot := { d.boot with
    resetCause := cause
    attempt := attempt
    began := d.time
    stepReached := 2
    doneUs := 0 } }

/-- Step 6 of Table 15.7: the compute die, and the custody die where R306 requires it, is reset and comes back. A Fatal fault during
bring-up ends the attempt; the third that fails leaves the device stopped (19 R400). -/
def fatalReset (d : Device) : Device :=
  match d.flt.fatal with
  | none => d
  | some f =>
    let cause := if f.double then causeDouble else causeFatal
    let att := if d.boot.serviceReady then 1 else d.boot.attempt + 1
    -- Firmware that fails authentication leaves the custody die stopped at step 4 (19, Table 19.5a).
    if f.source = 0x9D ∧ !d.boot.cusReady then { d with flt := { d.flt with fatal := some { f with stage := 3 } } }
    else if 3 < att then
      let step := d.bringupStep
      let d := { d with
        boot := { d.boot with fail := true, failStep := step }
        flt := { d.flt with fatal := some { f with stage := 3 } } }
      raiseAlert 3 (record 0xB009 0 false step 3 f.seq 0 d)
    else
      let back : FatalRec := { f with stage := 4 }
      if f.resetCustody then
        let d := bothReset d
        startBringup cause att { d with flt := { d.flt with fatal := some back } }
      else
        let d := restartCompute cause att d
        { d with flt := { d.flt with fatal := some back } }

end Sys2Proof.Machine
end

