-- ==== Sys2Proof/Machine/OpsFault.lean ====
section
/-!
DEFINITION. Sys2Proof/Machine/OpsFault.lean: the fault sources (15 R306), classification and escalation (R308, R309), the fault history (R310),
the reactions (R311 to R322), the operations on units (R325).
-/
namespace Sys2Proof.Machine

/-! ## Sources (15, Table 15.2) -/

/-- Sources marked † detect a condition. -/
def faultMarked (s : Nat) : Bool :=
  [0x3E, 0x55, 0x58, 0x5A, 0x5C, 0x5D, 0x68, 0x6B, 0x6E, 0x6F, 0x76, 0x77, 0x78, 0x79, 0x81, 0x84, 0x85, 0x86, 0x87, 0x88, 0x89,
    0x8A, 0x8B, 0x8C, 0x98, 0xAC, 0xAD, 0xAE, 0xAF, 0xB1, 0xB2, 0xB3, 0xB7, 0xBB].contains s

/-- Groups that allow completions to be written before the stop. -/
def groupDrains (g : Nat) : Bool := !([7, 12, 15, 16, 22].contains g)

/-- A Fatal fault of groups 17 to 23 resets the custody die too (R306). -/
def groupCustody (g : Nat) : Bool := decide (17 ≤ g)

/-- Sources of the custody die, seen directly; the Flume is watched from both ends. -/
def custodySees (s : Nat) : Bool :=
  let g := faultGroup s
  decide (g = 14) || (decide (17 ≤ g) && decide (g < 24) && decide (s ≠ 0xB4))
def computeSees (s : Nat) : Bool := decide (faultGroup s ≤ 16) || decide (s = 0xB4)

/-- The class of unit that the reaction of a source fences (R311): 0 engine, 1 LIU, 2 digest engine, 3 DRBG instance, 4 Flume sublink, 5
Watershed port, 6 steward core. -/
def fencesClass (s : Nat) : Option Nat := match faultGroup s with
  | 0 | 1 | 2 => some 0
  | 4 => some 1
  | 5 => some 2
  | 13 => some 5
  | 14 => some 4
  | 18 => some 6
  | 20 => if s = 0xA6 ∨ s = 0xA7 then some 3 else none
  | _ => none

/-- The class of unit that a source lies in, for a fault met under test (R309). -/
def unitClassOf (s : Nat) : Option Nat := fencesClass s

/-- Units of each class (00, Table 0.1; 15, Table 15.9). -/
def unitCount (cls : Nat) : Nat := [144, 32, 8, 16, 2, 2, 4, 0].getD cls 0

/-- FLT_CTRL fields. -/
def Device.autoReset (d : Device) : Bool := bitOf (d.reg 0x000C_0808) 0
def Device.fatalDwell (d : Device) : Nat := if d.boot.serviceReady then field (d.reg 0x000C_0808) 15 8 else 50
def Device.cackUs (d : Device) : Nat := field (d.reg 0x000C_0808) 31 16

/-- Commands that a fault affects: the one it names, and what runs on the unit that its reaction fences (R311). -/
def Device.affected (d : Device) (f : FaultIn) : List Nat :=
  let named := match f.slot with
    | some k => if (d.cmd k).isSome then [k] else []
    | none => []
  let onUnit := match fencesClass f.source with
    | some 0 => (d.eng f.unit).slot.toList
    | some 1 => (d.liu f.unit).bound.toList
    | some 2 => (match (d.dig f.unit).job with
      | some j => [j.slot]
      | none => [])
    | _ => []
  named ++ onUnit.filter (fun k => !named.contains k)

/-! ## The history record (15, Table 15.4) -/

/-- Build a history record. The affected command of an uncorrected fault that names none is the one that runs on the unit it fences. -/
def histRecord (d : Device) (f : FaultIn) (taken : Nat) (esc replayed : Bool) : Rec32 :=
  let c := if taken = 0 ∨ f.test then f.slot.bind d.cmd else (d.affected f).head?.bind d.cmd
  let a := match c with
    | some c => c.allot
    | none => 0
  let sq := match c with
    | some c => c.sq
    | none => 0xFFFF
  let tag := match c with
    | some c => eTag c.entry
    | none => 0
  let flags := faultClass f.source + 4 * taken + 16 * b2n esc + 32 * b2n f.injected + 64 * b2n replayed + 128 * b2n f.test
  BitVec.ofNat 256 (pack [(1, f.source), (1, faultGroup f.source), (1, flags), (1, a), (2, f.unit), (2, 0), (8, f.time),
    (8, f.syndrome), (2, sq), (2, tag), (4, d.flt.seq)])

/-- The last 32 are kept, oldest first; SEQ advances (R310). -/
def keepHistory (r : Rec32) (d : Device) : Device :=
  let h := d.flt.history ++ [r]
  { d with flt := { d.flt with
    history := if 32 < h.length then h.drop 1 else h
    seq := (d.flt.seq + 1) % 2 ^ 32 } }

/-- Append event 0x3001, 0x3002 or 0x3003 (R310, Table 15.12). -/
def faultEvent (code : Nat) (r : Rec32) (d : Device) : Device :=
  recordAs code (bytesAt r 0 1) (bytesAt r 3 1) (decide (code = 0x3003)) d.time (bytesAt r 0 4) (bytesAt r 28 4) (bytesAt r 16 4) (bytesAt r 20 4) d

/-- Records of Corrected faults are appended at most 16 times a second for each source. -/
def correctedEvent (r : Rec32) (d : Device) : Device :=
  let s := bytesAt r 0 1
  let n := Tbl.get 0 d.flt.perSource s
  let d := { d with flt := { d.flt with perSource := Tbl.set 0 d.flt.perSource s (n + 1) } }
  if n < 16 then faultEvent 0x3001 r d else d

/-! ## Reactions to a Contained fault -/

/-- The times of the fences of a unit within 24 h (R313). -/
def recentFences (now : Nat) (l : List Nat) : List Nat := l.filter (fun t => decide (now < t + 86_400_000_000_000))

/-- A unit is retired (R313). -/
def retireUnit (cls idx n : Nat) (d : Device) : Device :=
  let src := d.unitSource cls idx
  let d := d.updUnit cls idx (fun u => { u with retired := true })
  let d := recordAs 0x3006 src 0 false d.time (cls + idx * 256) n 0 0 d
  notice 0 0x3006 1 (cls + idx * 256) n 0 0 d

/-- A unit fenced by a fault goes under test at once; one fenced three times within 24 h is retired (R313). -/
def autoTest (cls idx : Nat) (d : Device) : Device :=
  let fences := recentFences d.time (d.unit cls idx).fences ++ [d.time]
  let d := d.updUnit cls idx (fun u => { u with
    testing := true
    ownerTest := false
    testFailed := false
    fences := fences })
  if 3 ≤ fences.length then retireUnit cls idx fences.length d else d

/-- A sublink is fenced and retrained (01, Table 1.6). -/
def fenceSublink (i : Nat) (d : Device) : Device :=
  let f (s : Sublink) : Sublink := { s with
    up := false
    fenced := true
    retraining := true
    tagFails := [] }
  let d := if i = 0 then { d with fl := { d.fl with sub0 := f d.fl.sub0 } } else { d with fl := { d.fl with sub1 := f d.fl.sub1 } }
  if d.fl.sub0.up || d.fl.sub1.up then d
  else { d with
    fl := { d.fl with downSince := some (d.fl.downSince.getD d.time) }
    boot := { d.boot with flumeUp := false } }

/-- Fault-fence of a unit that the custody die reaches itself. -/
def custodyFence (cls idx seq : Nat) (d : Device) : Device :=
  if (d.unit cls idx).fenced then d else
  let d := match cls with
    | 3 => fenceDrbg idx d
    | 4 => fenceSublink idx d
    | _ => d
  autoTest cls idx (noteFenced cls idx seq false d)

/-- What each group does besides fencing and replaying (Table 15.2): memories of the Sluice, the context cache, a gate's descriptor,
custody memories, the Wellhead's pool, the clock. The memory sources name their place in SYNDROME[17:0]. -/
def groupReaction (f : FaultIn) (d : Device) : Device :=
  let at_ := f.syndrome % 2 ^ 18
  match f.source with
  | 0x39 | 0x3A =>
    let w := at_ % 4096
    (match d.md.prof with
     | some p => (match firstWhere (fun (x : Nat × List Nat) => decide (x.1 = w)) p.weirs with
       | some x => applyWeir x (d.weir w).line d
       | none => d)
     | none => d)
  | 0x4A | 0x4B | 0x4C | 0x4D | 0x4E | 0x4F =>
    if d.cacheDirty.contains at_ then loseContext at_ d
    else { d with cache := d.cache.filter (fun n => n ≠ at_) }
  | 0x5E => d.updGate f.unit (fun g => { g with badRegions := if g.badRegions.contains at_ then g.badRegions else g.badRegions ++ [at_] })
  | 0x8E | 0x90 =>
    d.updSlot (at_ % 4096) (fun s => if s.attr.st = 0 then s else if s.attr.persistent && !s.copyBad then { s with copyBad := true } else { s with unreadable := true })
  | 0x92 => { d with ss := { d.ss with cache := d.ss.cache.filter (fun x => x.1 ≠ at_) } }
  | 0xA8 | 0xA9 => { d with whd := { d.whd with pool := 0, block := 0 } }
  | 0xAC => { d with fl := { d.fl with fallback := true } }
  | _ => d

/-- FAULT_CONTAINED, of the time of the fault, waits for the completions of the commands replayed for it (R316). -/
def dueNotice (r : Rec32) (slots : List Nat) (d : Device) : Device :=
  let x : NoticeDue := {
    allot := 0
    code := 0x3002
    sev := 1
    time := bytesAt r 8 8
    p0 := bytesAt r 0 4
    p1 := bytesAt r 28 4
    p2 := bytesAt r 16 4
    p3 := bytesAt r 20 4
    slots := slots }
  if x.waits d then { d with flt := { d.flt with due := d.flt.due ++ [x] } } else x.post d

/-- The reaction to a fault taken as Contained (R311, R314, R315): the custody die orders what the compute die does. -/
def containedReaction (f : FaultIn) (seq : Nat) (slots : List Nat) (d : Device) : Device :=
  let d := groupReaction f d
  let d := match fencesClass f.source with
    | some c =>
      if unitCount c ≤ f.unit then d
      else if c = 3 ∨ c = 4 ∨ c = 6 then custodyFence c f.unit seq d
      else toCompute (.faultAction (.fence c f.unit seq)) d
    | none => d
  foldOver (fun k d => toCompute (.faultAction (.replay k seq)) d) slots d

/-! ## Taking a fault (15, Table 15.3) -/

/-- Pending bits. -/
def setPend (u : Bool) (g : Nat) (d : Device) : Device :=
  if u then { d with flt := { d.flt with uPend := d.flt.uPend ||| 2 ^ g } }
  else
    let due := if d.cackUs = 0 then d.flt.acks else d.flt.acks ++ [(g, d.time + d.cackUs * 1000)]
    { d with flt := { d.flt with cPend := d.flt.cPend ||| 2 ^ g, acks := due } }

/-- A Fatal fault is classified: ALIVE stops, HOLD_N is asserted, the record is kept in MRAM, the stop is ordered (R318 steps 1 to
3). -/
def beginFatal (f : FaultIn) (r : Rec32) (d : Device) : Device :=
  let g := faultGroup f.source
  let d := { d with flt := { d.flt with
    lastFatal := r
    countF := satAdd 0xFFFF_FFFF d.flt.countF 1
    alive := false
    fatal := some {
      source := f.source
      seq := bytesAt r 28 4
      since := d.time
      drain := groupDrains g && !d.fl.sbStop
      resetCustody := groupCustody g } } }
  let crit := d.flt.thermCrit || decide (f.source = 0x8C)
  let d := raiseAlert 0 { d with flt := { d.flt with thermCrit := crit }, md := { d.md with change := none } }
  toCompute (.faultAction (.stop (bytesAt r 28 4))) d

/-- A double fatal (R321): SB_STOP at once and ZEROIZE_VOLATILE, after which the die is reset without the dwell. -/
def doubleFatal (f : FaultIn) (r : Rec32) (old : FatalRec) (d : Device) : Device :=
  let d := { d with flt := { d.flt with
    lastFatal := r
    countF := satAdd 0xFFFF_FFFF d.flt.countF 1
    alive := false
    fatal := some { old with
      stage := 2
      double := true
      dwellFrom := d.time
      resetCustody := old.resetCustody || groupCustody (faultGroup f.source) } } }
  let d := raiseAlert 4 (raiseAlert 0 (recordAs 0x3012 f.source 0 false d.time old.source f.source (bytesAt r 28 4) 0 d))
  let d := assertClear { d with fl := { d.fl with sbStop := true } }
  if d.lev.zeroizing then d
  else { d with lev := { d.lev with zeroizing := true, zeroizeFrom := d.time } }

/-- The class a fault is taken in, and whether it escalated (R308, Table 15.3). -/
def Device.takenAs (d : Device) (s : Nat) : Nat × Bool :=
  let g := faultGroup s
  match faultClass s with
  | 0 => if bitOf d.flt.cPend g then (1, true) else (0, false)
  | 1 => if bitOf d.flt.uPend g then (2, true) else (1, false)
  | _ => (2, false)

/-- A fault met by a unit under test (R309). -/
def takeTestFault (f : FaultIn) (d : Device) : Device :=
  let c := faultClass f.source
  let r := histRecord d f c false false
  let d := keepHistory r d
  let d := match unitClassOf f.source with
    | some cls => d.updUnit cls f.unit (fun u => { u with testFailed := true })
    | none => d
  match c with
  | 0 => correctedEvent r (d.bump 0x000C_0030)
  | 1 => faultEvent 0x3002 r (d.bump 0x000C_0034)
  | _ => faultEvent 0x3003 r d

/-- The custody die takes a fault (R305, R308 to R310). -/
def takeFault (f : FaultIn) (d : Device) : Device :=
  if f.test then takeTestFault f d else
  let t := d.takenAs f.source
  match d.flt.fatal with
  | some old =>
    if faultClass f.source = 2 then
      let r := histRecord d f 3 false false
      doubleFatal f r old (faultEvent 0x3003 r (keepHistory r d))
    else
      let r := histRecord d f (faultClass f.source) false false
      let d := keepHistory r d
      if faultClass f.source = 0 then correctedEvent r d else faultEvent 0x3002 r d
  | none =>
    match t.1 with
    | 0 =>
      let r := histRecord d f 0 t.2 false
      correctedEvent r (setPend false (faultGroup f.source) ((keepHistory r d).bump 0x000C_0030))
    | 1 =>
      let slots := d.affected f
      let r := histRecord d f 1 t.2 (decide (slots ≠ []))
      let seq := d.flt.seq
      let d := setPend true (faultGroup f.source) ((keepHistory r d).bump 0x000C_0034)
      let d := faultEvent 0x3002 r d
      dueNotice r slots (containedReaction f seq slots d)
    | _ =>
      let r := histRecord d f 2 t.2 false
      beginFatal f r (faultEvent 0x3003 r (keepHistory r d))

/-- A source of the custody die. -/
def custodyFault (s unit : Nat) (syndrome : Nat) (d : Device) : Device :=
  takeFault { source := s, unit := unit, syndrome := syndrome, time := d.time } d

/-! ## Orders on the compute die -/

/-- Commands with the one that was submitted last first. -/
def putLatest (x : Nat × Cmd) : List (Nat × Cmd) → List (Nat × Cmd)
  | [] => [x]
  | y :: t => if y.2.order ≤ x.2.order then x :: y :: t else y :: putLatest x t
def latestFirst : List (Nat × Cmd) → List (Nat × Cmd)
  | [] => []
  | x :: t => putLatest x (latestFirst t)

/-- A command holds an uncommitted leaf, or has one on its way: its request has been sent. -/
def Cmd.leafTaken (c : Cmd) : Bool := c.leaf.isSome || (c.keyAsked && (decide (c.attr.routine = 0x0402) || decide (c.attr.routine = 0x0502)))

/-- Later commands of a FIFO queue that sign with the same key and hold an uncommitted leaf are stopped, the last first, and run again
after the command itself (09 R208 rule 3). -/
def stopLater (k : Nat) (c : Cmd) (seq : Nat) (d : Device) : Device :=
  let later := (d.ofQueue c.allot c.sq).filter (fun x => decide (c.order < x.2.order) && decide (eKey x.2.entry = eKey c.entry) &&
    x.2.leafTaken && !decide (x.2.phase = .ended) && decide (x.1 ≠ k))
  foldOver (fun (x : Nat × Cmd) d =>
    if 3 ≤ x.2.replays then raiseFault 0x3E 0xFFFF (some x.1) 0 d else replayCmd x.1 seq d) (latestFirst later) d

/-- A command that a fault affected runs again (R314, R315, R331): an aborted or ended one does not; a commit starts again from the
staged result (03 R70); the fourth Contained fault in one command is a replay-limit fault. -/
def replayOrder (k seq : Nat) (d : Device) : Device :=
  match d.cmd k with
  | none => d
  | some c =>
    if c.phase = .ended ∨ !c.started ∨ c.replayFor = some seq then d
    else if 3 ≤ c.contained ∨ 3 ≤ c.replays then raiseFault 0x3E 0xFFFF (some k) 0 d
    else
    let d := d.updCmd k (fun c => { c with contained := c.contained + 1 })
    if c.phase = .checked ∧ c.commitBegun then d.updCmd k (fun c => { c with commitBegun := false, replayFor := some seq })
    else replayCmd k seq (if !c.leafTaken || (d.sq c.allot c.sq).free then d else stopLater k c seq d)

/-- FAULT_ACTION fence: the unit lets its work go, is fenced and goes under test (R311, R313). -/
def fenceOrder (cls idx seq : Nat) (d : Device) : Device :=
  if (d.unit cls idx).fenced then d else
  match cls with
  | 0 =>
    let d := match (d.eng idx).slot with
      | some k => replayOrder k seq d
      | none => d
    let d := fenceEngine idx seq false d
    autoTest 0 idx (d.updEng idx (fun g => { g with st := .underTest }))
  | 1 =>
    let d := d.updLiu idx (fun u => { u with fenceDue := false, katDue := false })
    let d := match (d.liu idx).bound with
      | some k => replayOrder k seq d
      | none => d
    autoTest 1 idx (noteFenced 1 idx seq false (liuUnbind idx d))
  | 2 =>
    let d := d.updDig idx (fun g => { g with fenceDue := false })
    let d := match (d.dig idx).job with
      | some j => replayOrder j.slot seq d
      | none => d
    let d := (digClear idx d).updDig idx (fun g => { g with st := 3, faulted := false })
    autoTest 2 idx (noteFenced 2 idx seq false d)
  | 5 =>
    let d := dropPort idx d
    autoTest 5 idx (noteFenced 5 idx seq false d)
  | _ => d

/-! ## Tests and returns -/

/-- A unit is in service again, or a spare (R313). -/
def returnUnit (cls idx : Nat) (d : Device) : Device :=
  let full := decide (exposed d.part ≤ d.latInService (latOf idx))
  let src := d.unitSource cls idx
  let d := d.updUnit cls idx (fun u => { u with
    fenced := false
    testing := false
    passed := false
    byOwner := false
    retired := false })
  let d := match cls with
    | 0 =>
      let d := d.updEng idx (fun g => { g with st := if full then .spare else .idle, lastAllot := none })
      if full then d else seedEngine idx d
    | 1 => d.updLiu idx (fun u => { u with fenceDue := false, faulted := false, katDue := false })
    | 2 => d.updDig idx (fun g => { g with st := 0, fenceDue := false, faulted := false })
    | 3 => sourcesChanged (d.updDrbg idx (fun g => { g with st := 0, requests := 0, work := {} }))
    | 4 =>
      let f (s : Sublink) : Sublink := { s with up := true, fenced := false, retraining := false, retrainFails := 0, lastRx := d.time, lastRxCompute := d.time }
      let d := if idx = 0 then { d with fl := { d.fl with sub0 := f d.fl.sub0 } } else { d with fl := { d.fl with sub1 := f d.fl.sub1 } }
      { d with fl := { d.fl with downSince := none }, boot := { d.boot with flumeUp := d.fl.trained } }
    | _ => d
  let d := recordAs 0x3005 src 0 false d.time (cls + idx * 256) (if cls = 0 ∧ full then 0 else 1) 0 0 d
  if cls = 0 then lowFlowCheck d else d

/-- The test of a unit ends (R309, R313). -/
def testDone (cls idx : Nat) (pass : Bool) (d : Device) : Device :=
  let u := d.unit cls idx
  let ok := pass && !u.testFailed
  let d := match cls with
    | 0 => d.updEng idx (fun g => { g with st := .fenced })
    | 2 => d.updDig idx (fun g => { g with st := 2 })
    | _ => d
  let d := d.updUnit cls idx (fun u => { u with testing := false, testFailed := false })
  if u.ownerTest then
    d.updUnit cls idx (fun u => { u with passed := ok, lastPass := ok, ownerTest := false })
  else if ok && !u.retired then returnUnit cls idx d
  else d

/-! ## The owner's operations (15 R325, R326, Table 15.10) -/

/-- The unit is in service. -/
def Device.unitServes (d : Device) (cls idx : Nat) : Bool := match cls with
  | 0 => (d.eng idx).st.inService
  | 3 => decide ((d.drbg idx).st = 1 ∨ (d.drbg idx).st = 2)
  | 4 => if idx = 0 then d.fl.sub0.up else d.fl.sub1.up
  | _ => !(d.unit cls idx).fenced

/-- Units of the class in service besides this one. -/
def Device.othersServe (d : Device) (cls idx : Nat) : Nat :=
  countWhere (fun i => i != idx && d.unitServes cls i) (List.range (unitCount cls))

/-- An admin command of allotment 0 runs an operation on the unit. -/
def Device.unitAdm (d : Device) (cls idx : Nat) : Bool := match (d.adm 0).waits with
  | .unitOp c i _ => decide (c = cls) && decide (i = idx)
  | _ => false

/-- An operation is running on the unit: a test, a fence that waits for its end, or its spare's entry. -/
def Device.unitBusy (d : Device) (cls idx : Nat) : Bool :=
  (d.unit cls idx).testing || d.unitAdm cls idx || (match cls with
    | 0 => (d.eng idx).fenceDue
    | 1 => (d.liu idx).fenceDue
    | 2 => (d.dig idx).fenceDue
    | _ => false)

/-- A working spare of the engine's Lateral that nothing has called. -/
def Device.spareFree (d : Device) (e : Nat) : Bool := decide ((d.lat (latOf e)).spareFor.length < d.latSpares (latOf e))

/-- The refusal of an operation: 1 FENCE, 2 TEST, 3 UNFENCE; 0 none. Causes in numeric order. A FENCE of a unit fenced by a fault is none, its own test
running or not (R331). -/
def Device.unitRefusal (d : Device) (op cls idx : Nat) : Nat :=
  let u := d.unit cls idx
  if 6 ≤ cls ∨ unitCount cls ≤ idx ∨ (cls = 0 ∧ (d.eng idx).st = .absent) then 1
  else if op = 1 ∧ cls ≠ 0 ∧ !u.fenced ∧ d.othersServe cls idx = 0 then 2
  else if op = 1 ∧ cls = 0 ∧ !u.fenced ∧ (d.eng idx).st.inService ∧ !d.spareFree idx then 3
  else if op = 3 ∧ !(u.fenced && u.passed) then 4
  else if d.unitBusy cls idx && !(decide (op = 1) && u.fenced && !u.byOwner) then 5
  else if d.md.mode = .bringup ∨ d.md.mode = .retention then 6
  else 0

/-- An owner FENCE: the fence takes effect at the instruction, command or job boundary (Table 15.9); one of an engine in service first
brings the spare in (R325), and its command is preempted (05 R122 case 2). -/
def ownerFence (cls idx : Nat) (d : Device) : Device :=
  if (d.unit cls idx).fenced then d else
  match cls with
  | 0 =>
    if (d.eng idx).st.inService then requestSave idx (callSpare idx (d.updEng idx (fun g => { g with fenceDue := true })))
    else (fenceEngine idx 0 true d)
  | 1 =>
    if (d.liu idx).bound.isSome then d.updLiu idx (fun u => { u with fenceDue := true })
    else (noteFenced 1 idx 0 true d)
  | 2 =>
    if (d.dig idx).job.isSome then d.updDig idx (fun g => { g with fenceDue := true })
    else (noteFenced 2 idx 0 true (d.updDig idx (fun g => { g with st := 2 })))
  | 3 => (noteFenced 3 idx 0 true (fenceDrbg idx d))
  | 4 =>
    let d := fenceSublink idx d
    let d := if idx = 0 then { d with fl := { d.fl with sub0 := { d.fl.sub0 with retraining := false } } } else { d with fl := { d.fl with sub1 := { d.fl.sub1 with retraining := false } } }
    (noteFenced 4 idx 0 true d)
  | _ =>
    (noteFenced cls idx 0 true (dropPort idx d))

/-- An owner TEST acts only on a fenced unit (R325). -/
def ownerTest (cls idx : Nat) (d : Device) : Device :=
  if !(d.unit cls idx).fenced then d else
  let d := match cls with
    | 0 => d.updEng idx (fun g => { g with st := .underTest })
    | 2 => d.updDig idx (fun g => { g with st := 3 })
    | _ => d
  d.updUnit cls idx (fun u => { u with
    testing := true
    ownerTest := true
    testFailed := false
    passed := false })

/-- An owner UNFENCE returns a tested unit. -/
def ownerUnfence (cls idx : Nat) (d : Device) : Device := (returnUnit cls idx d)

/-- One operation on a unit. -/
def unitOperation (op cls idx : Nat) (d : Device) : Device := match op with
  | 1 => ownerFence cls idx d
  | 2 => ownerTest cls idx d
  | 3 => ownerUnfence cls idx d
  | _ => d

/-- A write of FLT_UNIT_OP with GO: OP 1 FENCE, 2 TEST, 3 UNFENCE. -/
def fltUnitOp (op : Nat) (d : Device) : Device :=
  let d := { d with flt := { d.flt with unitOp := op } }
  let cls := d.flt.unitCls
  let idx := d.flt.unitIdx
  let c := d.unitRefusal op cls idx
  if op = 0 then d
  else if c ≠ 0 then { d with flt := { d.flt with unitErr := true, unitCause := c } }
  else unitOperation op cls idx { d with flt := { d.flt with unitErr := false, unitCause := 0 } }

/-! ## Injection (15 R327, R328) -/

/-- FLT_INJECT.ARM. -/
def injectArm (source unit : Nat) (d : Device) : Device :=
  let d := { d with flt := { d.flt with injSource := source, injUnit := unit } }
  let bad := decide (190 ≤ source) || faultMarked source || d.flt.injPending ||
    (decide (faultClass source = 2) && !(decide (d.md.mode = .maintenance) || decide (d.md.mode = .debug)))
  if bad then { d with flt := { d.flt with injErr := true } }
  else
    let d := { d with flt := { d.flt with injErr := false, injPending := true } }
    recordAs 0x3011 source 0 false d.time source unit 0 0 d

/-- A checker that meets its armed injection marks the fault; a source without instances has no UNIT to compare. -/
def takeInjection (source unit : Nat) (d : Device) : Bool × Device :=
  if d.flt.injPending && decide (d.flt.injSource = source) && decide (unit = 0xFFFF ∨ d.flt.injUnit = unit % 256) then
    (true, { d with flt := { d.flt with injPending := false } })
  else (false, d)

/-! ## Fatal faults (15, Table 15.7) -/

/-- The stop is ordered: units issue nothing; without drain SB_STOP follows at once. -/
def fatalStop (d : Device) : Device := match d.flt.fatal with
  | none => d
  | some f =>
    if f.stage ≠ 0 then d
    else if f.drain then
      let d := { d with flt := { d.flt with fatal := some { f with stage := 1 } } }
      foldOver (fun (x : Nat × Cmd) d =>
        if x.2.phase = .ended then d
        else if x.2.started then haltWith x.1 stUnrecoverable (f.seq % 65536) 0 d
        else concludeUnstarted x.1 stUnrecoverable (f.seq % 65536) d) d.cmds d
    else
      { d with
        flt := { d.flt with fatal := some { f with stage := 2, dwellFrom := d.time } }
        fl := { d.fl with sbStop := true } }

/-- SB_STOP at the end of the drain: FAULT_FATAL goes to every allotment after the completions; when its bound expires before they are
written, it is dropped with them (R319). -/
def drainEnd (d : Device) : Device := match d.flt.fatal with
  | none => d
  | some f =>
    let p := bytesAt d.flt.lastFatal
    let d := if d.cmds = [] then noticeAll 0x3003 3 (p 0 4) (p 28 4) (p 16 4) (p 20 4) d else d
    { d with
      flt := { d.flt with fatal := some { f with stage := 2, dwellFrom := d.time } }
      fl := { d.fl with sbStop := true } }

/-- The compute die is wedged: SB_STOP (R322). -/
def wedge (d : Device) : Device :=
  let d := { d with flt := { d.flt with wedged := true } }
  match d.flt.fatal with
  | some f => if f.stage < 2 then { d with
      flt := { d.flt with fatal := some { f with stage := 2, dwellFrom := d.time } }
      fl := { d.fl with sbStop := true } } else d
  | none => d

/-- The device is healthy (R329): custody booted, no Fatal fault handled, the compute die in service and sending heartbeats, or asleep. -/
def Device.healthy (d : Device) : Bool :=
  d.boot.cusReady && !d.boot.custodyReset && d.flt.fatal.isNone &&
    (decide (d.md.mode = .retention) || (d.boot.cdReady && decide (d.time ≤ d.fl.lastBeat + 100_000) && !d.fl.sbStop || (d.boot.cdReady && d.fl.sbStop && d.leveeFreeze)))

end Sys2Proof.Machine
end

