-- ==== Sys2Proof/Machine/Levee.lean ====
section
/-!
DEFINITION. Sys2Proof/Machine/Levee.lean: the Levee and the event recorder (16), and the end of a one-second interval (00 R437).
-/
namespace Sys2Proof.Machine

/-! ## The filter (16 R335, R336) -/

def Device.levCfg (d : Device) (s : Nat) : Nat := d.reg (0x0011_0100 + 8 * s)
def Device.levWin (d : Device) (s : Nat) : Nat := d.reg (0x0011_0104 + 8 * s)
/-- RESP, with the LOG bit that always reads 1. -/
def cfgResp (c : Nat) : Nat := field c 6 0 ||| 1
def cfgK (c : Nat) : Nat := field c 23 16
/-- W in ns. -/
def winNs (w : Nat) : Nat := field w 13 0 * (if bitOf w 14 then 1_000_000 else 1000)

/-- The battery island's copy: LEV_CFG without RESP, LEV_WIN, then LEV_TAMP (16 R341). -/
def Device.battWords (d : Device) : List Nat :=
  (List.range 8).map (fun s => d.levCfg s - field (d.levCfg s) 6 0) ++ (List.range 8).map d.levWin ++ [d.reg 0x0011_0014]

/-- The configuration that filters source s now: on the battery the copy the island holds. -/
def Device.filterOf (d : Device) (s : Nat) : Nat × Nat :=
  if d.lev.onBattery then (d.lev.battCfg.getD s (levCfgReset s), d.lev.battCfg.getD (8 + s) (levWinReset s)) else (d.levCfg s, d.levWin s)

/-- The detector of source s can report: its input is enabled (R334), and on the battery only sources 0 to 7 run. -/
def Device.levRuns (d : Device) (s : Nat) : Bool :=
  let tamp := if d.lev.onBattery then d.lev.battCfg.getD 16 0 else d.reg 0x0011_0014
  (decide (4 ≤ s) || bitOf tamp s) && (if d.lev.onBattery then decide (s < 8) else !d.boot.custodyReset)

/-- An event at time t lies within the window word w of now: time is counted in intervals of 1 µs, on the battery in RTC ticks, of which W is one at
least (R335). -/
def Device.inWindow (d : Device) (w t : Nat) : Bool :=
  let tick (x : Nat) : Nat := x * 32768 / 1_000_000_000
  if d.lev.onBattery then decide (tick d.time ≤ tick t + max 1 (tick (winNs w))) else decide (d.time / 1000 ≤ t / 1000 + winNs w / 1000)

/-- A record of the Levee carries its source (16, Table 16.7). -/
def levRecord (code s p0 p1 p2 p3 : Nat) (d : Device) : Device := recordAs code s 0 false d.time p0 p1 p2 p3 d

/-! ## Responses (16 R337, R338, Table 16.2) -/

/-- A response closed under what its actions imply. -/
def closeSet (u : Nat) : Nat :=
  let u := if bitOf u 5 then u ||| 0x50 else u
  let u := if bitOf u 4 then u ||| 0x08 else u
  if bitOf u 3 then u ||| 0x04 else u

/-- HOLD or a stronger action. -/
def setHolds (u : Nat) : Bool := decide (u / 4 ≠ 0)

/-- One LEVEE_ALARM record and its notice. -/
def alarm (u : Nat) (f : Firing) (d : Device) : Device :=
  let c := d.levCfg f.source
  let us := min (winNs (d.levWin f.source) / 1000) 0xFFFF_FFFF
  let p0 := f.source + f.set * 2 ^ 8 + u * 2 ^ 16
  let pub := setHolds u
  let d := recordAs 0x2001 f.source 0 pub d.lev.interval p0 f.events (cfgK c) us d
  if bitOf f.set 1 && decide (u / 8 = 0) then
    (if pub then noticeAll 0x2001 3 p0 f.events (cfgK c) us d else notice 0 0x2001 3 p0 f.events (cfgK c) us d)
  else d

/-- Both shares of the KER are erased; in Debug the erasure waits for the next boot (R340). -/
def eraseKer (d : Device) : Device :=
  if d.md.mode = .debug then { d with lev := { d.lev with zaPending := true } }
  else { d with cis := d.cis.noKer }

/-- FREEZE, zeroization and RESET of a union, each unless it has run already. -/
def applyUnion (old u : Nat) (d : Device) : Device :=
  let fresh (b : Nat) : Bool := bitOf u b && !bitOf old b
  let d := if fresh 3 then { d with fl := { d.fl with sbStop := true } } else d
  let d := if fresh 5 then eraseKer { d with lev := { d.lev with zeroizeAll := true } } else d
  let d := if fresh 4 && !d.lev.zeroizing then
      let d := assertClear d
      { d with
        lev := { d.lev with zeroizing := true, zeroizeFrom := d.time }
        md := { d.md with change := none } }
    else d
  if fresh 6 then
    if d.lev.zeroizing then { d with lev := { d.lev with resetDue := true } }
    else leveeReset (record 0x2011 0 false u 0 0 0 d)
  else d

/-- The Levee interval is over: the union of what fired in it takes effect (R338). -/
def closeInterval (d : Device) : Device :=
  if d.lev.firings = [] ∨ d.time < d.lev.interval + 1000 then d else
  let old := d.lev.union
  let u := closeSet (d.lev.firings.foldl (fun a f => a ||| f.set) old)
  let fs := d.lev.firings
  let d := { d with lev := { d.lev with union := u, firings := [] } }
  let d := if setHolds u then raiseAlert 1 d else d
  let d := foldOver (fun f d => alarm u f d) fs d
  let d := applyUnion old u d
  { d with lev := { d.lev with union := d.lev.union - d.lev.union % 4 } }

/-- 16 R338: the Levee interval ends. -/
def execLeveeIntervalEnd (s : State) : Host.Outcome State Fault Refusal := s.on closeInterval

/-- A firing among those of its interval: in the order in which the sources reached K, the lower number first in one clock cycle (R338). -/
def putFiring (f : Firing) : List Firing → List Firing
  | [] => [f]
  | g :: l => if f.at_ = g.at_ ∧ f.source < g.source then f :: g :: l else g :: putFiring f l

/-- A source fires: its bit sets, its count restarts, its configured set waits for the end of the interval (R336 to R338). -/
def fireSource (s events : Nat) (d : Device) : Device :=
  let d := (closeInterval d).updLevSrc s (fun x => { x with fired := true, events := [] })
  let start := (d.time / 1000) * 1000
  let f : Firing := { source := s, set := cfgResp (d.levCfg s), events := events, at_ := d.time }
  { d with lev := { d.lev with
    interval := if d.lev.firings = [] then start else d.lev.interval
    firings := putFiring f d.lev.firings } }

/-- One event enters the filter of source s; `real` is false for a stimulus. LEVEE_EVENT counts the events since the last such record. -/
def levEvent (s : Nat) (real : Bool) (d : Device) : Device :=
  let d := d.bump (0x0011_0200 + 4 * s)
  let x := d.levSrc s
  if x.fired then d else
  let c := d.filterOf s
  let l := (x.events.filter (fun e => d.inWindow c.2 e.1)) ++ [(d.time, real)]
  let n := l.length
  let d := d.updLevSrc s (fun x => { x with events := l, sinceNote := x.sinceNote + 1 })
  if n < cfgK c.1 ∨ d.lev.onBattery then
    if !real then levRecord 0x2003 s s 0 (cfgK c.1) 0 d
    else if x.noted ∨ d.lev.onBattery then d
    else levRecord 0x2002 s s (x.sinceNote + 1) (cfgK c.1) n (d.updLevSrc s (fun x => { x with noted := true, sinceNote := 0 }))
  else if l.all (fun e => !e.2) then
    levRecord 0x2003 s s 1 (cfgK c.1) 0 (d.updLevSrc s (fun x => { x with events := [], testSeen := true }))
  else if real then fireSource s n d
  else levRecord 0x2003 s s 1 (cfgK c.1) 0 (fireSource s n d)

/-- 16 R333: the detector of a source reports its condition once. -/
def execLeveeEvent (src : Fin 18) (s : State) : Host.Outcome State Fault Refusal :=
  s.on fun d =>
    let d := if src.val = 6 then { d with boot := { d.boot with rails := d.boot.rails % 256 } } else d
    if d.levRuns src then levEvent src true d else d

/-- 16 R337, R338: the zeroization completes; a RESET then takes effect, or the compute die is brought up again. -/
def execZeroizeDone (s : State) : Host.Outcome State Fault Refusal :=
  s.on fun d =>
    if !d.lev.zeroizing ∨ d.fl.clearing then d else
    let all := d.lev.zeroizeAll
    let us := min ((d.time - d.lev.zeroizeFrom) / 1000) 0xFFFF_FFFF
    let u := d.lev.union
    let reset := d.lev.resetDue
    let d := zeroizeCustody d
    let d := if all then zeroizeStores d else d
    let d := record 0x2010 0 false (b2n all) us 0 0 d
    let d := { d with lev := { d.lev with zeroizing := false, zeroizeAll := false, resetDue := false } }
    if reset then leveeReset (record 0x2011 0 false u 0 0 0 d)
    else
      let d := { d with lev := { d.lev with union := 0 } }
      if d.flt.fatal.isSome then fatalReset d else restartCompute causeLevee 1 d

/-- A fired source still configured to HOLD or FREEZE. -/
def Device.releaseBlocked (d : Device) : Bool :=
  (List.range 18).any (fun s => (d.levSrc s).fired && (bitOf (cfgResp (d.levCfg s)) 2 || bitOf (cfgResp (d.levCfg s)) 3))

/-- LEV_CTRL.RELEASE (R339). -/
def levRelease (d : Device) : Device :=
  if d.releaseBlocked then { d with lev := { d.lev with ctrlErr := true } } else
  let set := d.lev.union &&& 0x0C
  let froze := bitOf set 3
  let keepStop := match d.flt.fatal with
    | some f => decide (2 ≤ f.stage) && decide (f.stage ≤ 3)
    | none => false
  let d := { d with
    lev := { d.lev with ctrlErr := false, union := d.lev.union - set }
    fl := { d.fl with sbStop := if froze && !keepStop then false else d.fl.sbStop } }
  if set = 0 then d else
  let d := record 0x2004 0 true set 0 0 0 d
  resumeScans (noticeAll 0x2004 0 set 0 0 0 d)

/-- 16 R339: the owner releases HOLD and FREEZE. -/
def execLeveeRelease (s : State) : Host.Outcome State Fault Refusal :=
  s.on fun d => barWrite 0x0011_0004 1 false d levRelease

/-- LEV_FIRED: writing 1s rearms sources. -/
def levFiredClear (v : Nat) (d : Device) : Device :=
  { d with lev := { d.lev with src := Tbl.mapSet {} (fun k (x : LevSource) => if bitOf v k then { x with fired := false } else x) d.lev.src } }

/-- 16 R336: the owner clears bits of LEV_FIRED. -/
def execLevFiredClear (v : BitVec 18) (s : State) : Host.Outcome State Fault Refusal :=
  s.on fun d => barWrite 0x0011_0008 v.toNat false d (levFiredClear v.toNat)

/-- LEV_TEST_SEEN: writing 1s clears bits. -/
def levSeenClear (v : Nat) (d : Device) : Device :=
  { d with lev := { d.lev with src := Tbl.mapSet {} (fun k (x : LevSource) => if bitOf v k then { x with testSeen := false } else x) d.lev.src } }

/-- 16 R345: the owner clears bits of LEV_TEST_SEEN. -/
def execLevTestSeenClear (v : BitVec 18) (s : State) : Host.Outcome State Fault Refusal :=
  s.on fun d => barWrite 0x0011_000C v.toNat false d (levSeenClear v.toNat)

/-- LEV_STIM: one synthetic event into each source named that has not fired, outside Bring-up (R345, Table 16.4). -/
def levStim (v : Nat) (d : Device) : Device :=
  let named := (List.range 18).filter (fun s => bitOf v s)
  let bad := named.filter (fun s => (d.levSrc s).fired || decide (d.md.mode = .bringup))
  let d := { d with lev := { d.lev with stimErr := decide (bad ≠ []) } }
  foldOver (fun s d => if bad.contains s then d else levEvent s false d) named d

/-- 16 R345: the owner injects synthetic events. -/
def execLevStim (v : BitVec 18) (s : State) : Host.Outcome State Fault Refusal :=
  s.on fun d => barWrite 0x0011_0010 v.toNat false d (levStim v.toNat)

/-! ## The battery island and the buttons (16 R341 to R344) -/

/-- 16 R341: the custody die writes the island's copy of the battery configuration. -/
def execBattCfgCopy (s : State) : Host.Outcome State Fault Refusal :=
  s.on fun d => if d.boot.custodyReset then d else { d with lev := { d.lev with battCfg := d.battWords } }

/-- RTC ticks of 1/32,768 s. -/
def Device.rtc (d : Device) : Nat := d.lev.rtcNs * 32768 / 1_000_000_000

/-- 16 R342: a battery source that has reached K within W fires on VBAT. -/
def execBatteryFire (src : Fin 8) (s : State) : Host.Outcome State Fault Refusal :=
  s.on fun d =>
    let x := d.levSrc src
    let c := d.filterOf src
    let l := x.events.filter (fun e => d.inWindow c.2 e.1)
    if !d.lev.onBattery ∨ x.fired ∨ l.length < cfgK c.1 ∨ l = [] then d else
    let za := bitOf c.1 8
    let entry := BitVec.ofNat 64 (pack [(1, src.val + 128 * b2n za), (1, min l.length 255), (6, d.rtc)])
    let full := decide (16 ≤ d.lev.alarms.length)
    let d := d.updLevSrc src (fun x => { x with fired := true, events := [] })
    let d := { d with lev := { d.lev with
      alarms := if full then d.lev.alarms else d.lev.alarms ++ [entry]
      alarmLost := if full then satAdd 0xFFFF d.lev.alarmLost 1 else d.lev.alarmLost } }
    if za then { d with
      cis := d.cis.noKer
      lev := { d.lev with zaResume := true } } else d

/-- 16 R344: SVC_N held low 50 ms. -/
def execSvcPressed (s : State) : Host.Outcome State Fault Refusal :=
  s.on fun d => if d.boot.custodyReset then d else
    record 0x2101 0 false 0 0 0 0 { d with lev := { d.lev with svcOpenUntil := some (d.time + 30_000_000_000) } }

/-- 18 R374: the window closes 30 s after the press. -/
def execSvcWindowExpire (s : State) : Host.Outcome State Fault Refusal :=
  s.on fun d => match d.lev.svcOpenUntil with
    | some t => if t ≤ d.time then { d with lev := { d.lev with svcOpenUntil := none } } else d
    | none => d

/-! ## The recorder (16 R346 to R351) -/

/-- 16 R348: a compute-originated record arrives: it enters the queue, or is dropped when the 48 unreserved entries are full. -/
def appendRecord (rec : Rec32) (d : Device) : Device :=
  if d.queuedRecords < 48 then enqueueRecord rec d
  else
    let d := { d with evr := { d.evr with dropSec := d.evr.dropSec + 1, dropped := satAdd 0xFFFF_FFFF d.evr.dropped 1 } }
    custodyFault 0xB7 0xFFFF 0 d

/-- 16 R348: the next message of the Flume is a compute-originated record. -/
def execEvrAppend (s : State) : Host.Outcome State Fault Refusal :=
  s.on fun d => takeCustody (fun m => match m with
    | .evrAppend r => some r
    | _ => none) d (fun r d => appendRecord r d)

def recCode (r : Rec32) : Nat := bytesAt r 0 2
def recPublic (r : Rec32) : Bool := bitOf (bytesAt r 3 1) 6
def recAllot (r : Rec32) : Nat := field (bytesAt r 3 1) 5 0

/-- Records visible to allotment n's window: its own and public ones (R349). -/
def seenBy (n : Nat) (r : Rec32) : Bool := decide (recAllot r = n) || recPublic r
/-- Records visible to the board-management window (R350). -/
def seenByBmc (r : Rec32) : Bool := recPublic r || decide (recCode r / 4096 = 2) || decide (recCode r / 4096 = 3)

/-- The first record of a list that is visible, with its place. -/
def firstSeen (see : Rec32 → Bool) : (i : Nat) → List Rec32 → Option (Nat × Rec32)
  | _, [] => none
  | i, r :: t => if see r then some (i, r) else firstSeen see (i + 1) t

/-- Latch the first visible record at or after v (R349, Table 16.8). -/
def seekRecord (d : Device) (see : Rec32 → Bool) (v : Nat) (w : EvrWin) : EvrWin :=
  if w.area then
    match firstWhere (fun (x : Nat × Rec32) => decide (v ≤ x.1) && see x.2) d.evr.foundation with
    | some (i, r) => { w with cursor := i, valid := true, atEnd := false, data := r }
    | none => { w with cursor := v, valid := false, atEnd := true, data := 0 }
  else
    let off := (v + 2 ^ 32 - d.evr.oldest) % 2 ^ 32
    let before := decide (2 ^ 31 ≤ off)
    let start := if before then 0 else off
    match firstSeen see start (d.evr.ring.drop start) with
    | some (i, r) => { w with cursor := (d.evr.oldest + i) % 2 ^ 32, valid := true, atEnd := false, gap := w.gap || before, data := r }
    | none => { w with cursor := if before then d.evr.next else v, valid := false, atEnd := true, gap := w.gap || before, data := 0 }

/-- A write of the cursor: GAP and END clear first. -/
def cursorWrite (d : Device) (see : Rec32 → Bool) (v : Nat) (w : EvrWin) : EvrWin :=
  seekRecord d see v { w with gap := false, atEnd := false }

/-- A read of DATA[7] advances. -/
def windowAdvance (d : Device) (see : Rec32 → Bool) (w : EvrWin) : EvrWin :=
  if w.atEnd || !w.valid then seekRecord d see w.cursor w
  else seekRecord d see ((w.cursor + 1) % 2 ^ 32) w

/-- The window of an allotment page. -/
def Allot.evw (t : Allot) : EvrWin :=
  { area := t.evwArea, cursor := t.evwCursor, valid := t.evwValid, atEnd := t.evwEnd, gap := t.evwGap, data := t.evwData }
def Allot.setEvw (t : Allot) (w : EvrWin) : Allot := { t with
  evwArea := w.area
  evwCursor := w.cursor
  evwValid := w.valid
  evwEnd := w.atEnd
  evwGap := w.gap
  evwData := w.data }

def evrCursor (v : Nat) (d : Device) : Device := { d with evr := { d.evr with win := cursorWrite d (fun _ => true) v d.evr.win } }

/-- 16 R349: a write of EVR_CURSOR. -/
def execEvrCursorWrite (v : BitVec 32) (s : State) : Host.Outcome State Fault Refusal :=
  s.on fun d => barWrite 0x0012_0004 v.toNat false d (evrCursor v.toNat)

/-- 16 R349: a read of EVR_DATA[7] answers its bytes and advances. -/
def execEvrDataRead (s : State) : Host.Outcome State Fault Refusal :=
  s.on fun d => barRead 0x0012_002C d fun d =>
    let d := d.emit (.readReply 0 0x0012_002C (bytesAt d.evr.win.data 28 4))
    { d with evr := { d.evr with win := windowAdvance d (fun _ => true) d.evr.win } }

/-- A write of EVW_CURSOR, which the proxy carries (16, Registers). -/
def evwCursor (a v : Nat) (d : Device) : Device := d.updAllot a (fun t => t.setEvw (cursorWrite d (seenBy a) v t.evw))

/-- 16 R349: a write of EVW_CURSOR. -/
def execEvwCursorWrite (a : Fin 64) (v : BitVec 32) (s : State) : Host.Outcome State Fault Refusal :=
  s.on fun d => pageWrite a 0x4004 v.toNat d (evwCursor a v.toNat)

/-- 16 R349: a read of EVW_DATA[7]. -/
def execEvwDataRead (a : Fin 64) (s : State) : Host.Outcome State Fault Refusal :=
  s.on fun d => pageRead a 0x402C d fun d =>
    let d := d.emit (.readReply a 0x402C (bytesAt (d.allot a).evwData 28 4))
    d.updAllot a (fun t => t.setEvw (windowAdvance d (seenBy a) t.evw))

/-- EVR_CLEAR with GO (R351). -/
def evrClear (confirm : Nat) (d : Device) : Device :=
  if confirm ≠ 0xC1EA ∨ d.md.mode = .quarantine then { d with evr := { d.evr with clearErr := true } } else
  let n := d.evr.ring.length
  let last := (d.evr.next + 2 ^ 32 - 1) % 2 ^ 32
  let d := { d with evr := { d.evr with ring := [], oldest := d.evr.next, clearErr := false } }
  record 0x2F01 0 false n last 0 0 d

/-- 16 R351: allotment 0 clears the circular area. -/
def execEvrClear (confirm : BitVec 16) (s : State) : Host.Outcome State Fault Refusal :=
  s.on fun d => barWrite 0x0012_0038 (confirm.toNat + 2 ^ 16) false d (evrClear confirm.toNat)

/-! ## The end of a one-second interval (00 R437) -/

/-- Units that wait in a Weir's line. -/
def Device.lineUnits (d : Device) (w : Weir) : Nat := sumBy (fun k => (d.cmdOr k).cost) w.line

/-- WEIR_SHEDDING of a Weir that shed (04 R108). -/
def shedSummary (n : Nat) (d : Device) : Device :=
  let w := d.weir n
  if w.shedSec = 0 then d else
  let units := d.lineUnits w
  let d := d.updWeir n (fun w => { w with shedSec := 0, shedAllot := 0 })
  let hit := (d.cmds.filter (fun x => decide (x.2.weir = n) && decide (x.2.phase = .ended) && decide (x.2.status = stWeirShed))).map (fun x => x.1)
  noticeAfter hit w.shedAllot 0x7010 1 n w.shedSec units 0 d

/-- 0x6011 of a gate that dropped reports (14 R303). -/
def gateSummary (g : Nat) (d : Device) : Device :=
  let n := (d.gate g).droppedReports
  let d := d.updGate g (fun t => { t with reports := 0, droppedReports := 0 })
  if n = 0 then d else recordCompute 0x6011 (if g < 64 then g else 0) false g n 0 0 d

/-- The summaries of the interval, and its limits start again. -/
def endSecond (d : Device) : Device :=
  let d := foldOver (fun (x : Nat × Weir) d => shedSummary x.1 d) d.weirs d
  let d := foldOver (fun (x : Nat × Gate) d => gateSummary x.1 d) d.gates d
  let d := if d.evr.dropSec = 0 then d else record 0x2F02 0 false d.evr.dropSec 0 0 0 d
  let d := if d.md.lockedSec = 0 then d else record 0xA005 0 false d.md.lockedFirst d.md.lockedSec 0 0 d
  { d with
    evr := { d.evr with dropSec := 0 }
    md := { d.md with lockedSec := 0, lockedFirst := 0 }
    flt := { d.flt with perSource := [] }
    lev := { d.lev with src := Tbl.mapSet {} (fun _ (x : LevSource) => { x with noted := false }) d.lev.src } }

/-- 00 R437: the interval under way has ended. -/
def execSecondIntervalEnd (s : State) : Host.Outcome State Fault Refusal :=
  s.on fun d =>
    let now := d.time / 1_000_000_000
    if d.second < now then { endSecond d with second := now } else d

end Sys2Proof.Machine
end

