-- ==== Sys2Proof/Machine/Fault.lean ====
section
/-!
DEFINITION. Sys2Proof/Machine/Fault.lean: faults, their reactions, Fatal faults, unit operations, injection and ALIVE (15).
-/
namespace Sys2Proof.Machine

/-- What follows every change of units: the Low-flow conditions and waiting admin commands are looked at. -/
def unitsChanged (d : Device) : Device := settleAdmin (lowFlowCheck d)

/-- Deliver the fault report that comes next, if one does. -/
def deliverFault (d : Device) : Device :=
  takeCustody (fun m => match m with
    | .faultReport f => some f
    | _ => none) d (fun f d => unitsChanged (takeFault f d))

/-- A unit whose Contained fault is met stops at once, before the order to fence it comes: an engine issues nothing more (15 R311), an LIU's jobs are
aborted (10, Table 10.11), a digest engine's job goes no further (11, Table 11.9). -/
def stopUnit (cls unit : Nat) (d : Device) : Device := match cls with
  | 0 => if (d.eng unit).st.inService then d.updArch unit (fun t => { t with faulted := true }) else d
  | 1 => if unit < 32 then (liuStop unit d).updLiu unit (fun u => { u with faulted := true }) else d
  | 2 => if unit < 8 then d.updDig unit (fun g => { g with faulted := true }) else d
  | _ => d

/-- A checker of the compute die meets a fault: a Fatal source asserts SB_FATAL beside the report (R318 step 1). -/
def meetFault (source unit : Nat) (slot : Option Nat) (syndrome : Nat) (d : Device) : Device :=
  let i := takeInjection source unit d
  let under := match unitClassOf source with
    | some c => (i.2.unit c unit).testing
    | none => false
  let d := if faultClass source = 2 then { i.2 with fl := { i.2.fl with sbFatal := true } } else i.2
  let d := match unitClassOf source with
    | some c => if faultClass source = 1 ∧ !under ∧ !(d.unit c unit).fenced then stopUnit c unit d else d
    | none => d
  let d := if source = 0x00 ∧ unit < 144 then d.bump (engPage unit + 0x020) 0xFFFF
    else if [0x2C, 0x2D, 0x2E, 0x30].contains source ∧ unit < 32 then d.bump (0x0006_0020 + 0x100 * unit) 0xFFFF
    else if [0x32, 0x33, 0x34, 0x36].contains source ∧ unit < 8 then d.bump (0x0007_00D4 + 0x100 * unit) 0xFFFF
    else d
  toCustody (.faultReport {
    source := source
    unit := unit
    slot := slot
    syndrome := syndrome
    injected := i.1
    test := under
    time := d.stamp }) d

/-- 15 R305: a fault of a compute-die source reaches the custody die and is classified. With no source named, the report that
waits at the head of the Flume is delivered. -/
def execFaultReport (source : Option (Fin 190)) (unit : BitVec 16) (slot : Option (Fin 4096)) (syndrome : BitVec 64) (s : State) : Host.Outcome State Fault Refusal :=
  s.on fun d =>
    match source with
    | none => deliverFault d
    | some x =>
      if computeSees x && !d.boot.computeReset then
        deliverFault (meetFault x unit.toNat (slot.map (fun k => k.val)) syndrome.toNat d)
      else d

/-- 15 R305: a fault of a custody-die source is seen directly. -/
def execCustodyFault (source : Fin 190) (unit : BitVec 16) (syndrome : BitVec 64) (s : State) : Host.Outcome State Fault Refusal :=
  s.on fun d =>
    if custodySees source && !d.boot.custodyReset then
      let i := takeInjection source unit.toNat d
      let under := match unitClassOf source with
        | some c => (i.2.unit c unit.toNat).testing
        | none => false
      unitsChanged (takeFault {
        source := source
        unit := unit.toNat
        syndrome := syndrome.toNat
        injected := i.1
        test := under
        time := d.time } i.2)
    else d

/-- 15 R311: the compute die carries out a fence order. -/
def execFaultActionFence (s : State) : Host.Outcome State Fault Refusal :=
  s.on fun d => takeCompute (fun m => match m with
    | .faultAction (.fence c i q) => some (c, i, q)
    | _ => none) d (fun x d => unitsChanged (fenceOrder x.1 x.2.1 x.2.2 d))

/-- 15 R314: the compute die carries out a replay order. -/
def execFaultActionReplay (s : State) : Host.Outcome State Fault Refusal :=
  s.on fun d => takeCompute (fun m => match m with
    | .faultAction (.replay k q) => some (k, q)
    | _ => none) d (fun x d => settleAdmin (replayOrder x.1 x.2 d))

/-- 15 R317: the compute die is told to enter Low-flow: the change of mode begins (18 R382). -/
def execFaultActionLowFlow (s : State) : Host.Outcome State Fault Refusal :=
  s.on fun d => takeCompute (fun m => match m with
    | .faultAction .lowFlow => some ()
    | _ => none) d (fun _ d =>
      if d.md.mode = .service ∧ d.lowFlowCond then beginChange .lowFlow d.lowFlowCause false d else d)

/-- 15 R318 step 3: the compute die stops issuing. -/
def execFaultActionStop (s : State) : Host.Outcome State Fault Refusal :=
  s.on fun d => takeCompute (fun m => match m with
    | .faultAction (.stop q) => some q
    | _ => none) d (fun _ d => fatalStop d)

/-- 15 R319: the drain ends when every completion is written or its 2 ms bound expires. -/
def execFatalDrainEnd (s : State) : Host.Outcome State Fault Refusal :=
  s.on fun d => match d.flt.fatal with
    | none => d
    | some f => if f.stage = 1 ∧ (d.cmds = [] ∨ f.since + 2_000_000 ≤ d.time) then drainEnd d else d

/-- 15 R318 step 6: the dwell expires and the compute die is reset. -/
def execFatalDwellExpire (s : State) : Host.Outcome State Fault Refusal :=
  s.on fun d => match d.flt.fatal with
    | none => d
    | some f =>
      if f.stage = 2 ∧ !f.double ∧ d.autoReset ∧ f.dwellFrom + d.fatalDwell * 1_000_000 ≤ d.time then fatalReset d else d

/-- 15 R308: CACK_US after a Corrected fault its pending bit is acknowledged. -/
def execFaultAutoAck (s : State) : Host.Outcome State Fault Refusal :=
  s.on fun d =>
    let now := d.flt.acks.filter (fun x => decide (x.2 ≤ d.time))
    { d with flt := { d.flt with
      cPend := now.foldl (fun p x => p - (p &&& 2 ^ x.1)) d.flt.cPend
      acks := d.flt.acks.filter (fun x => !decide (x.2 ≤ d.time)) } }

/-- FLT_ACK: writing 1s clears pending bits of the word written. -/
def fltAck (upper : Bool) (v : Nat) (d : Device) : Device :=
  let m := v % 2 ^ 24
  if upper then { d with flt := { d.flt with uPend := d.flt.uPend - (d.flt.uPend &&& m) } }
  else { d with flt := { d.flt with
    cPend := d.flt.cPend - (d.flt.cPend &&& m)
    acks := d.flt.acks.filter (fun x => !bitOf m x.1) } }

/-- 15 R308: the owner acknowledges pending bits. -/
def execFltAckWrite (upper : Bool) (v : BitVec 32) (s : State) : Host.Outcome State Fault Refusal :=
  s.on fun d => barWrite (0x000C_0800 + 4 * b2n upper) v.toNat false d (fltAck upper v.toNat)

/-- 15 R313: the test of a fenced unit ends. -/
def execUnitTestDone (cls : Fin 7) (idx : Fin 144) (pass : Bool) (s : State) : Host.Outcome State Fault Refusal :=
  s.on fun d => if (d.unit cls idx).testing then unitsChanged (testDone cls idx pass d) else d

/-- An owner FENCE of engine e whose spare does not come takes effect once the engine has no command. -/
def fenceIfIdle (e : Nat) (d : Device) : Device :=
  if (d.eng e).fenceDue && decide ((d.eng e).st = .idle) && !d.spareComing e then fenceEngine e 0 true d else d

/-- 15 R312: the spare that was called first enters service: ungated, cleared and seeded. The engine it replaces under an owner FENCE
is fenced in the same step, and the spare waits while that engine still has a command, so that never more engines serve than the part
exposes (05 R113). A spare that was fenced meanwhile is replaced by another; one that the Lateral no longer needs stays a spare. -/
def execSpareInService (l : Fin 16) (s : State) : Host.Outcome State Fault Refusal :=
  s.on fun d => match (d.lat l).spareFor with
    | [] => d
    | (g, e) :: rest =>
      let src := d.unitSource 0 e
      let without := d.updLat l (fun t => { t with spareFor := rest })
      let due := (d.eng e).fenceDue && (d.eng e).st.inService
      if (d.eng g).st ≠ .spare then unitsChanged (fenceIfIdle e (callSpare e without))
      else if due && decide ((d.eng e).st ≠ .idle) then d
      else if !due && decide (exposed d.part ≤ d.latInService l) then unitsChanged without
      else
      let d := scrubEngine g without
      let d := d.updEng g (fun x => { x with st := .idle, lastAllot := none, resident := [], mg := {} })
      let d := seedEngine g d
      let d := recordAs 0x3007 src 0 false d.time l g e 0 d
      unitsChanged (fenceIfIdle e d)

/-- 15 R317: no Low-flow condition has held for 1 s: the device returns to Service. -/
def execLowFlowExit (s : State) : Host.Outcome State Fault Refusal :=
  s.on fun d =>
    if d.md.mode = .lowFlow ∧ !d.lowFlowCond ∧ !d.flt.lowFlowOrdered ∧ d.flt.clearSince + 1_000_000_000 ≤ d.time then
      beginChange .service 4 false d
    else d

/-- 15 R307: the compute junction reaches 108 °C. -/
def execThermalWarning (celsius : BitVec 7) (s : State) : Host.Outcome State Fault Refusal :=
  s.on fun d =>
    if 108 ≤ celsius.toNat ∧ !d.flt.thermWarn ∧ !d.boot.computeReset then
      lowFlowCheck (raiseFault 0x8B 0xFFFF none celsius.toNat (raiseAlert 2 { d with flt := { d.flt with thermWarn := true } }))
    else d

/-- 15 R307: the compute junction falls to 103 °C. -/
def execThermalWarningClear (celsius : BitVec 7) (s : State) : Host.Outcome State Fault Refusal :=
  s.on fun d =>
    if celsius.toNat ≤ 103 ∧ d.flt.thermWarn then lowFlowCheck { d with flt := { d.flt with thermWarn := false } } else d

/-- 15 R322: no heartbeat for 100 µs, SB_FATAL, or a stop not confirmed within 12 µs: the compute die is wedged. -/
def execWedgeDetect (s : State) : Host.Outcome State Fault Refusal :=
  s.on fun d =>
    let silent := d.fl.trained && decide (d.fl.lastBeat + 100_000 ≤ d.time)
    let unconfirmed := match d.flt.fatal with
      | some f => decide (f.stage = 0) && decide (f.since + 12_000 ≤ d.time)
      | none => false
    if silent || d.fl.sbFatal || unconfirmed then (if silent || unconfirmed then wedge d else { d with flt := { d.flt with wedged := true } }) else d

/-- 15 R328: FLT_INJECT.ARM. -/
def execFltInjectArm (source unit : BitVec 8) (s : State) : Host.Outcome State Fault Refusal :=
  s.on fun d => barWrite 0x000C_0010 (source.toNat + unit.toNat * 2 ^ 8 + 2 ^ 31) false d (injectArm source.toNat unit.toNat)

/-- FLT_INJECT.CANCEL. -/
def injectCancel (source unit : Nat) (d : Device) : Device :=
  { d with flt := { d.flt with injSource := source, injUnit := unit, injPending := false } }

/-- 15 R327: FLT_INJECT.CANCEL cancels the pending injection. -/
def execFltInjectCancel (source unit : BitVec 8) (s : State) : Host.Outcome State Fault Refusal :=
  s.on fun d => barWrite 0x000C_0010 (source.toNat + unit.toNat * 2 ^ 8 + 2 ^ 29) false d (injectCancel source.toNat unit.toNat)

/-- 15 R325: FLT_UNIT_OP.GO with FENCE. -/
def execFltFence (s : State) : Host.Outcome State Fault Refusal :=
  s.on fun d => barWrite 0x000C_0024 0x101 false d (fun d => unitsChanged (fltUnitOp 1 d))

/-- 15 R325: FLT_UNIT_OP.GO with TEST. -/
def execFltTest (s : State) : Host.Outcome State Fault Refusal :=
  s.on fun d => barWrite 0x000C_0024 0x102 false d (fun d => unitsChanged (fltUnitOp 2 d))

/-- 15 R325: FLT_UNIT_OP.GO with UNFENCE. -/
def execFltUnfence (s : State) : Host.Outcome State Fault Refusal :=
  s.on fun d => barWrite 0x000C_0024 0x103 false d (fun d => unitsChanged (fltUnitOp 3 d))

/-- An admin operation on a unit (15 R326): the refusals of Table 15.10, then the operation; it completes when it has taken effect. -/
def unitAdmin (a opcode op : Nat) (d : Device) : Device :=
  admin a opcode true [(4, 7), (6, 255), (7, 255)] [] d fun e _ d =>
    let cls := field (bytesAt e 4 1) 2 0
    let idx := bytesAt e 6 2
    let c := d.unitRefusal op cls idx
    if c ≠ 0 then admRefuse a (0x70 + c) d
    else unitsChanged (unitOperation op cls idx (admWait a (.unitOp cls idx op) d))

/-- 15 R326, Table 15.10a: UNIT_FENCE. -/
def execUnitFence (a : Fin 64) (s : State) : Host.Outcome State Fault Refusal := s.on (unitAdmin a 0x0070 1)
/-- 15 R326, Table 15.10a: UNIT_TEST. -/
def execUnitTest (a : Fin 64) (s : State) : Host.Outcome State Fault Refusal := s.on (unitAdmin a 0x0071 2)
/-- 15 R326, Table 15.10a: UNIT_UNFENCE. -/
def execUnitUnfence (a : Fin 64) (s : State) : Host.Outcome State Fault Refusal := s.on (unitAdmin a 0x0072 3)

/-- The history record of an age: 0 newest; an empty position is zero. -/
def Device.histAt (d : Device) (age : Nat) : Rec32 :=
  let n := d.flt.history.length
  if age < n then d.flt.history.getD (n - 1 - age) 0 else 0

/-- The 32 records, newest first. -/
def Device.histBytes (d : Device) : List Byte := (List.range 32).flatMap (fun i => toBytes 32 (d.histAt i).toNat)

/-- 15 R326, Table 15.10a: FAULT_HISTORY. -/
def execFaultHistory (a : Fin 64) (s : State) : Host.Outcome State Fault Refusal :=
  s.on fun d => admin a 0x0073 true (wholeBytes 8 15) [(8, 64)] d fun e _ d =>
    admResult a (bytesAt e 8 8) d.histBytes d (admDone a stOk 1024 0)

/-- 15, Table 15.14: reading FLT_HIST_DATA[7] shows its bytes and advances AGE by 1. -/
def execFltHistRead (s : State) : Host.Outcome State Fault Refusal :=
  s.on fun d => barRead 0x000C_083C d fun d =>
    let v := bytesAt (d.histAt d.flt.histAge) 28 4
    { d.emit (.readReply 0 0x000C_083C v) with flt := { d.flt with histAge := (d.flt.histAge + 1) % 32 } }

/-- 15 R329: every 500 µs while healthy the custody die toggles ALIVE. -/
def execAliveToggle (s : State) : Host.Outcome State Fault Refusal :=
  s.on fun d => if d.healthy then { d.emit .aliveEdge with flt := { d.flt with alive := !d.flt.alive } } else d

end Sys2Proof.Machine
end

