-- ==== Sys2Proof/Machine/Curves.lean ====
section
/-!
DEFINITION. Sys2Proof/Machine/Curves.lean: the curves of 09 R217 to R219: X25519 and X448 (RFC 7748), ECDH and ECDSA over P-256, P-384 and P-521
(FIPS 186-5, SEC 1, RFC 6979), Ed25519 and Ed448 (RFC 8032). The constants are the standards'.
-/
namespace Sys2Proof

/-- b^e modulo m. -/
def fieldPow (m b e : Nat) : Nat :=
  (List.range (e.log2 + 1)).reverse.foldl (fun a i => let a := a * a % m; if bitOf e i then a * b % m else a) (1 % m)
/-- The inverse modulo a prime, zero for zero. -/
def fieldInv (p a : Nat) : Nat := fieldPow p a (p - 2)
def fieldSub (p a b : Nat) : Nat := (a + p - b % p) % p

/-! ## X25519 and X448 (09 R218) -/

/-- A Montgomery curve of RFC 7748: its prime, (A - 2) / 4, bits of the ladder, bytes, and the base point. -/
structure XCurve where
  p : Nat
  a24 : Nat
  bits : Nat
  bytes : Nat
  base : Nat

def curveX25519 : XCurve := { p := 2 ^ 255 - 19, a24 := 121665, bits := 255, bytes := 32, base := 9 }
def curveX448 : XCurve := { p := 2 ^ 448 - 2 ^ 224 - 1, a24 := 39081, bits := 448, bytes := 56, base := 5 }

/-- The scalar as RFC 7748 clamps it. -/
def XCurve.clamp (c : XCurve) (k : Nat) : Nat :=
  if c.bits = 255 then (k % 2 ^ 254) / 8 * 8 + 2 ^ 254 else (k % 2 ^ 447) / 4 * 4 + 2 ^ 447

/-- One step of the ladder on (x2, z2, x3, z3). -/
def XCurve.step (c : XCurve) (x1 : Nat) (s : Nat × Nat × Nat × Nat) : Nat × Nat × Nat × Nat :=
  let p := c.p
  let x2 := s.1
  let z2 := s.2.1
  let x3 := s.2.2.1
  let z3 := s.2.2.2
  let a := (x2 + z2) % p
  let aa := a * a % p
  let b := fieldSub p x2 z2
  let bb := b * b % p
  let e := fieldSub p aa bb
  let cb := (x3 + z3) % p * b % p
  let da := fieldSub p x3 z3 * a % p
  let s := (da + cb) % p
  let t := fieldSub p da cb
  (aa * bb % p, e * ((aa + c.a24 * e) % p) % p, s * s % p, x1 * (t * t % p) % p)

def swapPairs (b : Bool) (s : Nat × Nat × Nat × Nat) : Nat × Nat × Nat × Nat :=
  if b then (s.2.2.1, s.2.2.2, s.1, s.2.1) else s

/-- The function of a scalar and a u-coordinate: X25519 masks the top bit of u; u at or above p is reduced. -/
def XCurve.run (c : XCurve) (scalar u : List Byte) : List Byte :=
  let k := c.clamp (ofBytes scalar)
  let x1 := (if c.bits = 255 then ofBytes u % 2 ^ 255 else ofBytes u) % c.p
  let s := (List.range c.bits).reverse.foldl (fun s i => swapPairs (bitOf k i) (c.step x1 (swapPairs (bitOf k i) s))) (1, 0, x1, 1)
  toBytes c.bytes (s.1 * fieldInv c.p s.2.1 % c.p)

/-- The public key is the function applied to the base point. -/
def XCurve.public (c : XCurve) (scalar : List Byte) : List Byte := c.run scalar (toBytes c.bytes c.base)
/-- The shared secret; none when it is all zero. -/
def XCurve.agree (c : XCurve) (scalar u : List Byte) : Option (List Byte) :=
  let r := c.run scalar u
  if ofBytes r = 0 then none else some r

/-! ## P-256, P-384, P-521 (09 R217) -/

/-- A curve y² = x³ - 3x + b with a base point of prime order n; `len` is the length of a coordinate and of a scalar. -/
structure PCurve where
  p : Nat
  b : Nat
  n : Nat
  gx : Nat
  gy : Nat
  len : Nat

def curveP256 : PCurve := {
  p := 2 ^ 256 - 2 ^ 224 + 2 ^ 192 + 2 ^ 96 - 1
  b := 0x5AC635D8AA3A93E7B3EBBD55769886BC651D06B0CC53B0F63BCE3C3E27D2604B
  n := 0xFFFFFFFF00000000FFFFFFFFFFFFFFFFBCE6FAADA7179E84F3B9CAC2FC632551
  gx := 0x6B17D1F2E12C4247F8BCE6E563A440F277037D812DEB33A0F4A13945D898C296
  gy := 0x4FE342E2FE1A7F9B8EE7EB4A7C0F9E162BCE33576B315ECECBB6406837BF51F5
  len := 32 }
def curveP384 : PCurve := {
  p := 2 ^ 384 - 2 ^ 128 - 2 ^ 96 + 2 ^ 32 - 1
  b := 0xB3312FA7E23EE7E4988E056BE3F82D19181D9C6EFE8141120314088F5013875AC656398D8A2ED19D2A85C8EDD3EC2AEF
  n := 0xFFFFFFFFFFFFFFFFFFFFFFFFFFFFFFFFFFFFFFFFFFFFFFFFC7634D81F4372DDF581A0DB248B0A77AECEC196ACCC52973
  gx := 0xAA87CA22BE8B05378EB1C71EF320AD746E1D3B628BA79B9859F741E082542A385502F25DBF55296C3A545E3872760AB7
  gy := 0x3617DE4A96262C6F5D9E98BF9292DC29F8F41DBD289A147CE9DA3113B5F0B8C00A60B1CE1D7E819D7A431D7C90EA0E5F
  len := 48 }
def curveP521 : PCurve := {
  p := 2 ^ 521 - 1
  b := 0x0051953EB9618E1C9A1F929A21A0B68540EEA2DA725B99B315F3B8B489918EF109E156193951EC7E937B1652C0BD3BB1BF073573DF883D2C34F1EF451FD46B503F00
  n := 0x01FFFFFFFFFFFFFFFFFFFFFFFFFFFFFFFFFFFFFFFFFFFFFFFFFFFFFFFFFFFFFFFFFA51868783BF2F966B7FCC0148F709A5D03BB5C9B8899C47AEBB6FB71E91386409
  gx := 0x00C6858E06B70404E9CD9E3ECB662395B4429C648139053FB521F828AF606B4D3DBAA14B5E77EFE75928FE1DC127A2FFA8DE3348B3C1856A429BF97E7E31C2E5BD66
  gy := 0x011839296A789A3BC0045C8A5FB42C7D1BD998F54449579B446817AFBD17273E662C97EE72995EF42640C550B9013FAD0761353C7086A272C24088BE94769FD16650
  len := 66 }

/-- A point: none is the point at infinity. -/
abbrev Pt := Option (Nat × Nat)

def PCurve.onCurve (c : PCurve) (x y : Nat) : Bool := decide (y * y % c.p = (x * x * x + (c.p - 3) * x + c.b) % c.p)

def PCurve.add (c : PCurve) (a b : Pt) : Pt := match a, b with
  | none, q => q
  | q, none => q
  | some (x1, y1), some (x2, y2) =>
    if x1 = x2 ∧ (y1 + y2) % c.p = 0 then none
    else
      let m := if x1 = x2 then (3 * x1 * x1 + (c.p - 3)) % c.p * fieldInv c.p (2 * y1 % c.p) % c.p
        else fieldSub c.p y2 y1 * fieldInv c.p (fieldSub c.p x2 x1) % c.p
      let x3 := fieldSub c.p (fieldSub c.p (m * m % c.p) x1) x2
      some (x3, fieldSub c.p (m * fieldSub c.p x1 x3 % c.p) y1)

def PCurve.mul (c : PCurve) (k : Nat) (q : Pt) : Pt :=
  (List.range (k.log2 + 1)).reverse.foldl (fun a i => let a := c.add a a; if bitOf k i then c.add a q else a) none

def PCurve.g (c : PCurve) : Pt := some (c.gx, c.gy)

/-- An uncompressed point, 0x04 and both coordinates at field length. -/
def PCurve.encode (c : PCurve) (q : Pt) : List Byte := match q with
  | some (x, y) => [0x04] ++ beBytes c.len x ++ beBytes c.len y
  | none => zeros (1 + 2 * c.len)

/-- A public key as it is validated: the point, or the refusal reason: 1 its form, 2 a coordinate at or above p, 3 off the curve. -/
def PCurve.decode (c : PCurve) (bs : List Byte) : Nat × Pt :=
  let x := ofBe ((bs.drop 1).take c.len)
  let y := ofBe ((bs.drop (1 + c.len)).take c.len)
  if bs.length ≠ 1 + 2 * c.len ∨ bs.headD 0 ≠ 0x04 then (1, none)
  else if c.p ≤ x ∨ c.p ≤ y then (2, none)
  else if !c.onCurve x y then (3, none)
  else (0, some (x, y))

def PCurve.public (c : PCurve) (scalar : List Byte) : List Byte := c.encode (c.mul (ofBe scalar) c.g)

/-- The x-coordinate at field length; none at infinity. -/
def PCurve.agree (c : PCurve) (scalar : List Byte) (q : Pt) : Option (List Byte) :=
  (c.mul (ofBe scalar) q).map (fun x => beBytes c.len x.1)

/-- The leftmost bits of a byte string, as many as the order has (FIPS 186-5). -/
def PCurve.bitsToInt (c : PCurve) (bs : List Byte) : Nat :=
  let q := c.n.log2 + 1
  if q < 8 * bs.length then ofBe bs >>> (8 * bs.length - q) else ofBe bs

/-- The hash that RFC 6979 uses beside a digest of 32, 48 or 64 bytes. -/
def hashOfLen (n : Nat) : HashFn := if n = 32 then hashSha256 else if n = 48 then hashSha384 else hashSha512

/-- Bytes of K and V of RFC 6979's generator until they have `need`. -/
def nonceBytes (h : HashFn) (k : List Byte) : (fuel : Nat) → (v : List Byte) → (need : Nat) → List Byte × List Byte
  | 0, v, _ => ([], v)
  | f + 1, v, need =>
    let v := hmac h k v
    if need ≤ h.len then (v, v) else
      let r := nonceBytes h k f v (need - h.len)
      (v ++ r.1, r.2)

/-- The first value of the generator in [1, n - 1] that `ok` takes (RFC 6979, 3.2 step h). -/
def nonceLoop (c : PCurve) (h : HashFn) (ok : Nat → Bool) : (fuel : Nat) → (k v : List Byte) → Nat
  | 0, _, _ => 1
  | f + 1, k, v =>
    let r := nonceBytes h k 3 v c.len
    let x := c.bitsToInt (r.1.take c.len)
    if 0 < x ∧ x < c.n ∧ ok x then x
    else
      let k := hmac h k (r.2 ++ [0])
      nonceLoop c h ok f k (hmac h k r.2)

/-- The nonce of RFC 6979, with additional data in the hedged form (3.6). -/
def PCurve.nonce (c : PCurve) (scalar digest extra : List Byte) (ok : Nat → Bool) : Nat :=
  let h := hashOfLen digest.length
  let seed := beBytes c.len (ofBe scalar) ++ beBytes c.len (c.bitsToInt digest % c.n) ++ extra
  let v := List.replicate h.len (1 : Byte)
  let k := hmac h (zeros h.len) (v ++ [0] ++ seed)
  let v := hmac h k v
  let k := hmac h k (v ++ [1] ++ seed)
  nonceLoop c h ok 64 k (hmac h k v)

/-- r and s of ECDSA for a nonce. -/
def PCurve.signWith (c : PCurve) (scalar digest : List Byte) (k : Nat) : Nat × Nat :=
  let r := (match c.mul k c.g with
    | some x => x.1
    | none => 0) % c.n
  (r, fieldInv c.n k * ((c.bitsToInt digest + r * ofBe scalar) % c.n) % c.n)

def PCurve.sign (c : PCurve) (scalar digest extra : List Byte) : List Byte :=
  let k := c.nonce scalar digest extra (fun k => let x := c.signWith scalar digest k; decide (x.1 ≠ 0) && decide (x.2 ≠ 0))
  let x := c.signWith scalar digest k
  beBytes c.len x.1 ++ beBytes c.len x.2

/-- 0, or the DETAIL of VERIFY_FALSE (09 R217): 2 r or s out of range, 4 the public key, 3 the equation. -/
def PCurve.verify (c : PCurve) (pk digest sig : List Byte) : Nat :=
  let r := ofBe (sig.take c.len)
  let s := ofBe (sig.drop c.len)
  let q := c.decode pk
  if sig.length ≠ 2 * c.len then 1
  else if r = 0 ∨ c.n ≤ r ∨ s = 0 ∨ c.n ≤ s then 2
  else if q.1 ≠ 0 then 4
  else
    let w := fieldInv c.n s
    match c.add (c.mul (c.bitsToInt digest * w % c.n) c.g) (c.mul (r * w % c.n) q.2) with
    | some (x, _) => if x % c.n = r then 0 else 3
    | none => 3

/-- A secret scalar from random bytes, 8 more than the order has (FIPS 186-5, A.2.1). -/
def PCurve.scalarFrom (c : PCurve) (random : List Byte) : List Byte := beBytes c.len (ofBe random % (c.n - 1) + 1)

/-! ## Ed25519 and Ed448 (09 R219) -/

/-- An Edwards curve a x² + y² = 1 + d x² y²: order L of the base point, 2^cof its cofactor, bytes of an encoding. -/
structure ECurve where
  p : Nat
  a : Nat
  d : Nat
  l : Nat
  bx : Nat
  by_ : Nat
  bytes : Nat
  cof : Nat
  dom : List Byte
  hash : List Byte → List Byte

def curveEd25519 : ECurve := {
  p := 2 ^ 255 - 19
  a := 2 ^ 255 - 20
  d := 37095705934669439343138083508754565189542113879843219016388785533085940283555
  l := 2 ^ 252 + 27742317777372353535851937790883648493
  bx := 15112221349535400772501151409588531511454012693041857206046113283949847762202
  by_ := 46316835694926478169428394003475163141307993866256225615783033603165251855960
  bytes := 32
  cof := 3
  dom := []
  hash := hashSha512.run }
/-- Ed448 hashes with SHAKE256 of 114 bytes, messages behind dom4 with flag 0 and an empty context. -/
def curveEd448 : ECurve := {
  p := 2 ^ 448 - 2 ^ 224 - 1
  a := 1
  d := 2 ^ 448 - 2 ^ 224 - 1 - 39081
  l := 2 ^ 446 - 13818066809895115352007386748515426880336692474882178609894547503885
  bx := 224580040295924300187604334099896036246789641632564134246125461686950415467406032909029192869357953282578032075146446173674602635247710
  by_ := 298819210078481492676017930443930673437544040154080242095928241372331506189835876003536878655418784733982303233503462500531545062832660
  bytes := 57
  cof := 2
  dom := ascii "SigEd448" ++ [0, 0]
  hash := fun m => sponge 136 0x1F m 114 }

def ECurve.add (c : ECurve) (s t : Nat × Nat) : Nat × Nat :=
  let p := c.p
  let m := c.d * (s.1 * t.1 % p) % p * (s.2 * t.2 % p) % p
  ((s.1 * t.2 + t.1 * s.2) % p * fieldInv p ((1 + m) % p) % p,
   fieldSub p (s.2 * t.2 % p) (c.a * (s.1 * t.1 % p) % p) * fieldInv p (fieldSub p 1 m) % p)
def ECurve.mul (c : ECurve) (k : Nat) (q : Nat × Nat) : Nat × Nat :=
  (List.range (k.log2 + 1)).reverse.foldl (fun a i => let a := c.add a a; if bitOf k i then c.add a q else a) (0, 1)
def ECurve.base (c : ECurve) : Nat × Nat := (c.bx, c.by_)
def ECurve.cofactor (c : ECurve) (q : Nat × Nat) : Nat × Nat := c.mul (2 ^ c.cof) q

/-- y, and the low bit of x on top. -/
def ECurve.encode (c : ECurve) (q : Nat × Nat) : List Byte := toBytes c.bytes (q.2 + q.1 % 2 * 2 ^ (8 * c.bytes - 1))

/-- A square root modulo p, if there is one: p is 5 modulo 8 or 3 modulo 4. -/
def sqrtMod (p u : Nat) : Option Nat :=
  let x := if p % 8 = 5 then
      (let r := fieldPow p u ((p + 3) / 8)
       if r * r % p = u % p then r else r * fieldPow p 2 ((p - 1) / 4) % p)
    else fieldPow p u ((p + 1) / 4)
  if x * x % p = u % p then some x else none

/-- A point from its canonical encoding; none for any other byte string. -/
def ECurve.decode (c : ECurve) (bs : List Byte) : Option (Nat × Nat) :=
  let v := ofBytes bs
  let y := v % 2 ^ (8 * c.bytes - 1)
  let sign := v / 2 ^ (8 * c.bytes - 1)
  if bs.length ≠ c.bytes ∨ c.p ≤ y then none
  else
    let y2 := y * y % c.p
    match sqrtMod c.p (fieldSub c.p y2 1 * fieldInv c.p (fieldSub c.p (c.d * y2 % c.p) c.a) % c.p) with
    | none => none
    | some x =>
      if x = 0 ∧ sign = 1 then none
      else some (if x % 2 = sign then x else c.p - x, y)

/-- The secret scalar and the prefix of a secret seed. -/
def ECurve.expand (c : ECurve) (seed : List Byte) : Nat × List Byte :=
  let h := c.hash seed
  let s := ofBytes (h.take c.bytes)
  (if c.bytes = 32 then s % 2 ^ 254 / 8 * 8 + 2 ^ 254 else s % 2 ^ 447 / 4 * 4 + 2 ^ 447, h.drop c.bytes)

def ECurve.public (c : ECurve) (seed : List Byte) : List Byte := c.encode (c.mul (c.expand seed).1 c.base)

def ECurve.sign (c : ECurve) (seed m : List Byte) : List Byte :=
  let s := c.expand seed
  let pk := c.public seed
  let r := ofBytes (c.hash (c.dom ++ s.2 ++ m)) % c.l
  let R := c.encode (c.mul r c.base)
  let k := ofBytes (c.hash (c.dom ++ R ++ pk ++ m)) % c.l
  R ++ toBytes c.bytes ((r + k * s.1) % c.l)

/-- 0, or the DETAIL of VERIFY_FALSE (09 R219): 1 the encoding of R, 2 S at or above L, 4 the public key, 3 the cofactored equation. -/
def ECurve.verify (c : ECurve) (pk m sig : List Byte) : Nat :=
  let S := ofBytes (sig.drop c.bytes)
  if sig.length ≠ 2 * c.bytes then 1 else
  match c.decode (sig.take c.bytes) with
  | none => 1
  | some R =>
    if c.l ≤ S then 2 else
    match c.decode pk with
    | none => 4
    | some A =>
      if c.cofactor A = (0, 1) then 4
      else
        let k := ofBytes (c.hash (c.dom ++ sig.take c.bytes ++ pk ++ m)) % c.l
        if c.cofactor (c.mul S c.base) = c.add (c.cofactor R) (c.cofactor (c.mul k A)) then 0 else 3

end Sys2Proof
end

