-- ==== Sys2Proof/Machine/OpsWs.lean ====
section
/-!
DEFINITION. Sys2Proof/Machine/OpsWs.lean: the Watershed's shared operations (17): taking part, sending on a channel, joins, closing and
losing a channel, acknowledgements, migrations, leaf grants.
-/
namespace Sys2Proof.Machine

/-! ## Configuration (17, Table 17.14) -/

def Device.migLimit (d : Device) : Nat := field (d.reg 0x000D_0014) 15 0 * 1_000_000
def Device.wsRetry (d : Device) : Nat := field (d.reg 0x000D_0014) 31 16 * 1_000_000
def Device.grantSize (d : Device) : Nat := d.reg 0x000D_0018
def Device.grantLow (d : Device) : Nat := d.reg 0x000D_001C
def Device.grantWaitNs (d : Device) : Nat := d.reg 0x000D_0020 * 1_000_000

/-- The dates of the installed credential hold (17 R356, Table 17.6 reason 3). -/
def Device.credDates (d : Device) : Bool := d.ws.cred && decide (d.ws.notBefore ≤ d.time) && decide (d.time ≤ d.ws.notAfter)

/-- The device takes part in its Watershed (17 R357). -/
def Device.wsActive (d : Device) : Bool :=
  d.wsEn && d.ws.credOk && (match d.md.mode with
    | .service | .lowFlow | .maintenance => true
    | _ => false)

/-- A member that messages may go to: in the peer table, not revoked, not the device itself. -/
def Device.wsPeerOk (d : Device) (m : Nat) : Bool :=
  (d.peer m).en && !d.ws.revoked.contains m && m != d.wsMember

/-- Channels up, and joins under way, at most 64 together (17 R357). -/
def Device.channels (d : Device) : Nat := countWhere (fun x => x.2.up) d.ws.peers
def Device.channelsTaken (d : Device) : Nat := countWhere (fun x => x.2.up || decide (x.2.join ≠ 0)) d.ws.peers

/-! ## Channels (17 R357 to R359) -/

/-- A channel ends: what it had not delivered waits for the next one (17 R365). -/
def closeChannel (m st : Nat) (d : Device) : Device :=
  d.updPeer m (fun p => { p with
    st := st
    up := false
    join := 0
    txSeq := 0
    rxSeq := 0
    hs := {}
    keys := []
    waiting := ((p.unacked.filter (fun f => f.last)).map (fun f => f.msg)).filter WsMsg.survives ++ p.waiting
    unacked := []
    early := []
    part := none })

/-- The channel that has been idle longest, for 60 s at least, and has nothing to send (17 R357). -/
def Device.idleChannel (d : Device) : Option Nat :=
  (leastBy (fun (x : Nat × Peer) => x.2.lastTraffic) (d.ws.peers.filter (fun x => x.2.up && decide (x.2.lastTraffic + 60_000_000_000 ≤ d.time) && decide (x.2.waiting = [])))).map (fun x => x.1)

/-- CLOSE, then the channel is closed on this side. -/
def closeIdle (m : Nat) (d : Device) : Device := closeChannel m 0 (sendUp m .close d)

/-- A channel is free, or is freed (17 R357, Table 17.6 reason 8): at most 64 are open or in a join. -/
def freeChannel (d : Device) : Option Device :=
  if d.channelsTaken < 64 then some d else d.idleChannel.map (fun m => closeIdle m d)

/-! ## Joining (17 R356, R358) -/

/-- The seed of this device's identity key, and its public key (R356). -/
def Device.identitySeed (d : Device) : List Byte := kdf d.cis.dur "KQ WS IDENTITY" [] 32
def Device.identityKey (d : Device) : List Byte := mldsaPk 2 d.identitySeed

/-- A join message goes out, and is kept to be sent again whole. -/
def joinSend (m : Nat) (msg : WsMsg) (d : Device) : Device :=
  sendClear m msg (d.updPeer m (fun p => { p with joinTries := 1, joinAt := d.time, hs := { p.hs with sent := some msg } }))

/-- A join begins: step 1 of Table 17.5, with 128 bytes of class 2 output: the ML-KEM seed, the X25519 key and the nonce. It needs class 2 entropy and a free channel, or one that can be closed because it has been idle
for 60 s. -/
def startJoin (m : Nat) (d : Device) : Device :=
  let p := d.peer m
  if !d.wsActive || !d.wsPeerOk m || p.up || decide (p.join ≠ 0) || p.retryAt.isSome || !d.entropyAvailable then d
  else match freeChannel d with
  | none => d
  | some d =>
    let r := d.custodyRandom 128
    let d := r.2
    let seed := r.1.take 64
    let x := (r.1.drop 64).take 32
    let body := toBytes 8 d.wsOwnId ++ r.1.drop 96 ++ kemEk 2 seed ++ curveX25519.public x ++ d.ws.credBytes ++ d.identityKey
    let d := d.updPeer m (fun p => { p with
      st := 1
      join := 1
      initiator := true
      keys := []
      hs := { kemSeed := seed, xKey := x, init := body }
      rxSeq := 0
      early := []
      part := none })
    joinSend m (.joinInit body) d

/-- Send a message to a member: at once on an open channel, else when a channel is up. -/
def sendWs (m : Nat) (msg : WsMsg) (d : Device) : Device :=
  if (d.peer m).up then sendUp m msg d
  else startJoin m (d.updPeer m (fun p => { p with waiting := p.waiting ++ [msg] }))

/-- A peer is lost (17 R365, Table 17.13): 0 retries, 1 silence, 2 expiry, 3 revoked. -/
def losePeer (m why : Nat) (d : Device) : Device :=
  let d := closeChannel m (if why = 3 then 4 else 0) d
  let d := notice 0 0x8005 1 m why 0 0 (record 0x8005 0 false m why 0 0 d)
  if why < 2 then startJoin m d else d

/-- JOIN_REJECT, sent or received (17 R358). -/
def rejectPeer (m reason received : Nat) (d : Device) : Device :=
  let d := d.updPeer m (fun p => { p with
    st := 3
    reason := reason
    join := 0
    retryAt := some (d.time + d.wsRetry) })
  notice 0 0x8004 1 m reason received 0 (record 0x8004 0 false m reason received 0 d)

/-- A device with no store key material for a handle sends nothing; the material of a Cistern slot or a Sealed Store object. -/
def Device.keyParts (d : Device) (h : Nat) : Option (KeyAttr × Nat × List Byte) :=
  if handleStore h then
    (Tbl.find d.ss.objs (objKey h)).map (fun o => (o.attr, o.gen, d.objMaterial (objKey h)))
  else
    let s := d.slot (handleSlot h)
    if s.attr.st = 0 then none else some (s.attr, s.gen, d.slotMaterial (handleSlot h))

/-- The tree object's public bytes of a stateful key (09 R205). -/
def Device.treeBytes (d : Device) (h : Nat) : List Byte :=
  let s := d.slot (handleSlot h)
  if s.attr.stateful && !handleStore h then
    (match Tbl.find d.ss.objs (handleAllot h * 2 ^ 25 + s.tree) with
     | some o => o.body
     | none => [])
  else []

/-- KEY_REPL of a recorded replica (17 R362). -/
def sendReplica (r : Replica) (d : Device) : Device :=
  match d.keyParts r.handle with
  | some (a, g, m) => sendWs r.member (.keyRepl r.target a g m (d.treeBytes r.handle)) d
  | none => d

/-- A channel comes up: what waited goes out in order; replications and destroys not yet done are sent again (17 R365). -/
def channelUp (m initiator : Nat) (d : Device) : Device :=
  let ms := (d.peer m).waiting.filter WsMsg.survives
  let d := d.updPeer m (fun p => { p with
    st := 2
    up := true
    join := 0
    since := d.time
    hs := {}
    txSeq := 0
    unacked := []
    rxSeq := if initiator = 1 then 0 else p.rxSeq
    early := if initiator = 1 then [] else p.early
    part := if initiator = 1 then none else p.part
    lastRx := d.time
    lastTx := d.time
    lastTraffic := d.time
    waiting := [] })
  let d := record 0x8003 0 false m initiator 0 0 d
  let d := if initiator = 1 then sendUp m .joinAck d else d
  let d := foldOver (fun x d => sendUp m x d) ms d
  foldOver (fun (r : Replica) d =>
    if r.member ≠ m then d
    else if r.destroying then sendUp m (.keyReplDestroy r.target) d
    else if r.done then d
    else sendReplica r d) d.ws.replicas d

/-! ## Leaves and grants (17 R363) -/

/-- Total height of a stateful key's tree, from EXTRA (13, Table 13.3; 09, Table 9.3). -/
def totalHeight (a : KeyAttr) : Nat :=
  treeHeight a.family a.variant a.extra * treeLevels a.family a.variant a.extra

/-- Leaves of a stateful key: 2^(total height) (13, Table 13.8). -/
def leafLimit (a : KeyAttr) : Nat := 2 ^ totalHeight a

/-- The replica record of a handle on this device. -/
def Device.homeOf (d : Device) (h : Nat) : Option HomeRef := firstWhere (fun x => decide (x.handle = h)) d.ws.homes

def Device.grantOf (d : Device) (h : Nat) : GrantIn := match firstWhere (fun (g : GrantIn) => decide (g.handle = h)) d.ws.grantsIn with
  | some g => g
  | none => { handle := h }

/-- The grant table has room for a key: it holds it, or one of its 256 entries is free. -/
def Device.grantRoom (d : Device) (h : Nat) : Bool :=
  d.ws.grantsIn.any (fun g => decide (g.handle = h)) || decide (d.ws.grantsIn.length < 256)

def setGrant (g : GrantIn) (d : Device) : Device :=
  let has := d.ws.grantsIn.any (fun x => decide (x.handle = g.handle))
  let l := if has then mapWhere (fun (x : GrantIn) => decide (x.handle = g.handle)) (fun _ => g) d.ws.grantsIn else d.ws.grantsIn ++ [g]
  { d with ws := { d.ws with grantsIn := l } }

/-- Ask the home device for leaves, unless a request is under way, two ranges are held, or the home's counter is exhausted. -/
def askGrant (h : Nat) (d : Device) : Device :=
  match d.homeOf h with
  | none => d
  | some r =>
    let g := d.grantOf h
    if g.asked.isSome || g.spent || decide (2 ≤ g.ranges.length) || !d.grantRoom h then d else
    let q := d.ws.nextReq
    let d := setGrant { g with asked := some q } { d with ws := { d.ws with nextReq := (q + 1) % 2 ^ 32 } }
    sendWs r.member (.grantReq r.home q d.grantSize) d

/-- Leaves granted and unused. -/
def GrantIn.left (g : GrantIn) : Nat := sumBy (fun x => x.2) g.ranges

/-- Take the next granted leaf, from the lower range first. -/
def GrantIn.take (g : GrantIn) : Option (Nat × GrantIn) := match g.ranges with
  | (f, n) :: t => if n ≤ 1 then some (f, { g with ranges := t }) else some (f, { g with ranges := (f + 1, n - 1) :: t })
  | [] => none

/-! ## Migrations (17 R360, R361) -/

def Device.migAt (d : Device) (source : Bool) (m q : Nat) : Option Migration :=
  firstWhere (fun x => x.source == source && decide (x.member = m) && decide (x.request = q)) d.ws.migs

/-- Moves under way: records of ended moves are not counted. -/
def Device.migsOpen (d : Device) : Nat := countWhere (fun m => m.outcome.isNone) d.ws.migs

def setMig (x : Migration) (d : Device) : Device :=
  { d with ws := { d.ws with migs := mapWhere (fun (y : Migration) =>
      y.source == x.source && decide (y.member = x.member) && decide (y.request = x.request)) (fun _ => x) d.ws.migs } }

def dropMig (x : Migration) (d : Device) : Device :=
  { d with ws := { d.ws with migs := d.ws.migs.filter (fun y => y ≠ x) } }

/-- Records of ended moves are kept 60 s. -/
def pruneMigs (d : Device) : Device :=
  { d with ws := { d.ws with migs := d.ws.migs.filter (fun m => match m.outcome with
    | some (_, t) => decide (d.time ≤ t + 60_000_000_000)
    | none => true) } }

/-- The context leaves for another member (04, Table 4.2): its hold timer stops, it is written back from the cache. -/
def ctxLeaves (n : Nat) (d : Device) : Device :=
  let d := d.updCtx n (fun x => { x with
    before := x.st
    st := .migrating
    holdExpiry := 0
    holdLeft := if x.st = .held then x.holdExpiry - d.time else 0 })
  { d with
    cache := d.cache.filter (fun c => c ≠ n)
    cacheDirty := d.cacheDirty.filter (fun c => c ≠ n) }

/-- The move failed: the state held before, the hold timer resumed (04, Table 4.2). -/
def ctxReturns (n : Nat) (d : Device) : Device :=
  d.updCtx n (fun x => if x.st = .migrating then { x with
    st := x.before
    holdExpiry := if x.before = .held then d.time + x.holdLeft else 0
    holdLeft := 0 } else x)

/-- MIG_OFFER of a context that leaves; the hold time is rounded up, so that a context in HELD never shows 0 (17, Table 17.7; assumption 157). -/
def sendOffer (m q n : Nat) (d : Device) : Device :=
  let x := d.ctx n
  sendWs m (.migOffer q n (if x.before = .held then max 1 ((x.holdLeft + 999_999) / 1_000_000) else 0) x) d

/-- Request IDs of the steward reads of migrations: above those of a COMMIT (DESIGN CHOICE, assumption 115). -/
def Device.migRid (d : Device) : Nat :=
  0x9000 + (firstWhere (fun i => !d.ws.migs.any (fun x => decide (x.reads ≠ 0) && decide (x.rid = 0x9000 + i))) (List.range 257)).getD 256

/-- The context's 1 KiB is read with STW_READ, 256 bytes at a time (17 R360 step 1). -/
def stewardReads (rid n : Nat) (d : Device) : Device :=
  foldOver (fun i d => toCompute (.stwRead 0 (1024 * n + 256 * i) 256 false rid) d) (List.range 4) d

/-- Messages of a move that has ended leave the queue of those that wait for a channel. -/
def unsendMig (m q : Nat) (d : Device) : Device :=
  d.updPeer m (fun p => { p with waiting := p.waiting.filter (fun x => match x with
    | .migPull r _ _ _ | .migOffer r _ _ _ => r ≠ q
    | _ => true) })

/-- The admin command of allotment a that waits for move q completes. -/
def migDone (a q st det : Nat) (d : Device) : Device :=
  if (d.adm a).waits = .migration q then admDone a st 0 det d else d

/-- A move fails at its source: the context returns, the outcome is kept. -/
def migFailsHere (x : Migration) (reason st det : Nat) (d : Device) : Device :=
  let d := ctxReturns x.ctx (unsendMig x.member x.request d)
  let d := setMig { x with st := 1, outcome := some (reason, d.time) } d
  if x.admin then migDone x.allot x.request st det d else d

/-- A reply to a steward read of a context that leaves: MIG_OFFER follows the last. A read that HG_STW refuses fails the move (DESIGN CHOICE, assumption
157). -/
def migReply (x : Migration) (ok : Bool) (d : Device) : Device :=
  let y : Migration := { x with reads := x.reads - 1 }
  if x.outcome.isSome then setMig y d
  else if !ok then migFailsHere { x with reads := 0 } 5 stRefused 0x60 d
  else if x.reads = 1 then sendOffer x.member x.request x.ctx (setMig y d)
  else setMig y d

/-- A move fails at its destination: the pending context, if any, is discarded; a lost one is recorded (17, Table 17.9). -/
def migFailsThere (x : Migration) (st det : Nat) (d : Device) : Device :=
  let d := dropMig x (unsendMig x.member x.request d)
  let d := if x.st = 1 then
      let d := { (d.updCtx x.dest (fun _ => {})) with cache := d.cache.filter (fun c => c ≠ x.dest) }
      notice x.allot 0x8012 2 x.ctx x.member (x.label % 2 ^ 32) 0 (recordCompute 0x8012 x.allot false x.ctx x.member (x.label % 2 ^ 32) 0 d)
    else d
  if x.admin then migDone x.allot x.request st det d else d

/-- Every channel closes: the ports are off in Retention (17 R365). -/
def wsPortsOff (d : Device) : Device :=
  let d := { d with ws := { d.ws with linkUp := [] } }
  foldOver (fun (x : Nat × Peer) d => if x.2.up ∨ x.2.join ≠ 0 then closeChannel x.1 0 d else d) d.ws.peers d

end Sys2Proof.Machine
end

