-- ==== Sys2Proof/Machine/OpsKeys.lean ====
section
/-!
DEFINITION. Sys2Proof/Machine/OpsKeys.lean: the key store of the custody die (13): handles and kinds of keys, slot updates (R271), the Sealed
Store's blocks, changes and exchange (R280 to R283), key requests with their checks in order (R273 to R275, Table 13.8), leaves (09 R206) and
grants (17 R363).
-/
namespace Sys2Proof.Machine

/-! ## Handles (13 R268, R280) -/

/-- The handle of a slot, and of an object. -/
def cisHandle (a n : Nat) : Nat := a * 2 ^ 26 + n
def objHandle (a i : Nat) : Nat := a * 2 ^ 26 + 2 ^ 25 + i

/-! ## Kinds of keys (09, Tables 9.2, 9.3; 13, Table 13.16a) -/

/-- Usages by family and parameter set. -/
def kindUsages (f p : Nat) : List Nat :=
  if f = 0x01 ∨ f = 0x06 then (if 1 ≤ p ∧ p ≤ 3 then [8, 9] else [])
  else if f = 0x07 then (if 1 ≤ p ∧ p ≤ 10 then [8, 9] else [])
  else if f = 0x02 then (if 1 ≤ p ∧ p ≤ 3 then [6, 7] else [])
  else if f = 0x03 then (if 1 ≤ p ∧ p ≤ 12 then [6, 7] else [])
  else if f = 0x04 ∨ f = 0x05 then (if p = 0 then [6, 7] else [])
  else if f = 0x09 then
    (if 1 ≤ p ∧ p ≤ 3 then [6, 7, 10] else if p = 4 ∨ p = 5 then [10] else if p = 6 ∨ p = 7 then [6, 7] else if p = 8 then [6, 7, 1, 2] else [])
  else if f = 0x0A then (if p = 1 ∨ p = 2 ∨ p = 3 ∨ p = 6 then [1, 2] else if p = 4 ∨ p = 5 then [3, 4] else [])
  else if f = 0x0B then (if (1 ≤ p ∧ p ≤ 9) ∨ p = 12 ∨ p = 13 then [6, 7] else [])
  else if f = 0x0D then (if p = 0 then [5] else [])
  else []

/-- EXTRA of an HSS key: one hash for LMS and LM-OTS, 1 to 8 levels; a signing key has a total height of at most 20. -/
def hssExtraOk (usage x : Nat) : Bool :=
  let lms := field x 7 0
  let ots := field x 15 8
  let lv := field x 19 16
  let sha := decide (5 ≤ lms ∧ lms ≤ 9) && decide (1 ≤ ots ∧ ots ≤ 4)
  let shake := decide (0x0F ≤ lms ∧ lms ≤ 0x13) && decide (9 ≤ ots ∧ ots ≤ 0x0C)
  let h25 := decide (lms = 9 ∨ lms = 0x13)
  let h := if lms ≤ 9 then (lms - 4) * 5 else (lms - 0x0E) * 5
  (sha || shake) && decide (1 ≤ lv ∧ lv ≤ 8) && decide (field x 31 20 = 0) && (usage == 7 || (!h25 && decide (h * lv ≤ 20)))

/-- EXTRA is one of the key kind's. -/
def extraOk (usage f v p x : Nat) : Bool :=
  if f = 0x04 then hssExtraOk usage x
  else if f = 0x05 then (if v = 1 then [1, 2, 0x29, 0x2A].contains x else [1, 2, 3, 0x10, 0x11, 0x12].contains x)
  else if f = 0x09 ∧ p = 8 then decide (2048 ≤ x) && decide (x ≤ 8192) && decide (x % 64 = 0)
  else if f = 0x0A then
    (if p = 3 then [256, 512].contains x else if p = 6 then decide (x = 256) else [128, 192, 256].contains x)
  else if f = 0x0B ∨ f = 0x0D then decide (128 ≤ x) && decide (x ≤ 512) && decide (x % 8 = 0)
  else decide (x = 0)

/-- LEN is valid for the algorithm (13 R275; 09, Table 9.2; a public key by its encoding, R278). -/
def lenValid (a : KeyAttr) (len : Nat) : Bool :=
  let p := a.paramSet
  if a.usage = 7 ∨ a.usage = 8 then
    (match a.family with
     | 0x01 | 0x06 | 0x07 => decide (len = kemPk a.family p)
     | 0x02 | 0x03 => decide (len = sigPk a.family p)
     | 0x04 => decide (len = 60)
     | 0x05 => decide (len = 68)
     | 0x09 => if p = 8 then decide (len = a.extra / 8 + 4) else decide (len = curvePk p)
     | 0x0B => decide (len = a.extra / 8)
     | _ => false)
  else match a.family with
    | 0x01 | 0x02 | 0x03 | 0x04 | 0x05 | 0x07 | 0x09 | 0x0A | 0x0B | 0x0D => decide (len = privateLen a.family p a.extra)
    | 0x06 => decide (len = 32 ∨ len = hqcSecretLen p)
    | _ => false

/-- The usage sets of a key request (13, Table 13.7a). -/
def usageAdmits (required usage : Nat) : Bool := match required with
  | 0 => true
  | 11 => [6, 10, 2].contains usage
  | 12 => [1, 2, 3, 4].contains usage
  | 13 => [6, 7].contains usage
  | n => n == usage

/-! ## Slot updates (13 R271) -/

def genMax : Nat := 0xFFFF_FFFF

/-- A write of a Cistern slot with its material: of a persistent one the inactive copy is written under a fresh share A with the next generation and
becomes the copy in force; another takes a record of two fresh shares. Each is one update (R270, R271, Table 13.18). Without attributes the slot is
freed and its copies are zeros. -/
def putSlot (n : Nat) (s : CisSlot) (m : List Byte) (d : Device) : Device :=
  let d := { d with cis := { d.cis with updates := satAdd 0xFFFF_FFFF d.cis.updates 1 } }
  if s.attr.st = 0 then d.updSlot n (fun _ => {})
  else if s.attr.persistent then
    let old := d.slot n
    let again := decide (old.attr.st ≠ 0) && old.attr.persistent
    let c := if again then 1 - old.copy else 0
    let r := d.custodyRandom 64
    let x := sealCopy d.kCis n c s.attr.block (s.gen + 1) m r.1
    r.2.updSlot n (fun _ => { s with
      gen := s.gen + 1
      copy := c
      copy0 := if c = 0 then some x else old.copy0
      copy1 := if c = 1 then some x else if again then old.copy1 else none
      copyBad := false
      unreadable := false })
  else
    let r := d.custodyRandom m.length
    r.2.updSlot n (fun _ => { s with shareA := r.1, shareB := xorBytes m r.1 })

/-- A write that keeps the slot's material. -/
def writeSlot (n : Nat) (s : CisSlot) (d : Device) : Device := putSlot n s (if s.attr.st = 3 then d.slotMaterial n else []) d

/-- A slot update waits for entropy: of a persistent slot, and of the shares of one that holds a key or is to hold one (12 R260). -/
def Device.slotWaits (d : Device) (a : KeyAttr) : Bool := (a.persistent || decide (a.st = 2) || decide (a.st = 3)) && !d.entropyAvailable

/-! ## Sealed Store: places and blocks (13 R280) -/

/-- Units of an object: 128 bytes each; a secret object takes its header and W, a tree object its header and body. -/
def objUnits (tree : Bool) (len : Nat) : Nat :=
  let bytes := if tree then 32 + len else 32 + 8 * ((16 + len + 7) / 8) + 8
  (bytes + 127) / 128

/-- Blocks that a range of units touches. -/
def unitBlocks (pos n : Nat) : List Nat := (List.range ((pos + n - 1) / 32 - pos / 32 + 1)).map (fun i => pos / 32 + i)

/-- Ranges of units in use: objects and directory blocks. -/
def Device.ssUsed (d : Device) : List (Nat × Nat) :=
  d.ss.objs.map (fun x => (x.2.pos, x.2.units)) ++ d.ss.dirs.map (fun x => (x.2 * 32, 32))

/-- The lowest free place of n units, aligned to `step` units, below D. -/
def Device.ssPlace (d : Device) (extra : List (Nat × Nat)) (n step : Nat) : Option Nat :=
  let used := d.ssUsed ++ extra
  let tries := (0 :: used.map (fun x => roundUp (x.1 + x.2) step)).mergeSort (fun x y => decide (x ≤ y))
  firstWhere (fun p => decide (p + n ≤ d.ss.dataBlocks * 32) && !(used.any (fun x => overlaps p n x.1 x.2))) tries

/-- D: the most data blocks that leave room for their node blocks (R280), by halving. -/
def dataBlocksFrom (blocks : Nat) : (fuel lo hi : Nat) → Nat
  | 0, lo, _ => lo
  | f + 1, lo, hi =>
    if hi ≤ lo + 1 then lo else
      let mid := (lo + hi) / 2
      if mid + nodeBlocks mid ≤ blocks then dataBlocksFrom blocks f mid hi else dataBlocksFrom blocks f lo mid

def dataBlocksOf (blocks : Nat) : Nat := dataBlocksFrom blocks 32 0 (blocks + 1)

/-- The node blocks on the paths of data blocks. -/
def Device.pathBlocks (d : Device) (bs : List Nat) : List Nat := (bs.flatMap d.pathOf).eraseDups

/-- Objects that requests can reach: a store is attached, its root record valid, the roots in place. -/
def Device.ssReady (d : Device) : Bool := d.ss.attached && d.ss.rootOk && d.cis.kerOk

/-! ## Sealed Store: the exchange (13 R283) -/

def Device.ssTimeout (d : Device) : Nat := d.reg 0x0015_000C * 1_000_000

/-- Exchange slots in use, with the high-water mark. -/
def takeXSlot (x : XSlot) (d : Device) : Option (Nat × Device) :=
  match Tbl.lowestFree d.ss.xslots 0 d.ss.nslots with
  | none => none
  | some i =>
    let t := Tbl.put d.ss.xslots i x
    some (i, { d with ss := { d.ss with xslots := t, slotsHigh := max d.ss.slotsHigh t.length } })

/-- Post SS_FETCH of a block, when an exchange slot is free. -/
def postFetch (b : Nat) (d : Device) : Device :=
  if d.ss.xslots.any (fun x => decide (x.2.block = b) && !x.2.store) then d else
  match takeXSlot { block := b, store := false, posted := d.time } d with
  | none => d
  | some (i, d) => notice 0 0x4010 0 b i 0 0 (record 0x4010 0 false b i 0 0 (d.bump 0x0015_0010))

/-- The stewards' access to an exchange slot passes HG_STW and the gate of allotment 0 (13 R283; 14, Table 14.3). -/
def Device.slotAccess (d : Device) (i kind : Nat) : Verdict × Nat × Nat × Nat :=
  let ps := pieces (d.ss.iova + 4096 * i) 4096
  match checkAll d 83 0 kind true none ps with
  | (.permit, _, _) => let r := checkAll d 0 0 kind true none ps
    (r.1, r.2.1, r.2.2, 0)
  | (v, p, n) => (v, p, n, 83)

/-- Fill a slot with block b and post SS_STORE: whether it was done. Without a free slot, or at a closed gate, the block waits; a refused access is
reported. -/
def postStore (b : Nat) (d : Device) : Bool × Device :=
  match takeXSlot { block := b, store := true, posted := d.time } d with
  | none => (false, d)
  | some (i, t) => match d.slotAccess i 1 with
    | (.wait, _, _, _) => (false, d)
    | (.refuse c r st, p, n, g) => (false, reportRefusal g 0 p n 1 0xF8 c r st true d)
    | (.permit, _, _, _) =>
      let t := hostWrite 0 (d.ss.iova + 4096 * i) (d.backingBlock b) t
      (true, notice 0 0x4011 0 b i 0 0 (record 0x4011 0 false b i 0 0 (t.bump 0x0015_0014)))

/-- Send blocks while slots are free: what was sent and what is left. -/
def storeAll : List Nat → Device → List Nat × List Nat × Device
  | [], d => ([], [], d)
  | b :: t, d =>
    let x := postStore b d
    if x.1 then
      let r := storeAll t x.2
      (b :: r.1, r.2.1, r.2.2)
    else ([], b :: t, x.2)

/-- Blocks of the last batch go to the host, after the roll-forward of a boot or a commit (Tables 13.12, 13.13). -/
def sendBatch (d : Device) : Device :=
  if !d.ss.attached || decide (d.ss.toSend = []) then d else
  let r := storeAll d.ss.toSend d
  { r.2.2 with ss := { r.2.2.ss with toSend := r.2.1 } }

/-- Send a waiting block request. -/
def fetchWaiting (d : Device) : Device := foldOver (fun (w : SsWait) d => postFetch w.block d) d.ss.waiting d

/-! ## Answers to key requests -/

/-- KEY_REFUSE (13 R274). -/
def keyRefuse (r : KeyReq) (st det : Nat) (d : Device) : Device := toCompute (.keyRefuse r.eng r.request st det) d

/-- Shares of a key: d shares of P bytes each, the key's bytes fresh, zeros after them (08 R185; 13 R273: attribute bytes 0 to 7 in 64 bytes after
them); and how many fresh bytes they take. -/
def Device.shareKey (d : Device) (order : Nat) (material : List Byte) : List Byte × Nat :=
  let n := material.length
  let pad := zeros (max 64 (roundUp n 64) - n)
  let bs := reshare (material ++ zeros (order * n)) (order + 1) (d.freeBytes (order * n))
  ((List.range (order + 1)).flatMap (fun j => (bs.drop (j * n)).take n ++ pad), order * n)

/-- KEY_DELIVER fragments of at most 248 bytes of share data (01, Table 1.5). -/
def sendFragments (r : KeyReq) (leaf : Option Nat) (lease : Nat) (info : List Byte) : (fuel n : Nat) → List Byte → Device → Device
  | 0, _, _, d => d
  | f + 1, n, bs, d =>
    let last := decide (bs.length ≤ 248)
    let d := toCompute (.keyDeliver r.eng r.request n last (r.order + 1) leaf lease (bs.take 248) info) d
    if last then d else sendFragments r leaf lease info f (n + 1) (bs.drop 248) d

/-- The generation of the key that a handle names (13, Table 13.10 GEN). -/
def Device.keyGen (d : Device) (h : Nat) : Nat :=
  if handleStore h then (Tbl.find d.ss.objs (objKey h)).elim 0 (fun o => o.gen) else (d.slot (handleSlot h)).gen

/-- Deliver a key as shares. A lease of 4,096 uses or 10 ms comes with a stateless key that a USE asked for (01 R14). -/
def deliverKey (op : Nat) (r : KeyReq) (a : KeyAttr) (material : List Byte) (leaf : Option Nat) (d : Device) : Device :=
  let s := d.shareKey r.order material
  let d := d.tookFree s.2
  let bs := if r.usage = 0 ∨ 11 ≤ r.usage then s.1 ++ a.low ++ zeros 56 else s.1
  let leased := decide (op = 0) && !a.stateful
  let d := if leased then { d with fl := { d.fl with leases := d.fl.leases ++ [{ handle := r.handle, eng := r.eng, allot := r.allot, ends := d.time + 10_000_000 }] } } else d
  let info := a.block ++ toBytes 4 material.length ++ toBytes 4 (d.keyGen r.handle)
  sendFragments r leaf (b2n leased) info (bs.length / 248 + 2) 0 bs d

/-- The acknowledgement of a COMMIT: a KEY_DELIVER without share data (13 R275). -/
def ackCommit (r : KeyReq) (d : Device) : Device := toCompute (.keyDeliver r.eng r.request 0 true 0 none 0 [] []) d

/-- Change the attributes of the key a handle names, whichever store holds it. -/
def updKey (h : Nat) (f : KeyAttr → KeyAttr) (d : Device) : Device :=
  if handleStore h then { d with ss := { d.ss with objs := Tbl.modify d.ss.objs (objKey h) (fun o => { o with attr := f o.attr }) } }
  else d.updSlot (handleSlot h) (fun s => { s with attr := f s.attr })

/-! ## Revocation (01 R16) -/

/-- KEY_REVOKE under number i. -/
def sendRevoke (a h : Nat) (d : Device) : Device :=
  let i := d.fl.nextRevoke
  let d := { d with fl := { d.fl with
    nextRevoke := (i + 1) % 2 ^ 32
    revokes := d.fl.revokes ++ [{ ident := i, handle := h, allot := a }]
    leases := d.fl.leases.filter (fun l => l.handle ≠ h) } }
  toCompute (.keyRevoke h i) d

/-- KEY_REVOKE; the admin command of allotment a completes after the acknowledgement. -/
def revokeKey (a h : Nat) (d : Device) : Device := admWait a (.revoke d.fl.nextRevoke) (sendRevoke a h d)

/-- KEY_REVOKE that no admin command waits for: its record names allotment 64, which does not exist. -/
def revokeQuiet (h : Nat) (d : Device) : Device := sendRevoke 64 h d

/-- A key is gone: event KEY_DESTROYED, its replicas are destroyed (17 R362), a replica's grants and home are forgotten. -/
def keyGone (h : Nat) (d : Device) : Device :=
  let mine := d.ws.replicas.filter (fun r => decide (r.handle = h) && !r.destroying)
  let d := { d with ws := { d.ws with
    replicas := d.ws.replicas.map (fun r => if r.handle = h then { r with destroying := true } else r)
    homes := d.ws.homes.filter (fun x => x.handle ≠ h)
    moved := d.ws.moved.filter (fun x => x ≠ h)
    grantsIn := d.ws.grantsIn.filter (fun g => g.handle ≠ h) } }
  let d := foldOver (fun (r : Replica) d => if (d.peer r.member).up then sendUp r.member (.keyReplDestroy r.target) d else startJoin r.member d) mine d
  record 0x4004 (handleAllot h) false h 0 0 0 d

/-! ## Sealed Store changes (13 R281, Table 13.12) -/

/-- What a change answers when it is abandoned before its commit point (13, Table 13.14). -/
def ssAbandon (c : SsChange) (d : Device) : Device :=
  let d := { d with ss := { d.ss with
    change := none
    xslots := d.ss.xslots.filter (fun x => !(x.2.store && c.stored.contains x.2.block)) } }
  match c.finish with
  | .admin a _ => admDone a stKeyAbsent 0 3 d
  | .revoke a _ _ => admDone a stKeyAbsent 0 3 d
  | .ack r => keyRefuse r stKeyAbsent 3 d
  | .repl m t => sendWs m (.keyReplAck t 1) d
  | .destroyed _ => d

/-- Node blocks that the Reservoir's node cache of 256 MiB takes in; those of levels 7 to 9 leave, the least recently used first (R280). It holds whole
node blocks (DESIGN CHOICE, assumption 155). -/
def Device.trimNodes (d : Device) : (fuel : Nat) → List Nat → List Nat
  | 0, l => l
  | f + 1, l => if l.length ≤ 65536 then l else d.trimNodes f (dropFirst (fun b => decide (7 ≤ (d.nodePlace b).1)) l)
def cacheNodes (bs : List Nat) (d : Device) : Device :=
  let l := d.ss.nodes.filter (fun b => !bs.contains b) ++ bs
  { d with ss := { d.ss with nodes := d.trimNodes l.length l } }

/-- The store as a change makes it. -/
def withChange (c : SsChange) (d : Device) : Device :=
  let fresh := (c.stored ++ c.toStore).filter (fun b => !d.ss.written.contains b)
  { d with ss := { d.ss with
    objs := c.puts.foldl (fun (t : Tbl SsObj) x => match x.2 with
      | some o => Tbl.put t x.1 o
      | none => Tbl.erase t x.1) d.ss.objs
    dirs := c.dirs.foldl (fun (t : Tbl Nat) x => Tbl.put t x.1 x.2) d.ss.dirs
    written := d.ss.written ++ fresh } }

/-- The commit point: the new root record is in force; journaled blocks go to the host (steps 3 to 5). -/
def ssCommit (c : SsChange) (d : Device) : Device :=
  let gone := c.puts.map (fun x => x.1)
  let d := withChange c d
  let d := cacheNodes ((c.stored ++ c.live).filter (fun b => decide (d.ss.dataBlocks ≤ b))) d
  let d := { d with ss := { d.ss with
    cache := d.ss.cache.filter (fun x => !gone.contains x.1)
    treeGen := d.ss.treeGen + 1
    change := none
    journal := d.ss.journal + c.live.length
    batch := d.ss.batch ++ c.live.filter (fun b => !d.ss.batch.contains b)
    toSend := d.ss.toSend ++ c.live.filter (fun b => !d.ss.toSend.contains b) } }
  let d := foldOver (fun (x : Nat × CisSlot × List Byte) d => putSlot x.1 x.2.1 x.2.2 d) c.slots d
  let d := sendBatch d
  match c.finish with
  | .admin a det => admDone a stOk 0 det d
  | .revoke a h gone => revokeKey a h (if gone then keyGone h d else d)
  | .ack r => ackCommit r d
  | .repl m t => sendWs m (.keyReplAck t 0) d
  | .destroyed h => revokeQuiet h (keyGone h d)

/-- Carry a change on: step 2 as slots are free, the commit when every block of it is confirmed. -/
def ssPump (d : Device) : Device :=
  match d.ss.change with
  | none => sendBatch d
  | some c =>
    let r := storeAll c.toStore (withChange c d)
    let sent := r.1
    let left := r.2.1
    let d := { r.2.2 with ss := { r.2.2.ss with objs := d.ss.objs, dirs := d.ss.dirs, written := d.ss.written } }
    let c := { c with toStore := left, stored := c.stored ++ sent }
    let open_ := c.stored.any (fun b => d.ss.xslots.any (fun x => x.2.store && decide (x.2.block = b)))
    if decide (left ≠ []) || open_ then { d with ss := { d.ss with change := some c } } else ssCommit c d

/-- The directory block of an object, and whether it has to be started. -/
def Device.dirOf (d : Device) (key : Nat) (extra : List (Nat × Nat)) : Option (Nat × Bool) :=
  match Tbl.find d.ss.dirs (key / 256) with
  | some b => some (b, false)
  | none => (d.ssPlace extra 32 32).map (fun p => (p / 32, true))

/-- Places for new objects and their directory blocks, in turn; none when the data blocks are exhausted. -/
def placeObjs (d : Device) : List (Nat × SsObj) → List (Nat × Nat) → List (Nat × Nat) →
    Option (List (Nat × SsObj) × List (Nat × Nat))
  | [], _, dirs => some ([], dirs)
  | (k, o) :: t, extra, dirs =>
    match d.ssPlace extra o.units 1 with
    | none => none
    | some p =>
      let extra := extra ++ [(p, o.units)]
      let known := dirs.any (fun x => decide (x.1 = k / 256))
      let go (extra dirs : List (Nat × Nat)) : Option (List (Nat × SsObj) × List (Nat × Nat)) :=
        (placeObjs d t extra dirs).map (fun r => ((k, { o with pos := p }) :: r.1, r.2))
      if known then go extra dirs else
      match d.dirOf k extra with
      | none => none
      | some (b, true) => go (extra ++ [(b * 32, 32)]) (dirs ++ [(k / 256, b)])
      | some (_, false) => go extra dirs

/-- Begin a change that places objects, removes objects and writes slots. Blocks that hold live data go through the journal, the others are
stored first. One change runs at a time, and none begins while the journal lacks room: it then stays with its sender. -/
def ssBegin (news : List (Nat × SsObj)) (drops : List Nat) (slots : List (Nat × CisSlot × List Byte)) (finish : SsThen) (d : Device) : Option Device :=
  match placeObjs d news [] [] with
  | none => none
  | some (objs, dirs) =>
    let keys := objs.map (fun x => x.1) ++ drops
    let dirBlocks := keys.filterMap (fun k => match Tbl.find d.ss.dirs (k / 256) with
      | some b => some b
      | none => (firstWhere (fun (x : Nat × Nat) => decide (x.1 = k / 256)) dirs).map (fun x => x.2))
    let data := (objs.flatMap (fun x => unitBlocks x.2.pos x.2.units) ++ dirBlocks).eraseDups
    let all := data ++ d.pathBlocks data
    let live := all.filter (fun b => d.ss.written.contains b)
    let fresh := all.filter (fun b => !d.ss.written.contains b)
    if 256 < d.ss.journal + live.length then none else
    let c : SsChange := {
      puts := objs.map (fun x => (x.1, some x.2)) ++ drops.map (fun k => (k, none))
      slots := slots
      dirs := dirs
      toStore := fresh
      live := live
      since := d.time
      finish := finish }
    some (ssPump { d with ss := { d.ss with change := some c } })

/-- No change is under way. -/
def Device.ssIdle (d : Device) : Bool := d.ss.change.isNone

/-! ## The key cache (13 R280) -/

/-- An object enters the key cache of 2 MiB as two fresh shares, or is used there; the least recently used leave. -/
def cacheTrim : (fuel : Nat) → List (Nat × List Byte × List Byte) → List (Nat × List Byte × List Byte)
  | 0, l => l
  | f + 1, l => if sumBy (fun x => 2 * x.2.1.length) l ≤ 2 ^ 21 then l else cacheTrim f (l.drop 1)

def cacheObj (k : Nat) (d : Device) : Device :=
  let rest := d.ss.cache.filter (fun x => decide (x.1 ≠ k))
  let put (x : Nat × List Byte × List Byte) (d : Device) : Device := { d with ss := { d.ss with cache := cacheTrim (rest.length + 1) (rest ++ [x]) } }
  match firstWhere (fun x => decide (x.1 = k)) d.ss.cache with
  | some x => put x d
  | none =>
    let m := d.objMaterial k
    let a := d.freeBytes m.length
    put (k, a, xorBytes m a) (d.tookFree m.length)

/-- An object lies in the key cache. -/
def Device.cached (d : Device) (k : Nat) : Bool := d.ss.cache.any (fun x => decide (x.1 = k))

/-! ## Key requests (13 R273 to R275) -/

/-- What a request comes to before it acts. -/
inductive KeyVerdict where
  | pass (a : KeyAttr)
  | refuse (st det : Nat)
deriving DecidableEq, Repr

/-- The checks of Table 13.8 but for the leaf, in order. A McEliece set and its "f" variant are one (09 R211). -/
def Device.keyCheck (d : Device) (op : Nat) (r : KeyReq) : KeyVerdict :=
  let h := r.handle
  let na := handleAllot h
  if d.md.mode = .quarantine then .refuse stKeyAbsent 2 else
  if na ≠ r.allot ∧ na ≠ 0 then .refuse stKeyPolicy 2 else
  let a? := d.keyAttr h
  let persistent := handleStore h || (match a? with
    | some a => a.persistent
    | none => false)
  if d.md.mode = .debug ∧ persistent then .refuse stKeyAbsent 4 else
  match a? with
  | none => if handleStore h && !d.ssReady then .refuse stKeyAbsent 3 else .refuse stKeyAbsent 1
  | some a =>
    if (op = 0 ∨ op = 1) ∧ a.st ≠ 3 then .refuse stKeyAbsent 1
    else if handleStore h && !d.ssReady then .refuse stKeyAbsent 3
    else if !handleStore h && a.persistent && (!d.cis.kerOk || (d.slot (handleSlot h)).unreadable) then .refuse stKeyAbsent 2
    else if na ≠ r.allot ∧ a.allotBound then .refuse stKeyPolicy 2
    else if op = 2 ∧ a.st ≠ 1 then .refuse stKeyPolicy 7
    else if !usageAdmits r.usage a.usage then .refuse stKeyPolicy 1
    else if (r.family ≠ 0 ∧ a.family ≠ r.family) ∨ (r.variant ≠ 0 ∧ a.variant ≠ r.variant) ∨ (r.param ≠ 0 ∧ codeSet a.family a.paramSet ≠ codeSet a.family r.param) then .refuse stKeyPolicy 5
    else if (op = 0 ∨ op = 1) ∧ r.order < a.maskOrder then .refuse stKeyPolicy 3
    else if op = 0 ∧ r.det ∧ !a.deterministicOk then .refuse stKeyPolicy 4
    else if op = 1 ∧ !a.exportable then .refuse stKeyPolicy 6
    else .pass a

/-- The leaf of a stateful USE: none left, to be granted, or the leaf with what remains of the grant. -/
inductive LeafVerdict where
  | leaf (i : Nat) (g : Option GrantIn)
  | refuse (det : Nat)
  | ask
deriving DecidableEq, Repr

def Device.leafCheck (d : Device) (h : Nat) (a : KeyAttr) : LeafVerdict :=
  match d.homeOf h with
  | some _ =>
    (match (d.grantOf h).take with
     | some (i, g) => .leaf i (some g)
     | none => if (d.grantOf h).spent then .refuse 0 else if !d.grantRoom h then .refuse 1 else .ask)
  | none => if a.nextLeaf < leafLimit a then .leaf a.nextLeaf none else .refuse 0

/-- The material of a key at hand. -/
def Device.keyMaterial (d : Device) (h : Nat) : List Byte :=
  if handleStore h then d.objMaterial (objKey h) else d.slotMaterial (handleSlot h)

/-- A block that is read is preceded by the nodes on its path; those in the node cache or the journal, and what has never been written, are not
fetched (R280, R281). -/
def Device.toFetch (d : Device) (bs : List Nat) : List Nat :=
  (bs.flatMap (fun b => d.pathOf b ++ [b])).eraseDups.filter (fun b => d.ss.written.contains b && !d.ss.nodes.contains b && !d.ss.batch.contains b)

/-- The blocks of an object that must be fetched, its directory's first: none when the object is in the key cache. -/
def Device.blocksNeeded (d : Device) (h : Nat) : List Nat :=
  if !handleStore h || d.cached (objKey h) then []
  else match Tbl.find d.ss.objs (objKey h) with
    | some o => if o.len = 0 then [] else d.toFetch ((Tbl.find d.ss.dirs (objKey h / 256)).toList ++ unitBlocks o.pos o.units)
    | none => []

/-- The tree object of a stateful key (09 R205; 13 R284). -/
def Device.treeObj (d : Device) (h : Nat) : Option SsObj :=
  (Tbl.find d.ss.objs (handleAllot h * 2 ^ 25 + (d.slot (handleSlot h)).tree)).bind (fun o => if o.tree then some o else none)

/-- The blocks of the tree object that a signature with leaf i reads: of its paths and of the lower-level signatures (09 R205, R206). -/
def Device.treeBlocks (d : Device) (h i : Nat) (a : KeyAttr) : List Nat := match d.treeObj h with
  | none => []
  | some o =>
    let touched (x : Nat × Nat) : List Nat := unitBlocks (o.pos + (32 + x.1) / 128) (((32 + x.1) % 128 + x.2 + 127) / 128)
    d.toFetch ((Tbl.find d.ss.dirs ((handleAllot h * 2 ^ 25 + (d.slot (handleSlot h)).tree) / 256)).toList ++
      (treeReads a.family a.variant a.extra i).flatMap touched)

/-- A request waits for entropy (13, Table 13.5 step 2). -/
def waitKey (op : Nat) (r : KeyReq) (d : Device) : Device := { d with cis := { d.cis with waiting := d.cis.waiting ++ [(op, r)] } }

/-- What a state routine is given in place of the key: the next leaf that this device would issue and the number it may still issue, 8 bytes each;
inside a Watershed of the current range (09 R209; that KEY_DELIVER carries them is DESIGN CHOICE, assumption 145). -/
def Device.leafState (d : Device) (h : Nat) (a : KeyAttr) : List Byte :=
  let x := match d.homeOf h with
    | some _ => (match (d.grantOf h).ranges with
      | (f, n) :: _ => (f, n)
      | [] => (0, 0))
    | none => (a.nextLeaf, leafLimit a - a.nextLeaf)
  toBytes 8 x.1 ++ toBytes 8 x.2

/-- A request waits for blocks, or has them all. -/
def waitBlocks (op : Nat) (r : KeyReq) (leaf : Option Nat) (bs : List Nat) (go : Device → Device) (d : Device) : Device := match bs with
  | [] => go d
  | b :: more =>
    let w : SsWait := { block := b, more := more, leaf := leaf, op := op, req := r, since := d.time }
    postFetch b { d with ss := { d.ss with waiting := d.ss.waiting ++ [w] } }

/-- A request that waited for blocks is refused; a leaf reserved for it is burned (09, Table 9.4). -/
def refuseWait (w : SsWait) (st det : Nat) (d : Device) : Device :=
  keyRefuse w.req st det (w.leaf.elim d (fun i => noteBurned w.req.allot w.req.handle i d))

/-- A signature has its leaf: its tree object is brought in before the key is delivered (09 R206; Table 9.4). -/
def deliverLeaf (op : Nat) (r : KeyReq) (a : KeyAttr) (i : Nat) (d : Device) : Device :=
  let go := deliverKey op r a (d.keyMaterial r.handle) (some i)
  if (d.treeObj r.handle).isSome && !d.ssReady then keyRefuse r stKeyAbsent 3 (noteBurned r.allot r.handle i d)
  else waitBlocks op r (some i) (d.treeBlocks r.handle i a) go d

/-- USE and EXPORT of a key at hand (13 R274; 09 R206): a leaf is committed before it is delivered; a state routine takes none (R209). -/
def useKey (op : Nat) (r : KeyReq) (a : KeyAttr) (d : Device) : Device :=
  let h := r.handle
  let d := if handleStore h then cacheObj (objKey h) d else d
  if op = 0 && r.reads && a.stateful then
    match d.leafCheck h a with
    | .refuse det => keyRefuse r stKeyExhausted det d
    | _ => deliverKey op r a (d.leafState h a) none d
  else if op = 0 && r.stateful && a.stateful then
    match d.leafCheck h a with
    | .refuse det => keyRefuse r stKeyExhausted det d
    | .ask =>
      let d := askGrant h d
      { d with ws := { d.ws with grantWaits := d.ws.grantWaits ++ [{ req := r, since := d.time }] } }
    | .leaf i g =>
      if genMax ≤ (d.slot (handleSlot h)).gen then keyRefuse r stKeyExhausted 0 d
      else if !d.entropyAvailable then waitKey op r d
      else
        let s := d.slot (handleSlot h)
        let d := match g with
          | some g =>
            let d := setGrant g d
            if g.left < d.grantLow then askGrant h d else d
          | none => writeSlot (handleSlot h) { s with attr := { a with nextLeaf := i + 1 } } d
        let d := { d with cis := { d.cis with leaves := satAdd 0xFFFF_FFFF d.cis.leaves 1 } }
        deliverLeaf op r a i d
  else deliverKey op r a (d.keyMaterial h) none d

/-- CREATE: the target is bound and K_t delivered, without a lease (13 R275). -/
def createKey (r : KeyReq) (a : KeyAttr) (d : Device) : Device :=
  if !d.entropyAvailable then waitKey 2 r d else
  let x := d.custodyRandom 32
  let kt := x.1
  let d := x.2
  let d := if handleStore r.handle then
      { d with ss := { d.ss with objs := Tbl.modify d.ss.objs (objKey r.handle) (fun o => { o with attr := { o.attr with st := 2 }, boundReq := some r.slot, kt := kt }) } }
    else d.updSlot (handleSlot r.handle) (fun s => { s with attr := { s.attr with st := 2 }, boundReq := some r.slot, kt := kt })
  deliverKey 2 r { a with st := 2 } kt none d

/-- ABANDON: STATE returns to 1 and K_t is discarded. -/
def abandonKey (r : KeyReq) (d : Device) : Device :=
  let d := { d with cis := { d.cis with staged := d.cis.staged.filter (fun x => x.req.slot ≠ r.slot), waiting := d.cis.waiting.filter (fun x => !(decide (x.1 = 2) && decide (x.2.slot = r.slot) && decide (x.2.handle = r.handle))) } }
  if handleStore r.handle then
    { d with ss := { d.ss with objs := Tbl.modify d.ss.objs (objKey r.handle) (fun (o : SsObj) =>
      if o.boundReq = some r.slot then { o with attr := o.attr.unbind, boundReq := none, kt := [] } else o) } }
  else d.updSlot (handleSlot r.handle) (fun (s : CisSlot) =>
    if s.boundReq = some r.slot then { s with attr := s.attr.unbind, boundReq := none, kt := [] } else s)

/-- The staged object of a COMMIT is refused: a Contained fault of the engine (13 R275). -/
def badObject (r : KeyReq) (d : Device) : Device :=
  let c := d.cmdOr r.slot
  let f : FaultIn := { source := 0x1F, unit := c.ranOn, slot := some r.slot, time := d.time }
  takeFault f d

/-- Bytes of a stateful key's tree object (09 R205). -/
def treeLen (a : KeyAttr) : Nat := treeObjectLen a.family a.variant a.extra

/-! ## COMMIT (13 R275) -/

/-- The staged header and material of a COMMIT. -/
structure Staged13 where
  attr : KeyAttr
  len : Nat
  material : List Byte

/-- Check and unwrap the staged object of command c against the target's attributes (13 R275). The flags that an import merges come with its header (R278). -/
def Cmd.stagedObject (c : Cmd) (a : KeyAttr) (kt hd : List Byte) : Option Staged13 :=
  let len := word hd 12 4
  let n := wrappedLen len
  let f := word hd 6 1
  let b := { a with extra := word hd 20 4 }
  let b := if c.attr.routine ≠ 0x0D03 then b
    else { b with maskOrder := max b.maskOrder (f % 4), exportable := b.exportable && bitOf f 3, deterministicOk := b.deterministicOk && bitOf f 4 }
  if word hd 0 4 ≠ 0x314F_514B ∨ word hd 5 1 ≠ a.usage ∨ word hd 8 1 ≠ a.family ∨ word hd 9 1 ≠ a.variant ∨ word hd 10 1 ≠ a.paramSet ∨
      !lenValid b len ∨ objRoom c < n then none
  else (unwrapObject kt (hd.take n)).bind (fun m =>
    if m.length = len then some { attr := { b with len := len % 128, st := 3, nextLeaf := 0 }, len := len, material := m } else none)

/-- Bytes that a COMMIT reads: the wrapped object by the LEN of its header, then the tree object of a stateful key. -/
def Cmd.stagedNeed (c : Cmd) (a : KeyAttr) (hd : List Byte) : Nat :=
  min (objRoom c) (wrappedLen (word hd 12 4) + (if a.stateful then treeLen { a with extra := word hd 20 4 } else 0))

/-- The staged bytes are there: the slot is written under R271, the object or the tree object under R281, then acknowledged (R275). While entropy or the Sealed
Store is awaited the COMMIT waits, and its bytes are read again. -/
def fillTarget (r : KeyReq) (bs : List Byte) (d : Device) : Device :=
  let c := d.cmdOr r.slot
  if handleStore r.handle then
    match Tbl.find d.ss.objs (objKey r.handle) with
    | none => badObject r d
    | some o =>
      if o.boundReq ≠ some r.slot then badObject r d
      else match c.stagedObject o.attr o.kt bs with
        | none => badObject r d
        | some g =>
          if !d.ssIdle then waitKey 3 r d else
          let new : SsObj := { attr := { g.attr with len := 0 }, units := objUnits false g.len, gen := o.gen + 1 }
          (match ssBegin [(objKey r.handle, d.sealObj (objKey r.handle) new g.material)] [] [] (.ack r) d with
           | some d => d
           | none => keyRefuse r stKeyAbsent 3 d)
  else
    let n := handleSlot r.handle
    let s := d.slot n
    if s.boundReq ≠ some r.slot then badObject r d
    else match c.stagedObject s.attr s.kt bs with
      | none => badObject r d
      | some g =>
        if 64 < g.len then badObject r d
        else if d.slotWaits s.attr then waitKey 3 r d
        else
          let new : CisSlot := { s with attr := g.attr, boundReq := none, kt := [] }
          if s.attr.stateful then
            if !d.ssIdle then waitKey 3 r d else
            let body := (bs.drop (wrappedLen g.len)).take (treeLen g.attr)
            let key := s.attr.allot * 2 ^ 25 + s.tree
            let o : SsObj := { attr := { s.attr with st := 3 }, units := objUnits true body.length, gen := 1, len := body.length, body := body, tree := true }
            (match ssBegin [(key, o)] [] [(n, new, g.material)] (.ack r) d with
             | some d => d
             | none => keyRefuse r stKeyAbsent 3 d)
          else ackCommit r (putSlot n new g.material d)

/-- Request ID of the steward reads of a COMMIT: above those of the steward cores' own (DESIGN CHOICE, assumption 115). -/
def stagedIdent (slot : Nat) : Nat := 0x8000 + slot

/-- The next steward read of a COMMIT, of at most 256 bytes. -/
def readStaged (x : StagedRead) (d : Device) : Device :=
  toCompute (.stwRead 0 (x.at_ + x.got.length) (min 256 (x.need - x.got.length)) false (stagedIdent x.req.slot)) d

/-- The attributes of the target that a COMMIT fills, when it is the one bound. -/
def Device.boundTarget (d : Device) (r : KeyReq) : Option KeyAttr :=
  if handleStore r.handle then (Tbl.find d.ss.objs (objKey r.handle)).bind (fun o => if o.boundReq = some r.slot then some o.attr else none)
  else if (d.slot (handleSlot r.handle)).boundReq = some r.slot then some (d.slot (handleSlot r.handle)).attr else none

/-- COMMIT (13 R275): the staged object's header is read first, with STW_READ. -/
def commitKey (r : KeyReq) (d : Device) : Device :=
  match d.boundTarget r with
  | none => badObject r d
  | some _ =>
    let c := d.cmdOr r.slot
    let x : StagedRead := { req := r, at_ := c.objAt, need := min (objRoom c) 32 }
    readStaged x { d with cis := { d.cis with staged := d.cis.staged.filter (fun y => y.req.slot ≠ r.slot) ++ [x] } }

/-- A reply to a steward read of a COMMIT: the rest of the object is read, or the target filled. A read that HG_STW refuses leaves no object that could
pass its checks. -/
def stagedReply (x : StagedRead) (ok : Bool) (data : List Byte) (d : Device) : Device :=
  let drop (d : Device) : Device := { d with cis := { d.cis with staged := d.cis.staged.filter (fun y => y.req.slot ≠ x.req.slot) } }
  match d.boundTarget x.req with
  | none => drop d
  | some a =>
    if !ok then badObject x.req (drop d)
    else
      let got := x.got ++ data
      let y := { x with got := got, need := if x.got.length < 32 then (d.cmdOr x.req.slot).stagedNeed a got else x.need }
      if got.length < y.need then readStaged y { drop d with cis := { (drop d).cis with staged := (drop d).cis.staged ++ [y] } }
      else fillTarget x.req got (drop d)

/-- A key request reaches the custody die (13 R273 to R275). -/
def keyRequest (op : Nat) (r : KeyReq) (d : Device) : Device :=
  if op = 4 then abandonKey r d
  else if op = 3 then commitKey r d
  else match d.keyCheck op r with
    | .refuse st det => keyRefuse r st det d
    | .pass a =>
      if op = 2 then createKey r a d
      else
        let d' := if handleStore r.handle then (if d.cached (objKey r.handle) then d.bump 0x0015_0020 else d.bump 0x0015_0024) else d
        waitBlocks op r none (d.blocksNeeded r.handle) (useKey op r a) d'

/-- The oldest waiting request of an OP is made again (13, Table 13.5 step 2). -/
def retryKeys (op : Nat) (d : Device) : Device :=
  match firstWhere (fun (x : Nat × KeyReq) => decide (x.1 = op)) d.cis.waiting with
  | none => d
  | some x =>
    if (x.1 = 3 && !d.ssIdle) || (x.1 ≠ 3 && !d.entropyAvailable) then d
    else keyRequest x.1 x.2 { d with cis := { d.cis with waiting := dropFirst (fun y => y = x) d.cis.waiting } }

/-- Signatures that wait for leaves of a key are served again, in order; a policy change since decides anew (01 R16). -/
def retryGrants (h : Nat) (d : Device) : Device :=
  let ws := d.ws.grantWaits.filter (fun w => w.req.handle = h)
  let d := { d with ws := { d.ws with grantWaits := d.ws.grantWaits.filter (fun w => w.req.handle ≠ h) } }
  foldOver (fun (w : GrantWait) d =>
    match d.keyCheck 0 w.req with
    | .pass a => (match d.leafCheck h a with
      | .ask => { d with ws := { d.ws with grantWaits := d.ws.grantWaits ++ [w] } }
      | _ => useKey 0 w.req a d)
    | .refuse st det => keyRefuse w.req st det d) ws d

end Sys2Proof.Machine
end

