-- ==== Sys2Proof/Machine/OpsDrbg.lean ====
section
/-!
DEFINITION. Sys2Proof/Machine/OpsDrbg.lean: the DRBG instances serve their queues (12 R258, R259), the sources are retired and return
(R255, R256, R260).
-/
namespace Sys2Proof.Machine

/-! ## Requests (12 R259) -/

/-- Requests of a class that wait, device-wide (12, Table 12.8 WHD_WAIT). -/
def Device.entWaiting (d : Device) (c : Nat) : Nat :=
  sumBy (fun n => countWhere (fun r => decide (r.cls = c)) (d.drbg n).queue) (List.range 16)

/-- The instance a request goes to: that of its Lateral; for class 2 the one with the fewest bytes queued, the lower number on a tie. -/
def Device.entTarget (d : Device) (r : EntReq) : Nat :=
  if r.cls = 2 then d.leastQueued.getD 0
  else d.instanceOf (latOf r.consumer)

/-- A request joins its instance's queue. -/
def enqueueEnt (r : EntReq) (d : Device) : Device :=
  let d := d.updDrbg (d.entTarget r) (fun g => { g with queue := g.queue ++ [r] })
  { d with whd := { d.whd with waitHigh := Tbl.upd 0 d.whd.waitHigh r.cls (fun h => max h (d.entWaiting r.cls)) } }

/-! ## Serving (12 R258, R259) -/

/-- One generate request: its output leaves as ENTROPY_DELIVER. -/
def generate (n : Nat) (d : Device) : Device :=
  match (d.drbg n).top with
  | none => d
  | some r =>
    let out := (d.drbg n).work.generate r.amount
    let d := d.updDrbg n (fun g => { g with
      queue := dropFirst (fun x => x = r) g.queue
      requests := g.requests + 1
      work := out.2 })
    toCompute (.entropyDeliver r.consumer r.cls out.1) d

/-- Queues of fenced instances move on when another serves (12 R259). -/
def moveFenced (d : Device) : Device :=
  foldOver (fun n d =>
    let g := d.drbg n
    if g.st = 3 ∧ g.queue ≠ [] then
      match d.nextInstance n with
      | some m => (d.updDrbg n (fun g => { g with queue := [] })).updDrbg m (fun h => { h with queue := h.queue ++ g.queue })
      | none => d
    else d) (List.range 16) d

/-- Serve until nothing more can be: instances that need nothing of the pool first, then the pool's waiting reseeds by the class of the
highest request waiting on each, then arrival. -/
def serveLoop : (fuel : Nat) → Device → Device
  | 0, d => d
  | f + 1, d =>
    let ready := (List.range 16).filter (fun n => decide ((d.drbg n).st = 1) && (d.drbg n).top.isSome && decide ((d.drbg n).poolNeed = 0))
    match ready with
    | n :: _ => serveLoop f (generate n d)
    | [] =>
      let wants := (List.range 16).filter (fun n => decide ((d.drbg n).poolNeed ≠ 0))
      let rank (n : Nat) : Nat := match (d.drbg n).top with
        | some r => r.cls * 2 ^ 80 + r.since
        | none => 4 * 2 ^ 80
      match leastBy rank wants with
      | none => d
      | some n =>
        if d.whd.pool < (d.drbg n).poolNeed then d
        else
          let d := seedDrbg n d
          serveLoop f (generate n d)

/-- The instances serve their queues (R257: nothing before ENTROPY_READY; R260: nothing without a source). -/
def serveDrbgs (d : Device) : Device :=
  if d.entropyAvailable then
    let d := moveFenced d
    serveLoop (32 + sumBy (fun n => (d.drbg n).queue.length) (List.range 16)) d
  else d

/-! ## Sources -/

def Device.source (d : Device) (fb : Bool) : Source := if fb then d.whd.fb else d.whd.main
def Device.updSource (d : Device) (fb : Bool) (f : Source → Source) : Device :=
  if fb then { d with whd := { d.whd with fb := f d.whd.fb } } else { d with whd := { d.whd with main := f d.whd.main } }

/-- Failures within the last second (R255). -/
def recentFails (now : Nat) (l : List Nat) : List Nat := l.filter (fun t => decide (now < t + 1_000_000_000))

/-- Sources in service have changed: handover, loss and return are recorded and posted (12, Table 12.7). `who` is the source that changed. -/
def reviewSources (who : Nat) (d : Device) : Device :=
  let was := d.whd.feed
  let d := sourcesChanged d
  if d.sourceUp then
    let d := if d.whd.feed = was then d else noticeAll 0x5004 0 d.whd.feed 0 0 0 (record 0x5004 0 true d.whd.feed 0 0 0 d)
    if d.whd.noSource then
      let d := { d with whd := { d.whd with noSource := false } }
      noticeAll 0x5006 0 who 0 0 0 (record 0x5006 0 true who 0 0 0 d)
    else d
  else if !d.whd.noSource && !d.whd.main.inService && !d.whd.fb.inService then
    let d := { d with whd := { d.whd with noSource := true } }
    noticeAll 0x5005 3 0 0 0 0 (record 0x5005 0 true 0 0 0 0 d)
  else d

/-- A source is retired (R255): its samples are absorbed no more, the pool is zeroed, the other source takes over. -/
def retireSource (fb : Bool) (d : Device) : Device :=
  let n := (recentFails d.time (d.source fb).failTimes).length
  let d := d.updSource fb (fun s => { s with
    inService := false
    retired := true
    failTimes := [] })
  let d := { d with whd := { d.whd with pool := 0, block := 0 } }
  let d := noticeAll 0x5003 1 (b2n fb) n 0 0 (record 0x5003 0 true (b2n fb) n 0 0 d)
  reviewSources (b2n fb) d

/-! ## Commands that wait for entropy (R260) -/

/-- NO_ENTROPY_TIMEOUT in ns. -/
def Device.entropyTimeout (d : Device) : Nat := d.reg 0x0013_0004 * 1_000_000

/-- When the wait of a family 0x0E command began to count: the wait itself, in `ent` or before its Weir line, with no source in service. -/
def Device.entropyWaitFrom (d : Device) (k : Nat) : Option Nat :=
  match d.cmd k, d.whd.outage with
  | some c, some t =>
    if eRoutine c.entry / 256 ≠ 0x0E ∨ c.phase = .ended then none
    else if c.phase = .waiting then c.entropySince.map (fun x => max x t)
    else (d.archOf k).bind (fun a => a.entWait.map (fun x => max x t))
  | _, _ => none

/-- The command completes with NO_ENTROPY and the time waited in µs: uncharged when it had not joined its line. -/
def noEntropyEnd (k : Nat) (d : Device) : Device :=
  match d.entropyWaitFrom k with
  | none => d
  | some t =>
    let det := (d.time - t) / 1000
    let d := d.bump 0x0013_0040
    if (d.cmdOr k).started then haltWith k stNoEntropy det 0 d else concludeUnstarted k stNoEntropy det d

/-- The wait of command k has reached TIMEOUT. -/
def Device.entropyOver (d : Device) (k : Nat) : Bool := match d.entropyWaitFrom k with
  | some t => decide (t + d.entropyTimeout ≤ d.time)
  | none => false

end Sys2Proof.Machine
end

