-- ==== Sys2Proof/Machine/Wellhead.lean ====
section
/-!
DEFINITION. Sys2Proof/Machine/Wellhead.lean: the Wellhead's commands (12 R252 to R262).
-/
namespace Sys2Proof.Machine

/-- A raw capture of the main source keeps it from the conditioner (12 R262). -/
def Device.captured (d : Device) : Bool := d.whd.rawBusy && !d.whd.rawFb && decide (d.whd.feed = 0)

/-- 12 R252: a conditioner block ends in 32 bytes for the pool; outputs that find it full are discarded. -/
def execConditionerOutput (s : State) : Host.Outcome State Fault Refusal :=
  s.on fun d =>
    if d.sourceUp && !d.boot.custodyReset && !d.captured then
      let d := d.bump 0x0013_001C
      serveDrbgs { d with whd := { d.whd with pool := min 4096 (d.whd.pool + 32), block := 0 } }
    else d

/-- Count a failure in WHD_FAILS (12, Table 12.8). -/
def countFail (fb apt : Bool) (d : Device) : Device :=
  let w := d.whd
  { d with whd := { w with
    failsMainRct := if !fb && !apt then satAdd 255 w.failsMainRct 1 else w.failsMainRct
    failsMainApt := if !fb && apt then satAdd 255 w.failsMainApt 1 else w.failsMainApt
    failsFbRct := if fb && !apt then satAdd 255 w.failsFbRct 1 else w.failsFbRct
    failsFbApt := if fb && apt then satAdd 255 w.failsFbApt 1 else w.failsFbApt } }

/-- 12 R254, R255: a health test of a group, or of the fallback stream, fails at a window: counted and logged, the block under way
discarded; the third within one second of a source in service retires it. -/
def execHealthFail (grp : Option (Fin 32)) (apt : Bool) (s : State) : Host.Outcome State Fault Refusal :=
  s.on fun d =>
    if d.boot.custodyReset then d else
    let fb := grp.isNone
    let stream := match grp with
      | some g => g.val
      | none => 63
    let inj := d.whd.injPend.contains (stream, apt)
    let d := { d with whd := { d.whd with block := 0, injPend := dropFirst (fun x => x = (stream, apt)) d.whd.injPend } }
    let d := record 0x5002 0 false stream (b2n apt + 256 * b2n inj) 0 0 (countFail fb apt d)
    let src := d.source fb
    if src.testing.isSome then d.updSource fb (fun x => { x with testBad := true })
    else if !src.inService then d
    else
      let times := recentFails d.time src.failTimes ++ [d.time]
      let d := d.updSource fb (fun x => { x with failTimes := times })
      if 3 ≤ times.length then retireSource fb d else d

/-- A test run of a source starts, or is refused (12 R256, Table 12.6). -/
def startTest (fb : Bool) (d : Device) : Device :=
  if (d.source fb).testing.isSome ∨ (!fb ∧ d.md.mode ≠ .maintenance) then { d with whd := { d.whd with testErr := true } }
  else
    let was := d.sourceUp
    let d := { d with whd := { d.whd with testErr := false } }
    let d := d.updSource fb (fun x => { x with testing := some d.time, testBad := false })
    let d := reviewSources (b2n fb) d
    if was && !d.sourceUp then { d with whd := { d.whd with outageTest := true } } else d

/-- 12 R256: WHD_TEST.MAIN. -/
def execWhdTestMain (s : State) : Host.Outcome State Fault Refusal :=
  s.on fun d => barWrite 0x0013_0010 1 false d (startTest false)

/-- 12 R256: WHD_TEST.FB. -/
def execWhdTestFb (s : State) : Host.Outcome State Fault Refusal :=
  s.on fun d => barWrite 0x0013_0010 2 false d (startTest true)

/-- 12 R256, R260: a test run ends. A source that passes returns to service; one that fails is retired, and commands whose wait has
reached TIMEOUT then complete with NO_ENTROPY. -/
def execSourceTestDone (fb pass : Bool) (s : State) : Host.Outcome State Fault Refusal :=
  s.on fun d =>
    if (d.source fb).testing.isNone then d else
    let ok := pass && !(d.source fb).testBad
    let served := (d.source fb).inService
    let d := { d with whd := { d.whd with testPass := ok } }
    let d := d.updSource fb (fun x => { x with testing := none, testBad := false })
    let d := record 0x5008 0 false (b2n fb) (b2n ok) 0 0 d
    if ok then
      let d := d.updSource fb (fun x => { x with
        inService := true
        retired := false
        failTimes := if x.inService then x.failTimes else [] })
      serveDrbgs (reviewSources (b2n fb) d)
    else
      let d := if served then retireSource fb d else reviewSources (b2n fb) (d.updSource fb (fun x => { x with retired := true }))
      if d.sourceUp then serveDrbgs d
      else foldOver (fun k d => if d.entropyOver k then noEntropyEnd k d else d) (d.cmds.map (fun x => x.1)) d

/-- A failure is to be injected into the selected stream (12 R262), in Maintenance only. -/
def injectFailure (stream : Nat) (fb apt : Bool) (d : Device) : Device :=
  let d := { d with whd := { d.whd with injGroup := stream, injFb := fb } }
  if d.md.mode ≠ .maintenance then { d with whd := { d.whd with injErr := true } }
  else { d with whd := { d.whd with injErr := false, injPend := d.whd.injPend ++ [(if fb then 63 else stream, apt)] } }

/-- 12 R262: WHD_INJECT.RCT with its target. -/
def execWhdInjectRct (grp : Fin 32) (fb : Bool) (s : State) : Host.Outcome State Fault Refusal :=
  s.on fun d => barWrite 0x0013_0014 (grp + 32 * b2n fb + 64) false d (injectFailure grp fb false)

/-- 12 R262: WHD_INJECT.APT with its target. -/
def execWhdInjectApt (grp : Fin 32) (fb : Bool) (s : State) : Host.Outcome State Fault Refusal :=
  s.on fun d => barWrite 0x0013_0014 (grp + 32 * b2n fb + 128) false d (injectFailure grp fb true)

/-- WHD_RAW_CTRL.GO (12 R262); a GO while a capture runs changes nothing. -/
def startCapture (grp : Nat) (fb : Bool) (d : Device) : Device :=
  if d.whd.rawBusy then d else
  let d := { d with whd := { d.whd with rawGroup := grp, rawFb := fb } }
  if d.md.mode ≠ .maintenance then { d with whd := { d.whd with rawErr := true } }
  else { d with whd := { d.whd with
    rawErr := false
    rawBusy := true
    rawDone := false } }

/-- 12 R262: a raw-sample capture starts. -/
def execRawCapture (grp : Fin 32) (fb : Bool) (s : State) : Host.Outcome State Fault Refusal :=
  s.on fun d => barWrite 0x0013_0050 (grp + 32 * b2n fb + 64) false d (startCapture grp fb)

/-- 12 R262: the 65,536 samples are in the buffer. -/
def execRawCaptureDone (samples : BitVec 65536) (s : State) : Host.Outcome State Fault Refusal :=
  s.on fun d =>
    if d.whd.rawBusy then { d with whd := { d.whd with
      rawBusy := false
      rawDone := true
      rawBuf := samples } }
    else d

/-- WHD_RAW_DATA: 32 samples of the word at the cursor, which advances (12, Table 12.8). -/
def rawData (d : Device) : Nat × Device :=
  (field d.whd.rawBuf.toNat (32 * d.whd.rawCursor + 31) (32 * d.whd.rawCursor),
    { d with whd := { d.whd with rawCursor := (d.whd.rawCursor + 1) % 2048 } })

/-- 12 R262: WHD_RAW_DATA is read. -/
def execWhdRawDataRead (s : State) : Host.Outcome State Fault Refusal :=
  s.on fun d => barRead 0x0013_0058 d fun d => (rawData d).2.emit (.readReply 0 0x0013_0058 (rawData d).1)

/-- 12 R260: a class 3 wait reaches TIMEOUT with no source in service. A test run that began the outage holds it back. -/
def execNoEntropyTimeout (k : Fin 4096) (s : State) : Host.Outcome State Fault Refusal :=
  s.on fun d =>
    let held := d.whd.outageTest && (d.whd.main.testing.isSome || d.whd.fb.testing.isSome)
    if d.entropyOver k && !held then noEntropyEnd k d else d

end Sys2Proof.Machine
end

