-- ==== Sys2Proof/Machine/Flume.lean ====
section
/-!
DEFINITION. Sys2Proof/Machine/Flume.lean: the Flume's messages, its training and its failures, the sideband and the clock fallback (01 R10 to
R18; 13 R273 to R275; 08 R185). A message row delivers the oldest message of its direction when that is of its type (R12).
-/
namespace Sys2Proof.Machine

/-! ## Training (01 R11, 13 R265) -/

/-- Both dies are powered, out of reset, and the Flume is not trained: both sublinks are in training. -/
def Device.inTraining (d : Device) : Bool := !d.fl.trained && d.boot.cusReady && !d.boot.custodyReset && !d.boot.computeReset

/-- 01 R11: a TRAIN message. The custody die advances the boot counter before its own; one that arrives outside training is malformed. -/
def execTrain (fromCompute : Bool) (s : State) : Host.Outcome State Fault Refusal :=
  s.on fun d =>
    if d.inTraining then
      if fromCompute then { d with fl := { d.fl with trainSeen := true, presentCompute := true } }
      else if d.fl.training then d
      else { d with fl := { d.fl with boot := d.fl.boot + 1, training := true, presentCustody := true } }
    else if !d.boot.custodyReset && !d.boot.computeReset then unitsChanged (custodyFault 0x7A 0xFFFF 0 d)
    else d

/-! ## Keys -/

/-- A key request of one OP, after the oldest that waits of that OP. -/
def takeKeyRequest (op : Nat) (d : Device) : Device :=
  takeCustody (fun m => match m with
    | .keyRequest o r => if o = op then some r else none
    | _ => none) (retryKeys op d) (fun r d => unitsChanged (keyRequest op r d))

/-- 13 R274: a USE request. -/
def execKeyRequest (s : State) : Host.Outcome State Fault Refusal := s.on (takeKeyRequest 0)
/-- 13 R274: an EXPORT request. -/
def execKeyRequestExport (s : State) : Host.Outcome State Fault Refusal := s.on (takeKeyRequest 1)
/-- 13 R275: a CREATE request. -/
def execKeyRequestCreate (s : State) : Host.Outcome State Fault Refusal := s.on (takeKeyRequest 2)
/-- 13 R275: a COMMIT request. -/
def execKeyRequestCommit (s : State) : Host.Outcome State Fault Refusal := s.on (takeKeyRequest 3)
/-- 13 R275: an ABANDON request. -/
def execKeyRequestAbandon (s : State) : Host.Outcome State Fault Refusal := s.on (takeKeyRequest 4)

/-- The command that waits for an engine's request: on the engine or saved (06 R141, R138). -/
def Device.keyHolder (d : Device) (e req : Nat) : Option (Nat × KeyReqOut) :=
  d.cmds.findSome? (fun x => (d.archOf x.1).bind (fun t =>
    (firstWhere (fun (r : KeyReqOut) => decide (r.eng = e) && decide (r.request = req) && r.asked) t.keys).map (fun r => (x.1, r))))

/-- Change the outstanding request of a command. -/
def updRequest (k e req : Nat) (f : KeyReqOut → KeyReqOut) (d : Device) : Device :=
  updArchOf k (fun t => { t with keys := mapWhere (fun (r : KeyReqOut) => decide (r.eng = e) && decide (r.request = req) && r.asked) f t.keys }) d

/-- Attribute bytes came after the shares when the required usage is 0 or a set (13 R273). -/
def KeyReqOut.attrLen (r : KeyReqOut) : Nat := if r.usage = 0 ∨ 11 ≤ r.usage then 64 else 0

/-- The lease store of 4 KiB keeps the newest (01 R15; 08 R186); a key that does not fit is not kept. -/
def trimLeases : (fuel : Nat) → List Lease → List Lease
  | 0, l => l
  | f + 1, l => if sumBy (fun x => x.bytes.length) l ≤ 4096 then l else trimLeases f (l.drop 1)

/-- A delivered key as the lease store holds it. -/
def leaseOf (allot now : Nat) (r : KeyReqOut) (shares : Nat) (bs info : List Byte) : Lease :=
  let n := bs.length - r.attrLen
  { handle := r.handle, allot := allot, usage := r.usage, bytes := bs.take n, shares := shares, attr := bs.drop n, uses := 1, ends := now + 10_000_000, kind := info }

/-- A delivered stateless key enters the engine's lease store. -/
def keepLease (e allot : Nat) (r : KeyReqOut) (shares : Nat) (bs info : List Byte) (d : Device) : Device :=
  if (d.eng e).allot ≠ allot ∨ !(d.eng e).st.inService then d else
  d.updEng e (fun g => { g with leases := trimLeases 64 (g.leases.filter (fun l => l.handle ≠ r.handle) ++ [leaseOf allot d.time r shares bs info]) })

/-- The key is whole: it is written as shares at its place (08 R185), or discarded where it would pass 0x3_FBFF (06 R142). -/
def landKey (k e req : Nat) (r : KeyReqOut) (shares : Nat) (leaf : Option Nat) (lease : Nat) (bs info : List Byte) (d : Device) : Device :=
  let d := match leaf with
    | some i => d.updCmd k (fun c => { c with leaf := some (r.handle, i) })
    | none => d
  if ctxWindow < r.dest + bs.length then updRequest k e req (fun r => { r with outcome := .discarded, received := [] }) d
  else
    let p := (bs.length - r.attrLen) / max 1 shares
    let area : KeyArea := { base := r.dest, len := p, shares := shares, handle := r.handle, stateful := leaf.isSome }
    let d := updArchOf k (fun t =>
      let t := t.write r.dest bs
      { t with
        areas := t.areas ++ [area]
        given := t.given ++ [{ leaseOf (d.cmdOr k).allot d.time r shares bs info with leafed := leaf.isSome }] }) d
    let d := updRequest k e req (fun r => { r with outcome := .delivered bs.length leaf, received := [] }) d
    if lease = 1 then keepLease e (d.cmdOr k).allot r shares bs info d else d

/-- A delivery whose command has ended is scrubbed; its leaf is burned (06 R145, 09 R207). -/
def scrubDelivery (e req : Nat) (h a : Nat) (last : Bool) (leaf : Option Nat) (d : Device) : Device :=
  if !last then d else
  let d := d.updEng e (fun g => { g with gone := dropFirst (fun x => decide (x.1 = req)) g.gone })
  match leaf with
  | none => d
  | some i => noteBurned a h i d

/-- 08 R185: a fragment of a key. For a COMMIT it is the acknowledgement (13 R275). One for an unknown request is a Fatal fault, its data
discarded unread (01, Table 1.6). -/
def execKeyDeliver (s : State) : Host.Outcome State Fault Refusal :=
  s.on fun d => takeCompute (fun m => match m with
    | .keyDeliver e r _ last sh leaf lease bs info => some (e, r, last, sh, leaf, lease, bs, info)
    | _ => none) d (fun (e, req, last, sh, leaf, lease, bs, info) d =>
      if 4 ≤ req then d.updCmd (req - 4) (fun c => { c with target := none })
      else match d.keyHolder e req with
        | some (k, r) =>
          if last then landKey k e req r sh leaf lease (r.received ++ bs) info d
          else updRequest k e req (fun r => { r with received := r.received ++ bs }) d
        | none => (match firstWhere (fun (x : Nat × Nat × Nat) => decide (x.1 = req)) (d.eng e).gone with
          | some (_, h, a) => scrubDelivery e req h a last leaf d
          | none => unitsChanged (custodyFault 0x7C 0xFFFF 0 d)))

/-- 06 R141: a refusal ends the command at its keywait; one of a COMMIT ends it at the commit (13 R275). -/
def execKeyRefuse (s : State) : Host.Outcome State Fault Refusal :=
  s.on fun d => takeCompute (fun m => match m with
    | .keyRefuse e r st det => some (e, r, st, det)
    | _ => none) d (fun (e, req, st, det) d =>
      if 4 ≤ req then
        match d.cmd (req - 4) with
        | some c => if c.commitBegun ∧ c.phase = .checked then settleAdmin (haltWith (req - 4) st det 0 d) else d
        | none => d
      else match d.keyHolder e req with
        | some (k, _) => updRequest k e req (fun r => { r with outcome := .refused st det }) d
        | none => d.updEng e (fun g => { g with gone := dropFirst (fun x => decide (x.1 = req)) g.gone }))

/-- A key is revoked (01 R15, R16): every engine drops its lease, and with it what its lease store holds; a command that was given the key goes on with it,
and its request that still waits is served with it, the answer to come being scrubbed. -/
def revokeHeld (h : Nat) (d : Device) : Device :=
  let d := { d with engs := Tbl.mapSet {} (fun _ (g : Engine) => { g with leases := g.leases.filter (fun l => l.handle ≠ h) }) d.engs }
  foldOver (fun (x : Nat × Cmd) d => match d.archOf x.1 with
    | none => d
    | some t => match firstWhere (fun l => decide (l.handle = h) && !l.leafed) t.given with
      | none => d
      | some l =>
        let late (r : KeyReqOut) : Bool := decide (r.handle = h) && r.asked
        let d := dropRequests x.2.allot (t.keys.filter late) d
        updArchOf x.1 (fun t => { t with
          given := mapWhere (fun l => decide (l.handle = h) && !l.leafed) (fun l => { l with revoked := true }) t.given
          keys := mapWhere late (fun r => { r with fromLease := some { l with stale := true } }) t.keys }) d) d.cmds d

/-- 01 R15, R16: every engine drops its lease of the key; then the acknowledgement leaves. -/
def execKeyRevoke (s : State) : Host.Outcome State Fault Refusal :=
  s.on fun d => takeCompute (fun m => match m with
    | .keyRevoke h i => some (h, i)
    | _ => none) d (fun (h, i) d =>
      toCustody (.keyRevokeAck i) (revokeHeld h d))

/-- 01 R16: the acknowledgement of a revoke completes its admin command. -/
def execKeyRevokeAck (s : State) : Host.Outcome State Fault Refusal :=
  s.on fun d => takeCustody (fun m => match m with
    | .keyRevokeAck i => some i
    | _ => none) d (fun i d =>
      match firstWhere (fun (r : RevokeRec) => decide (r.ident = i)) d.fl.revokes with
      | none => d
      | some r =>
        let d := { d with fl := { d.fl with revokes := dropFirst (fun x => x = r) d.fl.revokes } }
        if (d.adm r.allot).waits = .revoke i then admDone r.allot stOk 0 0 d else d)

/-- 04 R102; 01, Table 1.5: a unit key of class 0 (Reservoir), 1 (state wrapping) or 2 (save area) is loaded. -/
def execUnitKeyLoad (s : State) : Host.Outcome State Fault Refusal :=
  s.on fun d => takeCompute (fun m => match m with
    | .unitKeyLoad a c k => some (a, c, k)
    | _ => none) d (fun ((a, c, k) : Nat × Nat × List Byte) (d : Device) =>
      let d := { d with rsv := { d.rsv with keyRegs := Tbl.put d.rsv.keyRegs (4 * a + c) k } }
      let d : Device := match c with
        | 0 => { d with rsv := { d.rsv with keys := d.rsv.keys ||| 2 ^ a } }
        | 1 => { d with rsv := { d.rsv with wrapKeys := d.rsv.wrapKeys ||| 2 ^ a } }
        | _ => { d with rsv := { d.rsv with saveKeys := d.rsv.saveKeys ||| 2 ^ a } }
      if d.keysLoaded ∧ (d.adm 0).waits = .unitKeys then admDone 0 stOk 0 0 d else d)

/-! ## Entropy (12 R259) -/

/-- 12 R259: a request joins the queue of its instance, which serves by class. -/
def execEntropyRequest (s : State) : Host.Outcome State Fault Refusal :=
  s.on fun d => takeCustody (fun m => match m with
    | .entropyRequest c cls n r => some (c, cls, n, r)
    | _ => none) d (fun (c, cls, n, r) d =>
      serveDrbgs (enqueueEnt { consumer := c, cls := cls, amount := n, since := d.time, reseed := r } d))

/-- 12 R259; 08 R182: reseed material reaches a mask generator that asked for it, DRBG output the `ent` that asked for it; a delivery that
nobody waits for is discarded unread. -/
def execEntropyDeliver (s : State) : Host.Outcome State Fault Refusal :=
  s.on fun d => takeCompute (fun m => match m with
    | .entropyDeliver c cls bs => some (c, cls, bs)
    | _ => none) d (fun (c, cls, bs) d =>
      if cls = 0 then
        if (d.eng c).mg.reqPending then refreshStale c ((d.updEng c (fun g => { g with mg := mgSeed (BitVec.ofNat 512 (ofBytes bs)) g.mg })).bump (engPage c + 0x028)) else d
      else if cls = 2 then (if 144 ≤ c then d.updLiu (c - 144) (fun u => { u with katDue := false }) else d)
      else if (d.eng c).arch.entAsked = some (cls, bs.length) then d.updArch c (fun t => { t with entAsked := none, entBytes := bs })
      else d)

/-! ## Heartbeats (01, Table 1.5; R19) -/

/-- The sender's state in a heartbeat (01, Table 1.5 names it and gives no code): the custody die's is the mode code, the compute die's 1 while its
units issue nothing. -/
def Device.beatState (d : Device) (up : Bool) : Nat := if up then b2n d.stopped else d.md.mode.code

/-- 01, Table 1.5: a die sends its heartbeat: its state, the last SEQ it has received (0xFFFF_FFFF before the first), and device time from the
custody die. -/
def execHeartbeatSend (up : Bool) (s : State) : Host.Outcome State Fault Refusal :=
  s.on fun d =>
    let last (n : Nat) : Nat := (n + 0xFFFF_FFFF) % 2 ^ 32
    if d.flumeRuns then
      (if up then toCustody (.heartbeat 0 (d.beatState true) (last d.fl.rxCompute)) d
       else toCompute (.heartbeat d.time (d.beatState false) (last d.fl.rxCustody)) d)
    else d

/-- 01 R19: a heartbeat arrives. The custody die notes when it last heard the compute die (15 R322); the compute die takes the time it carries. -/
def execHeartbeat (up : Bool) (s : State) : Host.Outcome State Fault Refusal :=
  s.on fun d =>
    let want (m : Msg) : Option Nat := match m with
      | .heartbeat t _ _ => some t
      | _ => none
    if up then takeCustody want d (fun _ d => { d with fl := { d.fl with lastBeat := d.time } })
    else takeCompute want d (fun t d => { d with fl := { d.fl with computeTime := t } })

/-! ## Steward accesses (01 R8; 14, Table 14.3) -/

/-- A steward message (01 R8, R13): it takes its direction's next SEQ behind what is on its way, and the compute die performs it when its turn has come (R12):
an earlier occurrence of the row has sent it then, or nothing is before it. -/
def steward (m : Msg) (act : Device → Device) (d : Device) : Device :=
  if !d.flumeRuns then d
  else if nextMsg d.fl.toCompute = some m then act (tookCompute d)
  else if d.fl.toCompute = [] then act (tookCompute (toCompute m d))
  else toCompute m d

/-- 01 R8: a steward read of 1 to 256 bytes; for host memory, `data` is what it holds there. -/
def execStwRead (core : Fin 4) (addr : BitVec 64) (len : Fin 256) (host : Bool) (ident : BitVec 16) (data : BitVec 2048) (s : State) : Host.Outcome State Fault Refusal :=
  s.on fun d =>
    let n := len.val + 1
    steward (.stwRead core addr.toNat n host ident.toNat)
      (stewardAccess core addr.toNat n 0 host ident.toNat (toBytes n data.toNat)) d

/-- 01 R8: a steward write of 1 to 256 bytes. -/
def execStwWrite (core : Fin 4) (addr : BitVec 64) (len : Fin 256) (host : Bool) (ident : BitVec 16) (data : BitVec 2048) (s : State) : Host.Outcome State Fault Refusal :=
  s.on fun d =>
    let n := len.val + 1
    let bs := toBytes n data.toNat
    steward (.stwWrite core addr.toNat host ident.toNat bs)
      (stewardAccess core addr.toNat n 1 host ident.toNat bs) d

/-- 01 R8: the answer reaches the steward core; that of a COMMIT's read goes on with it (13 R275), that of a
migration's with its offer (17 R360). -/
def execStwReply (s : State) : Host.Outcome State Fault Refusal :=
  s.on fun d => takeCustody (fun m => match m with
    | .stwReply i ok bs => some (i, ok, bs)
    | _ => none) d (fun (i, ok, bs) d =>
      match firstWhere (fun x => decide (stagedIdent x.req.slot = i)) d.cis.staged with
      | some x => unitsChanged (stagedReply x ok bs d)
      | none => match firstWhere (fun (x : Migration) => x.source && decide (x.reads ≠ 0) && decide (x.rid = i)) d.ws.migs with
        | some x => migReply x ok d
        | none => d)

/-! ## The link (01 R10 to R12, Table 1.6) -/

/-- What the replay buffer of a direction sends again, within the reorder window: every message that was lost or has not been acknowledged for 200 ns, on
a sublink that is up (01 R10, R12). -/
def resend (d : Device) (l : List Flight) : List Flight :=
  (l.take reorderWindow).map (fun f => if !f.arrived && (f.lost || decide (f.sent + 200 ≤ d.time))
    then { f with retry := true, lost := false, sent := d.time, sub := d.carrier f.seq } else f) ++ l.drop reorderWindow

/-- 01 R12: a retransmission from the replay buffer. -/
def execFlumeRetransmit (up : Bool) (s : State) : Host.Outcome State Fault Refusal :=
  s.on fun d =>
    if !d.flumeRuns then d
    else if up then { d with fl := { d.fl with toCustody := resend d d.fl.toCustody } }
    else { d with fl := { d.fl with toCompute := resend d d.fl.toCompute } }

def Device.sublink (d : Device) (i : Nat) : Sublink := if i = 0 then d.fl.sub0 else d.fl.sub1
def Device.updSublink (d : Device) (i : Nat) (f : Sublink → Sublink) : Device :=
  if i = 0 then { d with fl := { d.fl with sub0 := f d.fl.sub0 } } else { d with fl := { d.fl with sub1 := f d.fl.sub1 } }

/-- The message that leads a sublink is dropped and not acknowledged. -/
def loseOn (u : Nat) (l : List Flight) : List Flight := match leads u l with
  | some f => mapWhere (fun g => decide (g.seq = f.seq)) (fun g => { g with lost := true }) l
  | none => l

/-- 01, Table 1.6: a tag check fails: the message is dropped; the third failure within 1 ms fences the sublink. -/
def execFlumeTagFailure (u : Fin 2) (up : Bool) (s : State) : Host.Outcome State Fault Refusal :=
  s.on fun d =>
    if !d.flumeRuns || !(d.sublink u).up then d else
    let d := if up then { d with fl := { d.fl with toCustody := loseOn u d.fl.toCustody } }
      else { d with fl := { d.fl with toCompute := loseOn u d.fl.toCompute } }
    let times := (d.sublink u).tagFails.filter (fun t => decide (d.time < t + 1_000_000)) ++ [d.time]
    let d := d.updSublink u (fun x => { x with tagFails := times })
    let d := custodyFault 0x75 u 0 d
    unitsChanged (if 3 ≤ times.length then custodyFault 0x76 u 0 d else d)

/-- 01, Table 1.6: a valid tag with a TYPE or LEN outside the set, or a SEQ outside the reorder window: Fatal. -/
def execFlumeMalformedMessage (seqOut : Bool) (s : State) : Host.Outcome State Fault Refusal :=
  s.on fun d => if d.flumeRuns then unitsChanged (custodyFault (if seqOut then 0x7B else 0x7A) 0xFFFF 0 d) else d

/-- 01 R10, Table 1.6: one of the dies has received no message on a sublink for 8 µs. -/
def execSublinkSilence (u : Fin 2) (s : State) : Host.Outcome State Fault Refusal :=
  s.on fun d =>
    if d.fl.trained && (d.sublink u).up && decide (min (d.sublink u).lastRx (d.sublink u).lastRxCompute + 8000 ≤ d.time) then unitsChanged (custodyFault 0x77 u 0 d) else d

/-- 01 R11, Table 1.6: the retrain of a fenced sublink ends; the third that fails leaves it fenced until the next reset. -/
def execSublinkRetrainDone (u : Fin 2) (ok : Bool) (s : State) : Host.Outcome State Fault Refusal :=
  s.on fun d =>
    let x := d.sublink u
    if !x.fenced || !x.retraining then d
    else if ok then unitsChanged (testDone 4 u true d)
    else
      let d := d.updSublink u (fun x => { x with retrainFails := x.retrainFails + 1, retraining := decide (x.retrainFails < 2) })
      if x.retrainFails < 2 then d
      else unitsChanged (custodyFault 0x78 u 0 (testDone 4 u false d))

/-- 01, Table 1.6: both sublinks down for 100 µs: Fatal, and the compute die is treated as wedged (15 R322). -/
def execBothSublinksDown (s : State) : Host.Outcome State Fault Refusal :=
  s.on fun d =>
    match d.fl.downSince with
    | some t =>
      if d.fl.trained && !d.fl.sub0.up && !d.fl.sub1.up && decide (t + 100_000 ≤ d.time) && d.flt.fatal.isNone then
        unitsChanged (wedge (custodyFault 0x79 0xFFFF 0 d))
      else d
    | none => d

/-! ## The sideband (01, Table 1.4, R17; 15 R322) -/

/-- 01, Table 1.4: SB_STOP. -/
def execSbStop (s : State) : Host.Outcome State Fault Refusal := s.on fun d => { d with fl := { d.fl with sbStop := true } }

/-- 01 R17: SB_CLEAR. -/
def execSbClear (s : State) : Host.Outcome State Fault Refusal := s.on assertClear

/-- 01 R17: the hardware clear is complete. The custody die holds SB_CLEAR until 40 µs have passed. -/
def execSbClearDone (s : State) : Host.Outcome State Fault Refusal :=
  s.on fun d =>
    if d.fl.clearing then
      let d := hardClear d
      releaseClear { d with fl := { d.fl with clearing := false } }
    else d

/-- 15 R322: SB_FATAL marks the compute die wedged. -/
def execSbFatal (s : State) : Host.Outcome State Fault Refusal :=
  s.on fun d => if d.boot.computeReset then d else wedge { d with fl := { d.fl with sbFatal := true } }

/-- 15 R322: SB_PRESENT falls without a reset that the custody die started. -/
def execSbPresentFall (s : State) : Host.Outcome State Fault Refusal :=
  s.on fun d => if d.boot.computeReset then d else wedge { d with fl := { d.fl with presentCompute := false } }

/-! ## The clock of the custody die (01 R18) -/

/-- 01 R18: CUS_CLK missing 640 ns: the fallback oscillator takes over and a Contained fault is raised. -/
def execFallbackSwitch (s : State) : Host.Outcome State Fault Refusal :=
  s.on fun d =>
    if d.fl.fallback || d.boot.custodyReset then d
    else unitsChanged (custodyFault 0xAC 0xFFFF 0 { d with fl := { d.fl with fallback := true } })

/-- 01 R18: CUS_CLK present and in tolerance for 1 ms. -/
def execFallbackReturn (s : State) : Host.Outcome State Fault Refusal :=
  s.on fun d => { d with fl := { d.fl with fallback := false } }

end Sys2Proof.Machine
end

