-- ==== Sys2Proof/Machine/Headgate.lean ====
section
/-!
DEFINITION. Sys2Proof/Machine/Headgate.lean: closing, draining and opening gates, the descriptor window, function-level resets (14).
-/
namespace Sys2Proof.Machine

/-- HG_CTRL of a gate. -/
def gateCtrlAt (g : Nat) : Nat := 0x0008_0000 + 0x10 * g

/-- 14 R298: CLOSE is set. -/
def execHgClose (g : Fin 84) (s : State) : Host.Outcome State Fault Refusal :=
  s.on fun d => barWrite (gateCtrlAt g) 1 true d (closeGate g)

/-- 14 R298: CLOSE is cleared; waiting accesses are checked. -/
def execHgOpen (g : Fin 84) (s : State) : Host.Outcome State Fault Refusal :=
  s.on fun d => barWrite (gateCtrlAt g) 0 true d (openGate g)

/-- 14 R298: every old-rule access of a closed gate has retired: DRAINED sets. -/
def execHgDrained (g : Fin 84) (s : State) : Host.Outcome State Fault Refusal :=
  s.on fun d => if (d.gate g).close && d.gateQuiet g then d.updGate g (fun t => { t with drained := true }) else d

/-- HG_LIMIT in ns. -/
def Device.hgLimit (d : Device) : Nat := field (d.reg 0x0008_1000) 13 0 * 1000

/-- 14 R299: accesses that have waited HG_LIMIT µs at a closed gate are refused with cause CLOSED, in arrival order. -/
def execHgCloseTimeout (g : Fin 84) (s : State) : Host.Outcome State Fault Refusal :=
  s.on fun d =>
    if (d.gate g).close then
      let late := (d.gate g).waiting.filter (fun w => decide (w.arrived + d.hgLimit ≤ d.time))
      settleAdmin (foldOver (fun w d => closedTimeout g w d) late d)
    else d

/-- 14 R298, Table 14.10: a write to HG_DSEL. -/
def execHgDselWrite (g : BitVec 7) (r : BitVec 6) (s : State) : Host.Outcome State Fault Refusal :=
  s.on fun d =>
    let v := g.toNat + r.toNat * 2 ^ 16
    barWrite 0x0008_1004 v false d (selectDesc v)

/-- 14 R296, R298: a write to HG_DDATA[7]. -/
def execHgDdataCommit (v : BitVec 32) (s : State) : Host.Outcome State Fault Refusal :=
  s.on fun d => barWrite 0x0008_102C v.toNat false d (commitDesc v.toNat)

/-! ## Function-level resets (14 R291 to R293, R304) -/

/-- Accesses of allotment n that wait at closed gates are discarded without report. -/
def dropWaiting (n : Nat) (d : Device) : Device :=
  { d with gates := Tbl.mapSet {} (fun _ (g : Gate) => { g with waiting := g.waiting.filter (fun w => w.allotOf d ≠ n) }) d.gates }

/-- Steps 2 and 3: commands of n stop with no completion. -/
def dropCommands (n : Nat) (d : Device) : Device :=
  let mine := d.cmds.filter (fun x => decide (x.2.allot = n))
  let d := foldOver (fun (x : Nat × Cmd) d =>
    if x.2.started then haltWith x.1 stAborted 0 0 d else concludeUnstarted x.1 stAborted 0 d) mine d
  let gone := mine.map (fun x => x.1)
  let d := { d with
    cmds := d.cmds.filter (fun x => decide (x.2.allot ≠ n))
    engs := Tbl.mapSet {} (fun _ (g : Engine) => { g with leases := g.leases.filter (fun l => l.allot ≠ n ∧ handleAllot l.handle ≠ n) }) d.engs
    fl := { d.fl with leases := d.fl.leases.filter (fun l => l.allot ≠ n ∧ handleAllot l.handle ≠ n) }
    flt := { d.flt with due := d.flt.due.filter (fun x => x.allot ≠ n ∨ n = 0) } }
  postDue (forgetSlots gone d)

/-- Moves of the allotment are abandoned: at the source queries are answered with reason 4, at the destination nothing is kept (17, Table
17.9). -/
def abandonMigs (n now : Nat) (l : List Migration) : List Migration :=
  l.filterMap (fun m =>
    if m.allot ≠ n ∨ m.outcome.isSome then some m
    else if m.source then some { m with st := 1, outcome := some (4, now), admin := false }
    else none)

/-- Steps 4 to 6: contexts, Cistern slots, buffers. -/
def dropHoldings (n : Nat) (d : Device) : Device :=
  let ctxs := (d.ctxs.filter (fun x => decide (x.2.allot = n) && (!decide (x.2.st = .free) || x.2.pending))).map (fun x => x.1)
  let base := d.partBase n
  let size := (d.allot n).rsvPart * 0x100_0000
  let d := d.updAllot n (fun t => { t with
    bufGen := t.bufs.foldl (fun g b => Tbl.put g b.1 (if t.gen b.1 = 4095 then 1 else t.gen b.1 + 1)) t.bufGen
    bufs := [] })
  let mine (a : KeyAttr) : Bool := decide (a.allot = n)
  { d.rsvClear base size with
    ctxs := d.ctxs.filter (fun x => !ctxs.contains x.1)
    cache := d.cache.filter (fun c => !ctxs.contains c)
    cacheDirty := d.cacheDirty.filter (fun c => !ctxs.contains c)
    ws := { d.ws with migs := abandonMigs n d.time d.ws.migs }
    cis := { d.cis with
      waiting := d.cis.waiting.filter (fun x => x.2.allot ≠ n)
      staged := d.cis.staged.filter (fun x => x.req.allot ≠ n)
      slots := (d.cis.slots.filter (fun x => x.2.attr.persistent || !mine x.2.attr)).map (fun x =>
      if mine x.2.attr then (x.1, { x.2 with attr := x.2.attr.unbind, boundReq := none, kt := [] }) else x) }
    ss := { d.ss with objs := d.ss.objs.map (fun x =>
      if mine x.2.attr then (x.1, { x.2 with attr := x.2.attr.unbind, boundReq := none, kt := [] }) else x) } }

/-- Contexts of allotment n that are not FREE. -/
def Device.ctxHeld (d : Device) (n : Nat) : Nat := countWhere (fun x => decide (x.2.allot = n) && !decide (x.2.st = .free)) d.ctxs

/-- Steps 1 to 6 of Table 14.2. -/
def teardown (n : Nat) (viaPf : Bool) (d : Device) : Device :=
  if (d.allot n).flr.isSome then d else
  let count := d.ctxHeld n
  let d := d.updAllot n (fun t => { t with
    ready := false
    flr := some { start := d.time, viaPf := viaPf, contexts := count } })
  let d := { d with sqs := Tbl.mapSet {} (fun k (q : SubQueue) => if k / 1024 = n then { q with scanning := false, rescan := false, pend := false, burst := 0 } else q) d.sqs }
  let d := d.updAdm n (fun q => { q with
    scanning := false
    rescan := false
    burst := 0
    cmds := []
    waits := .none
    cqWaiting := [] })
  settleAdmin (dropHoldings n (dropCommands n (dropWaiting n d)))

/-- The function exists for the host: the link is up. -/
def Device.functionLive (d : Device) : Bool := d.boot.configReady && !d.boot.computeReset

/-- 14 R291: a function-level reset of VF n. -/
def execFlrStart (n : Fin 64) (s : State) : Host.Outcome State Fault Refusal :=
  s.on fun d => if d.functionLive && n.val != 0 then teardown n false d else d

/-- 14 R293: VF Enable is cleared: allotments 1 to 63 are torn down. -/
def clearVfs (d : Device) : Device :=
  foldOver (fun i d => teardown (i + 1) true d) (List.range 63) { d with boot := { d.boot with vfEnable := false } }

/-- 14 R293: a function-level reset of the PF. -/
def execPfFlr (s : State) : Host.Outcome State Fault Refusal :=
  s.on fun d => if d.functionLive then clearVfs (teardown 0 true d) else d

/-- 14 R293: VF Enable alone is cleared. -/
def execVfEnableClear (s : State) : Host.Outcome State Fault Refusal :=
  s.on fun d => if d.functionLive then clearVfs d else d

/-- The page of an allotment after step 7: its policy, its buffer generations and its wrap counter stay (Table 14.2). READY returns
where the mode admits the function (18, Table 18.1). -/
def Allot.afterFlr (t : Allot) (ready : Bool) : Allot := {
  ready := ready
  sqQuota := t.sqQuota
  cqQuota := t.cqQuota
  inflightQuota := t.inflightQuota
  mayUse := t.mayUse
  dedicated := t.dedicated
  weight := t.weight
  engTime := t.engTime
  ctxQuota := t.ctxQuota
  rsvPart := t.rsvPart
  cisQuota := t.cisQuota
  bufGen := t.bufGen
  digSlotsHigh := t.digSlotsHigh
  wrapCount := t.wrapCount
  wrapFloor := t.wrapCount
  replayCount := t.replayCount }

/-- Every function reads READY in Service, Low-flow, Maintenance, Debug and Retention; only allotment 0 in Provisioning and Quarantine
(19, Table 19.4). -/
def Device.readyMode (d : Device) (n : Nat) : Bool := d.boot.serviceReady && (match d.md.mode with
  | .provisioning | .quarantine => n == 0
  | .bringup => false
  | _ => true)

/-- 14 R291 step 7, R304: the teardown of allotment n completes. -/
def execFlrComplete (n : Fin 64) (s : State) : Host.Outcome State Fault Refusal :=
  s.on fun d => match (d.allot n).flr with
    | none => d
    | some t =>
      let d := { d with
        sqs := d.sqs.filter (fun x => decide (x.1 / 1024 ≠ n.val))
        cqs := d.cqs.filter (fun x => decide (x.1 / 1024 ≠ n.val)) }
      let ready := d.readyMode n
      let d := d.updAllot n (fun a => a.afterFlr ready)
      let us := min ((d.time - t.start) / 1000) 0xFFFF_FFFF
      let floor := (d.allot n).wrapFloor % 2 ^ 32
      let p0 := n.val + 256 * b2n t.viaPf
      let d := recordCompute 0x7020 n false p0 us t.contexts floor d
      if n.val = 0 then d else notice 0 0x7020 0 p0 us t.contexts floor d

end Sys2Proof.Machine
end

