-- ==== Sys2Proof/Machine/OpsBoot.lean ====
section
/-!
DEFINITION. Sys2Proof/Machine/OpsBoot.lean: what bring-up and the mode rows share: the roots at custody boot (13 R266, R272, R282; 16 R340),
unit keys (19, Table 19.3 step 9), the debug pause (R401), READY of the allotments (19, Table 19.4), reads of admin operands.
-/
namespace Sys2Proof.Machine

/-! ## Reading an admin command's operand -/

/-- The device reads n bytes of host memory for an admin command through gate a (14, Table 14.3: master 0xF0). -/
def admRead (a addr n : Nat) (d : Device) (k : Device → Device) : Device :=
  match checkAll d a a 0 true none (pieces addr n) with
  | (.permit, _, _) => k d
  | (.wait, p, m) => gateWait a (.admData a) p m 0 d
  | (.refuse c r st, p, m) => admDone a stAccess 0 (violationDetail 4 r 0 st) (reportRefusal a a p m 0 0xF0 c r st true d)

/-- What host memory holds for it: exactly n bytes. -/
def exactly (n : Nat) (l : List Byte) : List Byte := l.take n ++ zeros (n - l.length)

/-! ## READY and scans after a change of mode -/

/-- READY of every function not being torn down follows the mode (19, Table 19.4); scans go on. -/
def modeSettled (d : Device) : Device :=
  let d := foldOver (fun n d =>
    let r := d.readyMode n || (n == 0 && d.md.debugPause.isSome)
    d.updAllot n (fun t => if t.flr.isSome then t else { t with ready := r })) (List.range 64) d
  resumeScans d

/-- A mode is entered with its overlay, where the exchange of overlays is part of a longer step. -/
def enterWhole (target : Mode) (cause : Nat) (d : Device) : Device :=
  modeSettled (enterMode target cause (applyOverlay target.code d))

/-! ## Unit keys (19, Table 19.3 step 9; 04 R102) -/

/-- Every unit key leaves, and bring-up goes on when they have arrived. -/
def sendUnitKeys (d : Device) : Device :=
  let d := loadUnitKeys d
  { d with boot := { d.boot with unitKeys := true } }

/-- Step 9 begins once steps 4 and 8 are done and no debug pause holds it back. -/
def unitKeyStep (d : Device) : Device :=
  if d.cis.durOk && d.boot.rsvReady && !d.boot.unitKeys && d.md.debugPause.isNone && d.fl.trained then sendUnitKeys d else d

/-! ## Roots at custody boot -/

/-- Persistent slots take their contents (13, Table 13.6). -/
def chooseCopies (d : Device) : Device :=
  foldOver (fun (x : Nat × CisSlot) d =>
    let s := x.2
    let a := s.attr.allot
    let tell (code sev p1 : Nat) (d : Device) : Device :=
      let d := notice a code sev x.1 p1 0 0 (record code a false x.1 p1 0 0 d)
      if a = 0 then d else notice 0 code sev x.1 p1 0 0 d
    if !s.attr.persistent then d
    else if s.unreadable || (s.copyBad && s.other.isNone) then tell 0x4002 2 0 (d.updSlot x.1 (fun s => { s with unreadable := true }))
    else if s.copyBad then tell 0x4001 1 s.gen d
    else d) d.cis.slots d

/-- The Sealed Store is recovered (13 R282). -/
def recoverStore (r : SsRecovery) (d : Device) : Device :=
  if d.ss.blocks = 0 then { d with ss := { d.ss with rootOk := false } } else
  let dropBatch (d : Device) : Device := { d with ss := { d.ss with
    batch := []
    toSend := []
    journal := 0
    recovering := false } }
  match r with
  | .committed => { d with ss := { d.ss with rootOk := true, toSend := d.ss.batch, recovering := decide (d.ss.batch ≠ []) } }
  | .newer =>
    let d := dropBatch { d with ss := { d.ss with rootOk := true } }
    notice 0 0x4005 1 d.ss.treeGen 0 0 0 (record 0x4005 0 false d.ss.treeGen 0 0 0 d)
  | .tagFails => dropBatch { d with ss := { d.ss with rootOk := true } }
  | .rootLost => notice 0 0x4006 3 0 0 0 0 (record 0x4006 0 false 0 0 0 0 { d with ss := { d.ss with rootOk := false } })

/-- The DUR is rebuilt (13 R266; 16 R340): a pending ZEROIZE_ALL erases the KER first; then the KER is checked, slots and store recovered. -/
def installDur (f : BootFind) (d : Device) : Device :=
  if !f.puf then
    let d := { d with
      cis := { d.cis with durOk := false, pufTries := f.tries }
      boot := { d.boot with fail := true, failStep := 4 } }
    raiseAlert 3 (record 0x4021 0 false f.tries 0 0 0 d)
  else
    let d := if d.lev.zaPending then
        record 0x2012 0 false 0 0 0 0 { d with cis := d.cis.noKer, lev := { d.lev with zaPending := false } }
      else d
    let d := if d.lev.zaResume then
        let d := zeroizeStores d
        { d with lev := { d.lev with zaResume := false } }
      else d
    let ok := d.md.owner && d.cis.kerPresent && f.ker
    let d := setRoots deviceRoot (if ok then d.cis.ker else zeros 32) { d with cis := { d.cis with
      durOk := true
      pufTries := f.tries
      kerOk := ok
      testRoot := false } }
    let d := if d.md.owner && !ok then notice 0 0x4020 3 0 0 0 0 (record 0x4020 0 false 0 0 0 0 d) else d
    if ok then recoverStore f.store (chooseCopies d) else d

/-! ## The debug pause (19 R401) -/

/-- A pause is due: DEBUG_EN sampled, an owner, the DUR deferred, CONFIG_READY and ENTROPY_READY set. -/
def pauseCheck (d : Device) : Device :=
  if d.md.debugStrap && d.md.owner && d.boot.cusReady && !d.cis.durOk && !d.boot.fail && d.boot.configReady && d.boot.entropyReady &&
      d.md.debugPause.isNone && decide (d.md.mode = .bringup) then
    let k := d.custodyRandom 32
    let d := { k.2 with rsv := { d.rsv with pauseKey := k.1 } }
    let d := record 0xB00A 0 false 0 0 0 0 { d with md := { d.md with debugPause := some d.time } }
    d.updAllot 0 (fun t => { t with ready := true })
  else d

/-- The pause ends: its key is discarded and the Reservoir lines written under it are abandoned; bring-up goes on at step 9. -/
def endPause (how : Nat) (d : Device) : Device :=
  let d := { d with rsv := { d.rsv with pauseKey := [], mem := [] } }
  let d := record 0xB00A 0 false how 0 0 0 { d with md := { d.md with debugPause := none } }
  d.updAllot 0 (fun t => { t with ready := false })

end Sys2Proof.Machine
end

