-- ==== Sys2Proof/Machine/Mode.lean ====
section
/-!
DEFINITION. Sys2Proof/Machine/Mode.lean: changes of mode, Retention, Maintenance, Debug, provisioning and the Base Profile (18 R368 to R382).
-/
namespace Sys2Proof.Machine

/-! ## Overlays (18 R382) -/

/-- 18 R382: a MODE_APPLY message reaches the compute die, which confirms the last one. -/
def execModeApply (s : State) : Host.Outcome State Fault Refusal :=
  s.on fun d => takeCompute (fun m => match m with
    | .modeApply m ph ts last => some (m, ph, ts, last)
    | _ => none) d (fun (m, ph, ts, last) d =>
      if d.md.change.isNone then d else
      let d := runTriples (decide (ph = 1)) m ts d
      if last then toCustody (.modeDone m ph) d else d)

/-- The mode of the change under way is entered; an admin command that asked for it completes. -/
def finishChange (c : ModeChange) (d : Device) : Device :=
  let d := modeSettled (enterMode c.target c.cause d)
  lowFlowNext (if c.byAdmin ∧ (d.adm 0).waits = .mode then admDone 0 stOk 0 0 d else d)

/-- 18 R382: MODE_DONE: the overlay left behind is reverted and the target's is applied, or the mode is entered. -/
def execModeDone (s : State) : Host.Outcome State Fault Refusal :=
  s.on fun d => takeCustody (fun m => match m with
    | .modeDone m ph => some (m, ph)
    | _ => none) d (fun (m, ph) d =>
      match d.md.change with
      | none => d
      | some c =>
        if c.phase = 2 ∧ ph = 1 ∧ m = d.md.mode.code then applyPhase c.target c.cause c.byAdmin d
        else if c.phase = 1 ∧ ph = 0 ∧ m = c.target.code then finishChange c d
        else d)

/-- 18 R382: no MODE_DONE within 1 ms: source 0xBB. -/
def execModeDoneTimeout (s : State) : Host.Outcome State Fault Refusal :=
  s.on fun d => match d.md.change with
    | some c =>
      if c.target ≠ .retention ∧ c.since + 1_000_000 ≤ d.time then unitsChanged (custodyFault 0xBB 0xFFFF 0 { d with md := { d.md with change := none } })
      else d
    | none => d

/-! ## Retention (18 R371 to R373) -/

/-- The device is idle (R371). -/
def Device.retainIdle (d : Device) : Bool :=
  decide (d.cmds = []) && decide (d.digWait = []) && d.lius.all (fun x => x.2.bound.isNone) && decide (d.migsOpen = 0) && d.ss.change.isNone &&
    (List.range 64).all (fun a => a == 0 || decide ((d.adm a).cmds = []))

/-- A mode command is refused: event MODE_REFUSED and the completion (18, Tables 18.13, 18.14). -/
def modeRefuse (op det : Nat) (d : Device) : Device := admRefuse 0 det (record 0x1002 0 false op det 0 0 d)

/-- 18 R371: RETAIN. Its completion is written at once; the entry goes on (Table 18.4). -/
def execRetain (s : State) : Host.Outcome State Fault Refusal :=
  s.on fun d => admin 0 0x0052 true [] [] d fun _ _ d =>
    if d.md.change.isSome then d
    else if d.lowFlowCond then modeRefuse 0x0052 0x50 d
    else if !d.retainIdle then modeRefuse 0x0052 0x52 d
    else
      let c : ModeChange := { target := .retention, phase := 0, cause := 1, since := d.time }
      let d := admDone 0 stOk 0 0 d
      { d with md := { d.md with change := some c } }

/-- What the power gating of the compute die leaves (Table 18.4 step 5; 04 R107): engine state, leases and unit keys are gone; contexts, queues
and the Reservoir's contents stay. -/
def powerGate (d : Device) : Device :=
  let off (g : Engine) : Engine := { g with
    arch := {}
    leases := []
    mg := {}
    resident := []
    lastAllot := none
    gone := [] }
  { d with
    engs := Tbl.mapSet {} (fun _ g => off g) (foldOver (fun e (t : Tbl Engine) => Tbl.upd {} t e off) (List.range 144) d.engs)
    rsv := { d.rsv with selfRefresh := true, keys := 0, wrapKeys := 0, saveKeys := 0, keyRegs := [] }
    cache := []
    cacheDirty := []
    fl := { d.fl with leases := [], downSince := none, sub0 := { d.fl.sub0 with up := false }, sub1 := { d.fl.sub1 with up := false } } }

/-- 18 R372: the entry steps finish. -/
def execRetentionEntered (s : State) : Host.Outcome State Fault Refusal :=
  s.on fun d => match d.md.change with
    | some c =>
      if c.target ≠ .retention then d else
      let d := revertOverlay d.md.mode.code (wsPortsOff d)
      let d := applyOverlay 4 (powerGate d)
      enterMode .retention c.cause d
    | none => d

/-- 18 R373: a host access, a configuration access or the link wakes the device; one before Retention is complete cancels its entry. -/
def execRetentionWake (source : Fin 4) (s : State) : Host.Outcome State Fault Refusal :=
  s.on fun d =>
    if d.md.mode = .retention then (if d.fl.sbStop then d else startWake source d) else cancelRetention d

/-- Step 5 of Table 18.5: mask generators, expired holds. -/
def wakeUp (d : Device) : Device :=
  let d := foldOver (fun e d => if (d.eng e).st.inService then seedEngine e d else d) (List.range 144) d
  foldOver (fun (x : Nat × Ctx) d => if x.2.st = .held ∧ x.2.holdExpiry ≤ d.time then expireCtx x.1 d else d) d.ctxs d

/-- Step 6 but for the held accesses: the mode, and event 0x1004. -/
def wakeMode (d : Device) : Device :=
  let us := (d.time - d.md.wakeFrom) / 1000
  let src := d.md.wakeSource
  let target := d.serviceOrLow
  let d := applyOverlay target.code (revertOverlay 4 d)
  let d := enterMode target 5 d
  let d := { d with md := { d.md with waking := false, lastWake := min us 8191, lowFlowNoted := false } }
  record 0x1004 0 false src us 0 0 (modeSettled d)

/-! ## Maintenance (18 R374) -/

/-- 18 R374: MAINT_ENTER inside an open SVC_N window. -/
def execMaintEnter (s : State) : Host.Outcome State Fault Refusal :=
  s.on fun d => admin 0 0x0053 true [] [] d fun _ _ d =>
    if d.md.change.isSome then d else
    let open_ := match d.lev.svcOpenUntil with
      | some t => decide (d.time < t)
      | none => false
    if !open_ then modeRefuse 0x0053 0x51 d
    else
      let d := { d with lev := { d.lev with svcOpenUntil := none } }
      admWait 0 .mode (beginChange .maintenance 1 true d)

/-- 18 R374: MAINT_EXIT. Where the mode accepts it (Table 18.1) and is not Maintenance, there is nothing to leave. -/
def execMaintExit (s : State) : Host.Outcome State Fault Refusal :=
  s.on fun d => admin 0 0x0054 true [] [] d fun _ _ d =>
    if d.md.mode ≠ .maintenance then admDone 0 stOk 0 0 d
    else if d.md.change.isSome then d
    else admWait 0 .mode (beginChange d.serviceOrLow 1 true { d with md := { d.md with lowFlowNoted := false } })

/-! ## Debug (18 R375, 19 R401) -/

def tokenLen : Nat := 4659

/-- The checks of Table 18.7: a failure's status and DETAIL. -/
def Device.tokenCheck (d : Device) (len : Nat) (t : List Byte) : Option (Nat × Nat) :=
  if len ≠ tokenLen ∨ word t 0 4 ≠ 0x5444_514B ∨ word t 4 2 ≠ 1 ∨ word t 6 2 ≠ 0 ∨ word t 28 4 ≠ 0 then some (stRefused, 0x53)
  else if word t 8 8 ≠ Config.serial.toNat ∨ word t 16 8 < d.time ∨ word t 24 4 ≠ d.md.debugCount then some (stRefused, 0x58)
  else if mldsa87 "KQ DEBUG TOKEN" d.md.ownerKey (t.take 32) (t.drop 32) ≠ 0 then some (stVerifyFalse, 3)
  else none

/-- 18 R375: DEBUG_TOKEN, its IOVA in bytes 8 to 15 and its length in bytes 16 to 19. `token` is what host memory holds there. -/
def execDebugToken (token : List Byte) (s : State) : Host.Outcome State Fault Refusal :=
  s.on fun d => admin 0 0x0055 true (wholeBytes 8 19) [] d fun e _ d =>
    let len := bytesAt e 16 4
    let n := min len tokenLen
    admRead 0 (bytesAt e 8 8) n d fun d =>
      match d.tokenCheck len (exactly n token) with
      | some (st, det) => admDone 0 st 0 det (record 0x1005 0 false det 0 0 0 d)
      | none =>
        let d := setRoots testRoot (zeros 32) { d with
          md := { d.md with debugCount := (d.md.debugCount + 1) % 2 ^ 32 }
          cis := { d.cis with testRoot := true, durOk := true, kerOk := false } }
        unitKeyStep (endPause 1 (admDone 0 stOk 0 0 d))

/-- 19 R401: the pause ends after 60 s: the DUR is rebuilt. -/
def execDebugPauseExpire (found : BootFind) (s : State) : Host.Outcome State Fault Refusal :=
  s.on fun d => match d.md.debugPause with
    | some t => if t + 60_000_000_000 ≤ d.time then unitKeyStep (installDur found (endPause 2 d)) else d
    | none => d

/-! ## Provisioning (18 R376, R377) -/

/-- A new KER is drawn, as two shares, and the master key and the check value follow from it (13 R264, R266). -/
def drawKer (d : Device) : Device :=
  let k := d.custodyRandom 32
  let a := k.2.custodyRandom 32
  let d := setRoots d.cis.dur k.1 { a.2 with cis := { a.2.cis with kerA := a.1, kerB := xorBytes k.1 a.1 } }
  { d with cis := { d.cis with kerCheck := d.kerCheckValue } }

/-- 18 R376: PROVISION. `key` is the owner key in host memory. It waits for ENTROPY_READY. Its completion follows the reload of every unit key
under the new MK (19 R402). -/
def execProvision (key : List Byte) (s : State) : Host.Outcome State Fault Refusal :=
  s.on fun d => admin 0 0x0050 true (wholeBytes 8 23) [] d fun e _ d =>
    if d.md.mode = .provisioning ∧ d.md.owner then modeRefuse 0x0050 0x57 d
    else if !d.boot.entropyReady then d
    else admRead 0 (bytesAt e 8 8) 2592 d fun d =>
      let dig := sha3_256 (exactly 2592 key)
      let was := d.md.mode
      let d := { d with
        md := { d.md with
          owner := true
          ownerDigest := dig
          ownerKey := exactly 2592 key
          copies := []
          profFloor := 0
          prof := none
          profPending := none }
        cis := { d.cis with
          kerPresent := true
          kerOk := true
          slots := Tbl.mapSet {} (fun _ (x : CisSlot) => if x.attr.persistent then { x with unreadable := true } else x) d.cis.slots }
        ss := { d.ss with rootOk := false } }
      let d := drawKer d
      -- What occurs between the new device time and its next whole second is limited and summed as one interval that ends there (DESIGN CHOICE,
      -- assumption 126).
      let d := endSecond d
      let now := bytesAt e 16 8
      let d := { d with time := now, second := now / 1_000_000_000, lastSweep := now / 100_000_000, lev := { d.lev with rtcNs := now } }
      let d := { d with rsv := { d.rsv with keys := 0, wrapKeys := 0, saveKeys := 0 } }
      let d := sendUnitKeys (if was = .provisioning then d else modeSettled (enterMode .provisioning 1 d))
      admWait 0 .unitKeys (record 0xA004 0 false (dig.toNat % 2 ^ 32) 0 0 0 d)

/-! ## The Base Profile (18 R379, R380) -/

/-- 18 R379: PROFILE_LOAD. `image` is the profile in host memory. What passes every check is committed, the Maintenance overlay reverted and
every gate closed; the rest of Table 18.10 follows. -/
def execProfileLoad (image : List Byte) (s : State) : Host.Outcome State Fault Refusal :=
  s.on fun d => admin 0 0x0051 true (wholeBytes 8 19) [] d fun e _ d =>
    if d.md.mode = .provisioning ∧ !d.md.owner then modeRefuse 0x0051 0x50 d
    else if d.md.change.isSome then d
    else
      let len := bytesAt e 16 4
      let n := min len 196609
      admRead 0 (bytesAt e 8 8) n d fun d =>
        match d.profCheck (exactly n image) with
        | .error (st, r) => admDone 0 st 0 r.detail (record 0xA002 0 false r.detail r.section_ r.record_ 0 d)
        | .ok p =>
          let d := commitProfile p d
          let d := if d.md.mode = .maintenance then revertOverlay 5 d else d
          admWait 0 .profile (foldOver closeGate (List.range 84) d)

/-- The stored copy applied at bring-up: the valid one of higher generation (18 R380). -/
def Device.bestProfile (d : Device) (bad : Nat → Bool) : Option Profile :=
  let good := (d.md.copies.zipIdx.filter (fun x => !bad x.2)).map (fun x => x.1)
  leastBy (fun (p : Profile) => 2 ^ 64 - p.gen) good

/-- A copy that fails its tag is logged (18 R380). -/
def logBadCopies (bad : Nat → Bool) (d : Device) : Device :=
  foldOver (fun (x : Profile × Nat) d => if bad x.2 then record 0xA003 0 false x.2 0 0 0 d else d) d.md.copies.zipIdx d

/-- Steps 4 to 6 of Table 18.10 for a profile loaded by PROFILE_LOAD: applied, locked, gates reopened, the overlay and the mode. -/
def applyLoaded (p : Profile) (d : Device) : Device :=
  let d := applyProfile p d
  let d := foldOver openGate (List.range 84) (foldOver (fun g d => d.updGate g (fun t => { t with close := true })) (List.range 84) d)
  let d := recordProfile p d
  let d := if d.md.mode = .provisioning then enterWhole d.serviceOrLow 1 d else applyOverlay d.md.mode.code d
  admDone 0 stOk 0 p.version d

/-- 18 R380: a committed profile is applied once every gate is drained; at bring-up the stored one is, or none (19, Table 19.3 step 11).
`bad` names the stored copies that fail their tag. -/
def execProfileApplied (bad : BitVec 2) (s : State) : Host.Outcome State Fault Refusal :=
  s.on fun d =>
    if d.md.mode = .bringup ∨ (d.md.mode = .debug ∧ !d.boot.serviceReady) then
      if d.boot.stepReached ≠ 10 ∨ !d.boot.unitsTested then d else
      let isBad (i : Nat) : Bool := bad.getLsbD i
      let d := logBadCopies isBad d
      let reached (d : Device) : Device := { d with boot := { d.boot with stepReached := 11 } }
      if !d.md.owner || !(d.cis.kerOk || d.cis.testRoot) then reached d
      else match d.bestProfile isBad with
        | none => reached d
        | some p => reached (recordProfile p (applyProfile p d))
    else match d.md.profPending with
      | some p => if (List.range 84).all (fun g => d.gateQuiet g) then applyLoaded p d else d
      | none => d

end Sys2Proof.Machine
end

