-- ==== Sys2Proof/Machine/Bringup.lean ====
section
/-!
DEFINITION. Sys2Proof/Machine/Bringup.lean: power, resets, the steps of the bring-up and failures of the host link (19 R388 to R402; 02 R53).
-/
namespace Sys2Proof.Machine

/-! ## Power and resets (19 R388 to R391) -/

/-- The device stops: POWER_DOWN is recorded, both dies are reset; a ZEROIZE_ALL under way goes on at the next power-up (19 R389; 16, Table
16.5). -/
def stopDies (d : Device) : Device :=
  let zr := d.lev.zeroizing && d.lev.zeroizeAll
  let d := record 0xB00B 0 false (d.time % 2 ^ 32) 0 0 0 { d with fl := { d.fl with sbStop := true } }
  let d := bothReset d
  { d with lev := { d.lev with zaResume := d.lev.zaResume || zr } }

/-- Straps are sampled and the sequence starts (19 R388). -/
def powerStart (cause : Nat) (debugEn : Bool) (d : Device) : Device :=
  startBringup cause 1 { d with md := { d.md with debugStrap := debugEn } }

/-- 19 R388: PWRGOOD rises. A TEST ball that is high then holds the custody die in reset, and no bring-up starts (20 R406). -/
def execPwrgoodRise (debugEn : Bool) (test : BitVec 4) (s : State) : Host.Outcome State Fault Refusal :=
  s.on fun d =>
    if d.boot.pwrgood then d else
    let d := { d with boot := { d.boot with pwrgood := true, testHeld := decide (test ≠ 0), rails := 0x1FF } }
    if d.boot.resetN ∧ test = 0 then powerStart causePower debugEn d else { d with lev := { d.lev with onBattery := false } }

/-- Power has gone: the battery island takes over (19 R389, 16 R341). -/
def powerGone (d : Device) : Device :=
  if !d.boot.pwrgood then d else
  let d := if d.boot.resetN ∧ !d.boot.testHeld then stopDies d else d
  { d with
    boot := { d.boot with pwrgood := false, testHeld := false, rootLock := false, cusClk := false, rails := d.boot.rails - d.boot.rails % 256 }
    lev := { d.lev with onBattery := true }
    brd := {} }

/-- 19 R389: PWRGOOD falls. -/
def execPwrgoodFall (s : State) : Host.Outcome State Fault Refusal := s.on powerGone

/-- 19 R389: power fails without warning, with the same effects. -/
def execPowerLoss (s : State) : Host.Outcome State Fault Refusal := s.on powerGone

/-- 19 R390: RESET_N has been low for 1 µs. -/
def execResetNAssert (s : State) : Host.Outcome State Fault Refusal :=
  s.on fun d =>
    if !d.boot.resetN then d else
    let d := if d.boot.pwrgood ∧ !d.boot.testHeld then stopDies d else d
    { d with boot := { d.boot with resetN := false } }

/-- 19 R390, R388: RESET_N rises. -/
def execResetNRelease (debugEn : Bool) (s : State) : Host.Outcome State Fault Refusal :=
  s.on fun d =>
    if d.boot.resetN then d else
    let d := { d with boot := { d.boot with resetN := true } }
    if d.boot.pwrgood ∧ !d.boot.testHeld then powerStart causeResetN debugEn d else d

/-- 19 R391: PERST_N falls, or a Hot Reset or Link Disable begins. After SERVICE_READY the compute die is stopped, cleared and held in reset;
before, only the endpoint and its link are. -/
def execPerstNAssert (s : State) : Host.Outcome State Fault Refusal :=
  s.on fun d =>
    let d := { d with boot := { d.boot with
      perstN := false
      pcieLink := false
      pcieLock := false
      linkState := 0
      configReady := false } }
    if d.boot.serviceReady then
      let d := assertClear { d with fl := { d.fl with sbStop := true } }
      let d := logLeaves (computeReset (intoBringup d))
      { d with boot := { d.boot with perstHold := true } }
    else d

/-- 19 R390: PERST_N rises: bring-up goes on from step 3, or the link trains. -/
def execPerstNRelease (s : State) : Host.Outcome State Fault Refusal :=
  s.on fun d =>
    let d := { d with boot := { d.boot with perstN := true } }
    if d.boot.perstHold then { d with boot := { d.boot with
      perstHold := false
      resetCause := causePerst
      attempt := 1
      began := d.time
      stepReached := 2
      doneUs := 0 } }
    else d

/-! ## The host link (02 R53) -/

/-- It fails with cause 5; a notice stays at the head of the held ones (02 R55). -/
def writeLost (w : LostWrite) (d : Device) : Device := match w with
  | .completion a n addr => cqError a n 5 addr.toNat d
  | .writeBack a n addr => sqError a n 5 addr.toNat d
  | .admin a cq addr => admError a cq 5 addr.toNat d
  | .notice a addr rec =>
    let d := d.updNtc a (fun r => { r with error := true, held := rec :: r.held })
    recordCompute 0x7003 a false 0x0002_0000 5 (addr.toNat % 2 ^ 32) (addr.toNat / 2 ^ 32) d

/-- Lost notices go back to the head of the held ones, the last first, so that their order stays (02 R55). -/
def lostOrder (l : List LostWrite) : List LostWrite :=
  let ntc (w : LostWrite) : Bool := match w with
    | .notice _ _ _ => true
    | _ => false
  l.filter (fun w => !ntc w) ++ (l.filter ntc).reverse

/-- 02 R53: the link goes down, or retrains, and loses writes that were not acknowledged. -/
def execPcieLinkLoss (down : Bool) (lost : List LostWrite) (s : State) : Host.Outcome State Fault Refusal :=
  s.on fun d =>
    if !d.boot.pcieLink then d else
    let d := if down then { d with boot := { d.boot with pcieLink := false, linkState := 0 } } else d
    settleAdmin (foldOver writeLost (lostOrder lost) d)

/-- 02 R53: a read that the device issued gets no completion: the queue of a burst enters ERROR with cause 4, an input read ends its command;
source 0x68 is raised. -/
def execPcieCompletionTimeout (a : Fin 64) (q : Option (Fin 1024)) (k : Option (Fin 4096)) (s : State) : Host.Outcome State Fault Refusal :=
  s.on fun d =>
    if d.stopped then d else
    let late (d : Device) : Device := settleAdmin (raiseFault 0x68 0xFFFF none 0 d)
    match k with
    | some k => (match d.cmd k with
      | some c => if c.phase = .ready ∧ !c.inDone then late (haltWith k stAccess (violationDetail 1 0xFFFF 0 false) 0 d) else d
      | none => d)
    | none => match q with
      | some n =>
        let t := d.sq a n
        if t.burst = 0 then d else late (sqError a n 4 (t.base + 64 * t.fetchIdx) (d.updSq a n (fun t => { t with burst := 0 })))
      | none =>
        let t := d.adm a
        if t.burst = 0 then d else late (admError a false 4 (t.sqBase + 64 * t.fetchIdx) d)

/-! ## Steps of the bring-up (19, Table 19.3) -/

/-- A Fatal fault has stopped the custody die's boot: it stops at step 4 where the firmware fails authentication (19, Table 19.5a). -/
def Device.bootStopped (d : Device) : Bool := match d.flt.fatal with
  | some f => decide (f.stage ≠ 4)
  | none => false

/-- The custody die runs. -/
def Device.custodyUp (d : Device) : Bool := d.boot.pwrgood && d.boot.resetN && !d.boot.custodyReset

/-- Step 3: the root PLL locks; the compute die leaves reset and CUS_CLK is forwarded. -/
def execRootPllLock (s : State) : Host.Outcome State Fault Refusal :=
  s.on fun d =>
    if d.custodyUp && d.boot.computeReset && !d.boot.perstHold then
      { d with
        boot := { d.boot with
          computeReset := false
          rootLock := true
          cusClk := true
          stepReached := max d.boot.stepReached 3 }
        fl := { d.fl with fallback := false, presentCompute := true } }
    else d

/-- Step 4: the boot ROM has read the fuses and authenticated the firmware; the roots are derived, or deferred for a debug pause. -/
def execCustodyBooted (found : BootFind) (s : State) : Host.Outcome State Fault Refusal :=
  s.on fun d =>
    if !d.custodyUp || d.boot.cusReady || d.bootStopped then d else
    let deferred := d.md.debugStrap && d.md.owner
    let d := { d with boot := { d.boot with cusReady := true } }
    let d := if deferred then d else installDur found d
    let how := if deferred then 1 else if d.cis.durOk then 0 else 2
    let d := record 0xB002 0 false Config.firmwareVersion.toNat how 0 0 d
    pauseCheck (unitKeyStep (logLeaves d))

/-- The Flume key of a full training (01 R11): KMAC256 from the pairing key, the boot counter (64 bits little-endian), the custody die identifier and the compute
die identifier, with customization "KQ FLUME KEY". -/
def flumeKey (boot : Nat) : List Byte :=
  kmac256 Config.pairKey (toBytes 8 boot ++ Config.custodyDie ++ Config.computeDie) 32 (ascii "KQ FLUME KEY")

/-- Step 5: full training is complete on the sublinks named; the Flume key and the key of each direction are derived; heartbeats start. -/
def execFlumeTrained (s0 s1 : Bool) (s : State) : Host.Outcome State Fault Refusal :=
  s.on fun d =>
    if !d.inTraining || !d.fl.training || !d.fl.trainSeen || !(s0 || s1) then d else
    let up (b : Bool) (x : Sublink) : Sublink := { x with up := b, lastRx := d.time, lastRxCompute := d.time }
    let key := flumeKey d.fl.boot
    let d := { d with
      fl := { d.fl with
        trained := true
        training := false
        trainSeen := false
        key := key
        keyC2K := kdfKmac key (ascii "C2K") [] 32
        keyK2C := kdfKmac key (ascii "K2C") [] 32
        computeTime := d.time
        toCustody := []
        toCompute := []
        seqCustody := 0
        seqCompute := 0
        rxCustody := 0
        rxCompute := 0
        sub0 := up s0 d.fl.sub0
        sub1 := up s1 d.fl.sub1
        downSince := none
        lastBeat := d.time }
      boot := { d.boot with flumeUp := true, stepReached := max d.boot.stepReached 5 } }
    unitKeyStep (record 0xB003 0 false (d.fl.boot % 2 ^ 32) (b2n s0 + b2n s1) 0 0 d)

/-- The sources as their start-up tests left them (12, Table 12.3 steps 2, 3), when they have not been judged yet. -/
def judgeSources (main fb : Bool) (d : Device) : Device :=
  let w := d.whd
  if w.main.inService || w.main.retired || w.fb.inService || w.fb.retired then d else
  { d with whd := { w with
    main := { w.main with inService := main, retired := !main }
    fb := { w.fb with inService := fb, retired := !fb } } }

/-- The instances that pass are instantiated from the pool, which is full; those that fail are fenced (12 R257, R258). -/
def startInstances (bad : BitVec 16) (d : Device) : Device :=
  let d := foldOver (fun n d =>
    if (d.drbg n).st = 3 then d
    else if bad.getLsbD n then noteFenced 3 n 0 false (fenceDrbg n d)
    else seedDrbg n (d.updDrbg n (fun g => { g with st := 0 }))) (List.range 16) d
  { d with whd := { d.whd with pool := 4096 } }

/-- Step 6; 12 R257: the Wellhead's start-up is complete. Without a source in service ENTROPY_READY stays clear and 0x5005 is logged. -/
def execEntropyReady (main fb : Bool) (bad : BitVec 16) (s : State) : Host.Outcome State Fault Refusal :=
  s.on fun d =>
    if !d.custodyUp || d.boot.entropyReady then d else
    let d := judgeSources main fb d
    let d := { d with whd := { d.whd with feed := d.feedNow } }
    if !d.sourceUp then reviewSources 0 d
    else
      let d := sourcesChanged (startInstances bad d)
      if !d.someInstance then d else
      let d := { d with boot := { d.boot with entropyReady := true } }
      let d := record 0x5001 0 false (b2n d.whd.main.inService + 2 * b2n d.whd.fb.inService) d.instances 0 0 d
      let d := if d.boot.cdReady then foldOver (fun e d => if (d.eng e).st.inService then seedEngine e d else d) (List.range 144) d else d
      serveDrbgs (pauseCheck d)

/-- A unit that fails its bring-up test is fenced. -/
def failUnit (cls i : Nat) (d : Device) : Device := noteFenced cls i 0 false d

/-- Engines, spares and fences of a Lateral (19, Table 19.3 step 7): working engines serve, lowest first, up to the exposed count; the rest are
spares. -/
def setLateral (l : Nat) (d : Device) : Device :=
  let good := (enginesOf l).filter (fun e => !(d.unit 0 e).fenced)
  let serve := good.take (exposed d.part)
  foldOver (fun e d =>
    let st := if serve.contains e then EngState.idle else if good.contains e then EngState.spare else EngState.fenced
    d.updEng e (fun g => { g with st := st })) (enginesOf l) d

/-- Step 7: the unit tests finish: units that fail, or are retired, are fenced; CD_READY sets, ALIVE starts, mask generators are seeded. -/
def execUnitsTested (engs : BitVec 144) (lius : BitVec 32) (digs : BitVec 8) (s : State) : Host.Outcome State Fault Refusal :=
  s.on fun d =>
    if !d.boot.flumeUp || d.boot.unitsTested || d.boot.computeReset || !d.boot.cusReady then d else
    let fence (cls n : Nat) (bad : Nat → Bool) (d : Device) : Device :=
      foldOver (fun i d => if bad i || (d.unit cls i).retired then failUnit cls i d else d) (List.range n) d
    let d := fence 0 144 (fun i => engs.getLsbD i) d
    let d := fence 1 32 (fun i => lius.getLsbD i) d
    let d := fence 2 8 (fun i => digs.getLsbD i) d
    let d := foldOver (fun i d => if (d.unit 2 i).fenced then d.updDig i (fun g => { g with st := 2 }) else d) (List.range 8) d
    let d := foldOver setLateral (List.range 16) d
    let d := { d with
      boot := { d.boot with cdReady := true, unitsTested := true }
      flt := { d.flt with alive := true, aliveRuns := true, fatal := none }
      fl := { d.fl with lastBeat := d.time } }
    let d := if d.boot.entropyReady then foldOver (fun e d => if (d.eng e).st.inService then seedEngine e d else d) (List.range 144) d else d
    let count (p : EngState → Bool) : Nat := countWhere (fun e => p (d.eng e).st) (List.range 144)
    let fenced := countWhere (fun i => (d.unit 0 i).fenced) (List.range 144) + countWhere (fun i => (d.unit 1 i).fenced) (List.range 32) +
      countWhere (fun i => (d.unit 2 i).fenced) (List.range 8)
    lowFlowCheck (record 0xB005 0 false (count EngState.inService) (count (fun s => decide (s = .spare))) fenced 0 d)

/-- Step 8: the Reservoir's training and self-test are complete. -/
def execReservoirTrained (us badPages : BitVec 32) (s : State) : Host.Outcome State Fault Refusal :=
  s.on fun d =>
    if !d.boot.flumeUp || d.boot.rsvReady || d.boot.computeReset then d else
    let d := { d with
      rsv := { d.rsv with trained := true }
      boot := { d.boot with rsvReady := true } }
    unitKeyStep (record 0xB004 0 false us.toNat badPages.toNat 0 0 d)

/-- The SRL copy to load: the one of higher generation that verifies (19 R395). -/
def Device.bestSrl (d : Device) (bad : Nat → Bool) : Option (Nat × Nat × Nat) :=
  leastBy (fun (x : Nat × Nat × Nat) => 2 ^ 64 - x.1) ((d.boot.srl.zipIdx.filter (fun x => !bad x.2)).map (fun x => (x.1.1, x.1.2, x.2)))

/-- Step 10: the SRL bundle is verified and written; `bad` names the copies that fail. -/
def execSrlLoaded (bad : BitVec 2) (s : State) : Host.Outcome State Fault Refusal :=
  s.on fun d =>
    if !d.keysLoaded || !d.boot.unitKeys || 10 ≤ d.boot.stepReached || d.boot.serviceReady then d else
    let d := foldOver (fun i d => if bad.getLsbD i then record 0xB00C 0 false i 0 0 0 d else d) (List.range 2) d
    let d := { d with boot := { d.boot with stepReached := 10 } }
    match d.bestSrl (fun i => bad.getLsbD i) with
    | none => d
    | some (g, v, i) => record 0xB006 0 false v i g 0 { d with boot := { d.boot with srlReady := true, srlVersion := v } }

/-- Step 12: the mode that Table 18.2 gives. -/
def Device.bootMode (d : Device) : Mode :=
  if d.cis.testRoot then .debug
  else if d.md.owner && !d.cis.kerOk then .quarantine
  else if !d.md.owner || d.md.prof.isNone then .provisioning
  else d.serviceOrLow

/-- Step 12: the mode is decided, READY and SERVICE_READY set. -/
def execServiceReady (s : State) : Host.Outcome State Fault Refusal :=
  s.on fun d =>
    if d.boot.stepReached < 11 || d.boot.serviceReady || !d.boot.unitsTested || d.boot.fail || d.flt.fatal.isSome then d else
    let us := min ((d.time - d.boot.began) / 1000) 0xFFFF_FFFF
    let d := { d with boot := { d.boot with serviceReady := true, doneUs := us } }
    let m := d.bootMode
    let d := if d.md.mode = m then modeSettled d else enterWhole m 0 d
    record 0xB008 0 false m.code us 0 0 d

/-- Step 13: the PCIe link is up, at a speed in GT/s and a width. -/
def execConfigReady (speed : BitVec 8) (width : Fin 17) (s : State) : Host.Outcome State Fault Refusal :=
  s.on fun d =>
    if !d.boot.cusReady || !d.boot.perstN || d.boot.pcieLink || d.boot.computeReset then d else
    let first := !d.boot.configReady
    let d := { d with boot := { d.boot with
      configReady := true
      pcieLink := true
      pcieLock := true
      linkState := speed.toNat + width.val * 256
      vfEnable := d.boot.vfEnable || first
      numVfs := if first then 63 else d.boot.numVfs } }
    if first then pauseCheck (record 0xB007 0 false speed.toNat width 0 0 d) else d

/-- 20 R411: a droop of VDD_CD: the clocks stretch; a Corrected fault. -/
def execDroop (s : State) : Host.Outcome State Fault Refusal :=
  s.on fun d =>
    if d.boot.computeReset then d else
    raiseFault 0x8A 0xFFFF none 0 ({ d with boot := { d.boot with droop := true } }.bump 0x0001_000C)

end Sys2Proof.Machine
end

