-- ==== Sys2Proof/Machine/Cistern.lean ====
section
/-!
DEFINITION. Sys2Proof/Machine/Cistern.lean: the key-management and Sealed Store admin commands (13 R284, R285) and the timeout of a block
exchange (13 R283, Table 13.14).
-/
namespace Sys2Proof.Machine

/-! ## KEY_ALLOC -/

/-- The attribute block that KEY_ALLOC's bytes 12 to 23 spell: STATE 1, allocated and empty. -/
def allocAttr (e : Entry) : KeyAttr :=
  let f := bytesAt e 13 1
  { usage := field (bytesAt e 12 1) 3 0
    maskOrder := field f 1 0
    stateful := bitOf f 2
    exportable := bitOf f 3
    deterministicOk := bitOf f 4
    persistent := bitOf f 5
    allotBound := bitOf f 6
    allot := field (bytesAt e 14 1) 5 0
    st := 1
    family := bytesAt e 16 1
    variant := bytesAt e 17 1
    paramSet := field (bytesAt e 18 1) 5 0
    extra := bytesAt e 20 4 }

/-- Reserved bits of the attribute bytes, STATE and LEN are zero. -/
def attrClean (e : Entry) : Bool :=
  decide (field (bytesAt e 12 1) 7 4 = 0) && !bitOf (bytesAt e 13 1) 7 && decide (field (bytesAt e 14 1) 7 6 = 0) &&
    decide (bytesAt e 15 1 = 0) && decide (field (bytesAt e 18 1) 7 6 = 0) && decide (bytesAt e 19 1 = 0)

/-- A key kind of Table 9.2 with a usage that Table 13.16a gives. -/
def KeyAttr.kindOk (a : KeyAttr) : Bool :=
  (kindUsages a.family a.paramSet).contains a.usage && (decide (a.variant = 0) || (decide (a.family = 5) && decide (a.variant = 1))) &&
    extraOk a.usage a.family a.variant a.paramSet a.extra

/-- The conditions of DETAIL 0x31. -/
def KeyAttr.flagsBad (a : KeyAttr) (store : Bool) : Bool :=
  let tree := decide (a.family = 4) || decide (a.family = 5)
  (a.stateful && (!a.persistent || a.usage != 6 || !tree || a.exportable)) || (decide (a.usage = 6) && tree && !a.stateful) ||
    (a.allotBound && a.allot != 0) || (store && (!a.persistent || a.stateful))

/-- Cistern slots that allotment n holds (13, Table 13.18 CIS_USED). -/
def Device.cisUsed (d : Device) (n : Nat) : Nat := countWhere (fun x => decide (x.2.attr.st ≠ 0) && decide (x.2.attr.allot = n)) d.cis.slots
/-- Objects of allotment n (13, Table 13.19 KST_OBJECTS). -/
def Device.objCount (d : Device) (n : Nat) : Nat := countWhere (fun x => decide (x.1 / 2 ^ 25 = n)) d.ss.objs

/-- The lowest free object index of allotment n. -/
def Device.freeObj (d : Device) (n : Nat) : Option Nat :=
  (Tbl.lowestFree d.ss.objs (n * 2 ^ 25) (2 ^ 25)).map (fun k => k % 2 ^ 25)

/-- The index that KEY_ALLOC takes: the one named, or the lowest free; `none` when the named one is in use or out of range. -/
def Device.allocIndex (d : Device) (store : Bool) (n want : Nat) : Option (Option Nat) :=
  if want = 0xFFFF_FFFF then some (if store then d.freeObj n else Tbl.lowestFree d.cis.slots 0 4096)
  else if store then (if 2 ^ 25 ≤ want ∨ (Tbl.find d.ss.objs (n * 2 ^ 25 + want)).isSome then none else some (some want))
  else if 4096 ≤ want ∨ (Tbl.find d.cis.slots want).isSome then none else some (some want)

/-- The refusal of KEY_ALLOC, by the order of R285; 0 none. -/
def Device.allocRefusal (d : Device) (a : Nat) (e : Entry) : Nat :=
  let t := allocAttr e
  let store := bitOf (bytesAt e 4 1) 0
  if d.md.mode = .debug ∧ (t.persistent ∨ store) then 0x36
  else if a ≠ 0 ∧ t.allot ≠ a then 0x34
  else if !attrClean e ∨ !t.kindOk then 0x30
  else if t.flagsBad store then 0x31
  else if (store ∨ t.stateful) ∧ !d.ss.attached then 0x35
  else match d.allocIndex store t.allot (bytesAt e 8 4) with
    | none => 0x32
    | some none => 0x33
    | some (some _) =>
      if !store ∧ (d.allot t.allot).cisQuota ≤ d.cisUsed t.allot then 0x33
      else if (store ∨ t.stateful) ∧ (2 ^ 25 ≤ d.objCount t.allot) then 0x33
      else 0

/-- An object without material. -/
def emptyObj (t : KeyAttr) (tree : Bool) : SsObj := { attr := t, units := 1, tree := tree }

/-- 13 R284: KEY_ALLOC. -/
def execKeyAlloc (a : Fin 64) (s : State) : Host.Outcome State Fault Refusal :=
  s.on fun d => admin a 0x0030 false ((4, 1) :: wholeBytes 8 23) [] d fun e _ d =>
    let t := allocAttr e
    let store := bitOf (bytesAt e 4 1) 0
    let c := d.allocRefusal a e
    if c ≠ 0 then admRefuse a c d else
    match d.allocIndex store t.allot (bytesAt e 8 4) with
    | some (some i) =>
      if store then
        if !d.ssIdle then d else
        (match ssBegin [(t.allot * 2 ^ 25 + i, emptyObj t false)] [] [] (.admin a (objHandle t.allot i)) (admWait a .exchange d) with
         | some d => d
         | none => admRefuse a 0x33 d)
      else if d.slotWaits t then d
      else if t.stateful then
        if !d.ssIdle then d else
        (match d.freeObj t.allot with
         | none => admRefuse a 0x33 d
         | some k =>
           let slot : CisSlot := { attr := t, tree := k }
           match ssBegin [(t.allot * 2 ^ 25 + k, emptyObj t true)] [] [(i, slot, [])] (.admin a (cisHandle t.allot i)) (admWait a .exchange d) with
           | some d => d
           | none => admRefuse a 0x33 d)
      else admDone a stOk 0 (cisHandle t.allot i) (writeSlot i { attr := t } d)
    | _ => admRefuse a 0x33 d

/-! ## KEY_DESTROY, KEY_QUERY, KEY_RESTRICT -/

/-- A command on a handle (13 R284, R267, R272): the key is allocated to the issuing allotment, or allotment 0 issues; in Debug mode a
persistent one is absent; an unreadable slot answers only KEY_DESTROY; an object, and a key with a tree object that the command changes,
need an attached store. -/
def onKey (a h : Nat) (destroy changes : Bool) (d : Device) (k : KeyAttr → Device → Device) : Device :=
  match d.keyAttr h with
  | none => admDone a stKeyAbsent 0 1 d
  | some t =>
    if a ≠ 0 ∧ t.allot ≠ a then admDone a stKeyAbsent 0 1 d
    else if d.md.mode = .debug ∧ t.persistent then admDone a stKeyAbsent 0 4 d
    else if !handleStore h && (d.slot (handleSlot h)).unreadable && !destroy then admDone a stKeyAbsent 0 2 d
    else if changes && (handleStore h || t.stateful) && !d.ss.attached then admRefuse a 0x35 d
    else k t d

/-- 13 R284, R276, 01 R16: KEY_DESTROY; it completes after KEY_REVOKE_ACK. A target whose creation is pending is waited for. -/
def execKeyDestroy (a : Fin 64) (s : State) : Host.Outcome State Fault Refusal :=
  s.on fun d => admin a 0x0031 false (wholeBytes 4 7) [] d fun e _ d =>
    let h := bytesAt e 4 4
    onKey a h true true d fun t d =>
      if t.st = 2 then d
      else if handleStore h then
        if !d.ssIdle then d else
        (match ssBegin [] [objKey h] [] (.revoke a h true) (admWait a .exchange d) with
         | some d => d
         | none => d)
      else if t.stateful then
        if !d.ssIdle then d else
        (match ssBegin [] [t.allot * 2 ^ 25 + (d.slot (handleSlot h)).tree] [(handleSlot h, {}, [])] (.revoke a h true) (admWait a .exchange d) with
         | some d => d
         | none => d)
      else revokeKey a h (keyGone h (writeSlot (handleSlot h) {} d))

/-- Leaves that this device may still issue from a stateful key (13 R284; 09 R209). -/
def Device.leavesLeft (d : Device) (h : Nat) (t : KeyAttr) : Nat :=
  if !t.stateful then 0 else match d.homeOf h with
    | some _ => (d.grantOf h).left
    | none => leafLimit t - t.nextLeaf

/-- The 64-byte result of KEY_QUERY. -/
def Device.keyRecord (d : Device) (h : Nat) (t : KeyAttr) : List Byte :=
  let s := d.slot (handleSlot h)
  let gen := if handleStore h then (match Tbl.find d.ss.objs (objKey h) with
    | some o => o.gen
    | none => 0) else s.gen
  let ok (c : Nat) : Bool := !s.unreadable && (decide (s.copy = c) || (s.other.isSome && !s.copyBad))
  let valid := if handleStore h then 0 else if t.persistent then b2n (ok 0) + 2 * b2n (ok 1) else 4 * b2n (!s.unreadable)
  let tree := if t.stateful ∧ !handleStore h then objHandle t.allot s.tree else 0
  t.block ++ toBytes 4 gen ++ toBytes 4 valid ++ toBytes 8 (d.leavesLeft h t) ++ toBytes 4 tree ++ zeros 28

/-- 13 R284: KEY_QUERY. -/
def execKeyQuery (a : Fin 64) (s : State) : Host.Outcome State Fault Refusal :=
  s.on fun d => admin a 0x0032 false (wholeBytes 4 15) [(8, 64)] d fun e _ d =>
    let h := bytesAt e 4 4
    onKey a h false false d fun t d =>
      admResult a (bytesAt e 8 8) (d.keyRecord h t) d (admDone a stOk 64 0)

/-- 13 R284, R285: KEY_RESTRICT; MASK_ORDER only rises. -/
def execKeyRestrict (a : Fin 64) (s : State) : Host.Outcome State Fault Refusal :=
  s.on fun d => admin a 0x0033 false (wholeBytes 4 7 ++ [(8, 3), (9, 255)]) [] d fun e _ d =>
    let h := bytesAt e 4 4
    let o := bytesAt e 9 1
    onKey a h false (handleStore h) d fun t d =>
      if o ≠ 0xFF ∧ (3 < o ∨ o < t.maskOrder) then admRefuse a 0x30 d
      else
        let t := { t with
          maskOrder := if o = 0xFF then t.maskOrder else o
          exportable := t.exportable && !bitOf (bytesAt e 8 1) 0
          deterministicOk := t.deterministicOk && !bitOf (bytesAt e 8 1) 1 }
        if handleStore h then
          if !d.ssIdle then d else
          match Tbl.find d.ss.objs (objKey h) with
          | none => d
          | some x =>
            (match ssBegin [(objKey h, d.resealObj (objKey h) { x with attr := t, gen := x.gen + 1 })] [] [] (.revoke a h false) (admWait a .exchange d) with
             | some d => d
             | none => admRefuse a 0x33 d)
        else if t.persistent ∧ genMax ≤ (d.slot (handleSlot h)).gen then admRefuse a 0x37 d
        else if d.slotWaits t then d
        else revokeKey a h (writeSlot (handleSlot h) { d.slot (handleSlot h) with attr := t } d)

/-! ## The Sealed Store -/

/-- Requests that waited for blocks of a store that NEW replaces: their objects are gone (13 R273, Table 13.8). -/
def lostRequests (ws : List SsWait) (d : Device) : Device :=
  foldOver (fun (w : SsWait) d => match d.keyCheck w.op w.req with
    | .refuse st det => refuseWait w st det d
    | .pass _ => d) ws d

/-- 13 R284, R285: SS_ATTACH. -/
def execSsAttach (s : State) : Host.Outcome State Fault Refusal :=
  s.on fun d => admin 0 0x0038 true (wholeBytes 4 17 ++ [(18, 1)]) [(8, 4096)] d fun e _ d =>
    let blocks := bytesAt e 4 4
    let n := bytesAt e 16 2
    let new := bitOf (bytesAt e 18 1) 0
    if d.md.mode = .debug then admRefuse 0 0x36 d
    else if blocks < 2 ^ 16 ∨ 2 ^ 30 < blocks ∨ n < 16 ∨ 1024 < n ∨ (!new ∧ blocks ≠ d.ss.blocks) then admRefuse 0 0x39 d
    else if !d.ssIdle then d
    else
      let dc := dataBlocksOf blocks
      let ws := d.ss.waiting
      let ss := if new then { rootOk := true, blocks := blocks, dataBlocks := dc } else d.ss
      let d := { d with ss := { ss with
        attached := true
        iova := bytesAt e 8 8
        nslots := n
        xslots := []
        slotsHigh := 0
        toSend := ss.batch } }
      let d := if new then lostRequests ws d else d
      admDone 0 stOk 0 dc (fetchWaiting (sendBatch d))

/-- Requests that wait for block b fail (13, Table 13.14). -/
def blockLost (b : Nat) (d : Device) : Device :=
  let ws := d.ss.waiting.filter (fun w => w.block = b)
  let d := { d with ss := { d.ss with waiting := d.ss.waiting.filter (fun w => w.block ≠ b) } }
  foldOver (fun (w : SsWait) d => refuseWait w stKeyAbsent 3 d) ws d

/-- A block came in: a node block enters the node cache; each request that waits for it goes on to its next block, or is served. -/
def blockCame (b : Nat) (d : Device) : Device :=
  let d := if d.ss.dataBlocks ≤ b then cacheNodes [b] d else d
  let ws := d.ss.waiting.filter (fun w => w.block = b)
  let d := { d with ss := { d.ss with waiting := d.ss.waiting.filter (fun w => w.block ≠ b) } }
  foldOver (fun (w : SsWait) d =>
    waitBlocks w.op w.req w.leaf w.more (fun d => match d.keyCheck w.op w.req, w.leaf with
      | .refuse st det, _ => refuseWait w st det d
      | .pass a, some i => deliverKey w.op w.req a (d.keyMaterial w.req.handle) (some i) d
      | .pass a, none => useKey w.op w.req a d) d) ws d

/-- An exchange slot is free again: waiting fetches and stores go on. -/
def slotFreed (i : Nat) (d : Device) : Device :=
  ssPump (fetchWaiting { d with ss := { d.ss with xslots := Tbl.erase d.ss.xslots i } })

/-- 13 R283: SS_BLOCK_IN. `intact` says that the block passes its tag under K_TREE. -/
def execSsBlockIn (intact : Bool) (s : State) : Host.Outcome State Fault Refusal :=
  s.on fun d => admin 0 0x0039 true (wholeBytes 4 9) [] d fun e _ d =>
    let b := bytesAt e 4 4
    let i := bytesAt e 8 2
    if d.md.mode = .debug then admRefuse 0 0x36 d
    else if !d.ss.attached then admRefuse 0 0x35 d
    else match Tbl.find d.ss.xslots i with
      | none => admRefuse 0 0x38 d
      | some x =>
        if x.store ∨ x.block ≠ b then admRefuse 0 0x38 d
        else match d.slotAccess i 0 with
          | (.wait, p, n, g) => gateWait g .exchange p n 0 d
          | (.refuse c r st, p, n, g) => admDone 0 stAccess 0 (violationDetail 4 r 0 st) (reportRefusal g 0 p n 0 0xF8 c r st true d)
          | (.permit, _, _, _) =>
            if intact then admDone 0 stOk 0 0 (slotFreed i (blockCame b { d with ss := { d.ss with xslots := Tbl.erase d.ss.xslots i } }))
            else
              let d := d.bump 0x0015_0018 0xFFFF
              if x.retried then
                let level := if d.ss.dataBlocks ≤ b then (d.nodePlace b).1 else 10
                let d := notice 0 0x4012 2 b level 0 0 (record 0x4012 0 false b level 0 0 d)
                admDone 0 stOk 0 0 (slotFreed i (blockLost b d))
              else
                let y : XSlot := { x with retried := true, posted := d.time }
                let d := { d with ss := { d.ss with xslots := Tbl.put d.ss.xslots i y } }
                let d := notice 0 0x4010 0 b i 1 0 (record 0x4010 0 false b i 1 0 (d.bump 0x0015_0010))
                admDone 0 stOk 0 0 d

/-- 13 R283, R281: SS_SLOT_FREE confirms a stored block. -/
def execSsSlotFree (s : State) : Host.Outcome State Fault Refusal :=
  s.on fun d => admin 0 0x003A true (wholeBytes 8 9) [] d fun e _ d =>
    let i := bytesAt e 8 2
    if d.md.mode = .debug then admRefuse 0 0x36 d
    else if !d.ss.attached then admRefuse 0 0x35 d
    else match Tbl.find d.ss.xslots i with
      | none => admRefuse 0 0x38 d
      | some x =>
        if !x.store then admRefuse 0 0x38 d else
        let batch := if d.ss.toSend.contains x.block then d.ss.batch else d.ss.batch.filter (fun b => b ≠ x.block)
        let d := { d with ss := { d.ss with
          batch := batch
          journal := if batch = [] then 0 else d.ss.journal
          recovering := d.ss.recovering && !decide (batch = []) } }
        slotFreed i (admDone 0 stOk 0 0 d)

/-- 13, Table 13.14: KST_CTRL.TIMEOUT has passed for the block exchanged in slot i, for a request that found no slot, or for a change in
step 2 of Table 13.12. -/
def execSsTimeout (u : Fin 1024) (s : State) : Host.Outcome State Fault Refusal :=
  s.on fun d =>
    let late (t : Nat) : Bool := decide (t + d.ssTimeout ≤ d.time)
    let d := match Tbl.find d.ss.xslots u with
      | some x =>
        if !x.store && late x.posted then
          slotFreed u (notice 0 0x4013 1 x.block u 0 0 (record 0x4013 0 false x.block u 0 0 (blockLost x.block d)))
        else d
      | none => d
    let stuck := d.ss.waiting.filter (fun w => late w.since && !d.ss.xslots.any (fun x => decide (x.2.block = w.block) && !x.2.store))
    let d := foldOver (fun (w : SsWait) d => blockLost w.block d) stuck d
    match d.ss.change with
    | some c => if late c.since then ssPump (ssAbandon c d) else d
    | none => d

end Sys2Proof.Machine
end

