-- ==== Sys2Proof/Machine/OpsWsRx.lean ====
section
/-!
DEFINITION. Sys2Proof/Machine/OpsWsRx.lean: what the Watershed receives (17): the frame filter (R354), the header (R355, Table 17.2), sequence
numbers, acknowledgements and reassembly (R359), credentials (R356) and the join checks (R358, Table 17.6).
-/
namespace Sys2Proof.Machine

/-! ## Messages -/

/-- Take the oldest message received from member m when its type is `t`. A MIG_PULL that waits for its context is passed over. -/
def takeMessage (m t : Nat) (d : Device) (k : List Byte → Device → Device) : Device :=
  let box := (d.peer m).inbox
  match firstWhere (fun x => decide (x.1 ≠ 0x20 ∨ t = 0x20)) box with
  | some (t', bs) =>
    if t' = t then k bs (d.updPeer m (fun p => { p with inbox := dropFirst (fun x => x = (t', bs)) p.inbox })) else d
  | none => d

/-- The message stays where it is until it can be handled. -/
def takeWhen (m t : Nat) (d : Device) (ready : List Byte → Bool) (k : List Byte → Device → Device) : Device :=
  match firstWhere (fun x => decide (x.1 ≠ 0x20 ∨ t = 0x20)) (d.peer m).inbox with
  | some (t', bs) => if t' = t ∧ ready bs then takeMessage m t d k else d
  | none => d

/-! ## Credentials (17 R356, Table 17.4) -/

/-- Length of a credential: 64-byte body, ML-DSA-87 signature. -/
def credLen : Nat := 4691

/-- The signature of a credential verifies under the Watershed authority key, which the Base Profile names: a VERIFY key of allotment 0
that the store holds. -/
def Device.credSigned (d : Device) (c : List Byte) : Bool := match d.md.prof.bind (fun p => p.keys) with
  | none => false
  | some (_, h) => (match d.keyAttr h with
    | some a => decide (a.usage = 7) && decide (a.st = 3) && decide (handleAllot h = 0) && (mldsa87 "KQ WS MEMBER" (d.keyMaterial h) (c.take 64) (c.drop 64) == 0)
    | none => false)

/-- The dates of a credential hold now. -/
def credNow (c : List Byte) (now : Nat) : Bool := decide (word c 16 8 ≤ now) && decide (now ≤ word c 24 8)

/-- The input check of an ML-KEM-768 encapsulation key (09 R200): every 12-bit coefficient is below 3,329. -/
def kem768Ok (ek : List Byte) : Bool := kemEkOk 2 ek

/-- The join checks in order (17, Table 17.6): the first reason that fails. `id`: the Watershed ID sent; `sig` says whether the handshake signature
verifies, `kem` whether the key check and the X25519 result hold; `free` says that a channel is free for it. -/
def Device.joinRefusal (d : Device) (m id : Nat) (cred pk : List Byte) (sig kem free : Bool) : Option Nat :=
  if id ≠ d.wsOwnId ∨ word cred 8 8 ≠ d.wsOwnId then some 1
  else if word cred 0 4 ≠ 0x4D57_514B ∨ word cred 6 2 ≠ 0 ∨ !d.credSigned cred then some 2
  else if !credNow cred d.time then some 3
  else if word cred 4 2 ≠ m ∨ !(d.peer m).en then some 4
  else if (sha3_256 pk).toNat ≠ word cred 32 32 then some 5
  else if !sig then some 6
  else if d.ws.revoked.contains m then some 7
  else if !free then some 8
  else if !d.wsActive then some 9
  else if !kem then some 10
  else none

/-- Refuse a join: JOIN_REJECT, PEER_REJECTED. -/
def refuseJoin (m reason : Nat) (d : Device) : Device := rejectPeer m reason 0 (sendClear m (.joinReject reason) d)

/-- An X25519 share whose result is not zero: that depends on the share alone, for every secret key. -/
def x25519Ok (u : List Byte) : Bool := (curveX25519.agree (zeros 32) u).isSome

/-- SHA3-256 as bytes. -/
def digest32 (bs : List Byte) : List Byte := toBytes 32 (sha3_256 bs).toNat

/-- The keys of a channel between initiator a and responder b (17, Table 17.5 step 4). -/
def channelKeys (ss th : List Byte) (a b : Nat) : List Byte := kdf ss "KQ WS CHANNEL" (th ++ toBytes 2 a ++ toBytes 2 b) 96

/-- Step 2 at the responder: JOIN_INIT payload `init` answered, with 128 bytes of class 2 output: the message that ML-KEM encapsulates, the X25519 key, the
nonce, and what hedges the signature. -/
def answerJoin (m : Nat) (init : List Byte) (d : Device) : Device :=
  let r := d.custodyRandom 128
  let d := r.2
  let x := (r.1.drop 32).take 32
  let e := kemEncaps 2 ((init.drop 40).take 1184) (r.1.take 32)
  let ss := e.2 ++ (curveX25519.agree x ((init.drop 1224).take 32)).getD []
  let head := (r.1.drop 64).take 32 ++ e.1 ++ curveX25519.public x ++ d.ws.credBytes ++ d.identityKey
  let th := digest32 (init ++ head)
  let sig := (mldsaSign 2 0 d.identitySeed (ascii "KQ WS JOIN R") th (r.1.drop 96)).1
  joinSend m (.joinResp (head ++ sig)) (d.updPeer m (fun p => { p with
    st := 1
    join := 2
    initiator := false
    keys := channelKeys ss th m d.wsMember
    rxSeq := 0
    hs := { init := init, th := th, sig := sig } }))

/-- th of a JOIN_RESP payload, and whether its signature over it verifies. -/
def respHash (init resp : List Byte) : List Byte := digest32 (init ++ resp.take 7795)
def respSigned (init resp : List Byte) : Bool :=
  mldsaVerify 2 0 ((resp.drop 5843).take 1952) (ascii "KQ WS JOIN R") (respHash init resp) (resp.drop 7795) == 0

/-- Step 3 at the initiator: JOIN_RESP payload `resp` answered. -/
def finishJoin (m : Nat) (resp : List Byte) (d : Device) : Device :=
  let p := d.peer m
  let r := d.custodyRandom 32
  let d := r.2
  let ss := kemDecaps 2 p.hs.kemSeed ((resp.drop 32).take 1088) ++ (curveX25519.agree p.hs.xKey ((resp.drop 1120).take 32)).getD []
  let th := respHash p.hs.init resp
  let sig := (mldsaSign 2 0 d.identitySeed (ascii "KQ WS JOIN I") (digest32 (th ++ resp.drop 7795)) r.1).1
  joinSend m (.joinFin sig) (d.updPeer m (fun p => { p with
    st := 1
    join := 3
    keys := channelKeys ss th d.wsMember m }))

/-- JOIN_FIN's signature verifies under the identity key that JOIN_INIT sent. -/
def finSigned (hs : Handshake) (sig : List Byte) : Bool :=
  mldsaVerify 2 0 ((hs.init.drop 5947).take 1952) (ascii "KQ WS JOIN I") (digest32 (hs.th ++ hs.sig)) sig == 0

/-! ## WS_REHOME (17 R364) -/

/-- Once both devices reach each other: the counter is committed as exhausted, then REHOME goes out. -/
def rehomeGo (d : Device) : Device := match d.ws.rehoming with
  | none => d
  | some r =>
    if r.sent || !(d.peer r.member).up || !d.entropyAvailable then d else
    let n := handleSlot r.handle
    let s := d.slot n
    let d := writeSlot n { s with attr := { s.attr with nextLeaf := leafLimit s.attr } } d
    let d := { d with ws := { d.ws with rehoming := some { r with sent := true }, moved := d.ws.moved ++ [r.handle] } }
    sendUp r.member (.rehome r.handle r.replica s.attr.nextLeaf) d

end Sys2Proof.Machine
end

