-- ==== Sys2Proof/Machine/Watershed.lean ====
section
/-!
DEFINITION. Sys2Proof/Machine/Watershed.lean: frames, joins and channels of the Watershed, its admin commands and the template window (17 R353 to
R359, R365, R366).
-/
namespace Sys2Proof.Machine

/-! ## Frames -/

/-- 17 R353 to R355, R359: a frame, without its FCS, arrives on a port. -/
def execWsFrameReceive (port : Fin 2) (frame : List Byte) (fcsOk : Bool) (s : State) : Host.Outcome State Fault Refusal :=
  s.on fun d =>
    if d.boot.computeReset || !d.boot.cdReady || d.asleep || field (d.reg (0x000D_0100 + 0x40 * port.val)) 2 0 == 0 then d
    else if !fcsOk || decide (frame.length + 4 < 64) || decide (9216 < frame.length + 4) then rxDrop port.val d
    else frameArrives port.val frame d

/-! ## Joining (17 R357, R358) -/

/-- 17 R358: JOIN_INIT from member m. The higher of two members that initiate at once abandons its own initiation; the lower ignores the
other's. A responder that has answered answers again. -/
def execJoinInit (member : Fin 1024) (s : State) : Host.Outcome State Fault Refusal :=
  s.on fun d =>
    let m := member.val
    takeWhen m 0x01 d (fun _ => d.entropyAvailable) fun bs d =>
      let p := d.peer m
      if p.join = 1 ∧ d.wsMember < m then d
      else if p.join = 2 then (match p.hs.sent with
        | some msg => sendClear m msg d
        | none => d)
      else
        let d := if p.up then closeChannel m 0 d else d.updPeer m (fun p => { p with join := 0 })
        let cred := (bs.drop 1256).take credLen
        let ek := (bs.drop 40).take 1184
        let kem := kem768Ok ek && x25519Ok ((bs.drop 1224).take 32)
        let room := freeChannel d
        match d.joinRefusal m (word bs 0 8) cred (bs.drop 5947) true kem room.isSome with
        | some reason => refuseJoin m reason d
        | none => match room with
          | some d => answerJoin m bs (d.updPeer m (fun p => { p with notAfter := word cred 24 8 }))
          | none => d

/-- 17 R358: JOIN_RESP from member m. -/
def execJoinResp (member : Fin 1024) (s : State) : Host.Outcome State Fault Refusal :=
  s.on fun d =>
    let m := member.val
    takeWhen m 0x02 d (fun _ => d.entropyAvailable) fun bs d =>
      if (d.peer m).join = 3 then (match (d.peer m).hs.sent with
        | some msg => sendClear m msg d
        | none => d)
      else if (d.peer m).join ≠ 1 then d
      else
        let cred := (bs.drop 1152).take credLen
        let pk := (bs.drop 5843).take 1952
        match d.joinRefusal m d.wsOwnId cred pk (respSigned (d.peer m).hs.init bs) (x25519Ok ((bs.drop 1120).take 32)) true with
        | some reason => refuseJoin m reason d
        | none => finishJoin m bs (d.updPeer m (fun p => { p with notAfter := word cred 24 8 }))

/-- What a new channel sets going beside what waited for it. -/
def afterJoin (d : Device) : Device := rehomeGo d

/-- 17 R358: JOIN_FIN from member m; the responder's side of the channel is up with JOIN_ACK. -/
def execJoinFin (member : Fin 1024) (s : State) : Host.Outcome State Fault Refusal :=
  s.on fun d =>
    let m := member.val
    takeMessage m 0x03 d fun bs d =>
      if (d.peer m).join ≠ 2 then d
      else if !finSigned (d.peer m).hs bs then refuseJoin m 6 d
      else afterJoin (channelUp m 1 d)

/-- 17 R358: JOIN_ACK from member m; the initiator's side of the channel is up. -/
def execJoinAck (member : Fin 1024) (s : State) : Host.Outcome State Fault Refusal :=
  s.on fun d =>
    let m := member.val
    takeMessage m 0x04 d fun _ d => if (d.peer m).join = 3 then afterJoin (channelUp m 0 d) else d

/-- 17 R358: JOIN_REJECT from member m. -/
def execJoinReject (member : Fin 1024) (s : State) : Host.Outcome State Fault Refusal :=
  s.on fun d =>
    let m := member.val
    takeMessage m 0x05 d fun bs d => if (d.peer m).join = 0 then d else rejectPeer m (word bs 0 1) 1 d

/-- 17 R358: a join message has gone unanswered for 20 ms: it is sent again whole; after three tries the join fails. -/
def execJoinResend (member : Fin 1024) (s : State) : Host.Outcome State Fault Refusal :=
  s.on fun d =>
    let m := member.val
    let p := d.peer m
    if p.join = 0 ∨ d.time < p.joinAt + 20_000_000 then d
    else if p.joinTries < 3 then
      let again := d.updPeer m (fun p => { p with joinTries := p.joinTries + 1, joinAt := d.time })
      (match p.hs.sent with
       | some msg => sendClear m msg again
       | none => again)
    else d.updPeer m (fun p => { p with st := 0, join := 0, hs := {}, keys := [], retryAt := some (d.time + d.wsRetry) })

/-- 17 R357: a failed join is tried again after WS_TIMERS.RETRY; a member with traffic and no channel is joined. -/
def execJoinRetry (member : Fin 1024) (s : State) : Host.Outcome State Fault Refusal :=
  s.on fun d =>
    let m := member.val
    let p := d.peer m
    let due := match p.retryAt with
      | some t => decide (t ≤ d.time)
      | none => true
    if !due then d
    else
      let d := d.updPeer m (fun p => { p with retryAt := none })
      let traffic := decide (p.waiting ≠ []) || d.ws.replicas.any (fun r => decide (r.member = m) && (!r.done || r.destroying)) ||
        (match d.ws.rehoming with
         | some r => decide (r.member = m)
         | none => false)
      if traffic then startJoin m d else d

/-! ## Channels (17 R357, R359, R365) -/

/-- 17 R359: KEEPALIVE; that it came has been noted with its frame. -/
def execKeepalive (member : Fin 1024) (s : State) : Host.Outcome State Fault Refusal :=
  s.on fun d => takeMessage member.val 0x10 d fun _ d => d

/-- 17 R359: an idle direction sends KEEPALIVE every 1 ms. -/
def execKeepaliveSend (member : Fin 1024) (s : State) : Host.Outcome State Fault Refusal :=
  s.on fun d =>
    let p := d.peer member.val
    if p.up && decide (p.lastTx + 1_000_000 ≤ d.time) then sendUp member.val .keepalive d else d

/-- 17 R357: CLOSE. -/
def execClose (member : Fin 1024) (s : State) : Host.Outcome State Fault Refusal :=
  s.on fun d => takeMessage member.val 0x11 d fun _ d => if (d.peer member.val).up then closeChannel member.val 0 d else d

/-- 17 R357: a channel idle for 60 s is closed with CLOSE. -/
def execChannelIdleClose (member : Fin 1024) (s : State) : Host.Outcome State Fault Refusal :=
  s.on fun d =>
    let p := d.peer member.val
    if p.up && decide (p.lastTraffic + 60_000_000_000 ≤ d.time) then closeIdle member.val d else d

/-- 17 R359: a direction has reached SEQ 2^32, or the channel is one hour old: joined afresh. -/
def execChannelRejoin (member : Fin 1024) (s : State) : Host.Outcome State Fault Refusal :=
  s.on fun d =>
    let p := d.peer member.val
    if p.up && (decide (2 ^ 32 ≤ p.txSeq) || decide (2 ^ 32 ≤ p.rxSeq) || decide (p.since + 3_600_000_000_000 ≤ d.time)) then
      startJoin member.val (closeChannel member.val 0 d)
    else d

/-- A frame whose last try has gone 2 ms without an acknowledgement. -/
def WsFrame.overdue (w : WsFrame) (now : Nat) : Bool := decide (w.sent + 2_000_000 ≤ now)

/-- 17 R359: the oldest frame not acknowledged within 2 ms is sent again, up to eight tries. -/
def execWsRetransmit (member : Fin 1024) (s : State) : Host.Outcome State Fault Refusal :=
  s.on fun d =>
    let m := member.val
    match firstWhere (fun (w : WsFrame) => w.overdue d.time && decide (w.tries < 8)) (d.peer m).unacked with
    | none => d
    | some w =>
      let again : WsFrame := { w with sent := d.time, tries := w.tries + 1 }
      wsOut m w.sealed (d.updPeer m (fun p => { p with unacked := mapWhere (fun x => x = w) (fun _ => again) p.unacked }))

/-- 17 R359, R365: eight tries without an acknowledgement, or 5 ms without a valid frame. -/
def execPeerLost (member : Fin 1024) (s : State) : Host.Outcome State Fault Refusal :=
  s.on fun d =>
    let p := d.peer member.val
    if !p.up then d
    else if p.unacked.any (fun w => w.overdue d.time && decide (8 ≤ w.tries)) then losePeer member.val 0 d
    else if p.lastRx + 5_000_000 ≤ d.time then losePeer member.val 1 d
    else d

/-- 17 R365: once a second: the dates of this device's credential and of its peers'. -/
def execCredentialCheck (s : State) : Host.Outcome State Fault Refusal :=
  s.on fun d =>
    let own := d.credDates
    let d := { d with ws := { d.ws with credOk := own && !decide (d.md.mode = .debug) } }
    foldOver (fun (x : Nat × Peer) d =>
      if x.2.up ∧ (!own ∨ x.2.notAfter < d.time) then losePeer x.1 2 d else d) d.ws.peers d

/-! ## Links (17 R353, R355; 19 R398) -/

/-- Links of a port in a mode (17, Table 17.1). -/
def linksOf (mode : Nat) : Nat := match mode with
  | 1 | 2 => 1
  | 3 | 4 => 2
  | 5 | 6 => 4
  | _ => 0

/-- 17 R353: a link has come up. -/
def execLinkUp (link : Fin 8) (s : State) : Host.Outcome State Fault Refusal :=
  s.on fun d =>
    let l := link.val
    let mode := field (d.reg (0x000D_0100 + 0x40 * (l / 4))) 2 0
    if d.boot.computeReset || !d.boot.cdReady || d.asleep || decide (linksOf mode ≤ l % 4) || (d.unit 5 (l / 4)).fenced || Tbl.get false d.ws.linkUp l then d
    else
      let d := { d with ws := { d.ws with linkUp := Tbl.set false d.ws.linkUp l true } }
      notice 0 0x8001 0 l mode 0 0 (record 0x8001 0 false l mode 0 0 d)

/-- 17 R353, R355: a link has gone down. -/
def execLinkDown (link : Fin 8) (s : State) : Host.Outcome State Fault Refusal :=
  s.on (dropLink link.val)

/-! ## Admin commands (17 R366) -/

/-- A Watershed admin command: refused in Debug mode (Table 17.12). -/
def wsAdmin (op : Nat) (listed align : List (Nat × Nat)) (d : Device) (k : Entry → Device → Device) : Device :=
  admin 0 op true listed align d fun e _ d => if d.md.mode = .debug then admRefuse 0 0x64 d else k e d

/-- 17 R366: WS_IDENTITY. -/
def execWsIdentity (s : State) : Host.Outcome State Fault Refusal :=
  s.on fun d => wsAdmin 0x0060 (wholeBytes 8 15) [(8, 64)] d fun e d =>
    admResult 0 (bytesAt e 8 8) (d.identityKey ++ toBytes 32 Config.identity.toNat) d (admDone 0 stOk 1984 0)

/-- 17 R356, R366: WS_CREDENTIAL. `data` is what host memory holds there. -/
def execWsCredential (data : List Byte) (s : State) : Host.Outcome State Fault Refusal :=
  s.on fun d => wsAdmin 0x0061 (wholeBytes 8 19) [] d fun e d =>
    if bytesAt e 16 4 ≠ credLen then admRefuse 0 0x62 d
    else admRead 0 (bytesAt e 8 8) credLen d fun d =>
      let c := exactly credLen data
      if word c 0 4 ≠ 0x4D57_514B ∨ word c 4 2 ≠ d.wsMember ∨ word c 6 2 ≠ 0 ∨ word c 8 8 ≠ d.wsOwnId ∨ !credNow c d.time ∨
          word c 32 32 ≠ (sha3_256 d.identityKey).toNat ∨ !d.credSigned c then admRefuse 0 0x62 d
      else admDone 0 stOk 0 0 { d with ws := { d.ws with
        cred := true
        credBytes := c
        credOk := true
        member := word c 4 2
        wsId := word c 8 8
        notBefore := word c 16 8
        notAfter := word c 24 8 } }

/-- The key of a Watershed command on this device as home: full, readable and at its home; else the refusal. -/
def onHomeKey (h : Nat) (d : Device) (k : KeyAttr → Device → Device) : Device :=
  onKey 0 h false false d fun t d =>
    if t.st ≠ 3 then admDone 0 stKeyAbsent 0 1 d
    else if (d.homeOf h).isSome ∨ d.ws.moved.contains h then admRefuse 0 0x63 d
    else k t d

/-- 17 R362, R366: WS_REPLICATE; it completes after KEY_REPL_ACK. -/
def execWsReplicate (s : State) : Host.Outcome State Fault Refusal :=
  s.on fun d => wsAdmin 0x0063 (wholeBytes 4 8 ++ [(9, 3)] ++ wholeBytes 12 15) [] d fun e d =>
    let h := bytesAt e 4 4
    let m := bytesAt e 8 2
    let t := bytesAt e 12 4
    if !d.wsActive ∨ !d.wsPeerOk m then admRefuse 0 0x61 d
    else onHomeKey h d fun _ d =>
      if handleAllot t ≠ handleAllot h then admRefuse 0 0x63 d
      else
        let r : Replica := { handle := h, member := m, target := t, since := d.time }
        let d := { d with ws := { d.ws with replicas := d.ws.replicas ++ [r] } }
        let d := admWait 0 (.replicate m h) d
        if (d.peer m).up then sendReplica r d else startJoin m d

/-- 17 R364, R366: WS_REHOME; it completes once the new home confirms. -/
def execWsRehome (s : State) : Host.Outcome State Fault Refusal :=
  s.on fun d => wsAdmin 0x0064 (wholeBytes 4 8 ++ [(9, 3)] ++ wholeBytes 12 15) [] d fun e d =>
    let h := bytesAt e 4 4
    let m := bytesAt e 8 2
    let t := bytesAt e 12 4
    if !d.wsActive ∨ !d.wsPeerOk m then admRefuse 0 0x61 d
    else onHomeKey h d fun a d =>
      let held := d.ws.replicas.any (fun r => decide (r.handle = h) && decide (r.member = m) && decide (r.target = t) && r.done && !r.destroying)
      if !a.stateful ∨ !held then admRefuse 0 0x63 d
      else
        let r : Rehoming := { handle := h, member := m, replica := t, since := d.time }
        let d := admWait 0 .rehome { d with ws := { d.ws with rehoming := some r } }
        if (d.peer m).up then rehomeGo d else startJoin m d

/-- 17 R366: WS_REVOKE. Revoking a member closes its channel at once. -/
def execWsRevoke (s : State) : Host.Outcome State Fault Refusal :=
  s.on fun d => wsAdmin 0x0065 ([(4, 255), (5, 3), (6, 1)]) [] d fun e d =>
    let m := bytesAt e 4 2
    if bitOf (bytesAt e 6 1) 0 then
      let d := { d with ws := { d.ws with revoked := if d.ws.revoked.contains m then d.ws.revoked else d.ws.revoked ++ [m] } }
      let d := if (d.peer m).up then losePeer m 3 d else d.updPeer m (fun p => { p with st := 4, join := 0 })
      admDone 0 stOk 0 0 d
    else
      let d := { d with ws := { d.ws with revoked := d.ws.revoked.filter (fun x => x ≠ m) } }
      admDone 0 stOk 0 0 (d.updPeer m (fun p => { p with st := if p.st = 4 then 0 else p.st }))

/-- The 64-byte result of WS_QUERY. -/
def Device.peerRecord (d : Device) (m : Nat) : List Byte :=
  let p := d.peer m
  let age := if p.up then (d.time - p.since) / 1_000_000_000 else 0
  let reps := countWhere (fun (r : Replica) => decide (r.member = m) && r.done) d.ws.replicas
  let grants := countWhere (fun (g : GrantOut) => decide (g.member = m)) d.ws.grantsOut
  toBytes 64 (pack [(1, p.st), (1, p.reason), (2, 0), (4, age), (8, p.txSeq), (8, p.rxSeq), (4, reps), (4, grants)])

/-- 17 R366: WS_QUERY. -/
def execWsQuery (s : State) : Host.Outcome State Fault Refusal :=
  s.on fun d => wsAdmin 0x0066 ([(4, 255), (5, 3)] ++ wholeBytes 8 15) [(8, 64)] d fun e d =>
    admResult 0 (bytesAt e 8 8) (d.peerRecord (bytesAt e 4 2)) d (admDone 0 stOk 64 0)

/-! ## Templates (17 R355, Table 17.14) -/

/-- A write of v to WS_TMPL_CTRL: the staged bytes become the template selected. -/
def commitTmpl (v : Nat) (d : Device) : Device :=
  let t : Tmpl := { kind := field v 1 0, len := field v 8 2, link := field v 11 9, valid := bitOf v 16, bytes := d.ws.tmplStage }
  { d with ws := { d.ws with tmpls := Tbl.set {} d.ws.tmpls d.ws.tmplSel t } }

/-- 17 R355: WS_TMPL_CTRL. -/
def execWsTmplCtrlWrite (v : BitVec 32) (s : State) : Host.Outcome State Fault Refusal :=
  s.on fun d => barWrite 0x000D_0204 v.toNat false d (commitTmpl v.toNat)

end Sys2Proof.Machine
end

