-- ==== Sys2Proof/Machine/WsMove.lean ====
section
/-!
DEFINITION. Sys2Proof/Machine/WsMove.lean: moves of session contexts (17 R360, R361), replicated keys (R362), leaf grants (R363) and the move of a
key's home (R364).
-/
namespace Sys2Proof.Machine

/-! ## The source side (17 R360, Table 17.9) -/

/-- What a MIG_PULL comes to: it waits, a MIG_ABORT reason, or the context leaves. -/
inductive PullVerdict where
  | wait
  | abort (reason : Nat)
  | go
deriving DecidableEq, Repr

def Device.pullCheck (d : Device) (a n label : Nat) : PullVerdict :=
  let x := d.ctx n
  if x.st = .free ∨ x.allot ≠ a ∨ x.label ≠ label then .abort 1
  else if x.st = .migrating ∨ !d.ctxQuietFor a n d.order then .wait
  else if x.st = .closed ∧ x.migratedOut then .abort 1
  else if x.st ≠ .active ∧ x.st ≠ .held then .abort 2
  else if 256 ≤ d.migsOpen then .wait
  else .go

/-- Fields of a MIG_PULL payload: request, context, allotment, label. -/
def pullFields (bs : List Byte) : Nat × Nat × Nat × Nat := (word bs 0 4, word bs 4 4 % 2 ^ 18, word bs 8 1, word bs 12 8)

/-- A move out begins: the context is MIGRATING and is read; MIG_OFFER follows. -/
def beginMove (m q n : Nat) (admin : Bool) (d : Device) : Device :=
  let x := d.ctx n
  let mig : Migration := {
    request := q
    source := true
    ctx := n
    member := m
    allot := x.allot
    label := x.label
    began := d.time
    admin := admin
    rid := d.migRid
    reads := 4 }
  stewardReads mig.rid n (ctxLeaves n { d with ws := { d.ws with migs := d.ws.migs ++ [mig] } })

/-- 17 R360: MIG_PULL from member m: the first whose context need not be waited for. -/
def execMigPull (member : Fin 1024) (s : State) : Host.Outcome State Fault Refusal :=
  s.on fun d =>
    let m := member.val
    let d := pruneMigs d
    let ready (x : Nat × List Byte) : Bool :=
      let f := pullFields x.2
      decide (x.1 = 0x20) && decide (d.pullCheck f.2.2.1 f.2.1 f.2.2.2 ≠ .wait)
    if !d.wsActive then d else
    match firstWhere ready (d.peer m).inbox with
    | none => d
    | some x =>
      let f := pullFields x.2
      let d := d.updPeer m (fun p => { p with inbox := dropFirst (fun y => y = x) p.inbox })
      match d.pullCheck f.2.2.1 f.2.1 f.2.2.2 with
      | .abort r => sendWs m (.migAbort f.1 r) d
      | .go => beginMove m f.1 f.2.1 false d
      | .wait => d

/-- The answer that a source gives from its record of a move: none while it is under way. -/
def Migration.answer (x : Migration) : Option WsMsg := match x.outcome with
  | some (0, _) => some (.migRelease x.request)
  | some (r, _) => some (.migAbort x.request r)
  | none => none

/-- 17 R360: MIG_READY from member m: the source closes its context, and only then sends MIG_RELEASE. A late one is answered from the record. -/
def execMigReady (member : Fin 1024) (s : State) : Host.Outcome State Fault Refusal :=
  s.on fun d =>
    let m := member.val
    takeMessage m 0x22 d fun bs d =>
      let d := pruneMigs d
      let q := word bs 0 4
      match d.migAt true m q with
      | none => sendWs m (.migAbort q 5) d
      | some x => match x.answer with
        | some (.migAbort _ _) => sendWs m (.migAbort q 5) d
        | some msg => sendWs m msg d
        | none =>
          let low := x.label % 2 ^ 32
          let d := (closeCtx x.ctx d).updCtx x.ctx (fun c => { c with migratedOut := true, holdLeft := 0 })
          let d := setMig { x with st := 1, outcome := some (0, d.time) } d
          let d := sendWs m (.migRelease q) d
          let d := recordCompute 0x8010 x.allot false x.ctx m low 0 d
          if x.admin then migDone x.allot q stOk (word bs 4 4) d else notice x.allot 0x8010 0 x.ctx m low 0 d

/-- 17 R360: MIG_QUERY from member m is answered from the record. -/
def execMigQuery (member : Fin 1024) (s : State) : Host.Outcome State Fault Refusal :=
  s.on fun d =>
    let m := member.val
    takeMessage m 0x25 d fun bs d =>
      let d := pruneMigs d
      match (d.migAt true m (word bs 0 4)).bind (fun x => x.answer) with
      | some msg => sendWs m msg d
      | none => d

/-! ## The destination side -/

/-- The context that a MIG_OFFER spells (17, Table 17.7; 04, Table 4.3), pending: its state once it is usable, the hold time that remains. -/
def offeredCtx (bs : List Byte) (now : Nat) : Ctx :=
  let h := bs.drop 20
  let hold := word bs 8 4
  let flags := word h 14 2
  let held := decide (hold ≠ 0)
  { st := .free
    pending := true
    before := if held then .held else .active
    holdLeft := hold * 1_000_000
    allot := word h 9 1 % 64
    label := word h 0 8
    lastRoutine := word h 10 2
    resumeCount := word h 12 2
    clientOk := bitOf flags 0
    mka := bitOf flags 1
    ephemeral := bitOf flags 2
    hybrid := bitOf flags 6
    holdTime := word h 20 4
    lastUse := word h 32 8
    commands := word h 40 8
    born := now
    secret := writeBytes [] 0 ((bs.drop 84).take 960) }

/-- 17 R360: MIG_OFFER from member m: a FREE context of the allotment holds the offer as pending, unusable. An offer for a move that this device has
given up is aborted. -/
def execMigOffer (member : Fin 1024) (s : State) : Host.Outcome State Fault Refusal :=
  s.on fun d =>
    let m := member.val
    takeMessage m 0x21 d fun bs d =>
      let d := pruneMigs d
      let q := word bs 0 4
      let n := word bs 4 4
      let a := word bs 12 1 % 64
      let mine := match d.migAt false m q with
        | some x => if x.ctx = n then some x else none
        | none => none
      let given := match mine with
        | some x => x.outcome.isSome || decide (x.st = 1)
        | none => false
      if given then sendWs m (.migAbort q 5) d
      else if (d.allot a).flr.isSome then d
      else
        let full := decide ((d.allot a).ctxQuota ≤ d.ctxTaken a)
        match (if full then none else d.freeCtx) with
        | none =>
          let d := sendWs m (.migAbort q 3) d
          (match mine with
           | some x => migFailsThere x stRefused 0x20 d
           | none => d)
        | some k =>
          let c := offeredCtx bs d.time
          let d := d.updCtx k (fun _ => { c with allot := a })
          let x : Migration := match mine with
            | some x => { x with st := 1, dest := k, began := d.time, lastQuery := d.time }
            | none => { request := q, source := false, ctx := n, member := m, allot := a, label := c.label, st := 1, began := d.time, lastQuery := d.time, dest := k }
          let d := if mine.isSome then setMig x d else { d with ws := { d.ws with migs := d.ws.migs ++ [x] } }
          sendWs m (.migReady q k) d

/-- 17 R360: MIG_RELEASE from member m: the pending context is usable; the hold timer goes on with the time that remained (04, Table 4.6). -/
def execMigRelease (member : Fin 1024) (s : State) : Host.Outcome State Fault Refusal :=
  s.on fun d =>
    let m := member.val
    takeMessage m 0x23 d fun bs d =>
      match d.migAt false m (word bs 0 4) with
      | none => d
      | some x =>
        if x.st ≠ 1 ∨ x.outcome.isSome then d else
        let low := x.label % 2 ^ 32
        let d := d.updCtx x.dest (fun c => { c with
          st := c.before
          pending := false
          migratedIn := true
          born := d.time
          holdExpiry := if c.before = .held then d.time + c.holdLeft else 0
          heldAt := if c.before = .held then d.time + c.holdLeft - c.holdTime * 1_000_000_000 else 0
          holdLeft := 0
          before := .free })
        let d := recordCompute 0x8011 x.allot false x.dest m low 0 (dropMig x d)
        if x.admin then migDone x.allot x.request stOk x.dest d else notice x.allot 0x8011 0 x.dest m low 0 d

/-- 17 R361: MIG_ABORT from member m. The state code of reason 2 does not travel: a free value. -/
def execMigAbort (member : Fin 1024) (s : State) : Host.Outcome State Fault Refusal :=
  s.on fun d =>
    let m := member.val
    takeMessage m 0x24 d fun bs d =>
      let q := word bs 0 4
      let r := word bs 4 1
      match d.migAt false m q with
      | some x =>
        if x.outcome.isSome then d
        else if x.st = 1 then migFailsThere x stRefused 0x60 d
        else (match r with
          | 1 => migFailsThere x stCtxAbsent 0 d
          | 2 => migFailsThere x stCtxState (d.freeVal 3).toNat d.tookFree
          | 3 => migFailsThere x stRefused 0x20 d
          | _ => migFailsThere x stRefused 0x60 d)
      | none => match d.migAt true m q with
        | some x => if x.outcome.isSome then d else migFailsHere x r stRefused (if r = 3 then 0x20 else 0x60) d
        | none => d

/-- 17 R361, Table 17.9: a destination without MIG_RELEASE asks every 1 ms until MIG_LIMIT. -/
def execMigQuerySend (member : Fin 1024) (request : BitVec 32) (s : State) : Host.Outcome State Fault Refusal :=
  s.on fun d =>
    let m := member.val
    match d.migAt false m request.toNat with
    | none => d
    | some x =>
      if x.st = 1 ∧ x.outcome.isNone ∧ x.lastQuery + 1_000_000 ≤ d.time ∧ d.time < x.began + d.migLimit then
        sendWs m (.migQuery x.request) (setMig { x with lastQuery := d.time } d)
      else d

/-- Admin commands of allotment 0 whose member was not reached in time (17, Table 17.12). -/
def wsWaitsOver (d : Device) : Device :=
  match (d.adm 0).waits with
  | .replicate m h =>
    if d.ws.replicas.any (fun r => decide (r.member = m) && decide (r.handle = h) && !r.done && decide (r.since + d.migLimit ≤ d.time)) then
      admRefuse 0 0x60 d else d
  | .rehome => (match d.ws.rehoming with
    | some r =>
      if r.since + d.migLimit ≤ d.time then
        admRefuse 0 0x60 (if r.sent then d else { d with ws := { d.ws with rehoming := none } })
      else d
    | none => d)
  | _ => d

/-- 17 R361, Tables 17.9, 17.12: MIG_LIMIT has passed for a move, on its side, or for an admin command that waits for a member. -/
def execMigTimeout (source : Bool) (member : Fin 1024) (request : BitVec 32) (s : State) : Host.Outcome State Fault Refusal :=
  s.on fun d =>
    let d := wsWaitsOver d
    match d.migAt source member.val request.toNat with
    | none => d
    | some x =>
      if x.outcome.isSome ∨ d.time < x.began + d.migLimit then d
      else if source then migFailsHere x 5 stRefused 0x60 d
      else if x.st = 1 then migFailsThere x stRefused 0x60 d
      else
        let d := setMig { x with outcome := some (5, d.time), admin := false } (unsendMig x.member x.request d)
        if x.admin then migDone x.allot x.request stRefused 0x60 d else d

/-! ## The admin commands (17, Table 17.8) -/

/-- 17 R360: CTX_MIGRATE_OUT. -/
def execCtxMigrateOut (a : Fin 64) (s : State) : Host.Outcome State Fault Refusal :=
  s.on fun d => admin a 0x0026 false (ctxParam ++ [(8, 255), (9, 3)]) [] d fun e o d =>
    let m := bytesAt e 8 2
    let d := pruneMigs d
    onContext a e o false true d fun n x d =>
      if x.st ≠ .active ∧ x.st ≠ .held then admDone a stCtxState 0 x.st.code d
      else if !d.wsActive ∨ !d.wsPeerOk m then admRefuse a 0x61 d
      else if 256 ≤ d.migsOpen then d
      else
        let q := d.ws.nextReq
        beginMove m q n true (admWait a (.migration q) { d with ws := { d.ws with nextReq := (q + 1) % 2 ^ 32 } })

/-- 17 R360: CTX_MIGRATE_IN. -/
def execCtxMigrateIn (a : Fin 64) (s : State) : Host.Outcome State Fault Refusal :=
  s.on fun d => admin a 0x0027 false ([(4, 255), (5, 3), (8, 255), (9, 255), (10, 3)] ++ wholeBytes 16 23) [] d fun e _ d =>
    let m := bytesAt e 4 2
    let d := pruneMigs d
    if !d.wsActive ∨ !d.wsPeerOk m then admRefuse a 0x61 d
    else if 256 ≤ d.migsOpen then d
    else
      let q := d.ws.nextReq
      let n := bytesAt e 8 4
      let label := bytesAt e 16 8
      let mig : Migration := { request := q, source := false, ctx := n, member := m, allot := a.val, label := label, began := d.time, admin := true }
      let d := admWait a (.migration q) { d with ws := { d.ws with nextReq := (q + 1) % 2 ^ 32, migs := d.ws.migs ++ [mig] } }
      sendWs m (.migPull q n a label) d

/-! ## Replicated keys (17 R362) -/

/-- The key that a KEY_REPL spells for a target's attributes (13, Table 13.10), unwrapped under the channel's key-transport key: what it becomes, its
material and its tree object. -/
def replParts (key bs : List Byte) (t : KeyAttr) : Option (KeyAttr × List Byte × List Byte) :=
  let obj := bs.drop 4
  let len := word obj 12 4
  let n := wrappedLen len
  let tree := obj.drop n
  if word obj 0 4 ≠ 0x314F_514B ∨ word obj 5 1 ≠ t.usage ∨ word obj 6 1 ≠ t.flags ∨ word obj 7 1 ≠ t.allot ∨ word obj 8 1 ≠ t.family ∨
      word obj 9 1 ≠ t.variant ∨ word obj 10 1 ≠ t.paramSet ∨ word obj 20 4 ≠ t.extra ∨ !lenValid t len ∨ obj.length < n ∨
      (!t.stateful ∧ tree ≠ []) then none
  else (unwrapObject key (obj.take n)).bind (fun mat =>
    if mat.length = len then some ({ t with st := 3, len := len % 128, nextLeaf := 0 }, mat, tree) else none)

/-- The target is now a replica of member m's key. The home handle does not travel with KEY_REPL: a free value. -/
def becomesReplica (m t : Nat) (d : Device) : Device :=
  let h : HomeRef := { handle := t, member := m, home := (d.freeVal 32).toNat }
  { d.tookFree with ws := { d.ws with homes := d.ws.homes.filter (fun x => x.handle ≠ t) ++ [h] } }

/-- Fill the target of a replication (13 R275); none while it has to wait for entropy or for the Sealed Store. -/
def fillReplica (m t : Nat) (bs : List Byte) (d : Device) : Option Device :=
  let no := some (sendWs m (.keyReplAck t 1) d)
  match d.keyAttr t with
  | none => no
  | some a =>
    if a.st ≠ 1 then no else
    match replParts ((d.peer m).keyOf 2) bs a with
    | none => no
    | some (b, mat, tree) =>
      if handleStore t then
        if !d.ssReady then no else if !d.ssIdle then none else
        match Tbl.find d.ss.objs (objKey t) with
        | none => no
        | some o =>
          let new : SsObj := { attr := { b with len := 0 }, units := objUnits false mat.length, gen := o.gen + 1 }
          (match ssBegin [(objKey t, d.sealObj (objKey t) new mat)] [] [] (.repl m t) (becomesReplica m t d) with
           | some d => some d
           | none => no)
      else if mat.length > 64 then no
      else if d.slotWaits b then none
      else
        let s := d.slot (handleSlot t)
        let new : CisSlot := { s with attr := b }
        if b.stateful then
          if !d.ssReady then no else if !d.ssIdle then none else
          let o : SsObj := { attr := { b with st := 3 }, units := objUnits true tree.length, gen := 1, len := tree.length, body := tree, tree := true }
          (match ssBegin [(b.allot * 2 ^ 25 + s.tree, o)] [] [(handleSlot t, new, mat)] (.repl m t) (becomesReplica m t d) with
           | some d => some d
           | none => no)
        else some (sendWs m (.keyReplAck t 0) (becomesReplica m t (putSlot (handleSlot t) new mat d)))

/-- 17 R362: KEY_REPL from member m. -/
def execKeyRepl (member : Fin 1024) (s : State) : Host.Outcome State Fault Refusal :=
  s.on fun d =>
    let m := member.val
    takeWhen m 0x30 d (fun bs => (fillReplica m (word bs 0 4) bs d).isSome) fun bs d => (fillReplica m (word bs 0 4) bs d).getD d

/-- 17 R362: KEY_REPL_ACK from member m: the replica is recorded; WS_REPLICATE completes. -/
def execKeyReplAck (member : Fin 1024) (s : State) : Host.Outcome State Fault Refusal :=
  s.on fun d =>
    let m := member.val
    takeMessage m 0x31 d fun bs d =>
      let t := word bs 0 4
      let ok := decide (word bs 4 1 = 0)
      match firstWhere (fun (r : Replica) => decide (r.member = m) && decide (r.target = t) && !r.done) d.ws.replicas with
      | none => d
      | some r =>
        let done : Replica := { r with done := true }
        let l := if ok then mapWhere (fun x => x = r) (fun _ => done) d.ws.replicas else dropFirst (fun x => x = r) d.ws.replicas
        let d := { d with ws := { d.ws with replicas := l } }
        let d := if ok then record 0x8022 0 false r.handle m t 0 d else d
        if (d.adm 0).waits = .replicate m r.handle then (if ok then admDone 0 stOk 0 0 d else admRefuse 0 0x63 d) else d

/-- 17 R362: KEY_REPL_DESTROY from member m: the replica goes as KEY_DESTROY would take it. -/
def execKeyReplDestroy (member : Fin 1024) (s : State) : Host.Outcome State Fault Refusal :=
  s.on fun d =>
    let m := member.val
    takeWhen m 0x32 d (fun _ => d.ssIdle) fun bs d =>
      let t := word bs 0 4
      if !d.ws.homes.any (fun x => decide (x.handle = t) && decide (x.member = m)) then d
      else match d.keyAttr t with
        | none => d
        | some a =>
          if handleStore t then (ssBegin [] [objKey t] [] (.destroyed t) d).getD d
          else if a.stateful then
            (ssBegin [] [a.allot * 2 ^ 25 + (d.slot (handleSlot t)).tree] [(handleSlot t, {}, [])] (.destroyed t) d).getD d
          else revokeQuiet t (keyGone t (writeSlot (handleSlot t) {} d))

/-! ## Leaf grants (17 R363) -/

/-- A grant is carved from the counter of key h: the smaller of the leaves asked for and those left; the counter is committed first. -/
def carveGrant (m h q want : Nat) (a : KeyAttr) (d : Device) : Device :=
  let n := a.nextLeaf
  let c := min want (leafLimit a - n)
  let s := d.slot (handleSlot h)
  let d := writeSlot (handleSlot h) { s with attr := { a with nextLeaf := n + c } } d
  let g : GrantOut := { handle := h, member := m, request := q, first := n, count := c }
  let d := { d with ws := { d.ws with grantsOut := d.ws.grantsOut ++ [g] } }
  sendWs m (.grant h q n c) (record 0x8020 0 false h m (n % 2 ^ 32) 0 d)

/-- 17 R363: GRANT_REQ from member m. A repeated request receives the same range again. -/
def execGrantReq (member : Fin 1024) (s : State) : Host.Outcome State Fault Refusal :=
  s.on fun d =>
    let m := member.val
    takeWhen m 0x40 d (fun _ => d.entropyAvailable) fun bs d =>
      let h := word bs 0 4
      let q := word bs 4 4
      let want := word bs 8 4
      match firstWhere (fun (g : GrantOut) => decide (g.handle = h) && decide (g.member = m) && decide (g.request = q)) d.ws.grantsOut with
      | some g => sendWs m (.grant h q g.first g.count) d
      | none =>
        let known := d.ws.replicas.any (fun r => decide (r.handle = h) && decide (r.member = m) && !r.destroying)
        match d.keyAttr h with
        | none => sendWs m (.grantRefuse h q 1) d
        | some a =>
          if !known || handleStore h || !a.stateful || (d.homeOf h).isSome then sendWs m (.grantRefuse h q 1) d
          else if leafLimit a ≤ a.nextLeaf ∨ want = 0 ∨ genMax ≤ (d.slot (handleSlot h)).gen then sendWs m (.grantRefuse h q 0) d
          else carveGrant m h q want a d

/-- The key of this device whose request q to member m is under way. -/
def Device.grantAsked (d : Device) (m q : Nat) : Option GrantIn :=
  firstWhere (fun (g : GrantIn) => decide (g.asked = some q) && (match d.homeOf g.handle with
    | some r => decide (r.member = m)
    | none => false)) d.ws.grantsIn

/-- 17 R363: GRANT from member m enters the grant table; signatures that wait go on. -/
def execGrant (member : Fin 1024) (s : State) : Host.Outcome State Fault Refusal :=
  s.on fun d =>
    let m := member.val
    takeWhen m 0x41 d (fun _ => d.entropyAvailable) fun bs d =>
      let first := word bs 8 8
      let count := word bs 16 4
      match d.grantAsked m (word bs 4 4) with
      | none => d
      | some g =>
        let ranges := if count = 0 then g.ranges else g.ranges ++ [(first, count)]
        let d := setGrant { g with asked := none, ranges := ranges } d
        retryGrants g.handle (record 0x8021 0 false g.handle count (first % 2 ^ 32) 0 d)

/-- Signatures that wait for leaves of key h end with KEY_EXHAUSTED. -/
def failGrants (h det : Nat) (which : GrantWait → Bool) (d : Device) : Device :=
  let ws := d.ws.grantWaits.filter (fun w => decide (w.req.handle = h) && which w)
  let d := { d with ws := { d.ws with grantWaits := d.ws.grantWaits.filter (fun w => !(decide (w.req.handle = h) && which w)) } }
  foldOver (fun (w : GrantWait) d => keyRefuse w.req stKeyExhausted det d) ws d

/-- 17 R363: GRANT_REFUSE from member m: 0 the counter is exhausted, 1 no replica is recorded there. -/
def execGrantRefuse (member : Fin 1024) (s : State) : Host.Outcome State Fault Refusal :=
  s.on fun d =>
    let m := member.val
    takeMessage m 0x42 d fun bs d =>
      let spent := decide (word bs 8 1 = 0)
      match d.grantAsked m (word bs 4 4) with
      | none => d
      | some g =>
        let d := setGrant { g with asked := none, spent := g.spent || spent } d
        if spent then retryGrants g.handle d else failGrants g.handle 1 (fun _ => true) d

/-- 17 R363: signatures with key `handle` that have waited GRANT_WAIT ms complete with KEY_EXHAUSTED, DETAIL 1. -/
def execGrantWaitExpire (handle : BitVec 32) (s : State) : Host.Outcome State Fault Refusal :=
  s.on fun d => failGrants handle.toNat 1 (fun w => decide (w.since + d.grantWaitNs ≤ d.time)) d

/-! ## The home moves (17 R364) -/

/-- 17 R364: REHOME from member m: this device is the key's home from now on and continues from the counter. -/
def execRehome (member : Fin 1024) (s : State) : Host.Outcome State Fault Refusal :=
  s.on fun d =>
    let m := member.val
    takeWhen m 0x43 d (fun _ => d.entropyAvailable) fun bs d =>
      let t := word bs 4 4
      let n := word bs 8 8
      match d.homeOf t, d.keyAttr t with
      | some r, some a =>
        if r.member ≠ m ∨ !a.stateful then d else
        let s := d.slot (handleSlot t)
        let d := { d with ws := { d.ws with
          homes := d.ws.homes.filter (fun x => x.handle ≠ t)
          grantsIn := d.ws.grantsIn.filter (fun g => g.handle ≠ t) } }
        let d := writeSlot (handleSlot t) { s with attr := { a with nextLeaf := n } } d
        let d := notice 0 0x8023 0 t d.wsMember (n % 2 ^ 32) 0 (record 0x8023 0 false t d.wsMember (n % 2 ^ 32) 0 d)
        retryGrants t d
      | _, _ => d

end Sys2Proof.Machine
end

