-- ==== Sys2Proof/Machine/Programs.lean ====
section
/-!
DEFINITION. Sys2Proof/Machine/Programs.lean: owner-routine images and the SRL bundle (03 R78 to R81, 06 R149 to R151, 19 R395).
-/
namespace Sys2Proof.Machine

/-! ## Images (06 R149, Table 6.17) -/

/-- Bytes [o, o+n) of an image are zero. -/
def zeroBytes (img : List Byte) (o n : Nat) : Bool := ((img.drop o).take n).all (fun b => b == 0)

/-- The header of an image. -/
structure ImgHeader where
  routine : Nat
  version : Nat
  textLen : Nat
  dataLen : Nat
  noteLen : Nat
  entry : Nat
  stackTop : Nat
  minLen : Nat
  maxLen : Nat
  paramMask : Nat
  attr : Nat
  flags : Nat
  cost : Nat
  outSize : Nat
  auxLen : Nat
  signer : Nat

def imgHeader (img : List Byte) : ImgHeader := {
  routine := word img 8 2
  version := word img 12 4
  textLen := word img 16 4
  dataLen := word img 20 4
  noteLen := word img 24 4
  entry := word img 28 4
  stackTop := word img 32 4
  minLen := word img 36 4
  maxLen := word img 40 4
  paramMask := word img 44 8
  attr := word img 52 1
  flags := word img 53 1
  cost := word img 56 4
  outSize := word img 60 4
  auxLen := word img 64 4
  signer := word img 68 1 }

/-- Length of the image that a header describes (R149). -/
def ImgHeader.length (h : ImgHeader) : Nat := 4096 + roundUp h.textLen 4096 + roundUp h.dataLen 4096 + roundUp h.noteLen 4096 + 8192

/-- Every field keeps its rule (Table 6.17). -/
def ImgHeader.fieldsOk (h : ImgHeader) : Bool :=
  decide (h.textLen % 4 = 0) && decide (16 ≤ h.textLen) && decide (h.textLen ≤ 65536) && decide (h.dataLen ≤ 253952) && decide (h.noteLen ≤ 12288) &&
    decide (h.entry % 4 = 0) && decide (h.entry < h.textLen) && decide (h.stackTop % 16 = 0) && decide (h.dataLen ≤ h.stackTop) &&
    decide (h.stackTop ≤ 0x3_FC00) && decide (h.minLen ≤ h.maxLen) && (decide (h.maxLen ≤ 0x100_0000) || bitOf h.flags 0) && decide (h.paramMask ≠ 0) &&
    decide (h.attr % 16 ≤ 10) && decide (h.flags < 4) && decide (h.cost ≤ 1_000_000) && decide (h.outSize ≤ 0x100_0000) && decide (h.auxLen ≤ 65536)

/-- MAGIC, FORMAT, HEADER_LEN; reserved and padding bytes zero, those of the signature page too (R149, R150). -/
def imgClean (img : List Byte) (h : ImgHeader) (signed : Bool) : Bool :=
  let t := 4096 + roundUp h.textLen 4096
  let d := t + roundUp h.dataLen 4096
  let n := d + roundUp h.noteLen 4096
  decide (word img 0 4 = 0x3157_5246) && decide (word img 4 2 = 1) && decide (word img 6 2 = 256) && zeroBytes img 10 2 && zeroBytes img 54 2 &&
    zeroBytes img 69 4027 && zeroBytes img (4096 + h.textLen) (t - 4096 - h.textLen) && zeroBytes img (t + h.dataLen) (d - t - h.dataLen) &&
    zeroBytes img (d + h.noteLen) (n - d - h.noteLen) && (if signed then zeroBytes img (n + 4659) 3533 else zeroBytes img n 8192)

/-- The attributes that a header fixes (03 R81; 06, Table 6.17). -/
def ImgHeader.routineAttr (h : ImgHeader) : RoutineAttr := {
  routine := h.routine
  version := h.version
  order := field h.attr 5 4
  usage := h.attr % 16
  takesKey := decide (h.attr % 16 ≠ 0)
  takesCtx := bitOf h.attr 6
  needsRandom := bitOf h.attr 7
  stream := bitOf h.flags 0
  outFixed := bitOf h.flags 1
  outSize := h.outSize
  auxLen := h.auxLen
  cost := h.cost
  textLen := h.textLen
  entry := h.entry
  paramMask := h.paramMask
  minLen := h.minLen
  maxLen := h.maxLen }

/-- What the signature page of an image or a bundle comes to (R150): the signature over all before the page, with its context string, then the
digest of the signer's key. 0, or the DETAIL of VERIFY_FALSE; a digest of another key counts as a mismatch, 3 (DESIGN CHOICE, assumption 12). -/
def signatureEnd (pk : List Byte) (img : List Byte) : Nat :=
  let msg := img.take (img.length - 8192)
  let page := img.drop (img.length - 8192)
  match mldsa87 "KQ FURROW IMAGE" pk msg (page.take 4627) with
  | 0 => if word page 4627 32 = (sha3_256 pk).toNat then 0 else 3
  | r => r

/-- The owner program key: the VERIFY key of allotment 0 that the Base Profile names (03 R79); none: the profile names none. -/
def Device.programKey (d : Device) : Option (List Byte) :=
  match d.md.prof.bind (fun p => p.keys) with
  | some (h, _) => if h = 0 then none else
      (match d.keyAttr h with
       | some a => some (if a.usage = 7 ∧ a.st = 3 ∧ handleAllot h = 0 then d.keyMaterial h else [])
       | none => some [])
  | none => none

/-- Room for owner images in one copy of the program store: 64 MiB less the 32 MiB of the largest bundle (04, Table 4.9; 19 R395). -/
def ownerArea : Nat := 0x200_0000

/-- Bytes of owner images held, those that bound commands still run included. -/
def Device.ownerUsed (d : Device) : Nat := sumBy (fun (x : Nat × OwnerRoutine) => x.2.size) d.routines + sumBy (fun (x : OldImage) => x.size) d.oldImages

/-- The image of routine r leaves the table; while commands are bound to it they still run it. -/
def retireImage (r : Nat) (d : Device) : Device := match Tbl.find d.routines r with
  | none => d
  | some o => { d with
    routines := Tbl.erase d.routines r
    oldImages := d.oldImages ++ [{ routine := r, version := o.attr.version, size := o.size, text := o.text, dataBytes := o.dataBytes }] }

/-- The conditions of R79 in order. -/
def Device.imageRefusal (d : Device) (r len : Nat) (img : List Byte) : Option (Nat × Nat) :=
  let h := imgHeader img
  if r < 0x1000 ∨ 0x1FFF < r then some (stRefused, 0x10)
  else if (match Tbl.find d.routines r with
      | some o => decide (h.version ≤ o.attr.version)
      | none => false) then some (stRefused, 0x11)
  else if !h.fieldsOk ∨ h.routine ≠ r ∨ h.signer ≠ 0 ∨ len ≠ h.length ∨ !imgClean img h true then some (stRefused, 0x12)
  else if ownerArea < d.ownerUsed + len then some (stRefused, 0x13)
  else match d.programKey with
    | none => some (stRefused, 0x14)
    | some pk => match signatureEnd pk img with
      | 0 => none
      | r => some (stVerifyFalse, r)

/-- The new image is in the program store: its text and data section (R149). -/
def storeImage (r mask : Nat) (img : List Byte) (d : Device) : Device :=
  let h := imgHeader img
  let o : OwnerRoutine := {
    attr := h.routineAttr
    allotMask := mask
    digest := sha3_256 img
    size := img.length
    text := (img.drop 4096).take h.textLen
    dataBytes := (img.drop (4096 + roundUp h.textLen 4096)).take h.dataLen }
  let d := retireImage r d
  { d with routines := Tbl.put d.routines r o }

/-- The old image goes at once, or once the commands bound to it have ended; then the admin command completes. -/
def awaitOld (r v : Nat) (d : Device) : Device :=
  settleOne 0 (admWait 0 (.boundGone r v) d)

/-! ## The admin commands (03, Table 3.15) -/

/-- 03 R79: REGISTER_ROUTINE. `data` is what host memory holds there. -/
def execRegisterRoutine (data : List Byte) (s : State) : Host.Outcome State Fault Refusal :=
  s.on fun d => admin 0 0x0040 true (wholeBytes 4 5 ++ wholeBytes 8 19 ++ wholeBytes 24 31) [(8, 4096)] d fun e _ d =>
    let r := bytesAt e 4 2
    let len := bytesAt e 16 4
    let old := (Tbl.find d.routines r).map (fun o => o.attr.version)
    if r < 0x1000 ∨ 0x1FFF < r then admRefuse 0 0x10 d
    else if len < 16384 ∨ 344064 < len then admRefuse 0 0x12 d
    else admRead 0 (bytesAt e 8 8) len d fun d =>
      let img := exactly len data
      match d.imageRefusal r len img with
      | some (st, det) => admDone 0 st 0 det d
      | none =>
        let d := storeImage r (bytesAt e 24 8) img d
        (match old with
         | some v => awaitOld r v { d with routines := Tbl.modify d.routines r (fun o => { o with waitingOld := true }) }
         | none => admDone 0 stOk 0 (imgHeader img).version d)

/-- 03 R80: UNREGISTER_ROUTINE. An ID that names no registered routine resolves to none. -/
def execUnregisterRoutine (s : State) : Host.Outcome State Fault Refusal :=
  s.on fun d => admin 0 0x0041 true (wholeBytes 4 5) [] d fun e _ d =>
    let r := bytesAt e 4 2
    if r < 0x1000 ∨ 0x1FFF < r then admRefuse 0 0x10 d
    else match Tbl.find d.routines r with
      | none => admDone 0 stRoutineAbsent 0 0 d
      | some o => awaitOld r o.attr.version (retireImage r d)

/-- The result record of QUERY_ROUTINE (03, Table 3.16). -/
def routineRecord (st version mask digest : Nat) (t : RoutineAttr) : List Byte :=
  let b := t.usage % 16 + 16 * (t.order % 4) + 64 * b2n t.takesCtx + 128 * b2n t.needsRandom
  toBytes 64 (pack [(1, st), (1, b), (2, 0), (4, version), (8, mask), (8, t.paramMask), (4, t.minLen), (4, t.maxLen), (32, digest)])

/-- What QUERY_ROUTINE reports. Of an SRL routine, the values that only its image header gives are free: order, the digest, and the usage
where the Key column names no single one; the IN_LEN limits are those of Tables 3.10 to 3.14 (assumption 23). -/
def Device.queryRoutine (d : Device) (r : Nat) : List Byte × Device :=
  if isSrl r then
    if d.boot.srlReady then
      let w : Entry := BitVec.ofNat 512 (r * 2 ^ 16)
      let mask := sumBy (fun p => 2 ^ p) (srlParams r)
      let t : RoutineAttr := { usage := if srlKey r = .never ∨ (srlUsage r ≠ 0 ∧ srlUsage r < 11) then srlUsage r else (d.freeVal 4).toNat, order := (Config.freeBits 2 (d.free + 1)).toNat, takesCtx := srlCtx w, needsRandom := srlRandom w, paramMask := mask, minLen := (srlInRange r).1, maxLen := (srlInRange r).2 }
      (routineRecord 1 d.boot.srlVersion (2 ^ 64 - 1) (Config.freeBits 256 (d.free + 2)).toNat t, d.tookFree 3)
    else (zeros 64, d)
  else match Tbl.find d.routines r with
    | some o => (routineRecord (if o.waitingOld then 2 else 1) o.attr.version o.allotMask o.digest.toNat o.attr, d)
    | none => (zeros 64, d)

/-- 03 R78: QUERY_ROUTINE. -/
def execQueryRoutine (s : State) : Host.Outcome State Fault Refusal :=
  s.on fun d => admin 0 0x0042 true (wholeBytes 4 5 ++ wholeBytes 8 15) [(8, 64)] d fun e _ d =>
    let r := d.queryRoutine (bytesAt e 4 2)
    admResult 0 (bytesAt e 8 8) r.1 r.2 (admDone 0 stOk 64 0)

/-! ## The SRL bundle (06 R151, 19 R395) -/

/-- The images of a bundle, one after another: each a whole image with SIGNER 1, an ID of an SRL and an all-zero signature page. -/
def bundleImages : (count : Nat) → List Byte → Bool
  | 0, rest => decide (rest.length = 8192)
  | n + 1, img =>
    let h := imgHeader img
    h.fieldsOk && decide (h.signer = 1) && decide (0x0100 ≤ h.routine) && decide (h.routine ≤ 0x0FFF) && decide (h.length ≤ img.length) &&
      imgClean img h false && bundleImages n (img.drop h.length)

/-- The form of a bundle. -/
def bundleOk (b : List Byte) : Bool :=
  decide (word b 0 4 = 0x4257_5246) && decide (word b 12 4 = b.length) && zeroBytes b 16 4080 && decide (word b 8 4 * 16384 + 12288 ≤ b.length) &&
    bundleImages (word b 8 4) (b.drop 4096) && zeroBytes b (b.length - 3533) 3533

/-- Lyngaen's fused SRL key. -/
def srlKeyBytes : List Byte := toBytes 2592 Config.srlKey

/-- Generation of the SRL copy that LOAD_SRL writes next, and the copies after it: the one of lower generation is replaced (19 R395). -/
def srlCommit (v : Nat) (l : List (Nat × Nat)) : List (Nat × Nat) :=
  let g := l.foldl (fun m x => max m x.1) 0 + 1
  match l with
  | [x, y] => if x.1 < y.1 then [(g, v), y] else [x, (g, v)]
  | _ => l ++ [(g, v)]

/-- 03 R79, 19 R395: LOAD_SRL. `data` is what host memory holds there. -/
def execLoadSrl (data : List Byte) (s : State) : Host.Outcome State Fault Refusal :=
  s.on fun d => admin 0 0x0043 true (wholeBytes 8 19) [(8, 4096)] d fun e _ d =>
    let len := bytesAt e 16 4
    if 0x200_0000 < len then admRefuse 0 0x13 d
    else if len < 12288 then admRefuse 0 0x12 d
    else admRead 0 (bytesAt e 8 8) len d fun d =>
      let b := exactly len data
      let v := word b 4 4
      let old := d.boot.srlVersion
      if d.boot.srlReady ∧ v ≤ old then admRefuse 0 0x11 d
      else if !bundleOk b then admRefuse 0 0x12 d
      else if signatureEnd srlKeyBytes b ≠ 0 then admDone 0 stVerifyFalse 0 (signatureEnd srlKeyBytes b) d
      else
        let was := d.boot.srlReady
        let d := { d with boot := { d.boot with srl := srlCommit v d.boot.srl, srlReady := true, srlVersion := v } }
        if was then awaitOld 0 old d else admDone 0 stOk 0 v d

end Sys2Proof.Machine
end

