-- ==== Sys2Proof/Machine/Board.lean ====
section
/-!
DEFINITION. Sys2Proof/Machine/Board.lean: the board-management target (20 R420 to R422) and the TAPs (20 R423, R424).
-/
namespace Sys2Proof.Machine

/-! ## Words that board management and the register map share -/

/-- The part number (00, Table 0.1; 20 R420). -/
def partNumber (p : Part) : Nat := match p with
  | .kq128 => 0x0128
  | .kq96 => 0x0096

/-- Engines that the part exposes. -/
def partEngines (p : Part) : Nat := match p with
  | .kq128 => 128
  | .kq96 => 96

/-- The boundary-scan IDCODE (20 R423). -/
def idcode (p : Part) : Nat := match p with
  | .kq128 => 0x1012_8D4F
  | .kq96 => 0x1009_6D4F

/-- DEV_ID and DEV_REV (19, Table 19.7). -/
def Device.devId (d : Device) : Nat := 0x1D7B + partNumber d.part * 2 ^ 16
def Device.devRev (d : Device) : Nat := 0xB1 + partEngines d.part * 2 ^ 8

/-- DEV_MODE (18, Table 18.15). -/
def Device.devMode (d : Device) : Nat :=
  let t := match d.md.change with
    | some c => c.target.code
    | none => 0
  d.md.mode.code + t * 2 ^ 4 + b2n (d.md.change.isSome || d.md.profPending.isSome) * 2 ^ 8 + b2n d.modeHolds * 2 ^ 9

/-- DEV_STATUS (19, Table 19.7). -/
def Device.devStatus (d : Device) : Nat :=
  let b := d.boot
  let flags := [b.cusReady, b.flumeUp && (d.fl.sub0.up || d.fl.sub1.up), b.entropyReady, b.cdReady, b.rsvReady, b.srlReady, d.md.prof.isSome, b.configReady,
    b.serviceReady, d.md.debugPause.isSome, b.fail]
  let low := (flags.zipIdx.map (fun x => b2n x.1 * 2 ^ x.2)).foldl (fun x y => x + y) 0
  low + b.failStep * 2 ^ 16 + b.attempt * 2 ^ 20

/-! ## The board-management target -/

/-- VDDIO and VDD_KD are in range and the transaction is not cut off by PWRGOOD (20 R420, Table 20.13). -/
def Device.bmcRuns (d : Device) : Bool := bitOf d.boot.rails 1 && bitOf d.boot.rails 7 && d.boot.pwrgood

/-- One byte more of the packet error code of SMBus: CRC-8 with x^8 + x^2 + x + 1 (PRESUMED, assumption 79). -/
def crc8 (c b : Nat) : Nat :=
  (List.range 8).foldl (fun x _ => if 128 ≤ x then ((2 * x) % 256) ^^^ 7 else 2 * x) (c ^^^ b)

/-- The PEC of a block read: over both address bytes of 0x2C, the command, the byte count and the data. -/
def smbusPec (cmd : Nat) (data : List Byte) : Nat :=
  ([0x58, cmd, 0x59, data.length] ++ data.map (fun b => b.toNat)).foldl crc8 0

/-- A read of n bytes of a command: the leftmost bytes of its data; in the I²C form one byte more than the block is the PEC (20 R420, R421). -/
def Device.bmcBytes (d : Device) (cmd n : Nat) (data : List Byte) : List Byte :=
  data.take n ++ (if d.brd.i3cAddr.isNone ∧ data.length < n then [BitVec.ofNat 8 (smbusPec cmd data)] else [])

/-- A read answers its bytes. -/
def bmcRead (cmd n : Nat) (data : List Byte) (d : Device) : Device := if d.bmcRuns then d.emit (.bmc (d.bmcBytes cmd n data)) else d

/-- The Provisional ID (20 R420): 0x01A7, 0, the part, 0, the low bits of the serial number. -/
def Device.provisionalId (d : Device) : Nat := 0x01A7 * 2 ^ 33 + partNumber d.part * 2 ^ 16 + Config.serial.toNat % 2 ^ 12

/-- What the target sends in ENTDAA: its Provisional ID, most significant byte first, BCR and DCR. -/
def Device.daaBytes (d : Device) : List Byte := (toBytes 6 d.provisionalId).reverse ++ [0x06, 0x00]

/-- 20 R420: ENTDAA, in which the target sends its Provisional ID, BCR and DCR, or SETDASA gives it a dynamic address. -/
def execBmcDaa (addr : BitVec 7) (setdasa : Bool) (s : State) : Host.Outcome State Fault Refusal :=
  s.on fun d =>
    if !d.bmcRuns then d else
    let d := if setdasa then d else d.emit (.bmc d.daaBytes)
    { d with brd := { d.brd with i3cAddr := some addr.toNat } }

/-- 20 R420: RSTDAA. -/
def execBmcRstdaa (s : State) : Host.Outcome State Fault Refusal :=
  s.on fun d => if d.bmcRuns then { d with brd := { d.brd with i3cAddr := none } } else d

/-- 20, Table 20.11: IDENTITY. -/
def execBmcIdentity (n : Fin 34) (s : State) : Host.Outcome State Fault Refusal :=
  s.on fun d => bmcRead 1 n (toBytes 4 d.devId ++ toBytes 4 d.devRev ++ toBytes 8 Config.serial.toNat ++ toBytes 4 (idcode d.part) ++ zeros 12) d

/-- 20, Table 20.11: TEMPERATURE. `temps` is LEV_TEMP and `hotspot` the compute die's reading as the sensors give them. -/
def execBmcTemperature (n : Fin 10) (temps : BitVec 32) (hotspot : BitVec 8) (s : State) : Host.Outcome State Fault Refusal :=
  s.on fun d =>
    let d := if d.bmcRuns then { d with lev := { d.lev with temps := temps.toNat } } else d
    let hot := if d.stopped then 0x80 else hotspot.toNat
    bmcRead 2 n (toBytes 4 temps.toNat ++ toBytes 1 hot ++ toBytes 1 (b2n d.flt.thermWarn + 2 * b2n d.flt.thermCrit) ++ zeros 2) d

/-- 20, Table 20.11: RAILS. -/
def execBmcRails (n : Fin 6) (s : State) : Host.Outcome State Fault Refusal :=
  s.on fun d => bmcRead 3 n (toBytes 4 (d.boot.rails + b2n d.boot.pwrgood * 2 ^ 9)) d

/-- 20, Table 20.11: MODE. -/
def execBmcMode (n : Fin 10) (s : State) : Host.Outcome State Fault Refusal :=
  s.on fun d => bmcRead 4 n (toBytes 4 d.devMode ++ toBytes 4 d.devStatus) d

/-- 20, Table 20.11: HEALTH. -/
def execBmcHealth (n : Fin 6) (s : State) : Host.Outcome State Fault Refusal :=
  s.on fun d =>
    bmcRead 5 n (toBytes 4 (b2n d.flt.alive + 2 * b2n d.holdN + 4 * b2n d.flt.fatal.isSome + 8 * b2n d.leveeHold + 16 * b2n d.flt.wedged)) d

/-- 20, Table 20.11: LAST_FATAL. -/
def execBmcLastFatal (n : Fin 34) (s : State) : Host.Outcome State Fault Refusal :=
  s.on fun d => bmcRead 6 n (toBytes 32 d.flt.lastFatal.toNat) d

/-- 20, Table 20.11; 16 R350: EVR_SEEK moves the board window. -/
def execBmcEvrSeek (seq : BitVec 32) (s : State) : Host.Outcome State Fault Refusal :=
  s.on fun d => if d.bmcRuns then { d with evr := { d.evr with bmc := cursorWrite d seenByBmc seq.toNat d.evr.bmc } } else d

/-- 20, Table 20.11: EVR_READ answers the latched record and advances. -/
def execBmcEvrRead (n : Fin 34) (s : State) : Host.Outcome State Fault Refusal :=
  s.on fun d =>
    if !d.bmcRuns then d else
    let d := bmcRead 8 n (toBytes 32 d.evr.bmc.data.toNat) d
    { d with evr := { d.evr with bmc := windowAdvance d seenByBmc d.evr.bmc } }

/-- 20, Table 20.11: EVR_STATUS. -/
def execBmcEvrStatus (n : Fin 14) (s : State) : Host.Outcome State Fault Refusal :=
  s.on fun d =>
    let w := d.evr.bmc
    bmcRead 9 n (toBytes 4 (b2n w.valid + 2 * b2n w.atEnd + 4 * b2n w.gap) ++ toBytes 4 d.evr.next ++ toBytes 4 d.evr.oldest) d

/-- 20 R422, Table 20.11: ALERT answers the causes and clears them. -/
def execBmcAlert (n : Fin 6) (s : State) : Host.Outcome State Fault Refusal :=
  s.on fun d =>
    if !d.bmcRuns then d else
    let d := bmcRead 10 n (toBytes 4 d.brd.alerts) d
    { d with brd := { d.brd with alerts := 0 } }

/-- Commands of Table 20.11 and whether each is a read. -/
def bmcListed (code : Nat) (write : Bool) : Bool := decide (1 ≤ code) && decide (code ≤ 10) && (write == decide (code = 7))

/-- 20 R421: a command that is not listed, or a write to a read command, is not acknowledged. -/
def execBmcUnknownCommand (code : BitVec 8) (write : Bool) (s : State) : Host.Outcome State Fault Refusal :=
  s.on fun d => if d.bmcRuns && !bmcListed code.toNat write then d.emit .nack else d

/-! ## Boundary scan (20 R423, Table 20.12) -/

/-- Load an instruction code. -/
def tapLoad (code : Nat) (d : Device) : Device := { d with brd := { d.brd with tap := code } }

/-- The instruction in effect: EXTEST, CLAMP and HIGHZ only while RESET_N is low; every other code acts as BYPASS. -/
def Device.tapActs (d : Device) : Nat :=
  let c := d.brd.tap
  if c = 1 ∨ c = 2 then c
  else if (c = 3 ∨ c = 4 ∨ c = 5) ∧ !d.boot.resetN then c
  else 0xFF

/-- 20 R423: BYPASS, by its code or by any code that Table 20.12 does not list. -/
def execTapBypass (code : BitVec 8) (s : State) : Host.Outcome State Fault Refusal :=
  s.on fun d => if 1 ≤ code.toNat ∧ code.toNat ≤ 5 then d else tapLoad code.toNat d

/-- 20 R423: IDCODE. -/
def execTapIdcode (s : State) : Host.Outcome State Fault Refusal := s.on fun d => (tapLoad 0x01 d).emit (.tap (idcode d.part))

/-- 20 R423: SAMPLE/PRELOAD: the bits shifted in wait for EXTEST. -/
def execTapSamplePreload (bits : List Bool) (s : State) : Host.Outcome State Fault Refusal :=
  s.on fun d =>
    let d := tapLoad 0x02 d
    { d with brd := { d.brd with preload := bits } }

/-- 20 R423: EXTEST. -/
def execTapExtest (s : State) : Host.Outcome State Fault Refusal := s.on fun d => tapLoad 0x03 d
/-- 20 R423: CLAMP. -/
def execTapClamp (s : State) : Host.Outcome State Fault Refusal := s.on fun d => tapLoad 0x04 d
/-- 20 R423: HIGHZ. -/
def execTapHighz (s : State) : Host.Outcome State Fault Refusal := s.on fun d => tapLoad 0x05 d

/-- 20 R424: an instruction shifted into the debug TAP. Outside Debug mode any but BYPASS and IDCODE is a Levee event of source 17. -/
def execDebugTapInstruction (code : BitVec 8) (s : State) : Host.Outcome State Fault Refusal :=
  s.on fun d =>
    let c := code.toNat
    let shift (v : Nat) (d : Device) : Device := { d with brd := { d.brd with debugTap := v } }
    if c = 0x01 then (shift c d).emit (.tap (idcode d.part))
    else if c = 0xFF ∨ d.md.mode = .debug then shift c d
    else
      let d := shift 0xFF d
      if d.levRuns 17 then levEvent 17 true d else d

end Sys2Proof.Machine
end

