-- ==== Sys2Proof/Machine/RegMap.lean ====
section
/-!
DEFINITION. Sys2Proof/Machine/RegMap.lean: what every word of BAR0 and of the allotment page reads as (21 R427, R434, with the field tables of each
chapter), the side effects of a read (21 R431), and the reads that clear a counter (00 R6).
-/
namespace Sys2Proof.Machine

/-! ## Helpers -/

/-- Word i of a number. -/
def wordOf (x i : Nat) : Nat := (x / 2 ^ (32 * i)) % 2 ^ 32

/-- Fields laid side by side: (bit, value). -/
def fieldsOf : List (Nat × Nat) → Nat
  | [] => 0
  | (b, v) :: t => v * 2 ^ b + fieldsOf t

/-- A counter word whose halves may be counted apart: the upper half under its bit position. -/
def Device.counted (d : Device) (o : Nat) : Nat := d.count o + d.count (o + 16 * 2 ^ 32) * 2 ^ 16

/-! ## DEV, CLK/PWR, QM and the allotment policy table -/

/-- 19, Table 19.7; 18, Table 18.15. -/
def readDev (o : Nat) (d : Device) : Nat := match o with
  | 0x00 => d.devId
  | 0x04 => d.devRev
  | 0x08 => d.devStatus
  | 0x0C => d.boot.resetCause
  | 0x10 => d.devMode
  | 0x14 => d.boot.doneUs
  | _ => 0

/-- 21, Table 21.5. -/
def readClk (o : Nat) (d : Device) : Nat := match o with
  | 0x0001_0000 => fieldsOf [(0, b2n d.boot.rootLock), (1, b2n d.boot.pcieLock), (2, b2n (d.boot.rootLock && field (d.reg 0x000D_0100) 2 0 != 0)),
      (3, b2n (d.boot.rootLock && field (d.reg 0x000D_0140) 2 0 != 0)), (4, b2n d.fl.fallback)]
  | 0x0001_0008 => fieldsOf [(0, d.boot.rails), (9, b2n d.boot.pwrgood), (10, b2n d.boot.droop)]
  | _ => d.count o

/-- 02, Tables 2.26 to 2.28; 14, Table 14.8. -/
def readQm (o : Nat) (d : Device) : Nat :=
  if o = 0x0002_0000 then d.cmds.length
  else if o = 0x0002_0004 then d.sqs.length + d.cqs.length * 2 ^ 16
  else if o = 0x0002_0008 then d.count o
  else if 0x0002_1000 ≤ o ∧ o < 0x0002_1400 ∧ o % 16 = 12 then min ((d.allot ((o - 0x0002_1000) / 16)).engTime / 2000) 0xFFFF_FFFF
  else readWord o d

/-! ## Engines, Laterals, the Sluice -/

/-- ENG_STATUS.STATE (05, Table 5.11). -/
def EngState.code : EngState → Nat
  | .absent => 0
  | .spare => 1
  | .idle => 2
  | .running => 3
  | .saving => 4
  | .restoring => 5
  | .fenced => 6
  | .underTest => 7

/-- A word of engine e's page (05, Table 5.11; 08, Table 8.12). -/
def readEng (e r o : Nat) (d : Device) : Nat :=
  let g := d.eng e
  match r with
  | 0x000 => fieldsOf [(0, g.st.code), (8, g.allot), (16, g.shares)]
  | 0x004 => fieldsOf [(0, g.routine), (16, g.param)]
  | 0x008 => fieldsOf [(0, sumBy (fun (i : Resident) => i.pages) g.resident), (8, g.resident.length)]
  | 0x010 => wordOf g.busy 0
  | 0x014 => wordOf g.busy 1
  | 0x024 => fieldsOf [(0, g.mg.blocks), (25, b2n g.mg.seeded), (26, b2n g.mg.atLimit), (27, b2n g.mg.reqPending)]
  | _ => d.counted o

/-- LAT and SLU words (05, Tables 5.12, 5.13). -/
def readLat (o : Nat) (d : Device) : Nat :=
  if o < 0x000F_8000 then
    let l := (o - 0x000F_4000) / 0x100
    match o % 0x100 with
    | 0x00 => fieldsOf [(0, d.latInService l), (4, d.latSpares l), (8, d.latFenced l), (12, b2n (d.latShort l))]
    | 0x04 => (d.lat l).ready.length
    | 0x08 => fieldsOf [(0, (d.lat l).sb.length), (16, (d.lat l).sbHigh)]
    | 0x0C => (d.lat l).imprecise
    | _ => 0
  else if o = 0x000F_8010 then countWhere (fun (x : Nat × Cmd) => x.2.saved.isSome) d.cmds
  else if o = 0x000F_8000 then d.reg o
  else d.count o

/-! ## LIU and DIG -/

/-- Units of a class that are fenced; under test. -/
def Device.fencedUnits (d : Device) (cls n : Nat) : Nat := countWhere (fun i => (d.unit cls i).fenced) (List.range n)
def Device.outUnits (d : Device) (cls n : Nat) : Nat := countWhere (fun i => (d.unit cls i).fenced || (d.unit cls i).testing) (List.range n)

/-- 10, Tables 10.14, 10.15. -/
def readLiu (o : Nat) (d : Device) : Nat :=
  if o < 0x0006_2000 then
    let k := (o - 0x0006_0000) / 0x100
    let u := d.liu k
    let st := if (d.unit 1 k).testing then 3 else if (d.unit 1 k).fenced then 2 else if u.bound.isSome then 1 else 0
    match o % 0x100 with
    | 0x00 => fieldsOf [(0, st), (8, u.allot), (16, u.eng), (31, b2n u.saved)]
    | 0x04 => u.n
    | 0x10 => wordOf u.busy 0
    | 0x14 => wordOf u.busy 1
    | _ => d.count o
  else if o = 0x0006_4000 then
    fieldsOf [(0, 32 - d.outUnits 1 32), (8, countWhere (fun (x : Nat × Liu) => x.2.bound.isSome) d.lius), (16, d.fencedUnits 1 32)]
  else if o = 0x0006_4004 then fieldsOf [(0, d.liuWait.length), (16, d.liuHigh)]
  else 0

/-- 11, Tables 11.10, 11.11. -/
def readDig (o : Nat) (d : Device) : Nat :=
  if o < 0x0007_0800 then
    let g := d.dig ((o - 0x0007_0000) / 0x100)
    let r := o % 0x100
    if 0x40 ≤ r ∧ r < 0x80 then (if g.done && !g.earlyRead then word g.result (r - 0x40) 4 else 0) else
    match r with
    | 0x00 => fieldsOf [(0, g.st), (2, b2n g.busyFlag), (3, b2n g.done), (4, b2n g.earlyRead), (5, b2n g.matched), (6, b2n g.short), (7, b2n g.long), (8, b2n g.access)]
    | 0x04 => fieldsOf [(0, g.alg), (4, b2n g.cshake), (5, b2n g.compare), (8, g.outLen)]
    | 0x08 => g.len
    | 0x0C => g.srcLen
    | 0x10 => wordOf g.src 0
    | 0x14 => wordOf g.src 1
    | 0x18 => fieldsOf [(0, g.allot), (8, g.eng)]
    | 0xC8 => wordOf g.busy 0
    | 0xCC => wordOf g.busy 1
    | _ => if r < 0xC0 then 0 else d.count o
  else match o with
    | 0x0007_1000 => d.reg o
    | 0x0007_1004 => fieldsOf [(0, 8 - d.outUnits 2 8), (8, d.fencedUnits 2 8)]
    | 0x0007_1008 => fieldsOf [(0, d.digWait.length), (16, d.digHigh)]
    | 0x0007_100C => d.digSlotSel
    | 0x0007_1010 => fieldsOf [(0, (d.allot d.digSlotSel).digSlots), (16, (d.allot d.digSlotSel).digSlotsHigh)]
    | _ => 0

/-! ## HG, RSV, CTX -/

/-- 14, Tables 14.9, 14.10. -/
def readHg (o : Nat) (d : Device) : Nat :=
  if o < 0x0008_0540 then
    let n := (o - 0x0008_0000) / 16
    let g := d.gate n
    match o % 16 with
    | 0 => b2n g.close
    | 4 => fieldsOf [(0, b2n g.close), (1, b2n g.drained), (2, b2n (d.isLocked (0x0008_0000 + 16 * n))), (3, b2n (g.badRegions != [])), (16, min g.waiting.length 4095)]
    | 8 => g.viol
    | _ => g.timeouts
  else if o = 0x0008_1000 then d.reg o
  else if o = 0x0008_1004 then fieldsOf [(0, d.dselGate), (16, d.dselRegion), (24, d.dselCause), (31, b2n d.dselErr)]
  else if 0x0008_1010 ≤ o ∧ o < 0x0008_1030 then bytesAt ((d.gate d.dselGate).region d.dselRegion) (o - 0x0008_1010) 4
  else 0

/-- 04, Tables 4.14 to 4.16. -/
def readRsv (o : Nat) (d : Device) : Nat :=
  let r := d.rsv
  match o with
  | 0x0009_0000 => fieldsOf [(0, b2n r.trained), (1, b2n r.selfRefresh)]
  | 0x0009_0004 => d.reg o
  | 0x0009_0008 | 0x0009_000C => d.count o
  | 0x0009_0010 => fieldsOf [(0, r.retired), (16, r.spares)]
  | 0x0009_0018 => fieldsOf [(0, r.opPage), (29, b2n r.opRetire), (30, b2n r.opBusy), (31, b2n r.opErr)]
  | _ => readWord o d

def readCtx (o : Nat) (d : Device) : Nat :=
  if o < 0x000A_0200 then (if o % 8 = 4 then d.ctxUsed ((o - 0x000A_0000) / 8) else readWord o d)
  else if o = 0x000A_0200 then d.count o
  else 0

/-! ## FLT (15, Tables 15.13, 15.14) -/

/-- FLT_UNIT_OP.STATE of a unit. -/
def Device.unitCode (d : Device) (cls i : Nat) : Nat :=
  let u := d.unit cls i
  if u.testing then 3 else if u.retired then 4 else if u.fenced then 2
  else if cls = 0 ∧ (d.eng i).st = .spare then 1 else 0

def readFlt (o : Nat) (d : Device) : Nat :=
  let f := d.flt
  if 0x000C_0400 ≤ o ∧ o < 0x000C_0500 then (d.allot ((o - 0x000C_0400) / 4)).replayCount
  else if 0x000C_0820 ≤ o ∧ o < 0x000C_0840 then bytesAt (d.histAt f.histAge) (o - 0x000C_0820) 4
  else if 0x000C_0840 ≤ o ∧ o < 0x000C_0860 then bytesAt f.lastFatal (o - 0x000C_0840) 4
  else match o with
    | 0x000C_0000 => fieldsOf [(0, b2n f.fatal.isSome), (1, b2n (decide (d.md.mode = .lowFlow))), (2, b2n d.holdN), (3, b2n f.thermWarn), (4, b2n d.anyShort)]
    | 0x000C_0010 => fieldsOf [(0, f.injSource), (8, f.injUnit), (28, b2n f.injErr), (30, b2n f.injPending)]
    | 0x000C_0020 => fieldsOf [(0, f.unitCls), (8, f.unitIdx)]
    | 0x000C_0024 => fieldsOf [(0, f.unitOp), (9, b2n (d.unitBusy f.unitCls f.unitIdx)), (10, b2n (d.unit f.unitCls f.unitIdx).lastPass), (11, b2n f.unitErr), (12, f.unitCause), (16, d.unitCode f.unitCls f.unitIdx)]
    | 0x000C_0030 | 0x000C_0034 => d.count o
    | 0x000C_0800 => f.cPend
    | 0x000C_0804 => f.uPend
    | 0x000C_0808 => d.reg o
    | 0x000C_0810 => f.histAge
    | 0x000C_0860 => f.countF
    | 0x000C_0864 => f.seq
    | _ => 0

/-! ## WS (17, Table 17.14) and PCI extras (21, Table 21.6) -/

def readWs (o : Nat) (d : Device) : Nat :=
  let r := o - 0x000D_0000
  let t : Tmpl := Tbl.get {} d.ws.tmpls d.ws.tmplSel
  let p := d.peer d.ws.peerSel
  if r = 0x100 ∨ r = 0x140 then
    let base := (r - 0x100) / 0x10
    d.reg o + sumBy (fun s => b2n (Tbl.get false d.ws.linkUp (base + s)) * 2 ^ (8 + s)) (List.range 4)
  else if 0x100 ≤ r ∧ r < 0x180 then d.count o
  else if 0x240 ≤ r ∧ r < 0x288 then bytesAt t.bytes (r - 0x240) 4
  else match r with
    | 0x010 => fieldsOf [(0, b2n d.ws.credOk), (1, b2n (d.cis.durOk && !decide (d.md.mode = .debug))), (2, b2n d.wsActive), (16, d.channels)]
    | 0x200 => d.ws.tmplSel
    | 0x204 => fieldsOf [(0, t.kind), (2, t.len), (9, t.link), (16, b2n t.valid)]
    | 0x300 => d.ws.peerSel
    | 0x304 => fieldsOf [(0, p.tmplP0), (8, p.tmplP1), (16, b2n p.useP0), (17, b2n p.useP1), (18, b2n p.en)]
    | 0x308 => fieldsOf [(0, p.st), (8, p.reason)]
    | 0x310 => d.migsOpen
    | _ => if (storedWord o 0).isSome then d.reg o else 0

/-- PCI_LINK.SPEED of a rate in GT/s. -/
def linkSpeed (gts : Nat) : Nat := if gts = 64 then 6 else if gts = 32 then 5 else if gts = 16 then 4 else if gts = 8 then 3 else if gts = 5 then 2 else 1

def readPci (o : Nat) (d : Device) : Nat :=
  let gts := d.boot.linkState % 256
  let up := d.boot.pcieLink
  let flr (lo : Nat) : Nat := sumBy (fun i => b2n (d.allot (lo + i)).flr.isSome * 2 ^ i) (List.range 32)
  match o with
  | 0x000E_0000 => if up then fieldsOf [(0, linkSpeed gts), (3, d.boot.linkState / 256), (8, b2n (decide (gts = 64))), (9, 1)] else 0
  | 0x000E_0004 => fieldsOf [(0, b2n d.boot.vfEnable), (1, d.boot.numVfs)]
  | 0x000E_0008 => flr 0
  | 0x000E_000C => flr 32
  | 0x000E_0010 => d.counted o
  | _ => 0

/-! ## The custody window -/

/-- 13, Table 13.18. -/
def readCis (o : Nat) (d : Device) : Nat :=
  let r := o - 0x0010_0000
  if 0x100 ≤ r ∧ r < 0x200 then readWord o d
  else if 0x200 ≤ r ∧ r < 0x300 then d.cisUsed ((r - 0x200) / 4)
  else match r with
    | 0x00 => fieldsOf [(0, b2n d.cis.kerOk), (1, b2n d.cis.durOk), (2, b2n d.cis.testRoot), (16, countWhere (fun (x : Nat × CisSlot) => decide (x.2.attr.st ≠ 0)) d.cis.slots)]
    | 0x04 => d.cis.updates
    | 0x08 => countWhere (fun (x : Nat × CisSlot) => x.2.unreadable) d.cis.slots
    | 0x0C => countWhere (fun (x : Nat × CisSlot) => decide (x.2.attr.st = 2)) d.cis.slots + countWhere (fun (x : Nat × SsObj) => decide (x.2.attr.st = 2)) d.ss.objs
    | 0x10 => d.cis.leaves
    | 0x14 => d.cis.burned
    | _ => 0

/-- 16, Table 16.11. -/
def readLev (o : Nat) (d : Device) : Nat :=
  let r := o - 0x0011_0000
  let bits (f : LevSource → Bool) : Nat := sumBy (fun s => b2n (f (d.levSrc s)) * 2 ^ s) (List.range 18)
  if 0x100 ≤ r ∧ r < 0x190 then d.reg o
  else if 0x200 ≤ r ∧ r < 0x248 then d.count o
  else match r with
    | 0x00 => fieldsOf [(0, d.lev.union), (8, b2n (decide (d.lev.battCfg = d.battWords))), (9, b2n d.lev.zaPending)]
    | 0x04 => fieldsOf [(1, b2n d.lev.ctrlErr)]
    | 0x08 => bits (fun x => x.fired)
    | 0x0C => bits (fun x => x.testSeen)
    | 0x10 => fieldsOf [(31, b2n d.lev.stimErr)]
    | 0x14 => d.reg o
    | 0x18 => d.lev.temps
    | 0x1C => fieldsOf [(0, d.lev.copied), (16, d.lev.overflow)]
    | _ => 0

/-- VALID, END and GAP of a window. -/
def EvrWin.status (w : EvrWin) : Nat := fieldsOf [(0, b2n w.valid), (1, b2n w.atEnd), (2, b2n w.gap)]

/-- 16, Table 16.12. -/
def readEvr (o : Nat) (d : Device) : Nat :=
  let r := o - 0x0012_0000
  let w := d.evr.win
  if 0x10 ≤ r ∧ r < 0x30 then bytesAt w.data (r - 0x10) 4
  else match r with
    | 0x00 => b2n w.area
    | 0x04 => w.cursor
    | 0x08 => w.status + 8 * b2n (decide (2048 ≤ d.evr.foundation.length))
    | 0x30 => d.evr.next
    | 0x34 => d.evr.oldest
    | 0x38 => fieldsOf [(17, b2n d.evr.clearErr)]
    | 0x3C => d.evr.dropped
    | _ => 0

/-- A source serves: in service and not withdrawn for a test run. -/
def Source.up (s : Source) : Bool := s.inService && s.testing.isNone

/-- 12, Table 12.8. -/
def readWhd (o : Nat) (d : Device) : Nat :=
  let w := d.whd
  let i := d.drbg w.drbgSel
  let r := o - 0x0013_0000
  if 0x30 ≤ r ∧ r < 0x40 then
    let c := (r - 0x30) / 4
    fieldsOf [(0, min (d.entWaiting c) 65535), (16, min (Tbl.get 0 w.waitHigh c) 65535)]
  else match r with
    | 0x00 => fieldsOf [(0, b2n w.main.up), (1, b2n w.fb.up), (2, w.feed), (3, b2n (!w.main.up && !w.fb.up)), (4, b2n d.boot.entropyReady), (5, b2n d.fl.fallback),
        (16, sumBy (fun n => b2n (decide ((d.drbg n).st = 1)) * 2 ^ n) (List.range 16))]
    | 0x04 => d.reg o
    | 0x08 => fieldsOf [(0, w.failsMainRct), (8, w.failsMainApt), (16, w.failsFbRct), (24, w.failsFbApt)]
    | 0x10 => fieldsOf [(2, b2n (w.main.testing.isSome || w.fb.testing.isSome)), (3, b2n w.testPass), (4, b2n w.testErr)]
    | 0x14 => fieldsOf [(0, w.injGroup), (5, b2n w.injFb), (8, b2n w.injErr)]
    | 0x18 => w.pool
    | 0x1C => d.count o
    | 0x20 => w.drbgSel
    | 0x24 => fieldsOf [(0, i.st), (4, i.requests)]
    | 0x28 => i.reseeds
    | 0x40 => d.count o
    | 0x50 => fieldsOf [(0, w.rawGroup), (5, b2n w.rawFb), (7, b2n w.rawDone), (8, b2n w.rawErr)]
    | 0x54 => w.rawCursor
    | 0x58 => (rawData d).1
    | _ => 0

/-- 18, Table 18.16. -/
def readMod (o : Nat) (d : Device) : Nat :=
  let m := d.md
  let r := o - 0x0014_0000
  let open_ := match d.lev.svcOpenUntil with
    | some t => min 30 ((t - d.time + 999_999_999) / 1_000_000_000)
    | none => 0
  let phase := match m.change with
    | some c => c.phase
    | none => 0
  if 0x20 ≤ r ∧ r < 0x40 then (d.overlay ((r - 0x20) / 4)).triples.length
  else if 0x40 ≤ r ∧ r < 0x60 then (match m.prof with
    | some p => bytesAt p.digest (r - 0x40) 4
    | none => 0)
  else if 0x60 ≤ r ∧ r < 0x80 then bytesAt m.ownerDigest (r - 0x60) 4
  else match r with
    | 0x00 => fieldsOf [(0, m.mode.code), (4, m.prev.code), (8, phase), (10, b2n m.owner), (11, b2n m.prof.isSome), (12, b2n m.debugStrap), (13, b2n m.locked), (16, open_)]
    | 0x04 => (match m.prof with
      | some p => p.version
      | none => m.profFloor)
    | 0x08 => (match m.prof with
      | some p => p.gen
      | none => 0)
    | 0x0C | 0x10 => d.count o
    | 0x14 => m.lastWake
    | 0x18 => m.debugCount
    | _ => 0

/-- 13, Table 13.19. -/
def readKst (o : Nat) (d : Device) : Nat :=
  let r := o - 0x0015_0000
  if 0x100 ≤ r ∧ r < 0x200 then d.objCount ((r - 0x100) / 4)
  else match r with
    | 0x00 => fieldsOf [(0, b2n d.ss.attached), (1, b2n d.ss.rootOk), (2, b2n d.ss.recovering), (8, d.ss.journal)]
    | 0x04 => d.ss.blocks
    | 0x08 => d.ss.dataBlocks
    | 0x0C => d.reg o
    | 0x1C => fieldsOf [(0, d.ss.xslots.length), (16, d.ss.slotsHigh)]
    | _ => d.count o

/-! ## BAR0 and the allotment page -/

/-- The value of a BAR0 word (21, Table 21.1); a reserved offset reads 0 (R428). -/
def readReg (o : Nat) (d : Device) : Nat :=
  if o < 0x0001_0000 then readDev o d
  else if o < 0x0002_0000 then readClk o d
  else if o < 0x0004_0000 then readQm o d
  else if o < 0x0006_0000 then
    let p := o - 0x0004_0000
    if p % 0x2000 / 0x400 < 8 then readEng (9 * (p / 0x2000) + p % 0x2000 / 0x400) (p % 0x400) o d else 0
  else if o < 0x0007_0000 then readLiu o d
  else if o < 0x0008_0000 then readDig o d
  else if o < 0x0009_0000 then readHg o d
  else if o < 0x000A_0000 then readRsv o d
  else if o < 0x000B_0000 then readCtx o d
  else if o < 0x000C_0000 then readWord o d
  else if o < 0x000D_0000 then readFlt o d
  else if o < 0x000E_0000 then readWs o d
  else if o < 0x000F_0000 then readPci o d
  else if o < 0x000F_4000 then readEng (9 * ((o - 0x000F_0000) / 0x400) + 8) (o % 0x400) o d
  else if o < 0x0010_0000 then readLat o d
  else if o < 0x0011_0000 then readCis o d
  else if o < 0x0012_0000 then readLev o d
  else if o < 0x0013_0000 then readEvr o d
  else if o < 0x0014_0000 then readWhd o d
  else if o < 0x0015_0000 then readMod o d
  else if o < 0x0016_0000 then readKst o d
  else 0

/-- The Weir that the status window of allotment a shows, if it may see it (04, Table 4.18). -/
def Device.shownWeir (d : Device) (a : Nat) : Option Weir :=
  let w := refillLevel (d.weir (d.allot a).wstSel) d.time
  if a = 0 ∨ w.allot = a then some w else none

/-- The status window (04, Table 4.18). -/
def readWst (a o : Nat) (d : Device) : Nat :=
  match o, d.shownWeir a with
  | 0x5000, _ => (d.allot a).wstSel
  | 0x5004, some w => fieldsOf [(0, 1), (1, b2n w.en), (2, b2n w.unlimited)]
  | 0x5008, some w => ((w.level / 1024) % 2 ^ 32).toNat
  | 0x500C, some w => w.line.length
  | 0x5010, some w => w.shed
  | 0x5014, some w => w.charged
  | _, _ => 0

/-- The value of a word of allotment a's page (21, Table 21.4). -/
def readPage (a o : Nat) (d : Device) : Nat :=
  let t := d.allot a
  let q := t.adm
  let r := t.ntc
  if 0x2000 ≤ o ∧ o < 0x3000 then
    let c := d.cq a ((o - 0x2000) / 4)
    if c.present then fieldsOf [(0, c.head), (16, c.tail)] else 0
  else if 0x6000 ≤ o ∧ o < 0x7000 then
    let s := d.sq a ((o - 0x6000) / 4)
    if s.present then
      fieldsOf [(0, b2n (s.disable || s.error)), (1, b2n s.idle), (2, b2n s.error), (3, 1), (4, b2n s.pend), (5, b2n s.free), (16, s.fetchIdx)]
    else 0
  else if 0x4010 ≤ o ∧ o < 0x4030 then bytesAt t.evwData (o - 0x4010) 4
  else if 0x5000 ≤ o ∧ o < 0x6000 then readWst a o d
  else if 0xE000 ≤ o ∧ o < 0xE200 then
    let v := t.vec ((o - 0xE000) / 16)
    match o % 16 with
    | 0 => wordOf v.addr 0
    | 4 => wordOf v.addr 1
    | 8 => v.data
    | _ => b2n v.mask
  else match o with
    | 0x0000 => fieldsOf [(0, b2n t.ready), (1, b2n (d.heldFor a)), (2, b2n t.flr.isSome), (3, b2n t.badDoorbell)]
    | 0x0004 => fieldsOf [(0, t.sqQuota), (16, t.cqQuota)]
    | 0x0008 => wordOf q.sqBase 0
    | 0x000C => wordOf q.sqBase 1
    | 0x0010 => wordOf q.cqBase 0
    | 0x0014 => wordOf q.cqBase 1
    | 0x0018 => admCtrlWord d a (b2n q.enable) + fieldsOf [(1, b2n q.idle), (2, b2n q.error)]
    | 0x0020 => fieldsOf [(0, q.head), (16, q.tail)]
    | 0x3000 => wordOf r.base 0
    | 0x3004 => wordOf r.base 1
    | 0x3008 => ntcCtrlWord d a (b2n r.enable) + fieldsOf [(1, b2n r.error)]
    | 0x300C => fieldsOf [(0, r.head), (16, r.tail)]
    | 0x3010 => r.lost
    | 0x3014 => r.seq
    | 0x4000 => b2n t.evwArea
    | 0x4004 => t.evwCursor
    | 0x4008 => t.evw.status
    | 0xF000 => sumBy (fun i => b2n (t.vec i).pending * 2 ^ i) (List.range 32)
    | _ => 0

/-! ## Side effects of a read (21 R431; 00 R6) -/

/-- Clear both halves of a counter word. -/
def Device.clearWord (d : Device) (o : Nat) : Device := (d.clearCount o).clearCount (o + 16 * 2 ^ 32)

/-- What a read of a BAR0 word changes: an RC field is cleared, a window advances. -/
def readEffect (o : Nat) (d : Device) : Device :=
  let d := d.clearWord o
  if 0x0002_1000 ≤ o ∧ o < 0x0002_1400 ∧ o % 16 = 12 then
    d.updAllot ((o - 0x0002_1000) / 16) (fun t => { t with engTime := t.engTime % 2000 })
  else if 0x0008_0000 ≤ o ∧ o < 0x0008_0540 then
    if o % 16 = 8 then d.updGate ((o - 0x0008_0000) / 16) (fun g => { g with viol := 0 })
    else if o % 16 = 12 then d.updGate ((o - 0x0008_0000) / 16) (fun g => { g with timeouts := 0 })
    else d
  else if 0x000C_0400 ≤ o ∧ o < 0x000C_0500 then d.updAllot ((o - 0x000C_0400) / 4) (fun t => { t with replayCount := 0 })
  else if 0x000F_4000 ≤ o ∧ o < 0x000F_5000 then
    let l := (o - 0x000F_4000) / 0x100
    if o % 0x100 = 0x08 then d.updLat l (fun t => { t with sbHigh := 0 })
    else if o % 0x100 = 0x0C then d.updLat l (fun t => { t with imprecise := 0 })
    else d
  else if 0x0013_0030 ≤ o ∧ o < 0x0013_0040 then
    { d with whd := { d.whd with waitHigh := Tbl.set 0 d.whd.waitHigh ((o - 0x0013_0030) / 4) 0 } }
  else if 0x0007_0000 ≤ o ∧ o < 0x0007_0800 ∧ 0x40 ≤ o % 0x100 ∧ o % 0x100 < 0x80 then
    d.updDig ((o - 0x0007_0000) / 0x100) (fun g => { g with earlyRead := g.earlyRead || !g.done })
  else match o with
    | 0x0006_4004 => { d with liuHigh := 0 }
    | 0x0007_1008 => { d with digHigh := 0 }
    | 0x0007_1010 => d.updAllot d.digSlotSel (fun t => { t with digSlotsHigh := 0 })
    | 0x000C_083C => { d with flt := { d.flt with histAge := (d.flt.histAge + 1) % 32 } }
    | 0x0010_0004 => { d with cis := { d.cis with updates := 0 } }
    | 0x0010_0010 => { d with cis := { d.cis with leaves := 0 } }
    | 0x0010_0014 => { d with cis := { d.cis with burned := 0 } }
    | 0x0012_002C => { d with evr := { d.evr with win := windowAdvance d (fun _ => true) d.evr.win } }
    | 0x0012_003C => { d with evr := { d.evr with dropped := 0 } }
    | 0x0013_0008 => { d with whd := { d.whd with failsMainRct := 0, failsMainApt := 0, failsFbRct := 0, failsFbApt := 0 } }
    | 0x0013_0028 => d.updDrbg d.whd.drbgSel (fun i => { i with reseeds := 0 })
    | 0x0013_0058 => (rawData d).2
    | 0x0015_001C => { d with ss := { d.ss with slotsHigh := 0 } }
    | _ => d

/-- What a read of a page word changes. -/
def pageEffect (a o : Nat) (d : Device) : Device := match o with
  | 0x3010 => d.updNtc a (fun r => { r with lost := 0 })
  | 0x402C => d.updAllot a (fun t => t.setEvw (windowAdvance d (seenBy a) t.evw))
  | _ => d

/-- Answer a read of a BAR0 word. -/
def answerReg (o : Nat) (d : Device) : Device := readEffect o (d.emit (.readReply 0 o (readReg o d)))
/-- Answer a read of a page word. -/
def answerPage (a o : Nat) (d : Device) : Device := pageEffect a o (d.emit (.readReply a o (readPage a o d)))

end Sys2Proof.Machine
end

