-- ==== Sys2Proof/Machine/Digest.lean ====
section
/-!
DEFINITION. Sys2Proof/Machine/Digest.lean: rows 120, 121 and 270 to 276: digest jobs, jwait, and the register-level jobs of the bulk digest
engines (11).
-/
namespace Sys2Proof.Machine
open Sys2Proof

/-- 11 R238: submit a bulk digest job. -/
def execJobDigest (e : Fin 144) (rd rs1 : BitVec 5) (s : State) : Host.Outcome State Fault Refusal :=
  s.on fun d => engRun e (fun k t d =>
    let p := (t.getX rs1).toNat
    let ident := t.freeJob
    let j := digJobAt t p k e ident
    if 8 ≤ t.jobs.length then .trap 0x0C 4
    else if !t.readsDone || (digReads p j).any (fun r => t.awaits r.1 r.2) then .stall 0
    else
      let failed (o : JobOut) : Bool := decide (o.unit = 1) && (match o.word with
        | some w => decide (w % 256 = 3) || decide (w % 256 = 5)
        | none => false)
      let job : DigJob := { j with skip := t.jobs.any failed }
      let o : JobOut := { ident := ident, unit := 1, writes := digWrites j }
      let d := { d with digArrive := d.digArrive ++ [job] }
      .next (d.updArch e (fun t => EngArch.setX { t with jobs := t.jobs ++ [o] } rd (BitVec.ofNat 64 ident)))) d

/-- 10 R229, 11 R241, R244: wait for a job and read its status word; a digest job whose lengths differ from the declared one ends the
command here. -/
def execJwait (e : Fin 144) (rd rs1 : BitVec 5) (s : State) : Host.Outcome State Fault Refusal :=
  s.on fun d => engRun e (fun k t d =>
    match firstWhere (fun o => decide (o.ident = (t.getX rs1).toNat)) t.jobs with
    | none => .trap 0x0C 5
    | some o =>
      match o.ends, o.word with
      | some x, _ => .over (endRoutine k x.1 x.2 0 d)
      | none, none => .stall 0
      | none, some w =>
        let d := match d.liuOf k with
          | some u => if o.unit = 0 ∧ (d.liu u).failed = some o.ident then d.updLiu u (fun x => { x with failed := none }) else d
          | none => d
        .next (d.updArch e (fun t => EngArch.setX { t with jobs := t.jobs.filter (fun x => x.ident ≠ o.ident) } rd (BitVec.ofNat 64 w)))) d

/-- 11 R240, R241, R244: the next job reaches the digest queue and is checked. -/
def execDigestJobArrive (s : State) : Host.Outcome State Fault Refusal :=
  s.on fun d => unlessStopped d fun d =>
    match d.digArrive with
    | [] => d
    | j :: rest =>
      let d := { d with digArrive := rest }
      if j.skip then digUnrun j 4 0 d
      else match d.digMalformed j with
        | some r => skipLater j.slot j.ident (digUnrun j 3 r d)
        | none =>
          if j.total = j.declLen then
            let job : DigJob := { j with queued := d.time }
            { d with digWait := d.digWait ++ [job], digHigh := max d.digHigh (d.digWait.length + 1) }
          else
            let st := if j.total < j.declLen then stShort else stLong
            updJobOut j.slot j.ident 1 (fun o => { o with ends := some (st, min j.total 0xFFFF_FFFF) }) (dropStream j d)

/-- An earlier job of the command that is not over uses the same stream, or takes streamed input that this one takes too. -/
def Device.digBehind (d : Device) (j : DigJob) : Bool :=
  let later := d.issuedAfter j.slot j.ident
  let all := d.digArrive ++ d.digWait ++ (List.range 8).filterMap (fun u => (d.dig u).job)
  all.any (fun x => decide (x.slot = j.slot) && decide (x.ident ≠ j.ident) && !later.contains x.ident &&
    (decide (x.stream = j.stream) || (x.streams && j.streams)))

/-- The job can start: nothing of its command is ahead of it, and a slot is free where it needs one (11 R242). -/
def Device.digStartable (d : Device) (j : DigJob) : Bool :=
  !d.digBehind j && (j.finish || j.save.isSome || (d.streamOf j).isSome || decide ((d.allot (d.cmdOr j.slot).allot).digSlots < 256))

/-- A digest engine that takes a job. -/
def Device.digFree (d : Device) (u : Nat) : Bool :=
  decide ((d.dig u).st = 0) && (d.dig u).job.isNone && !(d.dig u).fenceDue && !(d.dig u).faulted && !(d.unit 2 u).fenced && !(d.unit 2 u).testing

/-- Start job j on engine u: resumed from its slot, imported from a blob, begun, or continued from its stream (11 R242, R246). -/
def digStart (u : Nat) (j : DigJob) (d : Device) : Device :=
  let a := (d.cmdOr j.slot).allot
  let d := { d with digWait := dropFirst (fun (x : DigJob) => decide (x.slot = j.slot) && decide (x.ident = j.ident)) d.digWait }
  let slot := if j.start then none else d.streamOf j
  let found : DigState ⊕ Nat := match j.save with
    | some v => if d.accepts j v then .inl v.state else .inr 2
    | none =>
      if j.importB then d.importBlob a j.alg j.blob
      else match slot with
        | some v => if d.accepts j v then .inl v.state else .inr 2
        | none => .inl { alg := j.alg, cshake := j.cshake }
  let d := if j.save.isSome && (d.streamOf j).isNone then giveDigSlots a 1 d else d
  match found with
  | .inr r =>
    let d := skipLater j.slot j.ident (digAnswer j (digStatus 5 false j.preempts r u (j.cycles + 120)) d)
    settleAdmin (d.bump (0x0007_00C0 + 0x100 * u))
  | .inl s =>
    let d := if j.finish then d else openStream j s d
    (digAdvance u (digRunOn u { j with save := none } s (j.save.isSome || j.importB || slot.isSome) d)).2

/-- 11 R246: a free digest engine takes the startable job with the earliest queue time. -/
def execDigestJobStart (u : Fin 8) (s : State) : Host.Outcome State Fault Refusal :=
  s.on fun d => unlessStopped d fun d =>
    if !d.digFree u then d else
    match leastBy (fun j => j.queued) (d.digWait.filter (fun j => d.digStartable j)) with
    | none => d
    | some j => digStart u j d

/-- DIG_SCHED (11, Table 11.11). -/
def Device.digSlice (d : Device) : Nat := field (d.reg 0x0007_1000) 11 0
def Device.digWaitUs (d : Device) : Nat := field (d.reg 0x0007_1000) 23 12

/-- A running job that may be preempted: SLICE is over, a save slot is there (11 R246). -/
def Device.digEligible (d : Device) (u : Nat) : Bool := match (d.dig u).job with
  | none => false
  | some j => decide ((d.dig u).st = 1) && !(d.dig u).faulted && decide ((d.dig u).started + d.digSlice * 1000 ≤ d.time) &&
      ((d.streamOf j).isSome || decide ((d.allot (d.cmdOr j.slot).allot).digSlots < 256))

/-- 11 R246: a job has waited DIG_SCHED.WAIT µs with no digest engine free: of the eligible running jobs, the one that has run longest
exports its state to a slot and waits. -/
def execDigestPreempt (s : State) : Host.Outcome State Fault Refusal :=
  s.on fun d => unlessStopped d fun d =>
    let due := d.digWait.any (fun j => d.digStartable j && decide (j.queued + d.digWaitUs * 1000 ≤ d.time))
    if !bitOf (d.reg 0x0007_1000) 31 || !due || (List.range 8).any (fun u => d.digFree u) then d else
    match leastBy (fun u => (d.dig u).started) ((List.range 8).filter (fun u => d.digEligible u)) with
    | none => d
    | some u =>
      match (d.dig u).job with
      | none => d
      | some j =>
        let a := (d.cmdOr j.slot).allot
        let d := if (d.streamOf j).isNone then takeDigSlots a 1 d else d
        let v := d.exportSave j (j.state.getD {})
        let job : DigJob := { j with queued := d.time, preempts := j.preempts + 1, cycles := j.cycles + 96, state := none, save := some v }
        let d := saveSlot j v { d with digWait := d.digWait ++ [job], digHigh := max d.digHigh (d.digWait.length + 1) }
        settleAdmin (digClear u (d.bump (0x0007_00D0 + 0x100 * u)))

/-- 11 R241 to R245: the job of engine u, once it has absorbed everything, gives its result, verdict, stream state or blob, and its status
word. -/
def execDigestJobEnd (u : Fin 8) (s : State) : Host.Outcome State Fault Refusal :=
  s.on fun d => unlessStopped d fun d =>
    if (d.dig u).faulted then d else
    let r := digAdvance u d
    if r.1 ≠ .all then r.2 else
    let d := r.2
    match (d.dig u).job with
    | none => d
    | some j =>
      let s := j.state.getD {}
      let a := (d.cmdOr j.slot).allot
      let j := { j with cycles := j.cycles + digCycles j }
      let w (hit : Bool) : Nat := digStatus 0 hit j.preempts 0 u j.cycles
      if j.finish then
        let out := digestOf s.alg s.cshake s.absorbed j.outLen
        let d := if j.compare then d else updArchOf j.slot (fun t => t.write j.outOpm out) d
        digOver u j (w (j.compare && decide (out = j.expect))) (dropStream j d)
      else if j.exportB then
        let count := (d.allot a).wrapCount
        let blob := hostBlob (d.keyReg a 1) a s count
        let d := d.updAllot a (fun t => { t with blobs := Tbl.put t.blobs count s })
        digOver u j (w false) (dropStream j (nextWrap a (updArchOf j.slot (fun t => t.write j.blobOpm blob) d)))
      else
        let d := openStream j s d
        digOver u j (w false) (saveSlot j (d.exportSave j s) d)

/-! ## Register-level jobs (11 R250) -/

/-- DIG_CTRL is written; GO runs one job where the engine is under test and runs none. -/
def digCtrl (k v : Nat) (d : Device) : Device :=
  let free := decide ((d.dig k).st = 3) && !(d.dig k).busyFlag
  let d := writeWord (0x0007_0004 + 0x100 * k) (v % 2 ^ 31) d
  if !free || !bitOf v 31 then d else
  d.updDig k (fun g => { g with
    done := decide (g.srcLen ≠ g.len)
    busyFlag := decide (g.srcLen = g.len)
    earlyRead := false
    matched := false
    short := decide (g.srcLen < g.len)
    long := decide (g.len < g.srcLen)
    access := false
    result := [] })

/-- 11 R250: a write of DIG_CTRL with GO. -/
def execDigGo (k : Fin 8) (v : BitVec 31) (s : State) : Host.Outcome State Fault Refusal :=
  s.on fun d => barWrite (0x0007_0004 + 0x100 * k) (2 ^ 31 + v.toNat) false d (digCtrl k (2 ^ 31 + v.toNat))

/-- 11 R250: the register-level job ends. Its source is checked by HG_DIG under allotment 0's regions; a refusal sets ACCESS. An ALG or
OUT_LEN that names no function gives an open result. -/
def execDigRegJobDone (k : Fin 8) (s : State) : Host.Outcome State Fault Refusal :=
  s.on fun d => unlessStopped d fun d =>
    let g := d.dig k
    if !g.busyFlag then d else
    let top := if isShake g.alg then 64 else digLen g.alg
    let good := decide (1 ≤ g.alg) && decide (g.alg ≤ 11) && decide (1 ≤ g.outLen) && decide (g.outLen ≤ top)
    let cs := g.cshake && isShake g.alg
    match checkAll d 81 0 0 false none (linePieces g.src g.len) with
    | (.wait, _, _) => d
    | (.refuse c rg st, p, n) =>
      let d := reportRefusal 81 0 p n 0 (0xD0 + k) c rg st true d
      d.updDig k (fun g => { g with done := true, busyFlag := false, access := true })
    | (.permit, _, _) =>
      let m := d.rsvRead g.src g.len
      let out := if good then digestOf g.alg cs m g.outLen else d.freeBytes (min g.outLen 64)
      let d := if good then d else d.tookFree (min g.outLen 64)
      d.updDig k (fun g => { g with
        done := true
        busyFlag := false
        matched := g.compare && decide (out = padTo g.outLen g.expect)
        result := if g.compare then [] else out })

/-- 11 R250: a read of a DIG_RESULT word; before DONE it gives zero and sets EARLY_READ. -/
def execDigResultRead (k : Fin 8) (u : Fin 16) (s : State) : Host.Outcome State Fault Refusal :=
  s.on fun d => barRead (0x0007_0040 + 0x100 * k + 4 * u) d (answerReg (0x0007_0040 + 0x100 * k + 4 * u))

end Sys2Proof.Machine
end

