-- ==== Sys2Proof/Machine/Bar.lean ====
section
/-!
DEFINITION. Sys2Proof/Machine/Bar.lean: a register write or read at any offset, the register proxy, and the end of a wake, which serves the accesses
held in Retention (21 R428 to R433; 18 R373): rows 365 to 368, 436, 444 and 445.
-/
namespace Sys2Proof.Machine
open Sys2Proof

/-! ## A write at any offset -/

/-- A write of a BAR0 word (21 R428): what the register's chapter gives, or nothing for a locked one. -/
def applyReg (o v : Nat) (d : Device) : Device :=
  if isRwl o && d.isLocked o then lockedWrite o d
  else if 0x0007_0000 ≤ o ∧ o < 0x0007_0800 ∧ o % 256 = 4 then digCtrl ((o - 0x0007_0000) / 256) v d
  else match o with
    | 0x0008_1004 => selectDesc v d
    | 0x0008_102C => commitDesc v d
    | 0x0009_0018 => if bitOf v 28 then pageOp (field v 21 0) (bitOf v 29) d else writeWord o v d
    | 0x000C_0010 =>
      if bitOf v 31 then injectArm (field v 7 0) (field v 15 8) d
      else if bitOf v 29 then injectCancel (field v 7 0) (field v 15 8) d
      else writeWord o v d
    | 0x000C_0024 => if bitOf v 8 then unitsChanged (fltUnitOp (field v 1 0) d) else writeWord o v d
    | 0x000C_0800 => fltAck false v d
    | 0x000C_0804 => fltAck true v d
    | 0x000D_0204 => commitTmpl v d
    | 0x0011_0004 => if bitOf v 0 then levRelease d else d
    | 0x0011_0008 => levFiredClear v d
    | 0x0011_000C => levSeenClear v d
    | 0x0011_0010 => levStim v d
    | 0x0012_0004 => evrCursor v d
    | 0x0012_0038 => if bitOf v 16 then evrClear (field v 15 0) d else d
    | 0x0013_0010 => if bitOf v 0 then startTest false d else if bitOf v 1 then startTest true d else d
    | 0x0013_0014 =>
      if bitOf v 6 then injectFailure (field v 4 0) (bitOf v 5) false d
      else if bitOf v 7 then injectFailure (field v 4 0) (bitOf v 5) true d
      else writeWord o v d
    | 0x0013_0050 => if bitOf v 6 then startCapture (field v 4 0) (bitOf v 5) d else writeWord o v d
    | _ => writeWord o v d

/-- A write of a word of allotment a's page (21, Table 21.4). Offsets 0x10001 and 0x10002 stand for the Function Mask and MSI-X Enable of the
function's configuration space (02 R56). -/
def applyPage (a o v : Nat) (d : Device) : Device :=
  if (d.allot a).flr.isSome then d
  else if 0x1000 ≤ o ∧ o < 0x2000 then sqDoorbell a ((o - 0x1000) / 4) d
  else if 0x2000 ≤ o ∧ o < 0x3000 then cqHeadWrite a ((o - 0x2000) / 4) (v % 65536) d
  else if 0x6000 ≤ o ∧ o < 0x7000 then
    if bitOf v 0 then sqDisable a ((o - 0x6000) / 4) d else sqReenable a ((o - 0x6000) / 4) d
  else match o with
    | 0x0000 => if bitOf v 3 then badDoorbellClear a d else d
    | 0x001C => admDoorbell a d
    | 0x0020 => admCqHeadWrite a (v % 65536) d
    | 0x300C => ntcHeadWrite a (v % 65536) d
    | 0x4004 => evwCursor a v d
    | 0x10001 => msixUnmask a 1 0 (!bitOf v 0) d
    | 0x10002 => msixUnmask a 2 0 (bitOf v 0) d
    | _ => writePage a o v d

/-- An access by function and offset: BAR2 offsets lie above BAR0's by 2^32. -/
def applyWrite (fn off v : Nat) (d : Device) : Device := if off < 2 ^ 32 then applyReg off v d else applyPage fn (off - 2 ^ 32) v d
def applyRead (fn off : Nat) (d : Device) : Device := if off < 2 ^ 32 then answerReg off d else answerPage fn (off - 2 ^ 32) d
def readValue (fn off : Nat) (d : Device) : Nat := if off < 2 ^ 32 then readReg off d else readPage fn (off - 2 ^ 32) d
def readSide (fn off : Nat) (d : Device) : Device := if off < 2 ^ 32 then readEffect off d else pageEffect fn (off - 2 ^ 32) d

/-! ## The end of a wake (18 R373, Table 18.5) -/

/-- 18, Table 18.5 step 6: the wake completes, the unit keys being loaded; held writes are applied in their order, then held reads are answered. -/
def execWakeDone (s : State) : Host.Outcome State Fault Refusal :=
  s.on fun d =>
    if !d.md.waking || !d.keysLoaded then d else
    let w := d.md.heldWrites
    let r := d.md.heldReads
    let d := wakeMode (wakeUp { d with md := { d.md with heldWrites := [], heldReads := [] } })
    let d := foldOver (fun (x : Nat × Nat × Nat) d =>
      if proxied x.2.1 || d.proxyBusy x.1 then proxyAccess x.1 x.2.1 true x.2.2 d else applyWrite x.1 x.2.1 x.2.2 d) w d
    foldOver (fun (x : Nat × Nat) d =>
      if proxied x.2 || d.proxyBusy x.1 then proxyAccess x.1 x.2 false 0 d else applyRead x.1 x.2 d) r d

/-! ## The register proxy (21 R432, R433) -/

/-- The accesses of function fn that wait for nothing any more are carried out in order. -/
def runWaiting (fn : Nat) : List ProxyAcc → Device → Device
  | [], d => d
  | p :: l, d =>
    if p.fn ≠ fn then runWaiting fn l d
    else if p.here then
      let d := { d with fl := { d.fl with proxies := dropFirst (fun x => decide (x.ident = p.ident)) d.fl.proxies } }
      runWaiting fn l (if p.write then applyWrite fn p.offset p.value d else applyRead fn p.offset d)
    else if p.write then d
    else runWaiting fn l d

/-- A proxied access is over. -/
def proxyOver (p : ProxyAcc) (d : Device) : Device :=
  let d := { d with fl := { d.fl with proxies := dropFirst (fun x => decide (x.ident = p.ident)) d.fl.proxies } }
  runWaiting p.fn d.fl.proxies d

def Device.proxyOf (d : Device) (id : Nat) : Option ProxyAcc := firstWhere (fun p => decide (p.ident = id)) d.fl.proxies

/-- 21 R432: a proxied read is made at the custody die. -/
def execRegRead (s : State) : Host.Outcome State Fault Refusal :=
  s.on fun d => takeCustody (fun m => match m with
    | .regRead o fn i => some (o, fn, i)
    | _ => none) d (fun (o, fn, i) d => toCompute (.regReply i (readValue fn o d) true) (readSide fn o d))

/-- 21 R432: a proxied write is made at the custody die; a locked register refuses it. One that the compute die has dropped changes nothing. -/
def execRegWrite (s : State) : Host.Outcome State Fault Refusal :=
  s.on fun d => takeCustody (fun m => match m with
    | .regWrite o fn v i => some (o, fn, v, i)
    | _ => none) d (fun (o, fn, v, i) d =>
      if (d.proxyOf i).isNone then d
      else
        let refused := decide (o < 2 ^ 32) && isRwl o && d.isLocked o
        toCompute (.regReply i 0 (!refused)) (applyWrite fn o v d))

/-- 21 R432: the reply completes the access; one that nobody waits for is discarded. -/
def execRegReply (s : State) : Host.Outcome State Fault Refusal :=
  s.on fun d => takeCompute (fun m => match m with
    | .regReply i v _ => some (i, v)
    | _ => none) d (fun (i, v) d => match d.proxyOf i with
      | none => d
      | some p => proxyOver p (if p.write then d else d.emit (.readReply p.fn (p.offset % 2 ^ 32) v)))

/-- 21 R433: accesses that have no reply after 10 µs: a read completes with all ones, a write is dropped. -/
def execProxyTimeout (s : State) : Host.Outcome State Fault Refusal :=
  s.on fun d =>
    let late := d.fl.proxies.filter (fun p => !p.here && decide (p.since + 10_000 ≤ d.time))
    foldOver (fun (p : ProxyAcc) d => proxyOver p (if p.write then d else d.emit (.readReply p.fn (p.offset % 2 ^ 32) 0xFFFF_FFFF))) late d

/-! ## Host accesses at any offset (21 R428 to R431) -/

/-- A request that completes with Unsupported Request: longer than 8 bytes, or across an 8-byte boundary (21 R429). -/
def overlong (o n : Nat) : Bool := decide (8 < n) || decide (8 < o % 8 + n)

/-- It has no effect but its count in PCI_ERRORS. -/
def refuseRequest (a o : Nat) (bar2 : Bool) (d : Device) : Device :=
  if !d.barLive || (!bar2 && decide (a ≠ 0)) then d
  else (d.bump (0x000E_0010 + 16 * 2 ^ 32) 0xFFFF).emit (.unsupported a o)

/-- 21 R428, R432: a write of one whole word of function a: BAR2, or BAR0, which only the PF exposes. -/
def hostWordWrite (a : Nat) (bar2 : Bool) (o v : Nat) (d : Device) : Device :=
  if bar2 then pageWrite a o v d (applyPage a o v)
  else if a ≠ 0 then d
  else barWrite o v false d (applyReg o v)

/-- 21 R428 to R432: a memory write request of n bytes: a whole word, or two, the lower first; one that covers part of a word is ignored
in full, an overlong one refused. -/
def execRegisterWrite (a : Fin 64) (bar2 : Bool) (o : BitVec 32) (n : BitVec 8) (v : BitVec 64) (s : State) : Host.Outcome State Fault Refusal :=
  s.on fun d =>
    let w := v.toNat
    if overlong o.toNat n.toNat then refuseRequest a o.toNat bar2 d
    else if n = 4 ∧ o.toNat % 4 = 0 then hostWordWrite a bar2 o.toNat (w % 2 ^ 32) d
    else if n = 8 then hostWordWrite a bar2 (o.toNat + 4) (w / 2 ^ 32) (hostWordWrite a bar2 o.toNat (w % 2 ^ 32) d)
    else d

/-- The low words of the 64-bit read-only registers: ENG_BUSY, LIU_BUSY, DIG_BUSY, PCI_FLR (21 R430). -/
def wideRo (o : Nat) : Bool :=
  (decide (0x0004_0000 ≤ o) && decide (o < 0x0006_0000) && decide (o % 0x400 = 0x010)) ||
  (decide (0x000F_0000 ≤ o) && decide (o < 0x000F_4000) && decide (o % 0x400 = 0x010)) ||
  (decide (0x0006_0000 ≤ o) && decide (o < 0x0006_2000) && decide (o % 0x100 = 0x10)) ||
  (decide (0x0007_0000 ≤ o) && decide (o < 0x0007_0800) && decide (o % 0x100 = 0xC8)) ||
  decide (o = 0x000E_0008)

/-- A 4-byte BAR0 read by the PF: the high word that its last read latched, or the register, whose high word a 64-bit one latches. -/
def wideRead (o : Nat) (was : Option (Nat × Nat)) (d : Device) : Device :=
  if was.map Prod.fst = some o then d.emit (.readReply 0 o ((was.map Prod.snd).getD 0))
  else
    let high := readReg (o + 4) d
    let d := answerReg o d
    if wideRo o then d.updAllot 0 (fun t => { t with latch64 := some (o + 4, high) }) else d

/-- 21 R430, R432: a read of one word of function a; `answer` answers a BAR0 word that the compute die holds. -/
def hostWordRead (a : Nat) (bar2 : Bool) (o : Nat) (answer : Device → Device) (d : Device) : Device :=
  if bar2 then pageRead a o d (answerPage a o)
  else if a ≠ 0 then d
  else barRead o d answer

/-- 21 R429 to R432: a memory read request of n bytes, answered by the words it covers, the lower first. A 4-byte read of the low word of
a 64-bit read-only register latches its high word for the function; the read of the high word that follows directly returns it. -/
def execRead64bitLowWord (a : Fin 64) (bar2 : Bool) (o : BitVec 32) (n : BitVec 8) (s : State) : Host.Outcome State Fault Refusal :=
  s.on fun d =>
    let w := o.toNat - o.toNat % 4
    let was := (d.allot a).latch64
    if overlong o.toNat n.toNat then refuseRequest a o.toNat bar2 d
    else if n = 0 then d
    else if n = 4 ∧ o.toNat % 4 = 0 then hostWordRead a bar2 w (wideRead w was) d
    else if o.toNat % 4 + n.toNat ≤ 4 then hostWordRead a bar2 w (answerReg w) d
    else hostWordRead a bar2 (w + 4) (answerReg (w + 4)) (hostWordRead a bar2 w (answerReg w) d)

/-! ## Configuration space (02 R58, Table 2.15) -/

/-- The PCI Express capabilities that Table 2.15 names. -/
inductive PcieCap where
  | pciExpress
  | powerManagement
  | msix
  | sriov
  | ari
  | advancedErrors
  | serialNumber
  | latencyTolerance
  | l1Substates
  | secondary
  | dataLinkFeature
  | phy16
  | phy32
  | phy64
  | laneMargining
  | msi
  | intx
  | ats
  | pri
  | pasid
  | acs
  | resizableBar
  | tph
  | doe
  | ide
deriving DecidableEq, Repr

/-- 02 R58: the capabilities that the PF implements, and a VF: those of Table 2.15 and no others. -/
def PcieCap.present (c : PcieCap) (pf : Bool) : Bool := match c with
  | .pciExpress | .powerManagement | .msix | .ari | .advancedErrors => true
  | .sriov | .serialNumber | .latencyTolerance | .l1Substates | .secondary | .dataLinkFeature | .phy16 | .phy32 | .phy64 | .laneMargining => pf
  | .msi | .intx | .ats | .pri | .pasid | .acs | .resizableBar | .tph | .doe | .ide => false

/-- The figures of Table 2.15: Max Payload Size, Max Read Request, RCB in bytes; tag bits; vectors of a function; TotalVFs and InitialVFs; the size of a
VF's BAR2; the Interrupt Pin. -/
def pcieMaxPayload : Nat := 512
def pcieMaxRead : Nat := 4096
def pcieRcb : Nat := 64
def pcieTagBits : Nat := 10
def pcieVectors : Nat := 32
def pcieVfs : Nat := 63
def pcieVfBar2 : Nat := 0x1_0000
def pcieInterruptPin : Nat := 0

/-- What the Device Serial Number capability reads once configuration space is complete (19 R397). -/
def Device.pcieSerial (d : Device) : Option (BitVec 64) := if d.boot.stepReached < 4 then none else some Config.serial

end Sys2Proof.Machine
end

