-- ==== Sys2Proof/Machine/Illegal.lean ====
section
/-!
DEFINITION. Sys2Proof/Machine/Illegal.lean: row 537, ILLEGAL_INSTRUCTION (06 R127).
-/
namespace Sys2Proof.Machine
open Sys2Proof

/-- 06 R127: a word that the tables do not assign traps with ILLEGAL and ES_TVAL the word; a word that stands for an instruction is not this event. -/
def execIllegalInstruction (e : Fin 144) (w : BitVec 32) (s : State) : Host.Outcome State Fault Refusal :=
  s.on fun d => if (furrowDecode e w).isSome then d else engOp e (fun _ => .trap 0x01 w.toNat) d

end Sys2Proof.Machine
end

