-- ==== Sys2Proof/Machine/Flags.lean ====
section
/-!
DEFINITION. Sys2Proof/Machine/Flags.lean: comparisons of scalar values and of vector elements (06, Tables 6.3, 6.8; 07, Table 7.14). The engine
has no flag register: a comparison's result goes into a register, a predicate or a branch.
-/
namespace Sys2Proof.Machine

/-- Signed and unsigned less-than on 64-bit values. -/
def ltS (a b : W64) : Bool := a.slt b
def ltU (a b : W64) : Bool := a.ult b

/-- A truth value in a scalar register (06, Table 6.3 lts, ltu). -/
def flagWord (b : Bool) : W64 := if b then 1 else 0

/-- Leading zero bits of a 64-bit value, trailing zero bits, one bits (06, Table 6.3). -/
def leadZeros (a : W64) : Nat := 64 - (if a = 0 then 0 else Nat.log2 a.toNat + 1)
def trailZerosFrom (a : Nat) : (fuel : Nat) → (i : Nat) → Nat
  | 0, i => i
  | f + 1, i => if bitOf a i then i else trailZerosFrom a f (i + 1)
def trailZeros (a : W64) : Nat := trailZerosFrom a.toNat 64 0
def onesOf (a n : Nat) : Nat := ((List.range n).filter (fun i => bitOf a i)).length

/-- Signed less-than on w-bit elements (07, Table 7.14 vclt). -/
def ltSigned (w a b : Nat) : Bool := decide (signed w a < signed w b)

end Sys2Proof.Machine
end

