-- ==== Sys2Proof/Machine/Scalar.lean ====
section
/-!
DEFINITION. Sys2Proof/Machine/Scalar.lean: the scalar instructions of the Furrow engine (06): rows 57 to 115. The operand `e` is the engine that
issues the instruction; where the engine cannot issue one, nothing happens.
-/
namespace Sys2Proof.Machine
open Sys2Proof

/-! ## Integer instructions (06 R129, Tables 6.3 and 6.4) -/

/-- 06, Table 6.3: sum. -/
def execAdd (e : Fin 144) (rd rs1 rs2 : BitVec 5) (s : State) : Host.Outcome State Fault Refusal :=
  s.on fun d => engX e rd (fun t => t.getX rs1 + t.getX rs2) d

/-- 06, Table 6.3: difference. -/
def execSub (e : Fin 144) (rd rs1 rs2 : BitVec 5) (s : State) : Host.Outcome State Fault Refusal :=
  s.on fun d => engX e rd (fun t => t.getX rs1 - t.getX rs2) d

/-- 06, Table 6.3: AND. -/
def execAnd (e : Fin 144) (rd rs1 rs2 : BitVec 5) (s : State) : Host.Outcome State Fault Refusal :=
  s.on fun d => engX e rd (fun t => t.getX rs1 &&& t.getX rs2) d

/-- 06, Table 6.3: OR. -/
def execOr (e : Fin 144) (rd rs1 rs2 : BitVec 5) (s : State) : Host.Outcome State Fault Refusal :=
  s.on fun d => engX e rd (fun t => t.getX rs1 ||| t.getX rs2) d

/-- 06, Table 6.3: XOR. -/
def execXor (e : Fin 144) (rd rs1 rs2 : BitVec 5) (s : State) : Host.Outcome State Fault Refusal :=
  s.on fun d => engX e rd (fun t => t.getX rs1 ^^^ t.getX rs2) d

/-- 06, Table 6.3: rs1 AND NOT rs2. -/
def execAndn (e : Fin 144) (rd rs1 rs2 : BitVec 5) (s : State) : Host.Outcome State Fault Refusal :=
  s.on fun d => engX e rd (fun t => t.getX rs1 &&& ~~~(t.getX rs2)) d

/-- 06, Table 6.3: left shift by rs2[5:0]. -/
def execShl (e : Fin 144) (rd rs1 rs2 : BitVec 5) (s : State) : Host.Outcome State Fault Refusal :=
  s.on fun d => engX e rd (fun t => t.getX rs1 <<< ((t.getX rs2).toNat % 64)) d

/-- 06, Table 6.3: logical right shift. -/
def execShr (e : Fin 144) (rd rs1 rs2 : BitVec 5) (s : State) : Host.Outcome State Fault Refusal :=
  s.on fun d => engX e rd (fun t => t.getX rs1 >>> ((t.getX rs2).toNat % 64)) d

/-- 06, Table 6.3: arithmetic right shift. -/
def execSar (e : Fin 144) (rd rs1 rs2 : BitVec 5) (s : State) : Host.Outcome State Fault Refusal :=
  s.on fun d => engX e rd (fun t => (t.getX rs1).sshiftRight ((t.getX rs2).toNat % 64)) d

/-- 06, Table 6.3: rotation right. -/
def execRor (e : Fin 144) (rd rs1 rs2 : BitVec 5) (s : State) : Host.Outcome State Fault Refusal :=
  s.on fun d => engX e rd (fun t => (t.getX rs1).rotateRight ((t.getX rs2).toNat % 64)) d

/-- 06, Table 6.3: 1 if rs1 < rs2, signed. -/
def execLts (e : Fin 144) (rd rs1 rs2 : BitVec 5) (s : State) : Host.Outcome State Fault Refusal :=
  s.on fun d => engX e rd (fun t => flagWord (ltS (t.getX rs1) (t.getX rs2))) d

/-- 06, Table 6.3: 1 if rs1 < rs2, unsigned. -/
def execLtu (e : Fin 144) (rd rs1 rs2 : BitVec 5) (s : State) : Host.Outcome State Fault Refusal :=
  s.on fun d => engX e rd (fun t => flagWord (ltU (t.getX rs1) (t.getX rs2))) d

/-- 06, Table 6.3: signed minimum. -/
def execMin (e : Fin 144) (rd rs1 rs2 : BitVec 5) (s : State) : Host.Outcome State Fault Refusal :=
  s.on fun d => engX e rd (fun t => if ltS (t.getX rs1) (t.getX rs2) then t.getX rs1 else t.getX rs2) d

/-- 06, Table 6.3: signed maximum. -/
def execMax (e : Fin 144) (rd rs1 rs2 : BitVec 5) (s : State) : Host.Outcome State Fault Refusal :=
  s.on fun d => engX e rd (fun t => if ltS (t.getX rs1) (t.getX rs2) then t.getX rs2 else t.getX rs1) d

/-- 06, Table 6.3: unsigned minimum. -/
def execMinu (e : Fin 144) (rd rs1 rs2 : BitVec 5) (s : State) : Host.Outcome State Fault Refusal :=
  s.on fun d => engX e rd (fun t => if ltU (t.getX rs1) (t.getX rs2) then t.getX rs1 else t.getX rs2) d

/-- 06, Table 6.3: unsigned maximum. -/
def execMaxu (e : Fin 144) (rd rs1 rs2 : BitVec 5) (s : State) : Host.Outcome State Fault Refusal :=
  s.on fun d => engX e rd (fun t => if ltU (t.getX rs1) (t.getX rs2) then t.getX rs2 else t.getX rs1) d

/-- 06, Table 6.3: rs1 if rs2 is not 0, else rd unchanged. -/
def execCsel (e : Fin 144) (rd rs1 rs2 : BitVec 5) (s : State) : Host.Outcome State Fault Refusal :=
  s.on fun d => engX e rd (fun t => if t.getX rs2 = 0 then t.getX rd else t.getX rs1) d

/-- 06, Table 6.3: leading zero bits. -/
def execClz (e : Fin 144) (rd rs1 : BitVec 5) (s : State) : Host.Outcome State Fault Refusal :=
  s.on fun d => engX e rd (fun t => BitVec.ofNat 64 (leadZeros (t.getX rs1))) d

/-- 06, Table 6.3: trailing zero bits. -/
def execCtz (e : Fin 144) (rd rs1 : BitVec 5) (s : State) : Host.Outcome State Fault Refusal :=
  s.on fun d => engX e rd (fun t => BitVec.ofNat 64 (trailZeros (t.getX rs1))) d

/-- 06, Table 6.3: number of one bits. -/
def execPopc (e : Fin 144) (rd rs1 : BitVec 5) (s : State) : Host.Outcome State Fault Refusal :=
  s.on fun d => engX e rd (fun t => BitVec.ofNat 64 (onesOf (t.getX rs1).toNat 64)) d

/-- 06, Table 6.3: byte order reversed. -/
def execBrev (e : Fin 144) (rd rs1 : BitVec 5) (s : State) : Host.Outcome State Fault Refusal :=
  s.on fun d => engX e rd (fun t => BitVec.ofNat 64 (ofBytes (toBytes 8 (t.getX rs1).toNat).reverse)) d

/-- 06, Table 6.3: bits [31:0], zero-extended. -/
def execZxW (e : Fin 144) (rd rs1 : BitVec 5) (s : State) : Host.Outcome State Fault Refusal :=
  s.on fun d => engX e rd (fun t => ((t.getX rs1).truncate 32).zeroExtend 64) d

/-- 06, Table 6.3: bits [31:0], sign-extended. -/
def execSxW (e : Fin 144) (rd rs1 : BitVec 5) (s : State) : Host.Outcome State Fault Refusal :=
  s.on fun d => engX e rd (fun t => ((t.getX rs1).truncate 32).signExtend 64) d

/-- 06, Table 6.3: bits [15:0], zero-extended. -/
def execZxH (e : Fin 144) (rd rs1 : BitVec 5) (s : State) : Host.Outcome State Fault Refusal :=
  s.on fun d => engX e rd (fun t => ((t.getX rs1).truncate 16).zeroExtend 64) d

/-- 06, Table 6.3: bits [7:0], zero-extended. -/
def execZxB (e : Fin 144) (rd rs1 : BitVec 5) (s : State) : Host.Outcome State Fault Refusal :=
  s.on fun d => engX e rd (fun t => ((t.getX rs1).truncate 8).zeroExtend 64) d

/-- 06, Table 6.4: rs1 + sign-extended imm16. -/
def execAddi (e : Fin 144) (rd rs1 : BitVec 5) (imm : BitVec 16) (s : State) : Host.Outcome State Fault Refusal :=
  s.on fun d => engX e rd (fun t => t.getX rs1 + imm.signExtend 64) d

/-- 06, Table 6.4: AND with zero-extended imm16. -/
def execAndi (e : Fin 144) (rd rs1 : BitVec 5) (imm : BitVec 16) (s : State) : Host.Outcome State Fault Refusal :=
  s.on fun d => engX e rd (fun t => t.getX rs1 &&& imm.zeroExtend 64) d

/-- 06, Table 6.4: OR with zero-extended imm16. -/
def execOri (e : Fin 144) (rd rs1 : BitVec 5) (imm : BitVec 16) (s : State) : Host.Outcome State Fault Refusal :=
  s.on fun d => engX e rd (fun t => t.getX rs1 ||| imm.zeroExtend 64) d

/-- 06, Table 6.4: XOR with zero-extended imm16. -/
def execXori (e : Fin 144) (rd rs1 : BitVec 5) (imm : BitVec 16) (s : State) : Host.Outcome State Fault Refusal :=
  s.on fun d => engX e rd (fun t => t.getX rs1 ^^^ imm.zeroExtend 64) d

/-- 06, Table 6.4: 1 if rs1 < sign-extended imm16, signed. -/
def execLtsi (e : Fin 144) (rd rs1 : BitVec 5) (imm : BitVec 16) (s : State) : Host.Outcome State Fault Refusal :=
  s.on fun d => engX e rd (fun t => flagWord (ltS (t.getX rs1) (imm.signExtend 64))) d

/-- 06, Table 6.4: 1 if rs1 < zero-extended imm16, unsigned. -/
def execLtui (e : Fin 144) (rd rs1 : BitVec 5) (imm : BitVec 16) (s : State) : Host.Outcome State Fault Refusal :=
  s.on fun d => engX e rd (fun t => flagWord (ltU (t.getX rs1) (imm.zeroExtend 64))) d

/-- 06, Table 6.4: left shift by n. -/
def execShli (e : Fin 144) (rd rs1 : BitVec 5) (n : BitVec 6) (s : State) : Host.Outcome State Fault Refusal :=
  s.on fun d => engX e rd (fun t => t.getX rs1 <<< n.toNat) d

/-- 06, Table 6.4: logical right shift by n. -/
def execShri (e : Fin 144) (rd rs1 : BitVec 5) (n : BitVec 6) (s : State) : Host.Outcome State Fault Refusal :=
  s.on fun d => engX e rd (fun t => t.getX rs1 >>> n.toNat) d

/-- 06, Table 6.4: arithmetic right shift by n. -/
def execSari (e : Fin 144) (rd rs1 : BitVec 5) (n : BitVec 6) (s : State) : Host.Outcome State Fault Refusal :=
  s.on fun d => engX e rd (fun t => (t.getX rs1).sshiftRight n.toNat) d

/-- 06, Table 6.4: rotation right by n. -/
def execRori (e : Fin 144) (rd rs1 : BitVec 5) (n : BitVec 6) (s : State) : Host.Outcome State Fault Refusal :=
  s.on fun d => engX e rd (fun t => (t.getX rs1).rotateRight n.toNat) d

/-- 06, Table 6.4: imm16 in halfword HW, all other bits zero. -/
def execHset (e : Fin 144) (rd : BitVec 5) (imm : BitVec 16) (hw : BitVec 2) (s : State) : Host.Outcome State Fault Refusal :=
  s.on fun d => engX e rd (fun _ => imm.zeroExtend 64 <<< (16 * hw.toNat)) d

/-- 06, Table 6.4: halfword HW of rd becomes imm16. -/
def execHins (e : Fin 144) (rd : BitVec 5) (imm : BitVec 16) (hw : BitVec 2) (s : State) : Host.Outcome State Fault Refusal :=
  s.on fun d => engX e rd (fun t => (t.getX rd &&& ~~~((0xFFFF : W64) <<< (16 * hw.toNat))) ||| (imm.zeroExtend 64 <<< (16 * hw.toNat))) d

/-- 06, Table 6.4: low 64 bits of the product. -/
def execMul (e : Fin 144) (rd rs1 rs2 : BitVec 5) (s : State) : Host.Outcome State Fault Refusal :=
  s.on fun d => engX e rd (fun t => t.getX rs1 * t.getX rs2) d

/-- 06, Table 6.4: high 64 bits, unsigned. -/
def execMulhiU (e : Fin 144) (rd rs1 rs2 : BitVec 5) (s : State) : Host.Outcome State Fault Refusal :=
  s.on fun d => engX e rd (fun t => BitVec.ofNat 64 (((t.getX rs1).toNat * (t.getX rs2).toNat) / 2 ^ 64)) d

/-- 06, Table 6.4: high 64 bits, signed. -/
def execMulhiS (e : Fin 144) (rd rs1 rs2 : BitVec 5) (s : State) : Host.Outcome State Fault Refusal :=
  s.on fun d => engX e rd (fun t => BitVec.ofInt 64 (((t.getX rs1).toInt * (t.getX rs2).toInt) / 2 ^ 64)) d

/-! ## Operand memory (06 R131, R132) -/

/-- Bytes of an access of width code W. -/
def widthOf (w : BitVec 3) : Nat := 2 ^ (w.toNat % 4)

/-- What a load of width code W delivers: 0 to 3 sign-extended, 4 to 6 zero-extended. -/
def extendLoad (w : BitVec 3) (v : Nat) : W64 :=
  if w.toNat < 4 then BitVec.ofInt 64 (signed (8 * widthOf w) v) else BitVec.ofNat 64 v

/-- An aligned access within operand memory, or its trap; W 7 is illegal, and for a store W 4 to 6 too. -/
def opmAccess (t : EngArch) (w : BitVec 3) (store : Bool) (a : Nat) (f : EngRes) : EngRes :=
  if (store && decide (4 ≤ w.toNat)) || decide (w.toNat = 7) then .trap 0x01 0
  else if a % widthOf w ≠ 0 then .trap 0x03 a
  else if opmSize ≤ a then .trap 0x04 a
  else if t.awaits a (widthOf w) then .stall 0
  else f

/-- 06 R131: a load from operand memory. -/
def execLd (e : Fin 144) (rt rs1 : BitVec 5) (w : BitVec 3) (off : BitVec 13) (s : State) : Host.Outcome State Fault Refusal :=
  s.on fun d => engOp e (fun t =>
    let a := effAddr (t.getX rs1) off
    opmAccess t w false a (.ok (t.setX rt (extendLoad w (ofBytes (t.read a (widthOf w))))))) d

/-- 06 R131: a store to operand memory. -/
def execSt (e : Fin 144) (rt rs1 : BitVec 5) (w : BitVec 3) (off : BitVec 13) (s : State) : Host.Outcome State Fault Refusal :=
  s.on fun d => engOp e (fun t =>
    let a := effAddr (t.getX rs1) off
    opmAccess t w true a (.ok (t.write a (toBytes (widthOf w) (t.getX rt).toNat)))) d

/-! ## Reservoir access (06 R133 to R136) -/

/-- A Reservoir transfer's ranges hold (06 R133, R147), or the instruction traps. -/
def rsvOp (ro rr n : Nat) (f : EngRes) : EngRes :=
  if pastOpm ro n then .trap 0x04 ro
  else if badRsv rr n then .trap 0x05 rr
  else f

/-- The Headgate lets an engine's access pass, or it waits, or it is refused precisely (06, Table 6.6). -/
def throughGate (e k kind a n : Nat) (d : Device) (f : Device) : EngRes :=
  match rsvAccess d (latOf e) (d.cmdOr k) kind [(a, n)] with
  | (.permit, _, _) => .next f
  | (.wait, p, m) => .wait 0 (gateWait (latGate (latOf e)) (.engine k) p m kind d)
  | (.refuse cs rg st, p, m) => .over (settleAdmin (preciseRefusal e k p m kind cs rg st d))

/-- 06 R133: a Reservoir read of LENM1 + 1 bytes into operand memory is issued; it waits for the command's own buffered lines there and for an
earlier transfer into the same operand memory (Table 6.6). -/
def execRld (e : Fin 144) (ro rr : BitVec 5) (lenm1 : BitVec 8) (s : State) : Host.Outcome State Fault Refusal :=
  s.on fun d => engRun e (fun k t d =>
    let a := (t.getX ro).toNat
    let p := (t.getX rr).toNat
    let n := lenm1.toNat + 1
    let r : RldOut := { rsv := p, opm := a, len := n }
    rsvOp a p n (
      if decide (16 ≤ t.rlds.length) || t.awaits a n || d.linesOver (latOf e) k p n then .stall 0
      else throughGate e k 0 p n d (d.updArch e (fun t => { t with rlds := t.rlds ++ [r] })))) d

/-- 06 R133: bytes of operand memory enter the Lateral's store buffer, bound for the Reservoir. -/
def execRst (e : Fin 144) (ro rr : BitVec 5) (lenm1 : BitVec 8) (s : State) : Host.Outcome State Fault Refusal :=
  s.on fun d => engRun e (fun k t d =>
    let a := (t.getX ro).toNat
    let p := (t.getX rr).toNat
    let n := lenm1.toNat + 1
    rsvOp a p n (
      if t.awaits a n then .stall 0
      else match sbStore (latOf e) k e (n / 64 + 2) p (t.read a n) d with
        | some d => .next d
        | none => .stall 0)) d

/-- 06 R133: an unbuffered store, checked at issue; the engine waits until it is done. -/
def execRstU (e : Fin 144) (ro rr : BitVec 5) (lenm1 : BitVec 8) (s : State) : Host.Outcome State Fault Refusal :=
  s.on fun d => engRun e (fun k t d =>
    let a := (t.getX ro).toNat
    let p := (t.getX rr).toNat
    let n := lenm1.toNat + 1
    rsvOp a p n (if t.awaits a n then .stall 0 else throughGate e k 1 p n d (d.rsvWrite p (t.read a n)))) d

/-- 06, Table 6.5: wait until no rld of the command is outstanding. -/
def execRwait (e : Fin 144) (s : State) : Host.Outcome State Fault Refusal :=
  s.on fun d => engOp e (fun t => if t.rlds.isEmpty then .ok t else .stall 0) d

/-- A list that is not sound: where. -/
inductive DmaList.Read where
  | ok (l : List DmaDesc)
  | bad (addr : Nat)
  | hazard

/-- Read and check a DMA list of at most n descriptors from a (06, Table 6.7, R136); a list that reaches the end of operand memory has no LAST
there (DEDUCED, assumption 30). -/
def readDescs (t : EngArch) : (n a : Nat) → List DmaDesc → DmaList.Read
  | 0, a, _ => .bad (a - 16)
  | n + 1, a, l =>
    if pastOpm a 16 then .bad a
    else if t.awaits a 16 then .hazard
    else
      let w0 := ofBytes (t.read a 4)
      let w1 := ofBytes (t.read (a + 4) 4)
      let w2 := ofBytes (t.read (a + 8) 8)
      let x : DmaDesc := { opm := field w0 17 0, len := field w1 15 0 + 1, write := bitOf w1 16, unbuf := bitOf w1 17, rsv := field w2 33 0 }
      if field w0 31 18 ≠ 0 ∨ field w1 31 19 ≠ 0 ∨ field w2 63 34 ≠ 0 ∨ opmSize < x.opm + x.len ∨ 2 ^ 34 < x.rsv + x.len then .bad a
      else if bitOf w1 18 then .ok (l ++ [x])
      else readDescs t n (a + 16) (l ++ [x])

/-- The lowest list identifier that is not outstanding. -/
def EngArch.freeList (t : EngArch) : Nat := (firstWhere (fun i => !(t.lists.any (fun l => decide (l.ident = i)))) (List.range 8)).getD 0

/-- 06 R135, R136: a descriptor list is checked whole and handed to the DMA unit; rd receives its identifier. -/
def execDma (e : Fin 144) (rd rs1 : BitVec 5) (s : State) : Host.Outcome State Fault Refusal :=
  s.on fun d => engOp e (fun t =>
    let a := (t.getX rs1).toNat
    if 4 ≤ t.lists.length then .stall 0
    else if a % 16 ≠ 0 then .trap 0x06 a
    else match readDescs t 64 a [] with
      | .bad p => .trap 0x06 p
      | .hazard => .stall 0
      | .ok l =>
        let x : DmaList := { ident := t.freeList, descs := l }
        .ok (EngArch.setX { t with lists := t.lists ++ [x] } rd (BitVec.ofNat 64 t.freeList))) d

/-- 06 R135: wait for a list; at once for an identifier that is not outstanding; a value that names no list traps (R142). -/
def execDwait (e : Fin 144) (rs1 : BitVec 5) (s : State) : Host.Outcome State Fault Refusal :=
  s.on fun d => engOp e (fun t =>
    let i := (t.getX rs1).toNat
    if 8 ≤ i then .trap 0x0C 1
    else if t.lists.any (fun l => decide (l.ident = i)) then .stall 0
    else .ok t) d

/-- 06 R135: wait until every rld and list has completed and every store of the command has drained. -/
def execSync (e : Fin 144) (s : State) : Host.Outcome State Fault Refusal :=
  s.on fun d => engRun e (fun k t d =>
    if t.rlds.isEmpty && t.lists.isEmpty && d.linesDrained (latOf e) k then .ok t else .stall 0) d

/-! ## Control transfer (06 R137) -/

/-- A jump to a text offset, or IMEM_RANGE. -/
def goTo (p : Nat) (t : EngArch) (after : EngArch) : EngRes := if p % 4 ≠ 0 ∨ t.textLen ≤ p then .trap 0x02 p else .jump p after

/-- The target of an offset counted in instructions, modulo 2^64. -/
def relative {w : Nat} (t : EngArch) (off : BitVec w) : Nat := (BitVec.ofNat 64 t.pc + (off.signExtend 64) * 4).toNat

/-- A branch. -/
def branch {w : Nat} (taken : Bool) (off : BitVec w) (t : EngArch) : EngRes := if taken then goTo (relative t off) t t else .ok t

/-- 06, Table 6.8: taken when rs1 = rs2. -/
def execBrEq (e : Fin 144) (rs1 rs2 : BitVec 5) (off : BitVec 16) (s : State) : Host.Outcome State Fault Refusal :=
  s.on fun d => engOp e (fun t => branch (decide (t.getX rs1 = t.getX rs2)) off t) d

/-- 06, Table 6.8: taken when rs1 ≠ rs2. -/
def execBrNe (e : Fin 144) (rs1 rs2 : BitVec 5) (off : BitVec 16) (s : State) : Host.Outcome State Fault Refusal :=
  s.on fun d => engOp e (fun t => branch (!decide (t.getX rs1 = t.getX rs2)) off t) d

/-- 06, Table 6.8: taken when rs1 < rs2, signed. -/
def execBrLt (e : Fin 144) (rs1 rs2 : BitVec 5) (off : BitVec 16) (s : State) : Host.Outcome State Fault Refusal :=
  s.on fun d => engOp e (fun t => branch (ltS (t.getX rs1) (t.getX rs2)) off t) d

/-- 06, Table 6.8: taken when rs1 ≥ rs2, signed. -/
def execBrGe (e : Fin 144) (rs1 rs2 : BitVec 5) (off : BitVec 16) (s : State) : Host.Outcome State Fault Refusal :=
  s.on fun d => engOp e (fun t => branch (!ltS (t.getX rs1) (t.getX rs2)) off t) d

/-- 06, Table 6.8: taken when rs1 < rs2, unsigned. -/
def execBrLtu (e : Fin 144) (rs1 rs2 : BitVec 5) (off : BitVec 16) (s : State) : Host.Outcome State Fault Refusal :=
  s.on fun d => engOp e (fun t => branch (ltU (t.getX rs1) (t.getX rs2)) off t) d

/-- 06, Table 6.8: taken when rs1 ≥ rs2, unsigned. -/
def execBrGeu (e : Fin 144) (rs1 rs2 : BitVec 5) (off : BitVec 16) (s : State) : Host.Outcome State Fault Refusal :=
  s.on fun d => engOp e (fun t => branch (!ltU (t.getX rs1) (t.getX rs2)) off t) d

/-- 06, Table 6.8: jump and link. -/
def execJl (e : Fin 144) (rd : BitVec 5) (off : BitVec 21) (s : State) : Host.Outcome State Fault Refusal :=
  s.on fun d => engOp e (fun t => goTo (relative t off) t (t.setX rd (BitVec.ofNat 64 (t.pc + 4)))) d

/-- 06, Table 6.8: jump to register plus immediate, and link. -/
def execJlr (e : Fin 144) (rd rs1 : BitVec 5) (imm : BitVec 16) (s : State) : Host.Outcome State Fault Refusal :=
  s.on fun d => engOp e (fun t => goTo (effAddr (t.getX rs1) imm) t (t.setX rd (BitVec.ofNat 64 (t.pc + 4)))) d

/-! ## Engine state registers (06 R138, R139, Table 6.9) -/

/-- The value of an engine state register. -/
def EngArch.esValue (t : EngArch) (n : Nat) : Option Nat := match n with
  | 0x00 => some (b2n t.intrap + 2 * b2n t.stream)
  | 0x01 => some t.cause
  | 0x02 => some t.epc
  | 0x03 => some t.tval
  | 0x04 => some t.tvec
  | 0x08 => some t.vl
  | 0x09 => some t.vtype
  | 0x0A => some t.vresume
  | 0x0C => some t.shares
  | 0x10 => some t.allot
  | 0x11 => some t.routine
  | 0x12 => some t.param
  | 0x13 => some t.arg0
  | 0x14 => some t.arg1
  | 0x15 => some t.arg2
  | 0x16 => some t.inlen
  | 0x17 => some t.outmax
  | 0x18 => some t.keyh
  | 0x19 => some t.ctxw
  | 0x1A => some t.inaddr
  | 0x1B => some t.outaddr
  | 0x1C => some t.auxaddr
  | 0x1D => some t.outcap
  | 0x1E => some t.inavail
  | 0x1F => some t.incons
  | 0x20 => some t.cycles
  | 0x21 => some t.leaf
  | 0x22 => some t.rlds.length
  | _ => none

/-- Element width of a type; 0 while none is set (07, Table 7.2). -/
def vWidth (vtype : Nat) : Nat := if vtype % 8 = 0 then 0 else 4 * 2 ^ (vtype % 8)
/-- Registers of a group (07, Table 7.2). -/
def vGroup (vtype : Nat) : Nat := 2 ^ (vtype / 8 % 4)
/-- A type is valid when its SEW code is 1 to 4 and G is at most w ÷ 8 (07 R154). -/
def vTypeOk (vtype : Nat) : Bool := decide (vtype < 32) && decide (1 ≤ vtype % 8) && decide (vtype % 8 ≤ 4) && decide (vGroup vtype ≤ vWidth vtype / 8)
/-- VLCAP of a type (07 R154). -/
def vCap (vtype : Nat) : Nat := if vtype = 0 then 0 else 4096 * vGroup vtype / vWidth vtype

/-- `configure` of 07 R155: the new length is given by the capacity. -/
def configure (t : EngArch) (rd : BitVec 5) (type : Nat) (len : Nat → Nat) : EngArch :=
  if vTypeOk type then EngArch.setX { t with vtype := type, vl := len (vCap type) } rd (BitVec.ofNat 64 (len (vCap type)))
  else EngArch.setX { t with vtype := 0, vl := 0 } rd 0

/-- A text offset that ES_TVEC or ES_EPC takes (06 R139). -/
def textOffset (t : EngArch) (v : Nat) : Bool := decide (v % 4 = 0) && decide (v < 65536) && decide (v < t.textLen)

/-- A write of an engine state register (06 R138 to R140; 07 R153, R155). -/
def EngArch.esWrite (t : EngArch) (n v : Nat) : EngRes := match n with
  | 0x02 => if textOffset t v then .ok { t with epc := v } else .trap 0x07 n
  | 0x04 => if textOffset t v then .ok { t with tvec := v } else .trap 0x07 n
  | 0x09 => .ok (configure t 0 (v % 32) (fun cap => min t.vl cap))
  | 0x0A => .ok { t with vresume := v % 4096 }
  | 0x1F => if v < t.incons ∨ t.inavail < v then .trap 0x07 n else .ok { t with incons := v }
  | _ => .trap 0x07 n

/-- 06 R138: read an engine state register. -/
def execEsr (e : Fin 144) (rd : BitVec 5) (es : BitVec 8) (s : State) : Host.Outcome State Fault Refusal :=
  s.on fun d => engOp e (fun t => match t.esValue es.toNat with
    | some v => .ok (t.setX rd (BitVec.ofNat 64 v))
    | none => .trap 0x07 es.toNat) d

/-- 06 R138 to R140: write an engine state register. -/
def execEsw (e : Fin 144) (es : BitVec 8) (rs1 : BitVec 5) (s : State) : Host.Outcome State Fault Refusal :=
  s.on fun d => engOp e (fun t => t.esWrite es.toNat (t.getX rs1).toNat) d

end Sys2Proof.Machine
end

