-- ==== Sys2Proof/Machine/OpsVec.lean ====
section
/-!
DEFINITION. Sys2Proof/Machine/OpsVec.lean: what the vector instructions share (07, 08): elements and groups of registers, the order of the trap
conditions, share tags, which elements execute, how a result is written, and fresh shares. A group of registers is one number, its first
register lowest, so that element i of width w is its bits [w(i+1)−1 : wi] (07 R154).
-/
namespace Sys2Proof.Machine

/-! ## Registers, groups and elements (07 R153, R154) -/

/-- The image of a v register, its share tag, a predicate and a modulus register. -/
def EngArch.vBits (t : EngArch) (n : Nat) : Nat := (Tbl.get ({} : VShare) t.v n).bits.toNat
def EngArch.vTag (t : EngArch) (n : Nat) : Nat := (Tbl.get ({} : VShare) t.v n).tag
def EngArch.pBits (t : EngArch) (n : Nat) : Nat := (Tbl.get 0 t.p n).toNat
def EngArch.mVal (t : EngArch) (n : Nat) : Nat := (Tbl.get 0 t.m n).toNat

/-- Write a v register with its tag, a predicate. -/
def EngArch.setV (t : EngArch) (n v tag : Nat) : EngArch := { t with v := Tbl.set ({} : VShare) t.v n { bits := BitVec.ofNat 4096 v, tag := tag } }
def EngArch.setP (t : EngArch) (n v : Nat) : EngArch := { t with p := Tbl.set 0 t.p n (BitVec.ofNat 512 v) }

/-- The group of r registers from n, and writing it. -/
def EngArch.grp (t : EngArch) (n : Nat) : (r : Nat) → Nat
  | 0 => 0
  | r + 1 => t.grp n r + 2 ^ (4096 * r) * t.vBits (n + r)
def EngArch.setGrp (t : EngArch) (n v tag : Nat) : (r : Nat) → EngArch
  | 0 => t
  | r + 1 => (t.setGrp n v tag r).setV (n + r) (v >>> (4096 * r)) tag

/-- Element i of width w. -/
def elemOf (w x i : Nat) : Nat := (x >>> (w * i)) % 2 ^ w
/-- x with element i replaced. -/
def setElem (w x i v : Nat) : Nat := x - elemOf w x i * 2 ^ (w * i) + (v % 2 ^ w) * 2 ^ (w * i)

/-- x with the elements below n that f gives replaced. -/
def patchElems (w : Nat) (f : Nat → Option Nat) : (n : Nat) → Nat → Nat
  | 0, x => x
  | n + 1, x => match f n with
    | none => patchElems w f n x
    | some v => setElem w (patchElems w f n x) n v

/-- A completed vector instruction leaves ES_VRESUME 0 (07 R159, R165). -/
def EngArch.vEnd (t : EngArch) : EngArch := { t with vresume := 0 }

/-- 07 R159: element i executes. -/
def EngArch.active (t : EngArch) (pm : Option (BitVec 3)) (i : Nat) : Bool :=
  decide (t.vresume ≤ i) && decide (i < t.vl) && (match pm with
    | none => true
    | some p => bitOf (t.pBits p.toNat) i)

/-! ## Sources -/

/-- A source of a vector instruction: a group of registers, x[r], or a constant. -/
inductive VSrc where
  | reg (n : BitVec 5)
  | sca (r : BitVec 5)
  | con (v : Nat)

/-- A source as read: whether it is shared, and element i of its share j. A public source gives its one value for every j. -/
structure VIn where
  shared : Bool
  el : Nat → Nat → Nat

/-- Shares per secret value (08 R173). -/
def EngArch.d (t : EngArch) : Nat := t.shares + 1

/-- A register read as a shared source by an instruction with SH = sh (08 R174). -/
def EngArch.isShared (t : EngArch) (sh n : Nat) : Bool := decide (sh ≠ 0) && decide (t.vTag n = sh)

/-- Read a source whose plain operand spans r registers of which g hold the elements read here, from the q-th on. -/
def VSrc.readAt (t : EngArch) (sh w r g q : Nat) : VSrc → VIn
  | .reg n =>
    let s := t.isShared sh n.toNat
    { shared := s, el := fun j i => elemOf w (t.grp (n.toNat + q + (if s then j * r else 0)) g) i }
  | .sca x => { shared := false, el := fun _ _ => (t.getX x).toNat % 2 ^ w }
  | .con v => { shared := false, el := fun _ _ => v % 2 ^ w }

/-- Read an operand of r registers. -/
def VSrc.read (t : EngArch) (sh w r : Nat) (s : VSrc) : VIn := s.readAt t sh w r r 0

/-- A public term enters share 0 only (08, Table 8.1). -/
def VIn.term (a : VIn) (j i : Nat) : Nat := if a.shared || decide (j = 0) then a.el j i else 0

/-- The XOR and the sum of the shares of element i. -/
def VIn.xorAll (a : VIn) (i : Nat) : (d : Nat) → Nat
  | 0 => 0
  | d + 1 => a.xorAll i d ^^^ a.term d i
def VIn.sumAll (a : VIn) (i : Nat) : (d : Nat) → Nat
  | 0 => 0
  | d + 1 => a.sumAll i d + a.term d i

/-! ## Trap conditions (07 R154, R157, R158, R162, R171; 08 R174, R177) -/

/-- A source operand with the registers that one share of it spans. -/
structure VOpnd where
  n : Nat
  r : Nat

/-- 07 R154, 08 R174: a group that is not aligned to its size, or a shared operand that passes v31, makes the word illegal. -/
def EngArch.badGroup (t : EngArch) (shared : Bool) (o : VOpnd) : Bool :=
  decide (o.n % o.r ≠ 0) || (shared && decide (32 < o.n + t.d * o.r))

/-- The first of k registers from n whose tag is not v. -/
def EngArch.otherTag (t : EngArch) (v n : Nat) : (k : Nat) → Option Nat
  | 0 => none
  | k + 1 => if t.vTag n = v then t.otherTag v (n + 1) k else some n

/-- 07 R158, 08 R177: the register of a source that an instruction with SH = sh refuses. -/
def EngArch.badTags (t : EngArch) (sh : Nat) (o : VOpnd) : Option Nat :=
  if t.isShared sh o.n then t.otherTag sh o.n (t.d * o.r) else t.otherTag 0 o.n o.r

/-- What an instruction checks before it does anything: its width, its operands, its modulus, which of its sources are shared. -/
structure VChecks where
  ill : Bool
  widths : List Nat
  modulus : Option Nat
  sh : Nat
  vd : Nat
  srcs : List VOpnd
  /-- A combination of shared and public sources that the instruction does not accept: the register ES_TVAL names. -/
  refuse : Option Nat

/-- The first source register that is refused. -/
def firstBadTag (t : EngArch) (sh : Nat) : List VOpnd → Option Nat
  | [] => none
  | o :: l => match t.badTags sh o with
    | some n => some n
    | none => firstBadTag t sh l

/-- The order of 07 R171: illegal word, type, modulus, shares, and then what f does. -/
def vCheck (t : EngArch) (c : VChecks) (f : EngRes) : EngRes :=
  if c.ill then .trap 0x01 0
  else if t.vtype = 0 ∨ !c.widths.contains (vWidth t.vtype) then .trap 0x10 0
  else match c.modulus with
    | some r => .trap 0x14 r
    | none =>
      if c.sh ≠ 0 ∧ c.sh ≠ t.shares then .trap 0x13 c.vd
      else match firstBadTag t c.sh c.srcs with
        | some n => .trap 0x13 n
        | none => match c.refuse with
          | some n => .trap 0x13 n
          | none => f

def anyWidth : List Nat := [8, 16, 32, 64]

/-! ## Moduli (07 R162) -/

/-- A modulus is valid at width w. -/
def modOk (w m : Nat) : Bool := decide (m % 2 = 1) && decide (3 ≤ m) && decide (m < 2 ^ (w - 1))

/-- Register mk: its value, or the number that MODULUS reports. -/
def mkMod (t : EngArch) (k : Nat) : Nat × Option Nat :=
  let m := t.mVal k
  (m, if modOk (vWidth t.vtype) m then none else some k)

/-- A built-in modulus at the widths it is valid at. -/
def builtIn (t : EngArch) (q : Nat) : Nat × Option Nat :=
  let w := vWidth t.vtype
  if q = 0 then (3329, if w = 16 ∨ w = 32 then none else some 4) else (8380417, if w = 32 then none else some 5)

/-- The modulus of a share instruction: a register holding 0 selects arithmetic modulo 2^SEW (08 R176). -/
def shareMod (t : EngArch) (k : Nat) : Nat × Option Nat := if t.mVal k = 0 then (2 ^ vWidth t.vtype, none) else mkMod t k

/-! ## Writing a result -/

/-- Write n groups of g registers with tag v: in group q, from register dst q on, the elements below lim that `act` lets execute and k gives.
Where no element is at or above ES_VRESUME, nothing is written (07 R159, R166). -/
def vWriteTo (t : EngArch) (act : Nat → Bool) (lim g w : Nat) (dst : Nat → Nat) (v : Nat) (k : Nat → Nat → Option Nat) : (n : Nat) → EngArch
  | 0 => t
  | n + 1 =>
    (vWriteTo t act lim g w dst v k n).setGrp (dst n) (patchElems w (fun i => if act i then k n i else none) lim (t.grp (dst n) g)) v g

/-- The same as a whole result: shares j below n of the group vd. -/
def vWrite (t : EngArch) (act : Nat → Bool) (lim n r vd v : Nat) (k : Nat → Nat → Option Nat) : EngArch :=
  if lim ≤ t.vresume then t.vEnd
  else (vWriteTo t act lim r (vWidth t.vtype) (fun j => vd + j * r) v k n).vEnd

/-! ## Instructions on elements, share by share -/

/-- The sources of one element of one share: each as it is in that share, and each as a term of a sum. -/
structure VArgs where
  j : Nat
  w : Nat
  m : Nat
  a : Nat
  b : Nat
  c : Nat
  ta : Nat
  tb : Nat
  tc : Nat
  sa : Bool
  sb : Bool

/-- Which sources an instruction with SH ≠ 0 accepts, by whether the first, second and third are shared. -/
abbrev VAccept := Bool → Bool → Bool → Bool

/-- Two sources of which at least one is shared. -/
def acceptMixed : VAccept := fun a b _ => a || b
/-- Two sources of which exactly one is shared; the third may be either. -/
def acceptOne : VAccept := fun a b _ => a != b
/-- The first source shared. -/
def acceptFirst : VAccept := fun a _ _ => a
/-- An instruction that takes no shares: SH is 0 in its word. -/
def acceptNone : VAccept := fun _ _ _ => false

/-- The register operands among the sources, r registers a share. -/
def VSrc.opnd (r : Nat) : VSrc → List VOpnd
  | .reg n => [{ n := n.toNat, r := r }]
  | _ => []

/-- An element-wise instruction whose shares are worked on separately. -/
def vElem (vd : BitVec 5) (a b c : VSrc) (pm : Option (BitVec 3)) (sh : BitVec 2) (widths : List Nat)
    (md : EngArch → Nat × Option Nat) (accept : VAccept) (k : VArgs → Nat) (t : EngArch) : EngRes :=
  let w := vWidth t.vtype
  let r := vGroup t.vtype
  let s := sh.toNat
  let x := a.read t s w r
  let y := b.read t s w r
  let z := c.read t s w r
  let srcs := a.opnd r ++ b.opnd r ++ c.opnd r
  let m := md t
  let bad := srcs.any (fun o => t.badGroup (t.isShared s o.n) o) || t.badGroup (decide (s ≠ 0)) { n := vd.toNat, r := r }
  let refuse := if s ≠ 0 ∧ !accept x.shared y.shared z.shared then some (((b.opnd r).map (fun o => o.n)).headD vd.toNat) else none
  vCheck t { ill := bad, widths := widths, modulus := m.2, sh := s, vd := vd.toNat, srcs := srcs, refuse := refuse }
    (.ok (vWrite t (t.active pm) t.vl (if s = 0 then 1 else t.d) r vd.toNat s (fun j i =>
      some (k { j := j, w := w, m := m.1, a := x.el j i, b := y.el j i, c := z.el j i, ta := x.term j i, tb := y.term j i, tc := z.term j i,
                sa := x.shared, sb := y.shared }))))

/-- No modulus is named. -/
def noMod (_ : EngArch) : Nat × Option Nat := (0, none)

/-- An instruction that takes no shares: it gives each element that `act` lets execute, from sources of groups. -/
def vPlain (vd : BitVec 5) (srcs : List (BitVec 5)) (widths : List Nat) (md : EngArch → Nat × Option Nat) (act : EngArch → Nat → Bool)
    (k : (w m : Nat) → (el : Nat → Nat → Nat) → Nat → Option Nat) (t : EngArch) : EngRes :=
  let w := vWidth t.vtype
  let r := vGroup t.vtype
  let os := srcs.map (fun n => ({ n := n.toNat, r := r } : VOpnd))
  let m := md t
  let el : Nat → Nat → Nat := fun s i => elemOf w (t.grp ((srcs.getD s 0).toNat) r) i
  vCheck t { ill := (({ n := vd.toNat, r := r } : VOpnd) :: os).any (t.badGroup false), widths := widths, modulus := m.2, sh := 0,
             vd := vd.toNat, srcs := os, refuse := none }
    (.ok (vWrite t (act t) t.vl 1 r vd.toNat 0 (fun _ i => k w m.1 el i)))

/-! ## Gadgets (08 R176, R179, R183) -/

/-- How fresh shares of a value make it up: by XOR, or by a sum modulo m. -/
inductive ShareKind where
  | xor
  | sum (m : Nat)

/-- Share j of n shares of r, the first n − 1 of which are the fresh values f. -/
def ShareKind.share (kd : ShareKind) (f : Nat → Nat) (n r j : Nat) : Nat := match kd with
  | .xor => if j + 1 < n then f j else (List.range (n - 1)).foldl (fun a i => a ^^^ f i) r
  | .sum m => if j + 1 < n then f j % m else (r + (List.range (n - 1)).foldl (fun a i => a + (m - f i % m)) 0) % m

/-- The value a source stands for, as shares of this kind. -/
def ShareKind.whole (kd : ShareKind) (d : Nat) (a : VIn) (i : Nat) : Nat := match kd with
  | .xor => a.xorAll i d
  | .sum m => a.sumAll i d % m

/-- The n-th fresh value of width w: where the spec gives only how many bits a gadget draws, its fresh shares are free values. -/
def Device.fresh (d : Device) (w n : Nat) : Nat := (Config.freeBits w (d.free + n)).toNat

/-- An instruction of engine e that draws `bits` from its mask generator and `frees` free values: it is not started while the generator is
stopped or unseeded (08, Table 8.7). f gives the engine's state after it. -/
def drawing (e bits frees : Nat) (f : EngArch) (d : Device) : EngRes :=
  if mgRoom (d.eng e).mg < bits then .stall 2
  else .next ((d.updEng e (fun g => { g with arch := f, mg := mgSpend bits g.mg })).tookFree frees)

/-- A result in fresh shares: `val i` is element i's value, held as n shares of kind kd; element i of share j is free value (n − 1)i + j. -/
def gadgetWrite (t : EngArch) (d : Device) (pm : Option (BitVec 3)) (vd : Nat) (kd : ShareKind) (val : Nat → Nat) : EngArch :=
  let n := t.d
  vWrite t (t.active pm) t.vl n (vGroup t.vtype) vd t.shares (fun j i =>
    some (kd.share (fun q => d.fresh (vWidth t.vtype) ((n - 1) * i + q)) n (val i) j))

/-- The checks of a gadget: its sources are groups, its destination a shared operand. -/
def gadgetChecks (t : EngArch) (vd : BitVec 5) (srcs : List (BitVec 5)) (sh : BitVec 2) (widths : List Nat) (md : Option Nat) (dest ok : Bool) : VChecks :=
  let r := vGroup t.vtype
  let s := sh.toNat
  let os := srcs.map (fun n => ({ n := n.toNat, r := r } : VOpnd))
  { ill := decide (s = 0) || os.any (fun o => t.badGroup (t.isShared s o.n) o) || t.badGroup dest { n := vd.toNat, r := r },
    widths := widths, modulus := md, sh := s, vd := vd.toNat, srcs := os,
    refuse := if ok then none else some ((srcs.getLastD vd).toNat) }

/-- A gadget of engine e with one shared or public source, drawing `per` bits per element below VL. -/
def gadget1 (e : Nat) (vd vs1 : BitVec 5) (pm : Option (BitVec 3)) (sh : BitVec 2) (widths : List Nat) (wantShared : Bool)
    (md : EngArch → Nat × Option Nat) (per : (d w m : Nat) → Nat) (inKind outKind : Nat → ShareKind) (t : EngArch) (d : Device) : EngRes :=
  let w := vWidth t.vtype
  let m := md t
  let x := (VSrc.reg vs1).read t sh.toNat w (vGroup t.vtype)
  vCheck t (gadgetChecks t vd [vs1] sh widths m.2 true (x.shared == wantShared))
    (drawing e (per t.d w m.1 * t.vl) ((t.d - 1) * t.vl)
      (gadgetWrite t d pm vd.toNat (outKind m.1) (fun i => (inKind m.1).whole t.d x i)) d)

/-- Products of pairs of shares: t of 08, Table 8.4. -/
def pairsOf (d : Nat) : Nat := d * (d - 1) / 2

end Sys2Proof.Machine
end

