-- ==== Sys2Proof/Machine/Masked.lean ====
section
/-!
DEFINITION. Sys2Proof/Machine/Masked.lean: share instructions and the events of the mask generator (07, Table 7.17; 08 R176 to R183): rows 243 to
255.
-/
namespace Sys2Proof.Machine
open Sys2Proof

/-! ## Share instructions (07, Table 7.17; 08, Tables 8.1 and 8.4) -/

/-- A gadget instruction of one source with no modulus operand. -/
def vShares (e : Fin 144) (vd vs1 : BitVec 5) (pm : Option (BitVec 3)) (sh : BitVec 2) (want : Bool) (md : EngArch → Nat × Option Nat)
    (per : (d w m : Nat) → Nat) (inKind outKind : Nat → ShareKind) (d : Device) : Device :=
  engRun e (fun _ t d => gadget1 e vd vs1 pm sh anyWidth want md per inKind outKind t d) d

/-- Bits per element of a conversion: modulo 2^SEW or modulo an odd m (08, Table 8.4). -/
def convertBits (d w m : Nat) : Nat := (if m = 2 ^ w then 2 else 3) * pairsOf d * w

/-- 07, Table 7.17: a plain value into Boolean shares. -/
def execVsplitB (e : Fin 144) (vd vs1 : BitVec 5) (pm : Option (BitVec 3)) (sh : BitVec 2) (s : State) : Host.Outcome State Fault Refusal :=
  s.on fun d => vShares e vd vs1 pm sh false noMod (fun d w _ => (d - 1) * w) (fun _ => .xor) (fun _ => .xor) d

/-- 07, Table 7.17: a plain value into arithmetic shares. -/
def execVsplitA (e : Fin 144) (vd vs1 : BitVec 5) (mk : BitVec 2) (pm : Option (BitVec 3)) (sh : BitVec 2) (s : State) : Host.Outcome State Fault Refusal :=
  s.on fun d => vShares e vd vs1 pm sh false (fun t => shareMod t mk.toNat) (fun d w _ => (d - 1) * w) .sum .sum d

/-- Shares recombined into a plain value with tag 0, after an internal refresh. -/
def vJoin (e : Fin 144) (vd vs1 : BitVec 5) (pm : Option (BitVec 3)) (sh : BitVec 2) (md : EngArch → Nat × Option Nat) (kd : Nat → ShareKind)
    (d : Device) : Device :=
  engRun e (fun _ t d =>
    let w := vWidth t.vtype
    let m := md t
    let x := (VSrc.reg vs1).read t sh.toNat w (vGroup t.vtype)
    vCheck t (gadgetChecks t vd [vs1] sh anyWidth m.2 false x.shared)
      (drawing e (pairsOf t.d * w * t.vl) 0
        (vWrite t (t.active pm) t.vl 1 (vGroup t.vtype) vd.toNat 0 (fun _ i => some ((kd m.1).whole t.d x i))) d)) d

/-- 07, Table 7.17: Boolean shares recombined. -/
def execVjoinB (e : Fin 144) (vd vs1 : BitVec 5) (pm : Option (BitVec 3)) (sh : BitVec 2) (s : State) : Host.Outcome State Fault Refusal :=
  s.on fun d => vJoin e vd vs1 pm sh noMod (fun _ => .xor) d

/-- 07, Table 7.17: arithmetic shares recombined. -/
def execVjoinA (e : Fin 144) (vd vs1 : BitVec 5) (mk : BitVec 2) (pm : Option (BitVec 3)) (sh : BitVec 2) (s : State) : Host.Outcome State Fault Refusal :=
  s.on fun d => vJoin e vd vs1 pm sh (fun t => shareMod t mk.toNat) .sum d

/-- 07, Table 7.17: arithmetic to Boolean shares. -/
def execVa2b (e : Fin 144) (vd vs1 : BitVec 5) (mk : BitVec 2) (pm : Option (BitVec 3)) (sh : BitVec 2) (s : State) : Host.Outcome State Fault Refusal :=
  s.on fun d => vShares e vd vs1 pm sh true (fun t => shareMod t mk.toNat) convertBits .sum (fun _ => .xor) d

/-- 07, Table 7.17: Boolean to arithmetic shares. -/
def execVb2a (e : Fin 144) (vd vs1 : BitVec 5) (mk : BitVec 2) (pm : Option (BitVec 3)) (sh : BitVec 2) (s : State) : Host.Outcome State Fault Refusal :=
  s.on fun d => vShares e vd vs1 pm sh true (fun t => shareMod t mk.toNat) convertBits (fun _ => .xor) .sum d

/-- 07, Table 7.17: fresh Boolean shares of the same value. -/
def execVrefreshB (e : Fin 144) (vd vs1 : BitVec 5) (pm : Option (BitVec 3)) (sh : BitVec 2) (s : State) : Host.Outcome State Fault Refusal :=
  s.on fun d => vShares e vd vs1 pm sh true noMod (fun d w _ => pairsOf d * w) (fun _ => .xor) (fun _ => .xor) d

/-- 07, Table 7.17: fresh arithmetic shares of the same value. -/
def execVrefreshA (e : Fin 144) (vd vs1 : BitVec 5) (mk : BitVec 2) (pm : Option (BitVec 3)) (sh : BitVec 2) (s : State) : Host.Outcome State Fault Refusal :=
  s.on fun d => vShares e vd vs1 pm sh true (fun t => shareMod t mk.toNat) (fun d w _ => pairsOf d * w) .sum .sum d

/-- 07, Table 7.17: masked equality of the elements below VL, as one Boolean-shared bit: bit 0 of element 0 of each share of vd, every other
bit 0 (08, Table 8.1). -/
def execVmcmp (e : Fin 144) (vd vs1 vs2 : BitVec 5) (sh : BitVec 2) (s : State) : Host.Outcome State Fault Refusal :=
  s.on fun d => engRun e (fun _ t d =>
    let w := vWidth t.vtype
    let g := vGroup t.vtype
    let x := (VSrc.reg vs1).read t sh.toNat w g
    let y := (VSrc.reg vs2).read t sh.toNat w g
    let r := b2n ((List.range t.vl).all (fun i => decide (x.xorAll i t.d = y.xorAll i t.d)))
    let u := (List.range t.d).foldl (fun u j =>
      u.setGrp (vd.toNat + j * g) (ShareKind.share .xor (fun q => d.fresh 1 q) t.d r j) sh.toNat g) t
    vCheck t (gadgetChecks t vd [vs1, vs2] sh anyWidth none true x.shared)
      (drawing e (pairsOf t.d * w * t.vl) (t.d - 1) (if t.vl = 0 then t.vEnd else u.vEnd) d)) d

/-- 07, Table 7.17: vs1 where the shared bit that vd holds is 1, else vs2, in fresh shares. -/
def execVmsel (e : Fin 144) (vd vs1 vs2 : BitVec 5) (pm : Option (BitVec 3)) (sh : BitVec 2) (s : State) : Host.Outcome State Fault Refusal :=
  s.on fun d => engRun e (fun _ t d =>
    let w := vWidth t.vtype
    let g := vGroup t.vtype
    let x := (VSrc.reg vs1).read t sh.toNat w g
    let y := (VSrc.reg vs2).read t sh.toNat w g
    let c := (VSrc.reg vd).read t sh.toNat w g
    vCheck t (gadgetChecks t vd [vs1, vs2, vd] sh anyWidth none true c.shared)
      (drawing e (pairsOf t.d * w * t.vl) ((t.d - 1) * t.vl)
        (gadgetWrite t d pm vd.toNat .xor (fun i => if bitOf (c.xorAll 0 t.d) 0 then x.xorAll i t.d else y.xorAll i t.d)) d)) d

/-- 07, Table 7.17: fresh bits of the mask generator, SEW bits for each element below VL in order. -/
def execVmask (e : Fin 144) (vd : BitVec 5) (pm : Option (BitVec 3)) (s : State) : Host.Outcome State Fault Refusal :=
  s.on fun d => engRun e (fun _ t d =>
    let w := vWidth t.vtype
    let g := vGroup t.vtype
    let bits := mgBits (w * t.vl) (d.eng e).mg
    vCheck t { ill := t.badGroup false { n := vd.toNat, r := g }, widths := anyWidth, modulus := none, sh := 0, vd := vd.toNat, srcs := [], refuse := none }
      (drawing e (w * t.vl) 0 (vWrite t (t.active pm) t.vl 1 g vd.toNat 0 (fun _ i => some (elemOf w bits i))) d)) d

/-! ## The mask generator (08 R182) -/

/-- 08 R182: a generator 2^20 blocks short of its limit asks for 64 bytes of reseed material, once. -/
def execMgReseedRequest (e : Fin 144) (s : State) : Host.Outcome State Fault Refusal :=
  s.on fun d =>
    let g := (d.eng e).mg
    if g.seeded && decide (mgAsk ≤ g.blocks) && !g.reqPending then
      toCustody (.entropyRequest e 0 64 false) (d.updEng e (fun x => { x with mg := { x.mg with reqPending := true } }))
    else d

/-- 08 R182: a generator that has produced 2^24 blocks without material stops. -/
def execMgAtLimit (e : Fin 144) (s : State) : Host.Outcome State Fault Refusal :=
  s.on fun d =>
    if mgLimit ≤ (d.eng e).mg.blocks then d.updEng e (fun x => { x with mg := { x.mg with atLimit := true } }) else d

end Sys2Proof.Machine
end

