-- ==== Sys2Proof/Machine/RcReads.lean ====
section
/-!
DEFINITION. Sys2Proof/Machine/RcReads.lean: the reads that clear what they return (00 R6): rows 481 to 536.
-/
namespace Sys2Proof.Machine
open Sys2Proof

/-- NTC_LOST_READ (00 R6): word 0x3010 of allotment a's page. -/
def execNtcLostRead (a : Fin 64) (s : State) : Host.Outcome State Fault Refusal :=
  s.on fun d => pageRead a 0x3010 d (answerPage a 0x3010)

/-- QM_STALLS_READ (00 R6). -/
def execQmStallsRead (s : State) : Host.Outcome State Fault Refusal :=
  s.on fun d => barRead 0x0002_0008 d (answerReg 0x0002_0008)

/-- CTX_CACHE_MISS_READ (00 R6). -/
def execCtxCacheMissRead (s : State) : Host.Outcome State Fault Refusal :=
  s.on fun d => barRead 0x000A_0200 d (answerReg 0x000A_0200)

/-- RSV_CORR_READ (00 R6). -/
def execRsvCorrRead (s : State) : Host.Outcome State Fault Refusal :=
  s.on fun d => barRead 0x0009_0008 d (answerReg 0x0009_0008)

/-- RSV_UNCORR_READ (00 R6). -/
def execRsvUncorrRead (s : State) : Host.Outcome State Fault Refusal :=
  s.on fun d => barRead 0x0009_000C d (answerReg 0x0009_000C)

/-- ENG_PREEMPTS_READ (00 R6). -/
def execEngPreemptsRead (e : Fin 144) (s : State) : Host.Outcome State Fault Refusal :=
  s.on fun d => barRead (engPage e + 0x18) d (answerReg (engPage e + 0x18))

/-- ENG_SCRUBS_READ (00 R6). -/
def execEngScrubsRead (e : Fin 144) (s : State) : Host.Outcome State Fault Refusal :=
  s.on fun d => barRead (engPage e + 0x1C) d (answerReg (engPage e + 0x1C))

/-- ENG_ECC_READ (00 R6). -/
def execEngEccRead (e : Fin 144) (s : State) : Host.Outcome State Fault Refusal :=
  s.on fun d => barRead (engPage e + 0x20) d (answerReg (engPage e + 0x20))

/-- LAT_SB_READ (00 R6). -/
def execLatSbRead (l : Fin 16) (s : State) : Host.Outcome State Fault Refusal :=
  s.on fun d => barRead (0x000F_4008 + 0x100 * l) d (answerReg (0x000F_4008 + 0x100 * l))

/-- LAT_IMPRECISE_READ (00 R6). -/
def execLatImpreciseRead (l : Fin 16) (s : State) : Host.Outcome State Fault Refusal :=
  s.on fun d => barRead (0x000F_400C + 0x100 * l) d (answerReg (0x000F_400C + 0x100 * l))

/-- SLU_PREEMPTS_READ (00 R6). -/
def execSluPreemptsRead (s : State) : Host.Outcome State Fault Refusal :=
  s.on fun d => barRead 0x000F_8004 d (answerReg 0x000F_8004)

/-- SLU_STEALS_READ (00 R6). -/
def execSluStealsRead (s : State) : Host.Outcome State Fault Refusal :=
  s.on fun d => barRead 0x000F_8008 d (answerReg 0x000F_8008)

/-- SLU_WATCHDOG_READ (00 R6). -/
def execSluWatchdogRead (s : State) : Host.Outcome State Fault Refusal :=
  s.on fun d => barRead 0x000F_800C d (answerReg 0x000F_800C)

/-- ENG_MG_RESEEDS_READ (00 R6). -/
def execEngMgReseedsRead (e : Fin 144) (s : State) : Host.Outcome State Fault Refusal :=
  s.on fun d => barRead (engPage e + 0x28) d (answerReg (engPage e + 0x28))

/-- ENG_MG_STALL_READ (00 R6). -/
def execEngMgStallRead (e : Fin 144) (s : State) : Host.Outcome State Fault Refusal :=
  s.on fun d => barRead (engPage e + 0x2C) d (answerReg (engPage e + 0x2C))

/-- LIU_JOBS_READ (00 R6). -/
def execLiuJobsRead (k : Fin 32) (s : State) : Host.Outcome State Fault Refusal :=
  s.on fun d => barRead (0x0006_0008 + 0x100 * k) d (answerReg (0x0006_0008 + 0x100 * k))

/-- LIU_REFUSED_READ (00 R6). -/
def execLiuRefusedRead (k : Fin 32) (s : State) : Host.Outcome State Fault Refusal :=
  s.on fun d => barRead (0x0006_0018 + 0x100 * k) d (answerReg (0x0006_0018 + 0x100 * k))

/-- LIU_ABORTS_READ (00 R6). -/
def execLiuAbortsRead (k : Fin 32) (s : State) : Host.Outcome State Fault Refusal :=
  s.on fun d => barRead (0x0006_001C + 0x100 * k) d (answerReg (0x0006_001C + 0x100 * k))

/-- LIU_PARITY_READ (00 R6). -/
def execLiuParityRead (k : Fin 32) (s : State) : Host.Outcome State Fault Refusal :=
  s.on fun d => barRead (0x0006_0020 + 0x100 * k) d (answerReg (0x0006_0020 + 0x100 * k))

/-- LIU_CHECKFAIL_READ (00 R6). -/
def execLiuCheckfailRead (k : Fin 32) (s : State) : Host.Outcome State Fault Refusal :=
  s.on fun d => barRead (0x0006_0024 + 0x100 * k) d (answerReg (0x0006_0024 + 0x100 * k))

/-- LIU_WAITING_READ (00 R6). -/
def execLiuWaitingRead (s : State) : Host.Outcome State Fault Refusal :=
  s.on fun d => barRead 0x0006_4004 d (answerReg 0x0006_4004)

/-- DIG_JOBS_READ (00 R6). -/
def execDigJobsRead (k : Fin 8) (s : State) : Host.Outcome State Fault Refusal :=
  s.on fun d => barRead (0x0007_00C0 + 0x100 * k) d (answerReg (0x0007_00C0 + 0x100 * k))

/-- DIG_PREEMPTS_READ (00 R6). -/
def execDigPreemptsRead (k : Fin 8) (s : State) : Host.Outcome State Fault Refusal :=
  s.on fun d => barRead (0x0007_00D0 + 0x100 * k) d (answerReg (0x0007_00D0 + 0x100 * k))

/-- DIG_PARITY_READ (00 R6). -/
def execDigParityRead (k : Fin 8) (s : State) : Host.Outcome State Fault Refusal :=
  s.on fun d => barRead (0x0007_00D4 + 0x100 * k) d (answerReg (0x0007_00D4 + 0x100 * k))

/-- DIG_WAITING_READ (00 R6). -/
def execDigWaitingRead (s : State) : Host.Outcome State Fault Refusal :=
  s.on fun d => barRead 0x0007_1008 d (answerReg 0x0007_1008)

/-- DIG_SLOTS_READ (00 R6). -/
def execDigSlotsRead (s : State) : Host.Outcome State Fault Refusal :=
  s.on fun d => barRead 0x0007_1010 d (answerReg 0x0007_1010)

/-- WHD_FAILS_READ (00 R6). -/
def execWhdFailsRead (s : State) : Host.Outcome State Fault Refusal :=
  s.on fun d => barRead 0x0013_0008 d (answerReg 0x0013_0008)

/-- WHD_COND_READ (00 R6). -/
def execWhdCondRead (s : State) : Host.Outcome State Fault Refusal :=
  s.on fun d => barRead 0x0013_001C d (answerReg 0x0013_001C)

/-- WHD_DRBG_RESEEDS_READ (00 R6). -/
def execWhdDrbgReseedsRead (s : State) : Host.Outcome State Fault Refusal :=
  s.on fun d => barRead 0x0013_0028 d (answerReg 0x0013_0028)

/-- WHD_WAIT_READ (00 R6). -/
def execWhdWaitRead (c : Fin 4) (s : State) : Host.Outcome State Fault Refusal :=
  s.on fun d => barRead (0x0013_0030 + 4 * c) d (answerReg (0x0013_0030 + 4 * c))

/-- WHD_NOENT_READ (00 R6). -/
def execWhdNoentRead (s : State) : Host.Outcome State Fault Refusal :=
  s.on fun d => barRead 0x0013_0040 d (answerReg 0x0013_0040)

/-- CIS_UPDATES_READ (00 R6). -/
def execCisUpdatesRead (s : State) : Host.Outcome State Fault Refusal :=
  s.on fun d => barRead 0x0010_0004 d (answerReg 0x0010_0004)

/-- CIS_LEAVES_READ (00 R6). -/
def execCisLeavesRead (s : State) : Host.Outcome State Fault Refusal :=
  s.on fun d => barRead 0x0010_0010 d (answerReg 0x0010_0010)

/-- CIS_BURNED_READ (00 R6). -/
def execCisBurnedRead (s : State) : Host.Outcome State Fault Refusal :=
  s.on fun d => barRead 0x0010_0014 d (answerReg 0x0010_0014)

/-- KST_FETCHES_READ (00 R6). -/
def execKstFetchesRead (s : State) : Host.Outcome State Fault Refusal :=
  s.on fun d => barRead 0x0015_0010 d (answerReg 0x0015_0010)

/-- KST_STORES_READ (00 R6). -/
def execKstStoresRead (s : State) : Host.Outcome State Fault Refusal :=
  s.on fun d => barRead 0x0015_0014 d (answerReg 0x0015_0014)

/-- KST_TAGFAIL_READ (00 R6). -/
def execKstTagfailRead (s : State) : Host.Outcome State Fault Refusal :=
  s.on fun d => barRead 0x0015_0018 d (answerReg 0x0015_0018)

/-- KST_SLOTS_READ (00 R6). -/
def execKstSlotsRead (s : State) : Host.Outcome State Fault Refusal :=
  s.on fun d => barRead 0x0015_001C d (answerReg 0x0015_001C)

/-- KST_KCACHE_HIT_READ (00 R6). -/
def execKstKcacheHitRead (s : State) : Host.Outcome State Fault Refusal :=
  s.on fun d => barRead 0x0015_0020 d (answerReg 0x0015_0020)

/-- KST_KCACHE_MISS_READ (00 R6). -/
def execKstKcacheMissRead (s : State) : Host.Outcome State Fault Refusal :=
  s.on fun d => barRead 0x0015_0024 d (answerReg 0x0015_0024)

/-- ALLOT_ENGTIME_READ (00 R6). -/
def execAllotEngtimeRead (n : Fin 64) (s : State) : Host.Outcome State Fault Refusal :=
  s.on fun d => barRead (0x0002_100C + 16 * n) d (answerReg (0x0002_100C + 16 * n))

/-- HG_VIOL_READ (00 R6). -/
def execHgViolRead (g : Fin 84) (s : State) : Host.Outcome State Fault Refusal :=
  s.on fun d => barRead (0x0008_0008 + 16 * g) d (answerReg (0x0008_0008 + 16 * g))

/-- HG_TIMEOUTS_READ (00 R6). -/
def execHgTimeoutsRead (g : Fin 84) (s : State) : Host.Outcome State Fault Refusal :=
  s.on fun d => barRead (0x0008_000C + 16 * g) d (answerReg (0x0008_000C + 16 * g))

/-- FLT_COUNT_C_READ (00 R6). -/
def execFltCountCRead (s : State) : Host.Outcome State Fault Refusal :=
  s.on fun d => barRead 0x000C_0030 d (answerReg 0x000C_0030)

/-- FLT_COUNT_U_READ (00 R6). -/
def execFltCountURead (s : State) : Host.Outcome State Fault Refusal :=
  s.on fun d => barRead 0x000C_0034 d (answerReg 0x000C_0034)

/-- ENG_REPLAY_COUNT_READ (00 R6). -/
def execEngReplayCountRead (n : Fin 64) (s : State) : Host.Outcome State Fault Refusal :=
  s.on fun d => barRead (0x000C_0400 + 4 * n) d (answerReg (0x000C_0400 + 4 * n))

/-- LEV_EVENTS_READ (00 R6). -/
def execLevEventsRead (u : Fin 32) (s : State) : Host.Outcome State Fault Refusal :=
  s.on fun d => barRead (0x0011_0200 + 4 * u) d (answerReg (0x0011_0200 + 4 * u))

/-- EVR_DROPPED_READ (00 R6). -/
def execEvrDroppedRead (s : State) : Host.Outcome State Fault Refusal :=
  s.on fun d => barRead 0x0012_003C d (answerReg 0x0012_003C)

/-- WS_FEC_CORR_READ (00 R6). -/
def execWsFecCorrRead (p : Fin 2) (s : State) : Host.Outcome State Fault Refusal :=
  s.on fun d => barRead (0x000D_0104 + 0x40 * p) d (answerReg (0x000D_0104 + 0x40 * p))

/-- WS_FEC_UNCORR_READ (00 R6). -/
def execWsFecUncorrRead (p : Fin 2) (s : State) : Host.Outcome State Fault Refusal :=
  s.on fun d => barRead (0x000D_0108 + 0x40 * p) d (answerReg (0x000D_0108 + 0x40 * p))

/-- WS_RXDROP_READ (00 R6). -/
def execWsRxdropRead (p : Fin 2) (s : State) : Host.Outcome State Fault Refusal :=
  s.on fun d => barRead (0x000D_010C + 0x40 * p) d (answerReg (0x000D_010C + 0x40 * p))

/-- MOD_TRANSITIONS_READ (00 R6). -/
def execModTransitionsRead (s : State) : Host.Outcome State Fault Refusal :=
  s.on fun d => barRead 0x0014_000C d (answerReg 0x0014_000C)

/-- MOD_LOCK_VIOL_READ (00 R6). -/
def execModLockViolRead (s : State) : Host.Outcome State Fault Refusal :=
  s.on fun d => barRead 0x0014_0010 d (answerReg 0x0014_0010)

/-- CLK_UNLOCKS_READ (00 R6). -/
def execClkUnlocksRead (s : State) : Host.Outcome State Fault Refusal :=
  s.on fun d => barRead 0x0001_0004 d (answerReg 0x0001_0004)

/-- PWR_DROOP_READ (00 R6). -/
def execPwrDroopRead (s : State) : Host.Outcome State Fault Refusal :=
  s.on fun d => barRead 0x0001_000C d (answerReg 0x0001_000C)

/-- PCI_ERRORS_READ (00 R6). -/
def execPciErrorsRead (s : State) : Host.Outcome State Fault Refusal :=
  s.on fun d => barRead 0x000E_0010 d (answerReg 0x000E_0010)

end Sys2Proof.Machine
end

