-- ==== Sys2Proof/Machine/Stateful.lean ====
section
/-!
DEFINITION. Sys2Proof/Machine/Stateful.lean: the stateful hash-based schemes as 09 R204 to R206 take them from RFC 8554, RFC 8391 and SP 800-208: their
trees, signatures and public keys. One-time signatures and the hash of two nodes are free functions (Config).
-/
namespace Sys2Proof.Machine
open Sys2Proof

/-- A kind of stateful key (13, Table 13.3): EXTRA gives LMS and LM-OTS type and levels, or the OID. -/
structure Hbs where
  family : Nat
  variant : Nat
  extra : Nat
deriving DecidableEq, Repr

def Hbs.h (k : Hbs) : Nat := treeHeight k.family k.variant k.extra
def Hbs.levels (k : Hbs) : Nat := treeLevels k.family k.variant k.extra
def Hbs.lms (k : Hbs) : Nat := field k.extra 7 0
def Hbs.ots (k : Hbs) : Nat := field k.extra 15 8
/-- The kind as the free functions take it: the types of one level. -/
def Hbs.kind (k : Hbs) : Nat := (k.family * 2 + k.variant) * 2 ^ 16 + k.extra % 2 ^ 16

/-! ## Keys and trees -/

/-- The public bytes that the hashes of a tree take: I, or SEED with the tree's place. -/
def xmssPub (seed : List Byte) (level tree : Nat) : List Byte := seed ++ toBytes 4 level ++ toBytes 4 tree

/-- The secret seed and the public bytes of a tree (09, Table 9.2): SEED and I of the top level, of a lower HSS tree derived ones; SK_SEED ‖ SK_PRF and
SEED of XMSS, the thirds of a KMAC256 of the master seed. -/
def Hbs.seeds (k : Hbs) (key : List Byte) (level tree : Nat) : List Byte × List Byte :=
  if k.family = 0x04 then
    let s := if level = 0 then key else toBytes 48 (Config.hssChild k.kind (key.take 32) (key.drop 32) level tree)
    (s.take 32, (s.drop 32).take 16)
  else
    let s := kmac256 key [] 96 (ascii "KQ XMSS SEEDS")
    (s.take 64, xmssPub (s.drop 64) level tree)

/-- Nodes above a row of nodes: the first of them has number r. -/
def Hbs.pairUp (k : Hbs) (pub : List Byte) : (r : Nat) → List (List Byte) → List (List Byte)
  | r, a :: b :: t => toBytes 32 (Config.treeNode k.kind pub r a b) :: k.pairUp pub (r + 1) t
  | _, _ => []

/-- A row of 2^h nodes and all above it, the root first. -/
def Hbs.rows (k : Hbs) (pub : List Byte) : (h : Nat) → List (List Byte) → List (List Byte)
  | 0, l => l
  | h + 1, l => k.rows pub h (k.pairUp pub (2 ^ h) l) ++ l

/-- The nodes of a tree, numbered from 1 at the root. -/
def Hbs.nodes (k : Hbs) (key : List Byte) (level tree : Nat) : List (List Byte) :=
  let s := k.seeds key level tree
  zeros 32 :: k.rows s.2 k.h ((List.range (2 ^ k.h)).map (fun i => toBytes 32 (Config.otsLeaf k.kind s.1 s.2 i)))

/-- What stands for a tree of a root in the level above it: the LMS public key, or the root. -/
def Hbs.pubOf (k : Hbs) (pub root : List Byte) : List Byte :=
  if k.family = 0x04 then beBytes 4 k.lms ++ beBytes 4 k.ots ++ pub ++ root else root

/-- The public key that the key pair puts out (03, Table 3.10): HSS of 60 bytes, XMSS of 68. -/
def Hbs.publicKey (k : Hbs) (key root : List Byte) : List Byte :=
  let pub := (k.seeds key 0 0).2
  if k.family = 0x04 then beBytes 4 k.levels ++ k.pubOf pub root else beBytes 4 k.extra ++ root ++ pub.take 32

/-! ## Signatures -/

/-- The signature of leaf i of a tree over a message, with the path that the nodes give: of LMS with its types (RFC 8554), of an XMSS layer the one-time
signature and the path. -/
def Hbs.levelSig (k : Hbs) (key : List Byte) (level tree i : Nat) (node : Nat → List Byte) (msg : List Byte) : List Byte :=
  let s := k.seeds key level tree
  let path := (pathNodes k.h i).flatMap node
  let c := toBytes 32 (Config.otsRandom k.kind s.1 s.2 i msg)
  let y (c : List Byte) : List Byte := toBytes (32 * otsChains k.family k.extra) (Config.otsSign k.kind s.1 s.2 i c msg)
  if k.family = 0x04 then beBytes 4 i ++ beBytes 4 k.ots ++ c ++ y c ++ beBytes 4 k.lms ++ path else y [] ++ path

/-- Every lower tree, level by level. -/
def Hbs.lower (k : Hbs) : List (Nat × Nat) :=
  (List.range (k.levels - 1)).flatMap (fun l => (List.range (2 ^ (k.h * (l + 1)))).map (fun t => (l + 1, t)))

/-- The tree object that key generation writes (09 R205): every tree, then the signature of every lower root. -/
def Hbs.body (k : Hbs) (key : List Byte) : List Byte :=
  let sig (x : Nat × Nat) : List Byte :=
    let up := k.nodes key (x.1 - 1) (x.2 / 2 ^ k.h)
    k.levelSig key (x.1 - 1) (x.2 / 2 ^ k.h) (x.2 % 2 ^ k.h) (fun r => up.getD r [])
      (k.pubOf (k.seeds key x.1 x.2).2 ((k.nodes key x.1 x.2).getD 1 []))
  ((0, 0) :: k.lower).flatMap (fun x => (k.nodes key x.1 x.2).flatMap id) ++ k.lower.flatMap sig

/-- A signature with leaf `leaf` (09 R205, R206): the path and the lower-level signatures are read from the tree object. -/
def Hbs.sign (k : Hbs) (key body : List Byte) (leaf : Nat) (msg : List Byte) : List Byte :=
  let f := k.family
  let low := k.levels - 1
  let tree (l : Nat) : Nat := treeUnder f k.variant k.extra leaf l
  let node (l r : Nat) : List Byte := (body.drop (nodeAt f k.variant k.extra l (tree l) r)).take 32
  let stored (l : Nat) : List Byte := (body.drop (lowerSigAt f k.variant k.extra l (tree l))).take (levelSigLen f k.variant k.extra)
  let pub (l : Nat) : List Byte := k.pubOf (k.seeds key l (tree l)).2 (node l 1)
  let last (m : List Byte) : List Byte := k.levelSig key low (tree low) (leafUnder f k.variant k.extra leaf low) (node low) m
  if f = 0x04 then beBytes 4 low ++ (List.range low).flatMap (fun l => stored (l + 1) ++ pub (l + 1)) ++ last msg
  else
    let s := k.seeds key 0 0
    let r := toBytes 32 (Config.otsRandom k.kind s.1 s.2 leaf msg)
    beBytes (if k.variant = 1 then 3 else 4) leaf ++ r ++ last (toBytes 32 (Config.xmssDigest k.kind r (node 0 1) leaf msg)) ++
      (List.range low).flatMap (fun i => stored (low - i))

/-! ## Verification (09 R204; 03, Table 3.19) -/

/-- The root that a node and its path lead to. -/
def Hbs.climb (k : Hbs) (pub : List Byte) : (h r : Nat) → (cur path : List Byte) → List Byte
  | 0, _, cur, _ => cur
  | h + 1, r, cur, path =>
    let sib := path.take 32
    let up := if r % 2 = 0 then Config.treeNode k.kind pub (r / 2) cur sib else Config.treeNode k.kind pub (r / 2) sib cur
    k.climb pub h (r / 2) (toBytes 32 up) (path.drop 32)

/-- The root that the one-time signature `y` of leaf i over a message leads to. -/
def Hbs.rootOf (k : Hbs) (pub : List Byte) (i : Nat) (c msg y path : List Byte) : List Byte :=
  k.climb pub k.h (2 ^ k.h + i) (toBytes 32 (Config.otsRoot k.kind pub i c msg y)) path

/-- Types of 32-byte hashes (09 R204), H25 included. -/
def lmsTypeOk (t : Nat) : Bool := decide (5 ≤ t ∧ t ≤ 9) || decide (0x0F ≤ t ∧ t ≤ 0x13)
def otsTypeOk (t : Nat) : Bool := decide (1 ≤ t ∧ t ≤ 4) || decide (9 ≤ t ∧ t ≤ 0x0C)

/-- An LMS public key of 56 bytes: its kind, when its types are accepted. -/
def lmsKind (pub : List Byte) : Option Hbs :=
  let lms := ofBe (pub.take 4)
  let ots := ofBe ((pub.drop 4).take 4)
  if pub.length = 56 ∧ lmsTypeOk lms ∧ otsTypeOk ots then some { family := 0x04, variant := 0, extra := lms + ots * 2 ^ 8 + 2 ^ 16 } else none

/-- One LMS signature against a public key: 0, or 1 malformed, 5 the leaf, 3 the root. -/
def Hbs.lmsCheck (k : Hbs) (pub msg sig : List Byte) : Nat :=
  let n := 32 * otsChains 0x04 k.extra
  let i := ofBe (sig.take 4)
  if sig.length ≠ levelSigLen 0x04 0 k.extra ∨ ofBe ((sig.drop 4).take 4) ≠ k.ots ∨ ofBe ((sig.drop (40 + n)).take 4) ≠ k.lms then 1
  else if 2 ^ k.h ≤ i then 5
  else if k.rootOf ((pub.drop 8).take 16) i ((sig.drop 8).take 32) msg ((sig.drop 40).take n) (sig.drop (44 + n)) = pub.drop 24 then 0
  else 3

/-- The levels of an HSS signature from a public key down. -/
def hssCheck (msg : List Byte) : (below : Nat) → (pub sig : List Byte) → Nat
  | 0, pub, sig => match lmsKind pub with
    | none => 1
    | some k => k.lmsCheck pub msg sig
  | b + 1, pub, sig => match lmsKind pub with
    | none => 1
    | some k =>
      let n := levelSigLen 0x04 0 k.extra
      let next := (sig.drop n).take 56
      match k.lmsCheck pub next (sig.take n) with
      | 0 => hssCheck msg b next (sig.drop (n + 56))
      | r => r

/-- What HSS verification comes to: 0, or the DETAIL of VERIFY_FALSE. -/
def hssVerify (pk msg sig : List Byte) : Nat :=
  let levels := ofBe (pk.take 4)
  if pk.length ≠ 60 ∨ levels = 0 ∨ 8 < levels ∨ (lmsKind (pk.drop 4)).isNone then 4
  else if sig.length < 4 ∨ ofBe (sig.take 4) ≠ levels - 1 then 1
  else hssCheck msg (levels - 1) (pk.drop 4) (sig.drop 4)

/-- The root of the top tree that an XMSS or XMSS^MT signature leads to, from the lowest level up. -/
def Hbs.xmssRoot (k : Hbs) (seed : List Byte) (leaf : Nat) : (level : Nat) → (msg sig : List Byte) → List Byte
  | 0, msg, sig =>
    let n := 32 * otsChains 0x05 k.extra
    k.rootOf (xmssPub seed 0 0) (leafUnder 0x05 k.variant k.extra leaf 0) [] msg (sig.take n) ((sig.drop n).take (32 * k.h))
  | l + 1, msg, sig =>
    let n := 32 * otsChains 0x05 k.extra
    let root := k.rootOf (xmssPub seed (l + 1) (treeUnder 0x05 k.variant k.extra leaf (l + 1))) (leafUnder 0x05 k.variant k.extra leaf (l + 1)) [] msg
      (sig.take n) ((sig.drop n).take (32 * k.h))
    k.xmssRoot seed leaf l root (sig.drop (n + 32 * k.h))

/-- What XMSS or XMSS^MT verification comes to, by the key's VARIANT: an OID that the family does not offer is a malformed public key. -/
def xmssVerify (variant : Nat) (pk msg sig : List Byte) : Nat :=
  let k : Hbs := { family := 0x05, variant := variant, extra := ofBe (pk.take 4) }
  let i := if variant = 1 then 3 else 4
  let leaf := ofBe (sig.take i)
  let r := (sig.drop i).take 32
  let root := (pk.drop 4).take 32
  if pk.length ≠ 68 ∨ !((if variant = 1 then [1, 2, 0x29, 0x2A] else [1, 2, 3, 0x10, 0x11, 0x12]).contains k.extra) then 4
  else if sig.length ≠ stateSigLen 0x05 variant k.extra then 1
  else if 2 ^ (k.h * k.levels) ≤ leaf then 5
  else if k.xmssRoot (pk.drop 36) leaf (k.levels - 1) (toBytes 32 (Config.xmssDigest k.kind r root leaf msg)) (sig.drop (i + 32)) = root then 0
  else 3

end Sys2Proof.Machine
end

