-- ==== Sys2Proof/Machine/Rsa.lean ====
section
/-!
DEFINITION. Sys2Proof/Machine/Rsa.lean: RSA as 09 R216 takes it from PKCS #1 v2.2.
-/
namespace Sys2Proof.Machine
open Sys2Proof

/-! ## Keys (09, Table 9.2, R216) -/

/-- A secret key as it is held: n, e, p, q, dp, dq, qinv, big-endian, of k, 4 and k / 2 bytes. -/
structure RsaKey where
  k : Nat
  n : Nat
  e : Nat
  p : Nat
  q : Nat
  dp : Nat
  dq : Nat
  qinv : Nat
deriving DecidableEq, Repr

def rsaKey (k : Nat) (bs : List Byte) : RsaKey :=
  let at_ (o l : Nat) : Nat := ofBe ((bs.drop o).take l)
  let h := k / 2
  { k := k, n := at_ 0 k, e := at_ k 4, p := at_ (k + 4) h, q := at_ (k + 4 + h) h, dp := at_ (k + 4 + 2 * h) h,
    dq := at_ (k + 4 + 3 * h) h, qinv := at_ (k + 4 + 4 * h) h }

/-- The key of two primes of k / 2 bytes, with e = 65,537. -/
def rsaFrom (k p q : Nat) : List Byte :=
  let e := 65537
  let phi := (p - 1) * (q - 1)
  -- e · d = 1 modulo phi: the least multiple of phi that makes d whole
  let d := ((List.range e).find? (fun i => (1 + i * phi) % e == 0)).elim 0 (fun i => (1 + i * phi) / e)
  beBytes k (p * q) ++ beBytes 4 e ++ [p, q, d % (p - 1), d % (q - 1), fieldInv p q].flatMap (fun x => beBytes (k / 2) x)

/-- The public key: the modulus, then e as 4 bytes. -/
def rsaPublicOf (k : Nat) (key : List Byte) : List Byte := key.take (k + 4)

def RsaKey.decrypt (r : RsaKey) (c : Nat) : Nat :=
  let m1 := fieldPow r.p (c % r.p) r.dp
  let m2 := fieldPow r.q (c % r.q) r.dq
  m2 + r.q * (r.qinv * fieldSub r.p m1 m2 % r.p)

/-- A public exponent that verification refuses (09 R216). -/
def rsaBadE (e : Nat) : Bool := decide (e % 2 = 0) || decide (e < 3) || decide (2 ^ 32 ≤ e)

/-! ## Encodings (PKCS #1 v2.2) -/

/-- DigestInfo of a digest by its code, behind 00 01 FF … 00. -/
def rsaV15 (k code : Nat) (digest : List Byte) : List Byte :=
  let n := digest.length
  let t := [0x30, BitVec.ofNat 8 (n + 17), 0x30, 0x0D] ++ prehashOid code ++ [0x05, 0x00, 0x04, BitVec.ofNat 8 n] ++ digest
  [0x00, 0x01] ++ List.replicate (k - 3 - t.length) 0xFF ++ [0x00] ++ t

/-- MGF1 with a hash function. -/
def mgf1 (h : HashFn) (seed : List Byte) (n : Nat) : List Byte :=
  ((List.range (n / h.len + 1)).flatMap (fun i => h.run (seed ++ beBytes 4 i))).take n

def dropTopBit (l : List Byte) : List Byte := match l with
  | [] => []
  | b :: t => (b &&& 0x7F) :: t

/-- EMSA-PSS with MGF1 of the same hash: the modulus has a multiple of 64 bits, so one bit of the encoding is clear. -/
def pssHash (h : HashFn) (digest salt : List Byte) : List Byte := h.run (zeros 8 ++ digest ++ salt)
def pssEncode (k : Nat) (h : HashFn) (digest salt : List Byte) : List Byte :=
  let H := pssHash h digest salt
  let db := zeros (k - h.len - 2 - salt.length) ++ [0x01] ++ salt
  dropTopBit (xorBytes db (mgf1 h H db.length)) ++ H ++ [0xBC]
/-- PSS verification with exactly the salt length given. -/
def pssOk (k : Nat) (h : HashFn) (digest em : List Byte) (saltLen : Nat) : Bool :=
  let body := em.take (k - h.len - 1)
  let H := (em.drop (k - h.len - 1)).take h.len
  let db := dropTopBit (xorBytes body (mgf1 h H body.length))
  let pad := k - h.len - 2 - saltLen
  decide (h.len + saltLen + 2 ≤ k) && em.getLastD 0 == 0xBC && decide ((em.headD 0).toNat < 128) && (db.take pad).all (fun b => b == 0) &&
    db.getD pad 0 == 1 && decide (pssHash h digest (db.drop (pad + 1)) = H)

/-- EME-OAEP with an empty label. -/
def oaepEncode (k : Nat) (h : HashFn) (m seed : List Byte) : List Byte :=
  let db := h.run [] ++ zeros (k - m.length - 2 * h.len - 2) ++ [0x01] ++ m
  let masked := xorBytes db (mgf1 h seed db.length)
  [0x00] ++ xorBytes seed (mgf1 h masked h.len) ++ masked
def oaepDecode (k : Nat) (h : HashFn) (em : List Byte) : Option (List Byte) :=
  let masked := em.drop (1 + h.len)
  let seed := xorBytes ((em.drop 1).take h.len) (mgf1 h masked h.len)
  let db := xorBytes masked (mgf1 h seed masked.length)
  let rest := (db.drop h.len).dropWhile (fun b => b == 0)
  if 2 * h.len + 2 ≤ k ∧ em.headD 1 = 0 ∧ db.take h.len = h.run [] ∧ rest.headD 0 = 1 then some (rest.drop 1) else none

/-! ## Operations (09 R216) -/

/-- The first n bytes that are not zero, for the padding of v1.5 encryption. -/
def nonZero (n : Nat) (random : List Byte) : List Byte :=
  let l := (random.filter (fun b => b != 0)).take n
  l ++ List.replicate (n - l.length) 1

def rsaSign (k : Nat) (key : List Byte) (pad code : Nat) (digest salt : List Byte) : List Byte :=
  let em := if pad = 2 then pssEncode k (hashSet code) digest salt else rsaV15 k code digest
  beBytes k ((rsaKey k key).decrypt (ofBe em))

/-- 0, or the DETAIL of VERIFY_FALSE: 1 the length, 4 the public key, 2 a signature not below the modulus, 3 the encoding. -/
def rsaVerify (k : Nat) (pk : List Byte) (pad code saltLen : Nat) (digest sig : List Byte) : Nat :=
  let n := ofBe (pk.take k)
  let e := ofBe (pk.drop k)
  if sig.length ≠ k then 1
  else if rsaBadE e then 4
  else if n ≤ ofBe sig then 2
  else
    let em := beBytes k (fieldPow n (ofBe sig) e)
    let ok := if pad = 2 then pssOk k (hashSet code) digest em saltLen else decide (em = rsaV15 k code digest)
    if ok then 0 else 3

/-- The ciphertext, or the DETAIL of REFUSED_INPUT: 2 a message too long. -/
def rsaEncrypt (k : Nat) (pk : List Byte) (pad code : Nat) (m random : List Byte) : Nat ⊕ List Byte :=
  let h := hashSet code
  let room := if pad = 3 then k - 2 * h.len - 2 else k - 11
  if room < m.length ∨ (pad = 3 ∧ k < 2 * h.len + 2) then .inl 2
  else
    let em := if pad = 3 then oaepEncode k h m (random.take h.len)
      else [0x00, 0x02] ++ nonZero (k - 3 - m.length) random ++ [0x00] ++ m
    .inr (beBytes k (fieldPow (ofBe (pk.take k)) (ofBe em) (ofBe (pk.drop k))))

/-- The plaintext, or the DETAIL of REFUSED_INPUT: 1 the length, 2 a ciphertext not below the modulus, 8 the decoding. -/
def rsaDecrypt (k : Nat) (key : List Byte) (code : Nat) (ct : List Byte) : Nat ⊕ List Byte :=
  let r := rsaKey k key
  if ct.length ≠ k then .inl 1
  else if r.n ≤ ofBe ct then .inl 2
  else match oaepDecode k (hashSet code) (beBytes k (r.decrypt (ofBe ct))) with
    | some m => .inr m
    | none => .inl 8

end Sys2Proof.Machine
end

