-- ==== Sys2Proof/Machine/KeyEx.lean ====
section
/-!
DEFINITION. Sys2Proof/Machine/KeyEx.lean: the classical routines by their sets and the key-exchange groups (09 R198, R212, R216 to R219, Tables 9.1,
9.7).
-/
namespace Sys2Proof.Machine
open Sys2Proof

/-! ## Curves by PARAM_SET (03, Table 3.9) -/

def pCurveOf (set : Nat) : PCurve := if set = 1 then curveP256 else if set = 2 then curveP384 else curveP521
def xCurveOf (set : Nat) : XCurve := if set = 4 then curveX25519 else curveX448
def eCurveOf (set : Nat) : ECurve := if set = 6 then curveEd25519 else curveEd448

/-- A secret key of a set from random bytes (09, Table 9.2): a scalar, or a seed. -/
def curveKey (set : Nat) (random : List Byte) : List Byte :=
  if set ≤ 3 then (pCurveOf set).scalarFrom random else random.take (curvePk set)

/-- The public key of a secret one. -/
def curvePublic (set : Nat) (key : List Byte) : List Byte :=
  if set ≤ 3 then (pCurveOf set).public key else if set ≤ 5 then (xCurveOf set).public key else (eCurveOf set).public key

/-- The shared secret, or the DETAIL of REFUSED_INPUT (09 R217, R218). -/
def curveAgree (set : Nat) (key peer : List Byte) : Nat ⊕ List Byte :=
  if set ≤ 3 then
    let q := (pCurveOf set).decode peer
    if q.1 ≠ 0 then .inl q.1 else ((pCurveOf set).agree key q.2).elim (.inl 3) .inr
  else ((xCurveOf set).agree key peer).elim (.inl 3) .inr

/-- Signature and verification of a curve set: of a digest, or of a message. `extra` is the additional data of a hedged ECDSA nonce. -/
def curveSign (set : Nat) (key m extra : List Byte) : List Byte :=
  if set ≤ 3 then (pCurveOf set).sign key m extra else (eCurveOf set).sign key m
def curveVerify (set : Nat) (pk m sig : List Byte) : Nat :=
  if set ≤ 3 then (pCurveOf set).verify pk m sig else (eCurveOf set).verify pk m sig

/-! ## Key-exchange groups (09 R212, Table 9.7) -/

/-- Part of a group's key: a seed d ‖ z of ML-KEM-768, then a scalar of its curve. -/
def groupCurve (group : Nat) : Nat := if group = 1 ∨ group = 3 then 4 else 1
def hasKem (group : Nat) : Bool := decide (group ≤ 2)
/-- The curve's public part stands first. -/
def curveFirst (group : Nat) : Bool := decide (group = 2) || decide (3 ≤ group)

/-- The parts of a share of which `kem` bytes are of ML-KEM: its ML-KEM part and its curve part. -/
def shareParts (group kem : Nat) (share : List Byte) : List Byte × List Byte :=
  let c := curvePk (groupCurve group)
  if !hasKem group then ([], share)
  else if curveFirst group then (share.drop c, share.take c) else (share.take kem, share.drop kem)
/-- Two parts in the group's order. -/
def inOrder (group : Nat) (kem curve : List Byte) : List Byte := if curveFirst group then curve ++ kem else kem ++ curve

/-- 32 bytes of a scalar, then the seed of the ML-KEM part, as the context holds them; from random bytes. -/
def groupSeed (group : Nat) (random : List Byte) : List Byte := curveKey (groupCurve group) (random.take 40) ++ (random.drop 40).take 64

/-- The client share of a seed (0x0801). -/
def clientShare (group : Nat) (seed : List Byte) : List Byte :=
  inOrder group (if hasKem group then kemEk 2 (seed.drop 32) else []) (curvePublic (groupCurve group) (seed.take 32))

/-- The answer to a client share (0x0802): the server share and the combined secret; or the first DETAIL in byte order: 7 of the ML-KEM key, 1 to 3 of
the curve part. -/
def serverShare (group : Nat) (share random : List Byte) : Nat ⊕ (List Byte × List Byte) :=
  let p := shareParts group (kemPk 1 2) share
  let scalar := curveKey (groupCurve group) (random.take 40)
  let badKem := hasKem group && !kemEkOk 2 p.1
  let z := curveAgree (groupCurve group) scalar p.2
  let e := if hasKem group then kemEncaps 2 p.1 ((random.drop 40).take 32) else ([], [])
  match z with
  | .inl r => .inl (if badKem && !curveFirst group then 7 else r)
  | .inr z => if badKem then .inl 7 else .inr (inOrder group e.1 (curvePublic (groupCurve group) scalar), inOrder group e.2 z)

/-- The client's end (0x0803): the combined secret of a server share. -/
def clientFinish (group : Nat) (seed share : List Byte) : Nat ⊕ List Byte :=
  let p := shareParts group (kemCt 1 2) share
  match curveAgree (groupCurve group) (seed.take 32) p.2 with
  | .inl r => .inl r
  | .inr z => .inr (inOrder group (if hasKem group then kemDecaps 2 (seed.drop 32) p.1 else []) z)

/-! ## Signatures of a key by its family and set -/

/-- The public key of a secret key (03, Table 3.14: 0x0D05), by FAMILY, VARIANT, PARAM_SET and EXTRA. A stateful key's has the root of its tree. -/
def publicOf (family param extra : Nat) (key : List Byte) : List Byte := match family with
  | 0x01 => kemEk param key
  | 0x02 => mldsaPk param key
  | 0x03 => slhPk param key
  | 0x06 | 0x07 => codePk family param key
  | 0x09 => if param = 8 then rsaPublicOf (extra / 8) key else curvePublic param key
  | _ => []

end Sys2Proof.Machine
end

