-- ==== Sys2Proof/Machine/Tls.lean ====
section
/-!
DEFINITION. Sys2Proof/Machine/Tls.lean: the TLS 1.3 server of RFC 8446 with the options of 09, Table 9.8, and the MACsec keys of IEEE 802.1X-2020 (09 R213
to R215). What a context keeps between routines lies in its 960 secret bytes (04 R87).
-/
namespace Sys2Proof.Machine
open Sys2Proof

/-! ## The secret bytes of a context (DESIGN CHOICE, assumption 150: where each secret lies) -/

/-- Byte offsets: the length of the combined secret, the suite, whether the last handshake was resumed, the ephemeral seeds, the combined secret, the
transcript's hash state, the client's handshake traffic secret, the server's application traffic secret, the exporter and the master secret, ticket
and PSK, CAK, ICK, KEK and SAK with the lengths of CAK and SAK. -/
def atLen : Nat := 0
def atSuite : Nat := 1
def atResumed : Nat := 2
def atCakLen : Nat := 3
def atSakLen : Nat := 4
def atSeed : Nat := 8
def atShared : Nat := 104
def atHash : Nat := 176
def atClient : Nat := 384
def atServer : Nat := 432
def atExport : Nat := 480
def atMaster : Nat := 528
def atTicket : Nat := 576
def atPsk : Nat := 592
def atCak : Nat := 640
def atIck : Nat := 672
def atKek : Nat := 704
def atSak : Nat := 736

def secret (s : List Byte) (at_ n : Nat) : List Byte := (s.drop at_).take n
def secretByte (s : List Byte) (at_ : Nat) : Nat := ofBytes (secret s at_ 1)
def withSecret (s : List Byte) (at_ : Nat) (v : List Byte) : List Byte := s.take at_ ++ v ++ s.drop (at_ + v.length)
def withByte (s : List Byte) (at_ v : Nat) : List Byte := withSecret s at_ (toBytes 1 v)

/-- The combined or shared secret that a routine puts into the context (03 R77, 09 R212). -/
def keepShared (s z : List Byte) : List Byte := withByte (withSecret s atShared z) atLen z.length
/-- The ephemeral seeds (09 R201): 32 bytes of a scalar, then d ‖ z; erased when they have been used. -/
def keepSeed (s seed : List Byte) : List Byte := withSecret s atSeed (seed ++ zeros (96 - seed.length))

/-! ## Cipher suites (03, Table 3.13 ARGS0) -/

structure Suite where
  code : Nat
  big : Bool
  keyLen : Nat
  chacha : Bool

def suiteOf (n : Nat) : Suite := match n with
  | 0 => { code := 0x1301, big := false, keyLen := 16, chacha := false }
  | 1 => { code := 0x1302, big := true, keyLen := 32, chacha := false }
  | _ => { code := 0x1303, big := false, keyLen := 32, chacha := true }

def Suite.hash (u : Suite) : HashFn := if u.big then hashSha384 else hashSha256
def Suite.par (u : Suite) : Sha2Par := if u.big then sha512Par else sha256Par
def Suite.start (u : Suite) : Sha2State := { words := if u.big then iv384 else iv256 }
/-- The transcript hash of what was taken in. -/
def Suite.digest (u : Suite) (s : Sha2State) : List Byte := (s.hash u.par).take u.hash.len

/-- The hash state as 208 bytes: chaining words, count, bytes of the block begun. -/
def Suite.pack (u : Suite) (s : Sha2State) : List Byte :=
  let w := s.words.flatMap (fun x => beBytes (u.par.w / 8) x)
  w ++ zeros (64 - w.length) ++ toBytes 8 s.count ++ s.rest ++ zeros (136 - s.rest.length)
def Suite.unpack (u : Suite) (bs : List Byte) : Sha2State :=
  let n := ofBytes ((bs.drop 64).take 8)
  { words := beWords u.par.w 8 bs, rest := (bs.drop 72).take (n % (2 * u.par.w)), count := n }

/-! ## Key schedule and records (RFC 8446, 5.2, 7) -/

def Suite.derive (u : Suite) (s : List Byte) (label : String) (th : List Byte) : List Byte := expandLabel u.hash s label th u.hash.len
/-- The next extraction of the schedule. -/
def Suite.next (u : Suite) (s ikm : List Byte) : List Byte := hkdfExtract u.hash (u.derive s "derived" (u.hash.run [])) ikm
def Suite.zero (u : Suite) : List Byte := zeros u.hash.len
def Suite.early (u : Suite) (psk : List Byte) : List Byte := hkdfExtract u.hash [] psk
/-- The Finished value of a transcript hash. -/
def Suite.finished (u : Suite) (base th : List Byte) : List Byte := hmac u.hash (expandLabel u.hash base "finished" [] u.hash.len) th

def Suite.nonce (u : Suite) (traffic : List Byte) (seq : Nat) : List Byte := xorBytes (expandLabel u.hash traffic "iv" [] 12) (beBytes 12 seq)
def Suite.key (u : Suite) (traffic : List Byte) : List Byte := expandLabel u.hash traffic "key" [] u.keyLen

def recordHead (type n : Nat) : List Byte := [BitVec.ofNat 8 type, 3, 3] ++ beBytes 2 n

/-- One protected record of a content type. -/
def Suite.seal (u : Suite) (traffic : List Byte) (seq type : Nat) (content : List Byte) : List Byte :=
  let head := recordHead 23 (content.length + 17)
  let inner := content ++ [BitVec.ofNat 8 type]
  head ++ (if u.chacha then chachaSeal else gcmSeal) (u.key traffic) (u.nonce traffic seq) head inner
def Suite.open_ (u : Suite) (traffic : List Byte) (seq : Nat) (head ct : List Byte) : Option (List Byte) :=
  (if u.chacha then chachaOpen else gcmOpen) (u.key traffic) (u.nonce traffic seq) head ct

/-- Handshake messages end to end in records of at most 16,384 bytes (09, Table 9.8; DESIGN CHOICE, assumption 151). -/
def Suite.flight (u : Suite) (traffic : List Byte) : (fuel seq : Nat) → List Byte → List Byte
  | 0, _, _ => []
  | f + 1, seq, bs => if bs = [] then [] else u.seal traffic seq 22 (bs.take 16384) ++ u.flight traffic f (seq + 1) (bs.drop 16384)

/-! ## Messages -/

/-- A value behind its length of n bytes, and the rest. -/
def vec (n : Nat) (bs : List Byte) : Option (List Byte × List Byte) :=
  let len := ofBe (bs.take n)
  if bs.length < n + len then none else some ((bs.drop n).take len, bs.drop (n + len))
def withLen (n : Nat) (bs : List Byte) : List Byte := beBytes n bs.length ++ bs
/-- A handshake message. -/
def message (type : Nat) (body : List Byte) : List Byte := BitVec.ofNat 8 type :: withLen 3 body
def extension (type : Nat) (body : List Byte) : List Byte := beBytes 2 type ++ withLen 2 body

/-- Extensions in their order. -/
def extensions : (fuel : Nat) → List Byte → Option (List (Nat × List Byte))
  | 0, _ => none
  | f + 1, bs =>
    if bs = [] then some [] else if bs.length < 4 then none
    else match vec 2 (bs.drop 2) with
      | none => none
      | some (body, rest) => (extensions f rest).map (fun l => (ofBe (bs.take 2), body) :: l)

/-- 2-byte values of a list. -/
def pairs16 (bs : List Byte) : List Nat := (List.range (bs.length / 2)).map (fun i => ofBe ((bs.drop (2 * i)).take 2))

/-- Entries of a key_share list: group and share. -/
def keyShares : (fuel : Nat) → List Byte → Option (List (Nat × List Byte))
  | 0, _ => none
  | f + 1, bs =>
    if bs = [] then some [] else if bs.length < 4 then none
    else match vec 2 (bs.drop 2) with
      | none => none
      | some (body, rest) => (keyShares f rest).map (fun l => (ofBe (bs.take 2), body) :: l)

structure Hello where
  session : List Byte
  suites : List Nat
  exts : List (Nat × List Byte)

/-- A ClientHello message; none when it does not decode or its lengths differ from IN_LEN (03, Table 3.7). -/
def helloOf (m : List Byte) : Option Hello :=
  let body := m.drop 4
  if m.length < 38 ∨ ofBe ((m.drop 1).take 3) ≠ body.length then none
  else match vec 1 (body.drop 34) with
    | none => none
    | some (session, rest) => match vec 2 rest with
      | none => none
      | some (suites, rest) => match vec 1 rest with
        | none => none
        | some (_, rest) => match vec 2 rest with
          | none => none
          | some (exts, rest) =>
            if rest ≠ [] ∨ suites.length % 2 ≠ 0 ∨ 32 < session.length then none
            else (extensions (exts.length + 1) exts).map (fun l => { session := session, suites := pairs16 suites, exts := l })

def Hello.ext (c : Hello) (t : Nat) : Option (List Byte) := (c.exts.find? (fun x => decide (x.1 = t))).map (fun x => x.2)
/-- A list extension of 2-byte values behind a length of n bytes contains v. -/
def Hello.lists (c : Hello) (t n v : Nat) : Bool := match c.ext t with
  | some b => (pairs16 (b.drop n)).contains v
  | none => false

/-- The code point of a group (09, Table 9.7) and the length of its client share. -/
def groupCode (g : Nat) : Nat := [0, 0x11EC, 0x11EB, 0x001D, 0x0017].getD g 0
def groupShareLen (g : Nat) : Nat := bySet [1216, 1249, 32, 65] g

/-- The client's share of a group; none without one. -/
def Hello.share (c : Hello) (g : Nat) : Option (List Byte) := match c.ext 51 with
  | some b => ((keyShares (b.length + 1) (b.drop 2)).getD []).find? (fun x => decide (x.1 = groupCode g)) |>.map (fun x => x.2)
  | none => none

/-! ## Signature schemes (09, Table 9.8) -/

/-- The scheme of a key by family, set and, for RSA, modulus bits; 0 for a key that no scheme takes. -/
def schemeOf (family param bits : Nat) : Nat :=
  if family = 0x02 then bySet [0x0904, 0x0905, 0x0906] param
  else if family = 0x09 then
    (if param = 8 then (if 2048 ≤ bits ∧ bits ≤ 4096 then 0x0804 else 0) else [0, 0x0403, 0x0503, 0, 0, 0, 0x0807].getD param 0)
  else 0
def schemes : List Nat := [0x0904, 0x0905, 0x0906, 0x0403, 0x0503, 0x0807, 0x0804]

/-- An ASN.1 INTEGER of a positive number, and the sequence of r and s that TLS sends of ECDSA. -/
def derInt (x : Nat) : List Byte :=
  let b := beBytes (minBytes x) x
  let b := if 128 ≤ (b.headD 0).toNat then 0 :: b else b
  [0x02, BitVec.ofNat 8 b.length] ++ b
def derSig (len : Nat) (sig : List Byte) : List Byte :=
  let b := derInt (ofBe (sig.take len)) ++ derInt (ofBe (sig.drop len))
  [0x30, BitVec.ofNat 8 b.length] ++ b
/-- The fixed-length signature of such a sequence; one that does not decode gives none. -/
def unDerSig (len : Nat) (bs : List Byte) : Option (List Byte) :=
  match vec 1 (bs.drop 1) with
  | some (b, []) => match vec 1 (b.drop 1) with
    | some (r, t) => match vec 1 (t.drop 1) with
      | some (s, []) =>
        let out := beBytes len (ofBe r) ++ beBytes len (ofBe s)
        if bs = derSig len out then some out else none
      | _ => none
    | none => none
  | _ => none

/-- A CertificateVerify signature with a key of a scheme. -/
def tlsSign (scheme : Nat) (key content random : List Byte) (k : Nat) : List Byte := match scheme with
  | 0x0904 | 0x0905 | 0x0906 => (mldsaSign (scheme - 0x0903) 0 key [] content (random.take 32)).1
  | 0x0403 => derSig 32 (curveSign 1 key (hashSha256.run content) (random.take 32))
  | 0x0503 => derSig 48 (curveSign 2 key (hashSha384.run content) (random.take 32))
  | 0x0807 => curveSign 6 key content []
  | _ => rsaSign k key 2 1 (hashSha256.run content) (random.take 32)

def tlsVerify (scheme : Nat) (pk content sig : List Byte) : Bool := match scheme with
  | 0x0904 | 0x0905 | 0x0906 => mldsaVerify (scheme - 0x0903) 0 pk [] content sig == 0
  | 0x0403 => ((unDerSig 32 sig).map (fun s => curveVerify 1 pk (hashSha256.run content) s == 0)).getD false
  | 0x0503 => ((unDerSig 48 sig).map (fun s => curveVerify 2 pk (hashSha384.run content) s == 0)).getD false
  | 0x0807 => curveVerify 6 pk content sig == 0
  | _ => rsaVerify (pk.length - 4) pk 2 1 32 (hashSha256.run content) sig == 0

/-- What a CertificateVerify signs. -/
def verifyContent (who : String) (th : List Byte) : List Byte := List.replicate 64 0x20 ++ ascii "TLS 1.3, " ++ ascii who ++ ascii " CertificateVerify" ++ [0] ++ th

/-! ## How a session routine ends -/

/-- The output with the context's new secret bytes; or a refusal, a failed comparison or a signature that does not verify, with its alert. -/
inductive TlsEnd where
  | ok (out secret : List Byte)
  | refused (alert : Nat)
  | mismatch (alert : Nat)
  | verifyFalse (alert : Nat)

/-- What every ClientHello must hold (09, Table 9.8): TLS 1.3 and the suite of ARGS0; the alert of what is missing. -/
def Hello.lacks (c : Hello) (u : Suite) : Option Nat :=
  if !c.lists 43 1 0x0304 then some 70 else if !c.suites.contains u.code then some 40 else none

def serverHello (random : List Byte) (c : Hello) (u : Suite) (ext : List Byte) : List Byte :=
  message 2 ([3, 3] ++ random ++ withLen 1 c.session ++ beBytes 2 u.code ++ [0] ++ withLen 2 (extension 43 [3, 4] ++ ext))

/-- A server flight is complete: the application secrets are derived and kept with the transcript (RFC 8446, 7.1). -/
def Suite.flightDone (u : Suite) (n : Nat) (resumed : Bool) (hs clientHs : List Byte) (t : Sha2State) (s : List Byte) : List Byte :=
  let master := u.next hs u.zero
  let th := u.digest t
  let s := withByte (withByte s atSuite n) atResumed (b2n resumed)
  let s := withSecret (withSecret s atHash (u.pack t)) atClient clientHs
  let s := withSecret (withSecret s atServer (u.derive master "s ap traffic" th)) atExport (u.derive master "exp master" th)
  withSecret s atMaster master

/-! ## 0x0C02: the server flight (09 R213) -/

/-- The server's key: its scheme, its material and, of RSA, the bytes of the modulus. -/
structure ServerKey where
  scheme : Nat
  key : List Byte
  k : Nat

/-- EncryptedExtensions, CertificateRequest and Certificate. The chain at AUX_ADDR is the certificate_list of RFC 8446 (DESIGN CHOICE, assumption 151). -/
def serverMessages (chain : List Byte) : List Byte :=
  message 8 (withLen 2 []) ++
  message 13 ([0] ++ withLen 2 (extension 13 (withLen 2 (schemes.flatMap (beBytes 2))))) ++
  message 11 ([0] ++ withLen 3 chain)

/-- The flight. `random` gives the server's random, the key exchange and the signature, in this order. -/
def tlsServer (n group : Nat) (hello chain : List Byte) (key : ServerKey) (random s : List Byte) : TlsEnd :=
  let u := suiteOf n
  if hello.headD 0 ≠ 1 then .refused 10 else
  match helloOf hello with
  | none => .refused 50
  | some c => match c.lacks u with
    | some a => .refused a
    | none =>
      if key.scheme = 0 ∨ !c.lists 13 2 key.scheme then .refused 40 else
      match c.share group with
      | none => .refused 40
      | some share =>
        if share.length ≠ groupShareLen group then .refused 47 else
        match serverShare group share (random.drop 32) with
        | .inl _ => .refused 47
        | .inr (own, z) =>
          let sh := serverHello (random.take 32) c u (extension 51 (beBytes 2 (groupCode group) ++ withLen 2 own))
          let t := (u.start.take u.par hello).take u.par sh
          let hs := u.next (u.early u.zero) z
          let th := u.digest t
          let clientHs := u.derive hs "c hs traffic" th
          let serverHs := u.derive hs "s hs traffic" th
          let m := serverMessages chain
          let t := t.take u.par m
          let cv := message 15 (beBytes 2 key.scheme ++ withLen 2 (tlsSign key.scheme key.key (verifyContent "server" (u.digest t)) (random.drop 136) key.k))
          let t := t.take u.par cv
          let fin := message 20 (u.finished serverHs (u.digest t))
          let t := t.take u.par fin
          let all := m ++ cv ++ fin
          .ok (recordHead 22 sh.length ++ sh ++ u.flight serverHs (all.length / 16384 + 1) 0 all)
            (u.flightDone n false hs clientHs t (keepShared s z))

/-! ## 0x0C04: resumption (09 R214) -/

/-- The identity and the binder of a pre_shared_key extension with exactly one of each, and the length of its binders list. -/
def onePsk (b : List Byte) : Option (List Byte × List Byte × Nat) := match vec 2 b with
  | none => none
  | some (ids, rest) => match vec 2 ids with
    | none => none
    | some (id, age) => if age.length ≠ 4 then none else match vec 2 rest with
      | some (binders, []) => (match vec 1 binders with
        | some (x, []) => some (id, x, binders.length + 2)
        | _ => none)
      | _ => none

def tlsResume (n : Nat) (hello random s : List Byte) : TlsEnd :=
  let u := suiteOf n
  if hello.headD 0 ≠ 1 then .refused 10 else
  match helloOf hello with
  | none => .refused 50
  | some c => match c.lacks u with
    | some a => .refused a
    | none =>
      let last := match c.exts.getLast? with
        | some (41, b) => onePsk b
        | _ => none
      let modes := ((c.ext 45).getD []).drop 1
      match last with
      | none => .refused 0
      | some (id, binder, tail) =>
        if id ≠ secret s atTicket 16 ∨ !modes.contains 0 ∨ (suiteOf (secretByte s atSuite)).big ≠ u.big then .refused 0 else
        let early := u.early (secret s atPsk u.hash.len)
        let before := u.start.take u.par (hello.take (hello.length - tail))
        if u.finished (u.derive early "res binder" (u.hash.run [])) (u.digest before) ≠ binder then .mismatch 51 else
        let sh := serverHello (random.take 32) c u (extension 41 [0, 0])
        let t := (u.start.take u.par hello).take u.par sh
        let hs := u.next early u.zero
        let th := u.digest t
        let clientHs := u.derive hs "c hs traffic" th
        let serverHs := u.derive hs "s hs traffic" th
        let ee := message 8 (withLen 2 [])
        let t := t.take u.par ee
        let fin := message 20 (u.finished serverHs (u.digest t))
        let t := t.take u.par fin
        .ok (recordHead 22 sh.length ++ sh ++ u.flight serverHs 1 0 (ee ++ fin)) (u.flightDone n true hs clientHs t s)

/-! ## 0x0C03: the client flight (09 R213, R214) -/

/-- The client's records, decrypted: their handshake bytes; or the status and alert of what is wrong. -/
def Suite.clientBytes (u : Suite) (traffic : List Byte) : (fuel seq : Nat) → List Byte → TlsEnd ⊕ List Byte
  | 0, _, _ => .inl (.refused 50)
  | f + 1, seq, bs =>
    if bs = [] then .inr [] else
    let head := bs.take 5
    match vec 2 (bs.drop 3) with
    | none => .inl (.refused 50)
    | some (ct, rest) =>
      if bs.headD 0 ≠ 23 then .inl (.refused 10)
      else if 16384 + 17 < ct.length then .inl (.refused 22)
      else match u.open_ traffic seq head ct with
        | none => .inl (.mismatch 20)
        | some inner =>
          if inner.getLastD 0 ≠ 22 then .inl (.refused 10)
          else match u.clientBytes traffic f (seq + 1) rest with
            | .inr more => .inr (inner.take (inner.length - 1) ++ more)
            | r => r

/-- Handshake messages: type, whole message, body. -/
def messages : (fuel : Nat) → List Byte → Option (List (Nat × List Byte × List Byte))
  | 0, _ => none
  | f + 1, bs =>
    if bs = [] then some [] else if bs.length < 4 then none else match vec 3 (bs.drop 1) with
    | none => none
    | some (body, rest) => (messages f rest).map (fun l => ((bs.headD 0).toNat, bs.take (4 + body.length), body) :: l)

/-- The certificates of a certificate_list. -/
def certList : (fuel : Nat) → List Byte → Option (List (List Byte))
  | 0, _ => none
  | f + 1, bs =>
    if bs = [] then some [] else match vec 3 bs with
    | none => none
    | some (cert, rest) => match vec 2 rest with
      | none => none
      | some (_, rest) => (certList f rest).map (fun l => cert :: l)

/-- The chain, leaf first, each certificate signed by the next one's key and the last by the trust anchor's (09, Table 9.8); the alert of what fails. -/
def chainFails (now : Nat) (anchor : Nat × Nat × List Byte) : List (List Byte) → Option (Bool × Nat)
  | [] => none
  | c :: t =>
    let issuer := match t with
      | [] => some anchor
      | x :: _ => Config.certKey x
    match issuer with
    | none => some (false, 42)
    | some k =>
      if !Config.certSigned c k.1 k.2.1 k.2.2 then some (true, 42)
      else if !Config.certInDate c now then some (false, 45)
      else chainFails now anchor t

/-- The NewSessionTicket record, and the context that keeps ticket and PSK (R214). `random` gives ticket_age_add and the ticket's last 12 bytes. -/
def ticketRecord (u : Suite) (ctxId holdTime : Nat) (t : Sha2State) (random s : List Byte) : List Byte × List Byte :=
  let ticket := beBytes 4 ctxId ++ (random.drop 4).take 12
  let res := u.derive (secret s atMaster u.hash.len) "res master" (u.digest t)
  let psk := expandLabel u.hash res "resumption" [0] u.hash.len
  let m := message 4 (beBytes 4 holdTime ++ random.take 4 ++ withLen 1 [0] ++ withLen 2 ticket ++ withLen 2 [])
  (u.seal (secret s atServer u.hash.len) 0 22 m, withSecret (withSecret s atTicket ticket) atPsk psk)

/-- The client's Finished over the transcript before it (R214: a resumed client sends nothing else), then the ticket. -/
def clientFinished (u : Suite) (ctxId holdTime : Nat) (out : List Byte) (t : Sha2State) (fin : List Byte × List Byte) (random s : List Byte) : TlsEnd :=
  if u.finished (secret s atClient u.hash.len) (u.digest t) ≠ fin.2 then .mismatch 51
  else
    let r := ticketRecord u ctxId holdTime (t.take u.par fin.1) random s
    .ok (out ++ r.1) r.2

def tlsClient (ctxId holdTime now : Nat) (anchor : Nat × Nat × List Byte) (records random s : List Byte) : TlsEnd :=
  let u := suiteOf (secretByte s atSuite)
  let resumed := decide (secretByte s atResumed = 1)
  match u.clientBytes (secret s atClient u.hash.len) (records.length + 1) 0 records with
  | .inl e => e
  | .inr bs =>
    let t := u.unpack (secret s atHash 208)
    match messages (bs.length + 1) bs with
    | none => .refused 50
    | some [(20, m, b)] => if resumed then clientFinished u ctxId holdTime [] t (m, b) random s else .refused 10
    | some [(11, cm, cb), (15, vm, vb), (20, fm, fb)] =>
      if resumed then .refused 10 else
      match vec 1 cb with
      | none => .refused 50
      | some (_, rest) => match vec 3 rest with
        | some (list, []) => (match certList (list.length + 1) list with
          | none => .refused 50
          | some [] => .refused 116
          | some (leaf :: more) =>
            if 4 ≤ more.length then .refused 42 else
            match chainFails now anchor (leaf :: more) with
            | some (true, a) => .verifyFalse a
            | some (false, a) => .refused a
            | none => match Config.certKey leaf with
              | none => .refused 42
              | some k =>
                let t := t.take u.par cm
                let scheme := ofBe (vb.take 2)
                match vec 2 (vb.drop 2) with
                | some (sig, []) =>
                  if !schemes.contains scheme ∨ scheme ≠ schemeOf k.1 k.2.1 (8 * (k.2.2.length - 4)) then .refused 47
                  else if !tlsVerify scheme k.2.2 (verifyContent "client" (u.digest t)) sig then .verifyFalse 51
                  else clientFinished u ctxId holdTime cm (t.take u.par vm) (fm, fb) random s
                | _ => .refused 50)
        | _ => .refused 50
    | _ => .refused 10

/-! ## MACsec keys (09 R215) -/

/-- TLS-Exporter (RFC 8446, 7.5). -/
def Suite.exporter (u : Suite) (s : List Byte) (label : String) (context : List Byte) (n : Nat) : List Byte :=
  expandLabel u.hash (u.derive (secret s atExport u.hash.len) label (u.hash.run [])) "exporter" (u.hash.run context) n

/-- 0x0C05: CKN ‖ AES-KW of ICK ‖ KEK ‖ SAK under the WRAP key, and the context with the keys. `macs` are the two port addresses, c and k the lengths
of CAK and SAK. -/
def mkaDerive (wrap macs : List Byte) (c k : Nat) (sak s : List Byte) : List Byte × List Byte :=
  let u := suiteOf (secretByte s atSuite)
  let msk := (u.exporter s "EXPORTER_EAP_TLS_Key_Material" [0x0D] 128).take 64
  let id := [0x0D] ++ u.exporter s "EXPORTER_EAP_TLS_Method-Id" [0x0D] 64
  let a := macs.take 6
  let b := macs.drop 6
  let ordered := if ofBe a ≤ ofBe b then a ++ b else b ++ a
  let cak := kdfCmac (msk.take c) (ascii "IEEE8021 EAP CAK") ordered c
  let ckn := kdfCmac (msk.take c) (ascii "IEEE8021 EAP CKN") (id ++ ordered) 16
  let ick := kdfCmac cak (ascii "IEEE8021 ICK") (ckn.take 16) c
  let kek := kdfCmac cak (ascii "IEEE8021 KEK") (ckn.take 16) c
  let s := withByte (withByte s atCakLen c) atSakLen k
  let s := withSecret (withSecret s atCak (cak ++ zeros (32 - c))) atIck (ick ++ zeros (32 - c))
  (ckn ++ kwWrap wrap (ick ++ kek ++ sak), withSecret (withSecret s atKek (kek ++ zeros (32 - c))) atSak (sak ++ zeros (32 - k)))

/-- 0x0C06: the new SAK wrapped under the WRAP key, then under the context's KEK. -/
def sakRekey (wrap sak s : List Byte) : List Byte × List Byte :=
  (kwWrap wrap sak ++ kwWrap (secret s atKek (secretByte s atCakLen)) sak,
    withSecret (withByte s atSakLen sak.length) atSak (sak ++ zeros (32 - sak.length)))

end Sys2Proof.Machine
end

