-- ==== Sys2Proof/Machine/SrlResult.lean ====
section
/-!
DEFINITION. Sys2Proof/Machine/SrlResult.lean: what each routine of the Standard Routine Library comes to (03, Tables 3.10 to 3.14, 3.19, 3.20; 09 R195 to
R221; 11 R243 to R247; 13 R277 to R279): its status and DETAIL, its output, what it leaves in its context, the key it makes.
-/
namespace Sys2Proof.Machine
open Sys2Proof

/-! ## What a routine works on -/

/-- A key that a routine was given, with what it knows of it (assumption 148): the attribute block (13, Table 13.3), then the length of the material and its
generation. -/
structure GivenKey where
  material : List Byte := []
  kind : List Byte := []

def GivenKey.usage (k : GivenKey) : Nat := word k.kind 0 1
def GivenKey.flags (k : GivenKey) : Nat := word k.kind 1 1
def GivenKey.allot (k : GivenKey) : Nat := word k.kind 2 1
def GivenKey.family (k : GivenKey) : Nat := word k.kind 4 1
def GivenKey.variant (k : GivenKey) : Nat := word k.kind 5 1
def GivenKey.param (k : GivenKey) : Nat := word k.kind 6 1
def GivenKey.extra (k : GivenKey) : Nat := word k.kind 12 4
def GivenKey.gen (k : GivenKey) : Nat := word k.kind 20 4
def GivenKey.isPublic (k : GivenKey) : Bool := decide (k.usage = 7) || decide (k.usage = 8)
def GivenKey.hbs (k : GivenKey) : Hbs := { family := k.family, variant := k.variant, extra := k.extra }

/-- The key of its shares: their exclusive or (08 R185). -/
def Lease.key (l : Lease) : GivenKey :=
  let n := word l.kind 16 4
  let p := l.bytes.length / max 1 l.shares
  { material := (List.range l.shares).foldl (fun x j => xorBytes x (padTo n ((l.bytes.drop (j * p)).take p))) (zeros n), kind := l.kind }

/-- What an SRL routine works on. `key` is of KEY_HANDLE, or K_t when that names the target; `key2` of ARGS0 (0x0D02 to 0x0D04). `rnd off n` gives the
DRBG bytes it drew. -/
structure SrlIn where
  e : Entry
  input : List Byte
  aux : List Byte
  key : GivenKey
  key2 : GivenKey
  /-- The tree object of a stateful key, and the leaf reserved. -/
  tree : List Byte
  leaf : Nat
  rnd : (off n : Nat) → List Byte
  /-- The 960 secret bytes of its context, the context's number and HOLD_TIME. -/
  secret : List Byte
  ctxId : Nat
  holdTime : Nat
  now : Nat
  /-- What the wrapped state at AUX_ADDR holds, and how a new one is sealed (11 R243). -/
  blob : DigState ⊕ Nat
  sealBlob : DigState → List Byte

/-- A key that the routine made: what its staged object holds (13 R275, Table 13.10), and its tree object. -/
structure MadeKey where
  material : List Byte
  extra : Nat := 0
  flags : Option Nat := none
  tree : List Byte := []

/-- What a routine comes to. DETAIL of a session routine is its alert here. -/
structure SrlOut where
  st : Nat := stOk
  det : Nat := 0
  out : List Byte := []
  secret : Option (List Byte) := none
  made : Option MadeKey := none
  /-- A digest state that it gave out wrapped. -/
  state : Option DigState := none

/-- The routine's own input validation refuses (03, Table 3.19). -/
def srlRefuse (det : Nat) : SrlOut := { st := stRefused, det := det }
/-- A verification that came to 0 or to a DETAIL of VERIFY_FALSE. -/
def srlVerdict (r : Nat) : SrlOut := if r = 0 then {} else { st := stVerifyFalse, det := r }
/-- An output, or MISMATCH. -/
def orMismatch (o : Option (List Byte)) : SrlOut := match o with
  | some out => { out := out }
  | none => { st := stMismatch }
def srlMatch (b : Bool) : SrlOut := if b then {} else { st := stMismatch }

/-- Parameters by short names. -/
def SrlIn.p (i : SrlIn) : Nat := eParam i.e
def SrlIn.arg (i : SrlIn) (n : Nat) : Nat := eArg i.e n
def SrlIn.family (i : SrlIn) : Nat := eRoutine i.e / 256
def SrlIn.low (i : SrlIn) : Nat := eRoutine i.e % 256
def SrlIn.keyed (i : SrlIn) : Bool := decide (eKey i.e ≠ 0)
/-- The public key of a verification or encryption: the key's, or the one at AUX_ADDR (03 R77). -/
def SrlIn.pk (i : SrlIn) : List Byte := if i.keyed then i.key.material else i.aux

/-- A shared secret is put out behind `out`, or goes into the context (03 R77). -/
def SrlIn.giveShared (i : SrlIn) (out z : List Byte) (secret : List Byte) : SrlOut :=
  if toContext i.e then { out := out, secret := some (keepShared secret z) } else { out := out ++ z, secret := some secret }

/-! ## KEMs: 0x01, 0x06, 0x07 (09 R200, R201, R210, R211) -/

def kemResult (i : SrlIn) : SrlOut :=
  let f := i.family
  match i.low with
  | 1 =>
    let key := if f = 0x01 then i.rnd 0 64 else if f = 0x06 then i.rnd 0 32
      else toBytes (privateLen 7 i.p 0) (Config.codePrivate (codeSet 7 i.p) (i.rnd 0 32))
    { out := publicOf f i.p 0 key, made := some { material := key } }
  | 2 =>
    let ek := if i.keyed then i.key.material else i.input
    if f = 0x01 ∧ !i.keyed ∧ !kemEkOk i.p ek then srlRefuse 7
    else
      let r := if f = 0x01 then kemEncaps i.p ek (i.rnd 0 32) else codeEncaps f i.p ek (i.rnd 0 64)
      i.giveShared r.1 r.2 i.secret
  | 3 =>
    i.giveShared [] (if f = 0x01 then kemDecaps i.p i.key.material i.input else codeDecaps f i.p i.key.material i.input) i.secret
  | 4 =>
    let seed := i.rnd 0 64
    { out := kemEk i.p seed, secret := some (keepSeed i.secret (zeros 32 ++ seed)) }
  | _ => i.giveShared [] (kemDecaps i.p (secret i.secret (atSeed + 32) 64) i.input) (keepSeed i.secret [])

/-! ## ML-DSA and SLH-DSA: 0x02, 0x03 (09 R202, R203) -/

def sigResult (i : SrlIn) : SrlOut :=
  let f := i.family
  let code := if i.low = 4 ∨ i.low = 5 then i.arg 2 % 256 else 0
  let cl := i.arg 1 % 256
  let det := bitOf (i.arg 0) 0
  match i.low with
  | 1 =>
    let key := if f = 0x02 then i.rnd 0 32 else slhKey i.p (i.rnd 0 (3 * slhN i.p))
    { out := publicOf f i.p 0 key, made := some { material := key } }
  | 2 | 4 =>
    let context := i.input.take cl
    let msg := i.input.drop cl
    let key := i.key.material
    if f = 0x02 then
      let r := mldsaSign i.p code key context msg (if det then zeros 32 else i.rnd 0 32)
      { out := r.1, det := r.2 % 2 ^ 16 }
    else { out := slhSign i.p code key context msg (if det then (slhPk i.p key).take (slhN i.p) else i.rnd 0 (slhN i.p)) }
  | _ =>
    let sig := i.input.take (sigLen f i.p)
    let rest := i.input.drop (sigLen f i.p)
    let verify := if f = 0x02 then mldsaVerify else slhVerify
    srlVerdict (verify i.p code i.pk (rest.take cl) (rest.drop cl) sig)

/-! ## LMS/HSS and XMSS: 0x04, 0x05 (09 R204 to R206, R209) -/

def statefulResult (i : SrlIn) : SrlOut :=
  let f := i.family
  match i.low with
  | 1 =>
    let k : Hbs := if f = 0x04 then { family := f, variant := 0, extra := i.arg 0 + i.arg 1 * 2 ^ 8 + i.arg 2 % 16 * 2 ^ 16 }
      else { family := f, variant := i.arg 1 % 2, extra := i.arg 0 }
    let key := i.rnd 0 (privateLen f 0 0)
    { out := k.publicKey key ((k.nodes key 0 0).getD 1 []), made := some { material := key, extra := k.extra, tree := k.body key } }
  | 2 => { out := i.key.hbs.sign i.key.material i.tree i.leaf i.input, det := i.leaf % 2 ^ 32 }
  | 3 =>
    let sig := i.input.take (i.arg 0)
    let msg := i.input.drop (i.arg 0)
    srlVerdict (if f = 0x04 then hssVerify i.pk msg sig
      else xmssVerify (if i.keyed then i.key.variant else i.arg 1 % 2) i.pk msg sig)
  | _ => { out := i.key.material }

/-! ## Hybrid groups: 0x08 (09 R201, R212) -/

def hybridResult (i : SrlIn) : SrlOut :=
  match i.low with
  | 1 =>
    let seed := groupSeed i.p (i.rnd 0 104)
    { out := clientShare i.p seed, secret := some (keepSeed i.secret seed) }
  | 2 => match serverShare i.p i.input (i.rnd 0 72) with
    | .inl r => srlRefuse r
    | .inr (own, z) => { out := own, secret := some (keepShared i.secret z) }
  | _ => match clientFinish i.p (secret i.secret atSeed 96) i.input with
    | .inl r => srlRefuse r
    | .inr z => { secret := some (keepShared (keepSeed i.secret []) z) }

/-! ## Classical public key: 0x09 (09 R198, R216 to R219) -/

/-- Bytes of the RSA modulus: of the key, or of ARGS2 without one. -/
def SrlIn.rsaLen (i : SrlIn) : Nat := if i.keyed then i.key.extra / 8 else i.arg 2 / 65536 * 8

def classicalResult (i : SrlIn) : SrlOut :=
  let rsa := decide (i.p = 8)
  let key := i.key.material
  let salt := i.arg 2 % 65536
  match i.low with
  | 1 =>
    if rsa then
      let k := i.arg 0 / 8
      let pq := Config.rsaPrimes (i.arg 0) (i.rnd 0 k)
      let key := rsaFrom k pq.1 pq.2
      { out := rsaPublicOf k key, made := some { material := key, extra := i.arg 0 } }
    else
      let key := curveKey i.p (i.rnd 0 (curvePk i.p))
      { out := curvePublic i.p key, made := some { material := key } }
  | 2 =>
    if rsa then { out := rsaSign i.rsaLen key (i.arg 0) (i.arg 1) i.input (i.rnd 0 salt) }
    else { out := curveSign i.p key i.input (if i.arg 0 = 0x100 then [] else i.rnd 0 32) }
  | 3 =>
    let n := if rsa then i.input.length - digestLen (i.arg 1) else curveSig i.p
    let sig := i.input.take n
    let m := i.input.drop n
    srlVerdict (if rsa then rsaVerify i.rsaLen i.pk (i.arg 0) (i.arg 1) salt m sig else curveVerify i.p i.pk m sig)
  | 4 => match curveAgree i.p key i.input with
    | .inl r => srlRefuse r
    | .inr z => i.giveShared [] z i.secret
  | 5 => match rsaEncrypt i.rsaLen i.pk (i.arg 0) (i.arg 1) i.input (i.rnd 0 (2 * i.rsaLen)) with
    | .inl r => srlRefuse r
    | .inr c => { out := c }
  | _ => match rsaDecrypt i.rsaLen key (i.arg 1) i.input with
    | .inl r => srlRefuse r
    | .inr m => { out := m }

/-! ## Symmetric: 0x0A (09 R220) -/

def symmetricResult (i : SrlIn) : SrlOut :=
  let key := i.key.material
  let aad := i.input.take (i.arg 1)
  let body := i.input.drop (i.arg 1)
  match i.low with
  | 1 => { made := some { material := i.rnd 0 (i.arg 0 / 8), extra := i.arg 0 } }
  | 2 =>
    if i.p = 2 then { out := aesCtr key i.aux i.input }
    else if i.p = 3 then { out := aesXts false key i.aux i.input }
    else
      let own := decide (eAux i.e = 0)
      let nonce := if own then i.rnd 0 12 else i.aux
      { out := (if own then nonce else []) ++ (if i.p = 1 then gcmSeal else chachaSeal) key nonce aad body }
  | 3 =>
    if i.p = 2 then { out := aesCtr key i.aux i.input }
    else if i.p = 3 then { out := aesXts true key i.aux i.input }
    else orMismatch ((if i.p = 1 then gcmOpen else chachaOpen) key i.aux aad body)
  | 4 => { out := (if i.p = 4 then kwWrap else kwpWrap) key i.input }
  | _ => orMismatch ((if i.p = 4 then kwUnwrap else kwpUnwrap) key i.input)

/-! ## Digests, MACs and derivation from secrets of the host: 0x0B (09 R221; 11 R243 to R247) -/

/-- Output bytes of a set: ARGS0 of SHAKE and KMAC. -/
def SrlIn.macLen (i : SrlIn) : Nat := if 10 ≤ i.p then i.arg 0 else digestLen i.p
/-- The whole MAC of a message. -/
def SrlIn.mac (i : SrlIn) (m : List Byte) : List Byte :=
  let key := i.key.material
  if i.p = 12 then kmac 168 key m (i.arg 0) i.aux else if i.p = 13 then kmac 136 key m (i.arg 0) i.aux else hmac (hashSet i.p) key m

def digestResult (i : SrlIn) : SrlOut :=
  let digest (m : List Byte) : List Byte := digestOf i.p false m i.macLen
  /- Parts of the input of 0x0B08 and 0x0B09. -/
  let part (from_ n : Nat) : List Byte := (i.input.drop from_).take n
  match i.low with
  | 1 => { made := some { material := i.rnd 0 (i.arg 0), extra := 8 * i.arg 0 } }
  | 2 => { out := i.mac i.input }
  | 3 => srlMatch (decide ((i.mac (i.input.drop (i.arg 0))).take (i.arg 0) = i.input.take (i.arg 0)))
  | 4 => { out := digest i.input }
  | 5 => srlMatch (decide (digest i.input = i.aux))
  | 6 => match i.blob with
    | .inl s =>
      let s := { s with absorbed := s.absorbed ++ i.input }
      { out := i.sealBlob s, state := some s }
    | .inr _ => srlRefuse 1
  | 7 => match i.blob with
    | .inl s => { out := digest (s.absorbed ++ i.input) }
    | .inr _ => srlRefuse 1
  | 8 =>
    let s := i.arg 0 % 65536
    let h := hashSet i.p
    { out := hkdfExpand h (hkdfExtract h (part 0 s) (part s (i.arg 1))) (part (s + i.arg 1) (i.arg 0 / 65536)) (i.arg 2) }
  | _ =>
    let k := part 0 (i.arg 0)
    let label := part (i.arg 0) (i.arg 1 % 65536)
    let context := part (i.arg 0 + i.arg 1 % 65536) (i.arg 1 / 65536)
    { out := if i.p = 13 then kdfKmac k label context (i.arg 2) else kdfHmac (hashSet i.p) k label context (i.arg 2) }

/-! ## Sessions: 0x0C (09 R213 to R215) -/

def tlsResult (t : TlsEnd) : SrlOut := match t with
  | .ok out s => { out := out, secret := some s }
  | .refused a => { st := stRefused, det := a }
  | .mismatch a => { st := stMismatch, det := a }
  | .verifyFalse a => { st := stVerifyFalse, det := a }

def sessionResult (i : SrlIn) : SrlOut :=
  let k := i.key
  match i.low with
  | 2 =>
    let server : ServerKey := { scheme := schemeOf k.family k.param k.extra, key := k.material, k := k.extra / 8 }
    tlsResult (tlsServer (i.arg 0) i.p i.input i.aux server (i.rnd 0 200) i.secret)
  | 3 => tlsResult (tlsClient i.ctxId i.holdTime i.now (k.family, k.param, k.material) i.input (i.rnd 0 16) i.secret)
  | 4 => tlsResult (tlsResume (i.arg 0) i.input (i.rnd 0 32) i.secret)
  | 5 =>
    let c := if bitOf (i.arg 0) 0 then 32 else 16
    let n := if bitOf (i.arg 0) 1 then 32 else 16
    let r := mkaDerive k.material i.aux c n (i.rnd 0 n) i.secret
    { out := r.1, secret := some r.2 }
  | _ =>
    let r := sakRekey k.material (i.rnd 0 (if bitOf (i.arg 0) 1 then 32 else 16)) i.secret
    { out := r.1, secret := some r.2 }

/-! ## Key management: 0x0D (13 R273, R277 to R279) -/

/-- The rules of R278 that come before the unwrapping. -/
def importOk (t : GivenKey) (obj : List Byte) : Bool :=
  let type := word obj 4 1
  let len := word obj 12 4
  let a : KeyAttr := { usage := t.usage, family := t.family, variant := t.variant, paramSet := t.param, extra := word obj 20 4 }
  word obj 0 4 == 0x314F_514B && word obj 11 1 == 0 && word obj 24 8 == 0 && [1, 2, 4].contains type && ((type == 4) == t.isPublic) &&
  !(t.usage == 6 && (t.family == 4 || t.family == 5)) &&
  word obj 5 1 == t.usage && word obj 8 1 == t.family && word obj 9 1 == t.variant && word obj 10 1 == t.param &&
  extraOk a.usage a.family a.variant a.paramSet a.extra && lenValid a len && (t.isPublic || t.family != 6 || len == hqcSecretLen t.param) &&
  obj.length == wrappedLen len

/-- The flags of an imported key: the larger MASK_ORDER, EXPORTABLE and DETERMINISTIC_OK as both allow them, the rest as the target's (R278). -/
def importFlags (target header : Nat) : Nat :=
  (max (target % 4) (header % 4)) + (target / 4 % 2) * 4 + (field target 4 3 &&& field header 4 3) * 8 + target / 32 * 32

/-- Bytes that a derivation fills (R279). -/
def deriveLen (t : GivenKey) : Nat := if t.family = 0x06 then 32 else privateLen t.family t.param t.extra

def keyResult (i : SrlIn) : SrlOut :=
  let k := i.key
  match i.low with
  | 2 =>
    let hd := objHeader k.usage k.flags k.allot k.family k.variant k.param k.material.length k.gen k.extra
    { out := wrapObject i.key2.material hd k.material }
  | 3 =>
    if !importOk k i.input then srlRefuse 1
    else match unwrapObject i.key2.material i.input with
      | none => { st := stMismatch }
      | some m =>
        if k.family = 0x0A ∧ k.param = 3 ∧ m.take (m.length / 2) = m.drop (m.length / 2) then srlRefuse 7
        else { made := some { material := m, extra := word i.input 20 4, flags := some (importFlags k.flags (word i.input 6 1)) } }
  | 4 =>
    let t := i.key2
    let n := deriveLen t
    let a := t.kind.take 3 ++ [3] ++ (t.kind.drop 4).take 3 ++ [BitVec.ofNat 8 n]
    let label := i.arg 1 % 65536
    { made := some { material := kdfKmac k.material (i.input.take label) (i.input.drop label ++ a) n, extra := t.extra } }
  | _ =>
    if k.isPublic then { out := k.material }
    else if k.family = 4 ∨ k.family = 5 then { out := k.hbs.publicKey k.material ((i.tree.drop 32).take 32) }
    else { out := publicOf k.family k.param k.extra k.material }

/-! ## All routines -/

/-- What the routine of an entry comes to, once its ROUTINE_ARGS and AUX_ADDR are accepted. -/
def srlResult (i : SrlIn) : SrlOut := match i.family with
  | 0x01 | 0x06 | 0x07 => kemResult i
  | 0x02 | 0x03 => sigResult i
  | 0x04 | 0x05 => statefulResult i
  | 0x08 => hybridResult i
  | 0x09 => classicalResult i
  | 0x0A => symmetricResult i
  | 0x0B => digestResult i
  | 0x0C => sessionResult i
  | 0x0D => keyResult i
  | 0x0E => { out := i.rnd 0 (i.arg 0) }
  | _ => { out := if i.low = 2 then i.input else [] }

/-- What it ends with: output that OUT_MAX does not hold gives OUTPUT_TOO_SMALL. -/
def srlEnd (i : SrlIn) : SrlOut :=
  let r := srlResult i
  if r.st = stOk ∧ eOutMax i.e < r.out.length then { st := stTooSmall, out := r.out } else r

/-- Keys that the routine must have been given before it can end. -/
def srlHandles (e : Entry) : List Nat :=
  (if srlKey (eRoutine e) = .never ∨ eKey e = 0 then [] else [eKey e]) ++ (if [0x0D02, 0x0D03, 0x0D04].contains (eRoutine e) then [eArg e 0] else [])

end Sys2Proof.Machine
end

