-- ==== Sys2Proof/Machine/Services.lean ====
section
/-!
DEFINITION. Sys2Proof/Machine/Services.lean: the device services of an engine (06 R140 to R146, Table 6.12; 08 R184 to R186; 09 R208; 13 R273)
but for jobs: rows 116 to 118 and 122 to 126.
-/
namespace Sys2Proof.Machine
open Sys2Proof

/-! ## Key requests (06 R141; 13 R273) -/

/-- The handle is the command's target (13 R273): KEY_HANDLE of a routine that fills one, or ARGS0 of 0x0D04. -/
def Cmd.targets (c : Cmd) (h : Nat) : Bool :=
  if c.attr.routine = 0x0D04 then decide (h = eArg c.entry 0) else c.attr.fillsTarget && decide (h = eKey c.entry)

/-- The request is for the key that 0x0D02 exports: its first one, should the same handle name the WRAP key too. -/
def Cmd.exports (c : Cmd) (h : Nat) : Bool :=
  decide (c.attr.routine = 0x0D02) && decide (h = eKey c.entry) && !(c.keyAsked && decide (h = eArg c.entry 0))

/-- OP of the request: 2 CREATE, 1 EXPORT, 0 USE. -/
def Cmd.keyOp (c : Cmd) (h : Nat) : Nat := if c.targets h then 2 else if c.exports h then 1 else 0

/-- DET: a deterministic signature is requested (09, Table 9.1; 13 R273 for owner routines). -/
def Cmd.keyDet (c : Cmd) : Bool := match c.attr.routine with
  | 0x0202 | 0x0302 | 0x0204 | 0x0304 => bitOf (eArg c.entry 0) 0
  | 0x0902 => decide (eParam c.entry ≤ 3) && decide (eArg c.entry 0 = 0x100)
  | r => !isSrl r && !c.attr.needsRandom

/-- A signature with a stateful key (09, R206). -/
def Cmd.signsStateful (c : Cmd) : Bool := decide (c.attr.routine = 0x0402) || decide (c.attr.routine = 0x0502)

/-- Families whose routines expect their own FAMILY and PARAM_SET of the key (13 R273). -/
def expectsFamily (f : Nat) : Bool := decide (1 ≤ f) && decide (f ≤ 11) && decide (f ≠ 8)

/-- The required usage of a request (13 R273): of an SRL routine by its Key column, 0 for the keys that 0x0D02 to 0x0D05 export, import, fill or
publish, WRAP and UNWRAP for the second key of 0x0D02 and 0x0D03; of an owner routine, the keyreq's. -/
def Cmd.keyUsage (c : Cmd) (h arg : Nat) : Nat :=
  if !isSrl c.attr.routine then arg
  else if h = eKey c.entry ∧ !(c.attr.routine = 0x0D02 ∧ !c.exports h) then c.attr.usage
  else if (c.attr.routine = 0x0D02 ∨ c.attr.routine = 0x0D03) ∧ h = eArg c.entry 0 then (if c.attr.routine = 0x0D02 then 3 else 4)
  else if c.targets h then 0
  else arg

/-- The KEY_REQUEST that the Flume agent fills (13, Table 13.7). -/
def keyReqOf (e k req : Nat) (c : Cmd) (t : EngArch) (h usage : Nat) : KeyReq :=
  let f := c.attr.routine / 256
  { handle := h
    eng := e
    allot := c.allot
    order := t.shares
    stateful := decide (f = 4) || decide (f = 5)
    det := c.keyDet
    usage := usage
    request := req
    family := if expectsFamily f then f else 0
    param := if expectsFamily f then eParam c.entry else 0
    variant := if c.attr.routine = 0x0501 then b2n (bitOf (eArg c.entry 1) 0) else 0
    slot := k
    reads := decide (c.attr.routine = 0x0404) || decide (c.attr.routine = 0x0504) }

/-- Attribute bytes go with a request whose required usage is 0 or a set (13 R273). -/
def wantsAttr (usage : Nat) : Bool := decide (usage = 0) || decide (11 ≤ usage)

/-- A lease serves a request for its handle at the order it was delivered at (06 R141; 08, Table 8.8), if it holds the attribute bytes that the request asks for. -/
def Lease.serves (l : Lease) (h usage order : Nat) : Bool :=
  decide (l.handle = h) && decide (l.shares = order + 1) && (!wantsAttr usage || decide (l.attr ≠ []))

/-- The lease of an engine that serves a request, still running (01 R15). -/
def leaseFor (g : Engine) (now h usage order allot : Nat) : Option Lease :=
  firstWhere (fun l => l.serves h usage order && decide (l.allot = allot) && decide (l.uses < 4096) && decide (now < l.ends)) g.leases

/-- What serves a request of a command without a Flume message: a key that it was given before it was revoked (01 R16), or a lease. -/
def Device.heldKey (d : Device) (e : Nat) (t : EngArch) (c : Cmd) (h usage : Nat) : Option Lease :=
  (firstWhere (fun l => l.revoked && l.serves h usage t.shares) t.given).orElse (fun _ => leaseFor (d.eng e) d.time h usage t.shares c.allot)

/-- Every earlier command of the queue that signs with the key has sent its request (09 R208 rule 1). -/
def Device.keyTurn (d : Device) (c : Cmd) (h : Nat) : Bool :=
  !(c.signsStateful && decide (h = eKey c.entry) && (d.ofQueue c.allot c.sq).any (fun x =>
    decide (x.2.order < c.order) && decide (eKey x.2.entry = h) && x.2.signsStateful && !x.2.keyAsked && !decide (x.2.phase = .ended)))

/-- Request numbers of engine e that are in use: by its command, by commands saved from it, by requests of ended commands. -/
def Device.requestBusy (d : Device) (e r : Nat) : Bool :=
  (d.eng e).gone.any (fun x => decide (x.1 = r)) ||
    d.cmds.any (fun x => match d.archOf x.1 with
      | some t => t.keys.any (fun y => decide (y.eng = e) && decide (y.request = r))
      | none => false)

/-- The shares of a held key are written where a request wants them, or the delivery is discarded (06 R142). -/
def EngArch.takeKey (t : EngArch) (r : KeyReqOut) (l : Lease) : EngArch :=
  let bs := l.bytes ++ (if wantsAttr r.usage then l.attr else [])
  let fits := decide (r.dest + bs.length ≤ ctxWindow)
  let area : KeyArea := { base := r.dest, len := l.bytes.length / max 1 l.shares, shares := l.shares, handle := l.handle }
  let t := if fits then t.write r.dest bs else t
  { t with
    keys := mapWhere (fun x => decide (x.ident = r.ident)) (fun x => { x with fromLease := none, outcome := if fits then .delivered bs.length none else .discarded }) t.keys
    areas := if fits then t.areas ++ [area] else t.areas
    given := if t.given.any (fun x => decide (x.handle = l.handle)) then t.given else t.given ++ [l] }

/-- A leased key is delivered from the lease store: with the shares as they are, fresh since the last command that used them; one whose refresh waits for
the generator is delivered by its keywait (08 R186, Table 8.7). -/
def serveLease (e ident dest usage : Nat) (l : Lease) (d : Device) : Device :=
  let r : KeyReqOut := { ident := ident, eng := e, request := ident, handle := l.handle, usage := usage, dest := dest, fromLease := some l }
  let used (x : Lease) : Lease := { x with uses := x.uses + 1 }
  let d := d.updEng e (fun g => { g with leases := mapWhere (fun x => decide (x.handle = l.handle)) used g.leases })
  d.updArch e (fun t =>
    let t := { t with keys := t.keys ++ [r] }
    if l.stale then t else t.takeKey r l)

/-- 06 R141: a key is requested for delivery at rs2; rd receives the request identifier. -/
def execKeyreq (e : Fin 144) (rd rs1 rs2 : BitVec 5) (usage : BitVec 4) (s : State) : Host.Outcome State Fault Refusal :=
  s.on fun d => engRun e (fun k t d =>
    let h := (t.getX rs1).toNat % 2 ^ 32
    let dest := (t.getX rs2).toNat
    let c := d.cmdOr k
    let usage := c.keyUsage h usage.toNat
    let ident := (firstWhere (fun i => !(t.keys.any (fun r => decide (r.ident = i)))) (List.range 4)).getD 0
    if 4 ≤ t.keys.length then .trap 0x0C 1
    else if !t.readsDone || !d.keyTurn c h then .stall 0
    else match (if c.keyOp h = 0 && !c.signsStateful then d.heldKey e t c h usage else none) with
      | some l => .next ((serveLease e ident dest usage l d).updArch e (fun t => t.setX rd (BitVec.ofNat 64 ident)))
      | none =>
        match firstWhere (fun r => !(d.requestBusy e r)) (List.range 4) with
        | none => .stall 0
        | some req =>
          let out : KeyReqOut := { ident := ident, eng := e, request := req, handle := h, usage := usage, dest := dest }
          let d := toCustody (.keyRequest (c.keyOp h) (keyReqOf e k req c t h usage)) d
          let d := d.updCmd k (fun c => { c with
            target := if c.keyOp h = 2 then some h else c.target
            keyAsked := c.keyAsked || decide (h = eKey c.entry) })
          .next (d.updArch e (fun t => EngArch.setX { t with keys := t.keys ++ [out] } rd (BitVec.ofNat 64 ident)))) d

/-- A key held in a form longer than a slot's 64 bytes, or a stateful one (09, Table 9.2; 13 R268, R278): the target lies in a store that does not
take it. The 66 bytes of a P-521 scalar fit no slot, whatever Table 9.2 says of its store (DEDUCED, assumption 144). -/
def wrongStore (imported store : Bool) (usage family param : Nat) : Bool :=
  if usage = 7 ∨ usage = 8 then
    !store && (match family with
      | 0x03 | 0x04 | 0x0B => false
      | 0x09 => decide (param = 8) || decide (64 < curvePk param)
      | _ => true)
  else match family with
    | 0x03 => !store && !([1, 2, 7, 8].contains param)
    | 0x04 | 0x05 => store
    | 0x06 => imported && !store
    | 0x07 => !store
    | 0x09 => (decide (param = 8) || decide (param = 3)) && !store
    | _ => false

/-- What a routine refuses of a key it was given, with KEY_POLICY, DETAIL 5: a target in the wrong store (09 R199), a WRAP or UNWRAP key of fewer
than 256 bits (13 R277), a target of 0x0D04 that no derivation fills (R279), a symmetric key of 0x0D05 (R273). -/
def Cmd.refusesKey (c : Cmd) (t : EngArch) (r : KeyReqOut) (n : Nat) : Bool :=
  let low := t.read (r.dest + n - 64) 8
  let family := word low 4 1
  let param := field (word low 6 1) 5 0
  let store := handleStore r.handle
  match c.attr.routine with
  | 0x0101 | 0x0201 | 0x0301 | 0x0401 | 0x0501 | 0x0601 | 0x0701 =>
    c.targets r.handle && wrongStore false store c.attr.usage (c.attr.routine / 256) (eParam c.entry)
  | 0x0901 => wrongStore false store (field (word low 0 1) 3 0) 0x09 (eParam c.entry)
  | 0x0D02 => decide (r.handle ≠ eKey c.entry) && decide (n < 32 * t.shares + 32)
  | 0x0D03 =>
    if c.targets r.handle then wrongStore true store (field (word low 0 1) 3 0) family param else decide (n < 32 * t.shares + 32)
  | 0x0D04 =>
    c.targets r.handle && !([0x01, 0x02, 0x06, 0x0A, 0x0B, 0x0D].contains family || (decide (family = 0x03) && [1, 2, 7, 8].contains param))
  | 0x0D05 => [0x0A, 0x0B, 0x0D].contains family
  | _ => false

/-- 06 R141: wait for a key request. A refusal ends the command, a discarded delivery traps (R142). -/
def execKeywait (e : Fin 144) (rd rs1 : BitVec 5) (s : State) : Host.Outcome State Fault Refusal :=
  s.on fun d => engRun e (fun k t d =>
    match firstWhere (fun r => decide (r.ident = (t.getX rs1).toNat)) t.keys with
    | none => .trap 0x0C 2
    | some r =>
      let rest := t.keys.filter (fun x => x.ident ≠ r.ident)
      match r.outcome with
      | .waiting => (match r.fromLease with
        | none => .stall 1
        | some l =>
          if mgCan l.bits (d.eng e).mg then
            .wait 0 (((d.updArch e (fun t => t.takeKey r (d.refreshed l))).updEng e (fun g => { g with mg := mgSpend l.bits g.mg })).tookFree l.bytes.length)
          else .stall 2)
      | .refused st det => .over (endRoutine k st det 0 d)
      | .discarded => .trap 0x0C 2
      | .delivered n leaf =>
        if (d.cmdOr k).refusesKey t r n then .over (endRoutine k stKeyPolicy 5 0 d)
        else .ok (EngArch.setX { t with keys := rest, leaf := leaf.getD t.leaf } rd (BitVec.ofNat 64 n))) d

/-- 06 R143: wait for rs2 bytes of DRBG output at rs1: in the host RANDOM class for family 0x0E, else in the key-generation class. -/
def execEnt (e : Fin 144) (rd rs1 rs2 : BitVec 5) (reseed : Bool) (s : State) : Host.Outcome State Fault Refusal :=
  s.on fun d => engRun e (fun _ t d =>
    let a := (t.getX rs1).toNat
    let n := (t.getX rs2).toNat
    let cls := if t.routine / 256 = 0x0E then 3 else 1
    if !t.needsRandom || decide (n = 0) || decide (256 < n) then .trap 0x0C 3
    else if pastOpm a n then .trap 0x04 a
    else if t.awaits a n then .stall 0
    else if t.entBytes.length = n then
      .ok (EngArch.setX { t.write a t.entBytes with drawn := t.drawn ++ t.entBytes, entBytes := [], entWait := none, entAsked := none } rd (BitVec.ofNat 64 n))
    else if t.entAsked.isSome then .stall 1
    else .wait 1 (toCustody (.entropyRequest e cls n reseed)
      (d.updArch e (fun t => { t with entAsked := some (cls, n), entBytes := [], entWait := some (t.entWait.getD d.time) })))) d

/-! ## The end of a routine (06 R145, Table 6.13) -/

/-- The window as the routine leaves it, when it wrote to a context that it took (05 R112). -/
def EngArch.window (t : EngArch) : Option (List Byte) := if t.ctxWritten && decide (t.ctxw = 1) then some (t.read ctxWindow 1024) else none

/-- What an SRL routine works on: none until the keys and the streamed input that it needs have come. DRBG bytes that its ents did not take are free
values (assumption 152). -/
def Device.srlIn (d : Device) (c : Cmd) (t : EngArch) : Option SrlIn :=
  let e := c.entry
  let given (h : Nat) : Option GivenKey := (firstWhere (fun l => decide (l.handle = h)) t.given).map Lease.key
  let input := if c.attr.stream then c.input else d.rsvRead c.inAt (eInLen e)
  let aux := d.rsvRead c.auxAt c.attr.auxLen
  let key := (given (eKey e)).getD {}
  let x := d.ctx (eCtx e)
  if input.length ≠ eInLen e ∨ (srlHandles e).any (fun h => (given h).isNone) then none
  else some {
    e := e
    input := input
    aux := aux
    key := key
    key2 := (given (eArg e 0)).getD {}
    tree := match d.treeObj (eKey e) with
      | some o => o.body
      | none => key.hbs.body key.material
    leaf := (c.leaf.map (fun l => l.2)).getD 0
    rnd := fun off n => (List.range n).map (fun j => t.drawn.getD (off + j) (Config.freeBits 8 (d.free + off + j)))
    secret := readBytes x.secret 0 960
    ctxId := eCtx e
    holdTime := x.holdTime
    now := d.time
    blob := if eAux e = 0 then .inl { alg := eParam e } else d.importBlob c.allot (eParam e) aux
    sealBlob := fun s => hostBlob (d.keyReg c.allot 1) c.allot s (d.allot c.allot).wrapCount }

/-- DETAIL of a session routine (03, Table 3.20): the context's state code after the command, the alert, the resumption count. -/
def Device.sessionDetail (d : Device) (c : Cmd) (st alert : Nat) : Nat :=
  let x := d.ctx (eCtx c.entry)
  let resume := decide (c.attr.routine = 0x0C04)
  let code := if st = stOk then CtxState.active.code else if resume && decide (x.holdExpiry ≤ d.time) then CtxState.closed.code else x.st.code
  let count := if st = stOk ∧ resume then satAdd 0xFFFF x.resumeCount 1 else x.resumeCount
  code + alert * 2 ^ 8 + count * 2 ^ 16

/-- What an SRL routine stages besides its output (13 R275): its new key wrapped under K_t, then the tree object; the count of a wrapped digest state
(11 R243). -/
def stageMade (c : Cmd) (i : SrlIn) (r : SrlOut) (d : Device) : Device :=
  let t := if c.attr.routine = 0x0D04 then i.key2 else i.key
  let d := match r.made with
    | none => d
    | some m =>
      let hd := objHeader t.usage (m.flags.getD t.flags) t.allot t.family t.variant t.param m.material.length t.gen m.extra
      d.rsvWrite c.objAt (wrapObject t.material hd m.material ++ m.tree)
  match r.state with
  | none => d
  | some s => nextWrap c.allot (d.updAllot c.allot (fun a => { a with blobs := Tbl.put a.blobs a.wrapCount s }))

/-- An SRL routine ends with what it comes to. -/
def endSrl (k : Nat) (c : Cmd) (i : SrlIn) (d : Device) : Device :=
  let r := srlEnd i
  let det := if c.attr.routine / 256 = 0x0C then d.sessionDetail c r.st r.det else r.det
  let n := r.out.length
  let d := if srlRandom c.entry then d.tookFree 65536 else d
  if r.st = stOk then
    let g : Staged := { outLen := n, detail := det, window := if c.takesCtx then r.secret.map (fun s => zeros 64 ++ s) else none }
    endRoutine k stOk det n ((stageMade c i r (d.rsvWrite c.outAt r.out)).updCmd k (fun c => { c with staged := some g }))
  else endRoutine k r.st det (if r.st = stTooSmall then n else 0) d

/-- 06 R145, Table 6.13: end the routine with STATUS, OUT_LEN rs1 and DETAIL rs2[31:0]. An SRL routine ends with what 03 and 09 give its command, not before
the keys and the input for that have come (DESIGN CHOICE, assumption 152). -/
def execEnd (e : Fin 144) (rs1 rs2 : BitVec 5) (status : BitVec 7) (s : State) : Host.Outcome State Fault Refusal :=
  s.on fun d => engRun e (fun k t d =>
    let n := (t.getX rs1).toNat
    let det := (t.getX rs2).toNat % 2 ^ 32
    let st := status.toNat
    if !([stOk, stTooSmall, stVerifyFalse, stMismatch, stRefused].contains st) || decide (det / 2 ^ 16 = 0xFFFF) || decide (t.outcap < n) then
      .trap 0x0B st
    else if isSrl t.routine then
      let c := d.cmdOr k
      match c.earlyRefusal with
      | some r => .over (endRoutine k stRefused r 0 d)
      | none => (match d.srlIn c t with
        | some i => .over (endSrl k c i d)
        | none => .stall 0)
    else if st = stTooSmall ∨ (st = stOk ∧ t.outmax < n) then .over (endRoutine k stTooSmall 0 n d)
    else if st = stOk then
      let g : Staged := { outLen := n, detail := det, window := t.window }
      .over (endRoutine k stOk det n (d.updCmd k (fun c => { c with staged := some g })))
    else .over (endRoutine k st det 0 d)) d

/-- 06 R144: the routine's self-check failed: a Contained fault of the engine. The LIU bound to the command notes it (10 R237). -/
def execScfail (e : Fin 144) (s : State) : Host.Outcome State Fault Refusal :=
  s.on fun d => engRun e (fun k _ d =>
    let d := foldOver (fun u d =>
      if (d.liu u).bound = some k then (d.bump (0x0006_0024 + 0x100 * u) 0xFFFF).updLiu u (fun u => { u with katDue := true }) else d) (List.range 32) d
    .over (raiseFault 0x1F e (some k) 0 (d.updArch e (fun t => { t with faulted := true })))) d

/-! ## Traps and waits (06 R140, R146) -/

/-- 06 R146: trap with cause BREAK. -/
def execBrk (e : Fin 144) (code : BitVec 7) (s : State) : Host.Outcome State Fault Refusal :=
  s.on fun d => engOp e (fun _ => .trap 0x08 code.toNat) d

/-- 06 R146: return from a trap handler; outside one it is illegal. A preemption requested while the handler ran is taken then (Table 6.15). -/
def execTret (e : Fin 144) (s : State) : Host.Outcome State Fault Refusal :=
  s.on fun d => takeRequest e (engOp e (fun t => if t.intrap then .jump t.epc { t with intrap := false } else .trap 0x01 0) d)

/-- 06 R140: wait until ES_INAVAIL reaches the smaller of rs1 and IN_LEN. -/
def execInwait (e : Fin 144) (rs1 : BitVec 5) (s : State) : Host.Outcome State Fault Refusal :=
  s.on fun d => engOp e (fun t => if min (t.getX rs1).toNat t.inlen ≤ t.inavail then .ok t else .stall 0) d

end Sys2Proof.Machine
end

