-- ==== Sys2Proof/Machine/Vector.lean ====
section
/-!
DEFINITION. Sys2Proof/Machine/Vector.lean: vector configuration and vector integer instructions (07, Tables 7.6 and 7.7): rows 127 to 162.
-/
namespace Sys2Proof.Machine
open Sys2Proof

/-! ## Configuration (07 R155, Table 7.6) -/

/-- 07, Table 7.6: type, FULL and count from registers; a bit of x[rs2] above bit 5 makes the type invalid. -/
def execVcfg (e : Fin 144) (rd rs1 rs2 : BitVec 5) (s : State) : Host.Outcome State Fault Refusal :=
  s.on fun d => engOp e (fun t =>
    let x := (t.getX rs2).toNat
    .ok (configure t rd (if x < 64 then x % 32 else 0) (fun cap => if bitOf x 5 then cap else min (t.getX rs1).toNat cap)).vEnd) d

/-- 07, Table 7.6: type from an immediate, count from a register. -/
def execVcfgi (e : Fin 144) (rd rs1 type : BitVec 5) (s : State) : Host.Outcome State Fault Refusal :=
  s.on fun d => engOp e (fun t => .ok (configure t rd type.toNat (fun cap => min (t.getX rs1).toNat cap)).vEnd) d

/-- 07, Table 7.6: write a modulus register. -/
def execVsetm (e : Fin 144) (mk : BitVec 2) (rs1 : BitVec 5) (s : State) : Host.Outcome State Fault Refusal :=
  s.on fun d => engOp e (fun t => .ok (EngArch.vEnd { t with m := Tbl.set 0 t.m mk.toNat (t.getX rs1) })) d

/-- 07, Table 7.6: read a modulus register. -/
def execVgetm (e : Fin 144) (rd : BitVec 5) (mk : BitVec 2) (s : State) : Host.Outcome State Fault Refusal :=
  s.on fun d => engOp e (fun t => .ok (t.setX rd (Tbl.get 0 t.m mk.toNat)).vEnd) d

/-- 07, Table 7.6: VLEN ÷ 8. -/
def execVbytes (e : Fin 144) (rd : BitVec 5) (s : State) : Host.Outcome State Fault Refusal :=
  s.on fun d => engOp e (fun t => .ok (t.setX rd 512).vEnd) d

/-- 07, Table 7.6: type from an immediate; the length is kept as far as the new type holds it. -/
def execVcfgk (e : Fin 144) (rd type : BitVec 5) (s : State) : Host.Outcome State Fault Refusal :=
  s.on fun d => engOp e (fun t => .ok (configure t rd type.toNat (fun cap => min t.vl cap)).vEnd) d

/-! ## Integer operations on elements of w bits -/

/-- Difference modulo 2^w, complement, arithmetic right shift, left rotation. -/
def subW (w a b : Nat) : Nat := a + 2 ^ w - b % 2 ^ w
def notW (w a : Nat) : Nat := a ^^^ (2 ^ w - 1)
def sarW (w a n : Nat) : Nat := (signed w a / (2 ^ n : Nat) % (2 ^ w : Nat)).toNat
def rotlW (w a n : Nat) : Nat := (a <<< n) ||| (a >>> (w - n))

/-- Share j of x OR p for a public p: share 0 takes the correction (08, Table 8.1). -/
def orShare (x : VArgs) : Nat :=
  if x.j = 0 then x.a ||| x.b else if x.sa then x.a &&& notW x.w x.b else x.b &&& notW x.w x.a
/-- Share j of vs1 AND NOT vs2, one of them public: a shared vs2 is complemented in share 0. -/
def andnShare (x : VArgs) : Nat := if x.sb ∧ x.j ≠ 0 then x.a &&& x.b else x.a &&& notW x.w x.b

/-- AND, OR and AND NOT: share by share with a public operand, a gadget that draws t × SEW bits per element when both are shared
(08, Tables 8.1 and 8.4). -/
def vLogic (e : Fin 144) (vd vs1 vs2 : BitVec 5) (pm : Option (BitVec 3)) (sh : BitVec 2) (wise : VArgs → Nat) (f : Nat → Nat → Nat → Nat)
    (d : Device) : Device :=
  engRun e (fun _ t d =>
    let w := vWidth t.vtype
    let x := (VSrc.reg vs1).read t sh.toNat w (vGroup t.vtype)
    let y := (VSrc.reg vs2).read t sh.toNat w (vGroup t.vtype)
    if x.shared && y.shared then
      vCheck t (gadgetChecks t vd [vs1, vs2] sh anyWidth none true true)
        (drawing e (pairsOf t.d * w * t.vl) ((t.d - 1) * t.vl)
          (gadgetWrite t d pm vd.toNat .xor (fun i => f w (x.xorAll i t.d) (y.xorAll i t.d))) d)
    else vElem vd (.reg vs1) (.reg vs2) (.con 0) pm sh anyWidth noMod acceptMixed wise t) d

/-! ## Vector integer instructions (07, Table 7.7) -/

/-- 07, Table 7.7: sum. -/
def execVadd (e : Fin 144) (vd vs1 vs2 : BitVec 5) (pm : Option (BitVec 3)) (sh : BitVec 2) (s : State) : Host.Outcome State Fault Refusal :=
  s.on fun d => engOp e (vElem vd (.reg vs1) (.reg vs2) (.con 0) pm sh anyWidth noMod acceptMixed (fun x => x.ta + x.tb)) d

/-- 07, Table 7.7: sum with x[rs2]. -/
def execVaddX (e : Fin 144) (vd vs1 rs2 : BitVec 5) (pm : Option (BitVec 3)) (sh : BitVec 2) (s : State) : Host.Outcome State Fault Refusal :=
  s.on fun d => engOp e (vElem vd (.reg vs1) (.sca rs2) (.con 0) pm sh anyWidth noMod acceptMixed (fun x => x.ta + x.tb)) d

/-- 07, Table 7.7: difference. -/
def execVsub (e : Fin 144) (vd vs1 vs2 : BitVec 5) (pm : Option (BitVec 3)) (sh : BitVec 2) (s : State) : Host.Outcome State Fault Refusal :=
  s.on fun d => engOp e (vElem vd (.reg vs1) (.reg vs2) (.con 0) pm sh anyWidth noMod acceptMixed (fun x => subW x.w x.ta x.tb)) d

/-- 07, Table 7.7: difference with x[rs2]. -/
def execVsubX (e : Fin 144) (vd vs1 rs2 : BitVec 5) (pm : Option (BitVec 3)) (sh : BitVec 2) (s : State) : Host.Outcome State Fault Refusal :=
  s.on fun d => engOp e (vElem vd (.reg vs1) (.sca rs2) (.con 0) pm sh anyWidth noMod acceptMixed (fun x => subW x.w x.ta x.tb)) d

/-- 07, Table 7.7: AND; two shared operands make it a gadget (08, Table 8.1). -/
def execVand (e : Fin 144) (vd vs1 vs2 : BitVec 5) (pm : Option (BitVec 3)) (sh : BitVec 2) (s : State) : Host.Outcome State Fault Refusal :=
  s.on fun d => vLogic e vd vs1 vs2 pm sh (fun x => x.a &&& x.b) (fun _ a b => a &&& b) d

/-- 07, Table 7.7: OR; two shared operands make it a gadget (08, Table 8.1). -/
def execVor (e : Fin 144) (vd vs1 vs2 : BitVec 5) (pm : Option (BitVec 3)) (sh : BitVec 2) (s : State) : Host.Outcome State Fault Refusal :=
  s.on fun d => vLogic e vd vs1 vs2 pm sh (fun x => orShare x) (fun _ a b => a ||| b) d

/-- 07, Table 7.7: XOR. -/
def execVxor (e : Fin 144) (vd vs1 vs2 : BitVec 5) (pm : Option (BitVec 3)) (sh : BitVec 2) (s : State) : Host.Outcome State Fault Refusal :=
  s.on fun d => engOp e (vElem vd (.reg vs1) (.reg vs2) (.con 0) pm sh anyWidth noMod acceptMixed (fun x => x.ta ^^^ x.tb)) d

/-- 07, Table 7.7: vs1 AND NOT vs2; two shared operands make it a gadget (08, Table 8.1). -/
def execVandn (e : Fin 144) (vd vs1 vs2 : BitVec 5) (pm : Option (BitVec 3)) (sh : BitVec 2) (s : State) : Host.Outcome State Fault Refusal :=
  s.on fun d => vLogic e vd vs1 vs2 pm sh (fun x => andnShare x) (fun w a b => a &&& notW w b) d

/-- 07, Table 7.7: AND with x[rs2]. -/
def execVandX (e : Fin 144) (vd vs1 rs2 : BitVec 5) (pm : Option (BitVec 3)) (sh : BitVec 2) (s : State) : Host.Outcome State Fault Refusal :=
  s.on fun d => engOp e (vElem vd (.reg vs1) (.sca rs2) (.con 0) pm sh anyWidth noMod acceptFirst (fun x => x.a &&& x.b)) d

/-- 07, Table 7.7: XOR with x[rs2]. -/
def execVxorX (e : Fin 144) (vd vs1 rs2 : BitVec 5) (pm : Option (BitVec 3)) (sh : BitVec 2) (s : State) : Host.Outcome State Fault Refusal :=
  s.on fun d => engOp e (vElem vd (.reg vs1) (.sca rs2) (.con 0) pm sh anyWidth noMod acceptFirst (fun x => x.ta ^^^ x.tb)) d

/-- 07, Table 7.7: left shift by vs2[i] mod SEW. -/
def execVshl (e : Fin 144) (vd vs1 vs2 : BitVec 5) (pm : Option (BitVec 3)) (s : State) : Host.Outcome State Fault Refusal :=
  s.on fun d => engOp e (vElem vd (.reg vs1) (.reg vs2) (.con 0) pm 0 anyWidth noMod acceptNone (fun x => x.a <<< (x.b % x.w))) d

/-- 07, Table 7.7: logical right shift by vs2[i] mod SEW. -/
def execVshr (e : Fin 144) (vd vs1 vs2 : BitVec 5) (pm : Option (BitVec 3)) (s : State) : Host.Outcome State Fault Refusal :=
  s.on fun d => engOp e (vElem vd (.reg vs1) (.reg vs2) (.con 0) pm 0 anyWidth noMod acceptNone (fun x => x.a >>> (x.b % x.w))) d

/-- 07, Table 7.7: left shift by x[rs2] mod SEW. -/
def execVshlX (e : Fin 144) (vd vs1 rs2 : BitVec 5) (pm : Option (BitVec 3)) (sh : BitVec 2) (s : State) : Host.Outcome State Fault Refusal :=
  s.on fun d => engOp e (vElem vd (.reg vs1) (.sca rs2) (.con 0) pm sh anyWidth noMod acceptFirst (fun x => x.a <<< (x.b % x.w))) d

/-- 07, Table 7.7: logical right shift by x[rs2] mod SEW. -/
def execVshrX (e : Fin 144) (vd vs1 rs2 : BitVec 5) (pm : Option (BitVec 3)) (sh : BitVec 2) (s : State) : Host.Outcome State Fault Refusal :=
  s.on fun d => engOp e (vElem vd (.reg vs1) (.sca rs2) (.con 0) pm sh anyWidth noMod acceptFirst (fun x => x.a >>> (x.b % x.w))) d

/-- 07, Table 7.7: arithmetic right shift by x[rs2] mod SEW. -/
def execVsarX (e : Fin 144) (vd vs1 rs2 : BitVec 5) (pm : Option (BitVec 3)) (s : State) : Host.Outcome State Fault Refusal :=
  s.on fun d => engOp e (vElem vd (.reg vs1) (.sca rs2) (.con 0) pm 0 anyWidth noMod acceptNone (fun x => sarW x.w x.a (x.b % x.w))) d

/-- 07, Table 7.7: left rotation by x[rs2] mod SEW. -/
def execVrotlX (e : Fin 144) (vd vs1 rs2 : BitVec 5) (pm : Option (BitVec 3)) (sh : BitVec 2) (s : State) : Host.Outcome State Fault Refusal :=
  s.on fun d => engOp e (vElem vd (.reg vs1) (.sca rs2) (.con 0) pm sh anyWidth noMod acceptFirst (fun x => rotlW x.w x.a (x.b % x.w))) d

/-- 07, Table 7.7: left shift by imm5 mod SEW. -/
def execVshlI (e : Fin 144) (vd vs1 imm : BitVec 5) (pm : Option (BitVec 3)) (sh : BitVec 2) (s : State) : Host.Outcome State Fault Refusal :=
  s.on fun d => engOp e (vElem vd (.reg vs1) (.con imm.toNat) (.con 0) pm sh anyWidth noMod acceptFirst (fun x => x.a <<< (x.b % x.w))) d

/-- 07, Table 7.7: logical right shift by imm5 mod SEW. -/
def execVshrI (e : Fin 144) (vd vs1 imm : BitVec 5) (pm : Option (BitVec 3)) (sh : BitVec 2) (s : State) : Host.Outcome State Fault Refusal :=
  s.on fun d => engOp e (vElem vd (.reg vs1) (.con imm.toNat) (.con 0) pm sh anyWidth noMod acceptFirst (fun x => x.a >>> (x.b % x.w))) d

/-- 07, Table 7.7: arithmetic right shift by imm5 mod SEW. -/
def execVsarI (e : Fin 144) (vd vs1 imm : BitVec 5) (pm : Option (BitVec 3)) (s : State) : Host.Outcome State Fault Refusal :=
  s.on fun d => engOp e (vElem vd (.reg vs1) (.con imm.toNat) (.con 0) pm 0 anyWidth noMod acceptNone (fun x => sarW x.w x.a (x.b % x.w))) d

/-- 07, Table 7.7: left rotation by imm5 mod SEW. -/
def execVrotlI (e : Fin 144) (vd vs1 imm : BitVec 5) (pm : Option (BitVec 3)) (sh : BitVec 2) (s : State) : Host.Outcome State Fault Refusal :=
  s.on fun d => engOp e (vElem vd (.reg vs1) (.con imm.toNat) (.con 0) pm sh anyWidth noMod acceptFirst (fun x => rotlW x.w x.a (x.b % x.w))) d

/-- 07, Table 7.7: unsigned minimum. -/
def execVminu (e : Fin 144) (vd vs1 vs2 : BitVec 5) (pm : Option (BitVec 3)) (s : State) : Host.Outcome State Fault Refusal :=
  s.on fun d => engOp e (vElem vd (.reg vs1) (.reg vs2) (.con 0) pm 0 anyWidth noMod acceptNone (fun x => min x.a x.b)) d

/-- 07, Table 7.7: unsigned maximum. -/
def execVmaxu (e : Fin 144) (vd vs1 vs2 : BitVec 5) (pm : Option (BitVec 3)) (s : State) : Host.Outcome State Fault Refusal :=
  s.on fun d => engOp e (vElem vd (.reg vs1) (.reg vs2) (.con 0) pm 0 anyWidth noMod acceptNone (fun x => max x.a x.b)) d

/-- 07, Table 7.7: low SEW bits of the product. -/
def execVmul (e : Fin 144) (vd vs1 vs2 : BitVec 5) (pm : Option (BitVec 3)) (s : State) : Host.Outcome State Fault Refusal :=
  s.on fun d => engOp e (vElem vd (.reg vs1) (.reg vs2) (.con 0) pm 0 anyWidth noMod acceptNone (fun x => x.a * x.b)) d

/-- 07, Table 7.7: high SEW bits of the unsigned product. -/
def execVmulhiU (e : Fin 144) (vd vs1 vs2 : BitVec 5) (pm : Option (BitVec 3)) (s : State) : Host.Outcome State Fault Refusal :=
  s.on fun d => engOp e (vElem vd (.reg vs1) (.reg vs2) (.con 0) pm 0 anyWidth noMod acceptNone (fun x => (x.a * x.b) >>> x.w)) d

/-- 07, Table 7.7: vs2[i] where bit i of p[pr] is set, else vs1[i]; PM is 0. -/
def execVpick (e : Fin 144) (vd vs1 vs2 : BitVec 5) (pr : BitVec 3) (s : State) : Host.Outcome State Fault Refusal :=
  s.on fun d => engOp e (fun t => vPlain vd [vs1, vs2] anyWidth noMod (fun t => t.active none) (fun _ _ el i => some (if bitOf (t.pBits pr.toNat) i then el 1 i else el 0 i)) t) d

/-- 07, Table 7.7: vs1. -/
def execVcopy (e : Fin 144) (vd vs1 : BitVec 5) (pm : Option (BitVec 3)) (sh : BitVec 2) (s : State) : Host.Outcome State Fault Refusal :=
  s.on fun d => engOp e (vElem vd (.reg vs1) (.con 0) (.con 0) pm sh anyWidth noMod acceptFirst (fun x => x.a)) d

/-- 07, Table 7.7: x[rs2] in each element. -/
def execVbcastX (e : Fin 144) (vd rs2 : BitVec 5) (pm : Option (BitVec 3)) (s : State) : Host.Outcome State Fault Refusal :=
  s.on fun d => engOp e (vElem vd (.sca rs2) (.con 0) (.con 0) pm 0 anyWidth noMod acceptNone (fun x => x.a)) d

/-- 07, Table 7.7: sign-extended imm5 in each element. -/
def execVbcastI (e : Fin 144) (vd imm : BitVec 5) (pm : Option (BitVec 3)) (s : State) : Host.Outcome State Fault Refusal :=
  s.on fun d => engOp e (vElem vd (.con (imm.signExtend 64).toNat) (.con 0) (.con 0) pm 0 anyWidth noMod acceptNone (fun x => x.a)) d

/-- 07, Table 7.7: OR with x[rs2]. -/
def execVorX (e : Fin 144) (vd vs1 rs2 : BitVec 5) (pm : Option (BitVec 3)) (sh : BitVec 2) (s : State) : Host.Outcome State Fault Refusal :=
  s.on fun d => engOp e (vElem vd (.reg vs1) (.sca rs2) (.con 0) pm sh anyWidth noMod acceptFirst (fun x => orShare x)) d

/-- 07, Table 7.7: vs1 AND NOT x[rs2]. -/
def execVandnX (e : Fin 144) (vd vs1 rs2 : BitVec 5) (pm : Option (BitVec 3)) (sh : BitVec 2) (s : State) : Host.Outcome State Fault Refusal :=
  s.on fun d => engOp e (vElem vd (.reg vs1) (.sca rs2) (.con 0) pm sh anyWidth noMod acceptFirst (fun x => andnShare x)) d

end Sys2Proof.Machine
end

