-- ==== Sys2Proof/Machine/VectorMod.lean ====
section
/-!
DEFINITION. Sys2Proof/Machine/VectorMod.lean: modular, NTT, Keccak, SHA-2, sampler, carry-less, GF(2^m) and AES instructions (07, Tables 7.8 to 7.12): rows 163 to 192.
-/
namespace Sys2Proof.Machine
open Sys2Proof

/-! ## Modular arithmetic (07 R162, Table 7.8) -/

/-- Difference modulo m, and the centred residue of r as a w-bit value. -/
def subMod (m a b : Nat) : Nat := (a % m + m - b % m) % m
def centre (w m r : Nat) : Nat := if r ≤ (m - 1) / 2 then r else 2 ^ w + r - m

/-- 07, Table 7.8: (vs1 + vs2) mod m. -/
def execVmadd (e : Fin 144) (mk : BitVec 2) (vd vs1 vs2 : BitVec 5) (pm : Option (BitVec 3)) (sh : BitVec 2) (s : State) : Host.Outcome State Fault Refusal :=
  s.on fun d => engOp e (vElem vd (.reg vs1) (.reg vs2) (.con 0) pm sh anyWidth (fun t => mkMod t mk.toNat) acceptMixed (fun x => (x.ta + x.tb) % x.m)) d

/-- 07, Table 7.8: (vs1 − vs2) mod m. -/
def execVmsub (e : Fin 144) (mk : BitVec 2) (vd vs1 vs2 : BitVec 5) (pm : Option (BitVec 3)) (sh : BitVec 2) (s : State) : Host.Outcome State Fault Refusal :=
  s.on fun d => engOp e (vElem vd (.reg vs1) (.reg vs2) (.con 0) pm sh anyWidth (fun t => mkMod t mk.toNat) acceptMixed (fun x => subMod x.m x.ta x.tb)) d

/-- 07, Table 7.8: vs1 × vs2 mod m. -/
def execVmmul (e : Fin 144) (mk : BitVec 2) (vd vs1 vs2 : BitVec 5) (pm : Option (BitVec 3)) (sh : BitVec 2) (s : State) : Host.Outcome State Fault Refusal :=
  s.on fun d => engOp e (vElem vd (.reg vs1) (.reg vs2) (.con 0) pm sh anyWidth (fun t => mkMod t mk.toNat) acceptOne (fun x => x.a * x.b % x.m)) d

/-- 07, Table 7.8: (vs1 × vs2 + vd) mod m. -/
def execVmac (e : Fin 144) (mk : BitVec 2) (vd vs1 vs2 : BitVec 5) (pm : Option (BitVec 3)) (sh : BitVec 2) (s : State) : Host.Outcome State Fault Refusal :=
  s.on fun d => engOp e (vElem vd (.reg vs1) (.reg vs2) (.reg vd) pm sh anyWidth (fun t => mkMod t mk.toNat) acceptOne (fun x => (x.a * x.b + x.tc) % x.m)) d

/-- 07, Table 7.8: vs1 × x[rs2] mod m. -/
def execVmmulX (e : Fin 144) (mk : BitVec 2) (vd vs1 rs2 : BitVec 5) (pm : Option (BitVec 3)) (sh : BitVec 2) (s : State) : Host.Outcome State Fault Refusal :=
  s.on fun d => engOp e (vElem vd (.reg vs1) (.sca rs2) (.con 0) pm sh anyWidth (fun t => mkMod t mk.toNat) acceptFirst (fun x => x.a * x.b % x.m)) d

/-- 07, Table 7.8: (vs1 × x[rs2] + vd) mod m. -/
def execVmacX (e : Fin 144) (mk : BitVec 2) (vd vs1 rs2 : BitVec 5) (pm : Option (BitVec 3)) (sh : BitVec 2) (s : State) : Host.Outcome State Fault Refusal :=
  s.on fun d => engOp e (vElem vd (.reg vs1) (.sca rs2) (.reg vd) pm sh anyWidth (fun t => mkMod t mk.toNat) acceptFirst (fun x => (x.a * x.b + x.tc) % x.m)) d

/-- 07, Table 7.8: vs1 mod m. -/
def execVmred (e : Fin 144) (mk : BitVec 2) (vd vs1 : BitVec 5) (pm : Option (BitVec 3)) (sh : BitVec 2) (s : State) : Host.Outcome State Fault Refusal :=
  s.on fun d => engOp e (vElem vd (.reg vs1) (.con 0) (.con 0) pm sh anyWidth (fun t => mkMod t mk.toNat) acceptFirst (fun x => x.a % x.m)) d

/-- 07, Table 7.8: vs1 mod m, centred, as a two's-complement value. -/
def execVmcen (e : Fin 144) (mk : BitVec 2) (vd vs1 : BitVec 5) (pm : Option (BitVec 3)) (s : State) : Host.Outcome State Fault Refusal :=
  s.on fun d => engOp e (vElem vd (.reg vs1) (.con 0) (.con 0) pm 0 anyWidth (fun t => mkMod t mk.toNat) acceptNone (fun x => centre x.w x.m (x.a % x.m))) d

/-! ## NTT (07, Table 7.9; 08, Table 8.1) -/

/-- The modulus that FUNC[2:0] names; 2 and 3 are illegal. -/
def nttMod (t : EngArch) (q : BitVec 3) : Nat × Option Nat := if 4 ≤ q.toNat then mkMod t (q.toNat - 4) else builtIn t q.toNat
def nttIll (q : BitVec 3) : Bool := decide (q = 2) || decide (q = 3)

/-- One layer: for each share, `lo` and `hi` of A[i], B[i] and the public W[i] go to the two halves of vd. -/
def vLayer (q : BitVec 3) (vd vs1 vs2 : BitVec 5) (pm : Option (BitVec 3)) (sh : BitVec 2) (lo hi : (m a b w : Nat) → Nat) (t : EngArch) : EngRes :=
  let w := vWidth t.vtype
  let g := vGroup t.vtype
  let s := sh.toNat
  let m := nttMod t q
  let a := (VSrc.reg vs1).readAt t s w (2 * g) g 0
  let b := (VSrc.reg vs1).readAt t s w (2 * g) g g
  let z := (VSrc.reg vs2).read t s w g
  let n := if s = 0 then 1 else t.d
  let refuse := if s = 0 then none else if z.shared then some vs2.toNat else if a.shared then none else some vs1.toNat
  vCheck t { ill := nttIll q || t.badGroup a.shared { n := vs1.toNat, r := 2 * g } || t.badGroup (decide (s ≠ 0)) { n := vd.toNat, r := 2 * g }
                    || t.badGroup z.shared { n := vs2.toNat, r := g },
             widths := [16, 32], modulus := m.2, sh := s, vd := vd.toNat,
             srcs := [{ n := vs1.toNat, r := 2 * g }, { n := vs2.toNat, r := g }], refuse := refuse }
    (.ok (if t.vl ≤ t.vresume then t.vEnd
      else (vWriteTo t (t.active pm) t.vl g w (fun p => vd.toNat + p * g) s (fun p i =>
        some ((if p % 2 = 0 then lo else hi) m.1 (a.el (p / 2) i) (b.el (p / 2) i) (z.el 0 i))) (2 * n)).vEnd))

/-- 07, Table 7.9: one Cooley–Tukey layer. -/
def execVntt (e : Fin 144) (q : BitVec 3) (vd vs1 vs2 : BitVec 5) (pm : Option (BitVec 3)) (sh : BitVec 2) (s : State) : Host.Outcome State Fault Refusal :=
  s.on fun d => engOp e (vLayer q vd vs1 vs2 pm sh (fun m a b w => (a + w * b) % m) (fun m a b w => subMod m a (w * b))) d

/-- 07, Table 7.9: one Gentleman–Sande layer. -/
def execVintt (e : Fin 144) (q : BitVec 3) (vd vs1 vs2 : BitVec 5) (pm : Option (BitVec 3)) (sh : BitVec 2) (s : State) : Host.Outcome State Fault Refusal :=
  s.on fun d => engOp e (vLayer q vd vs1 vs2 pm sh (fun m a b _ => (a + b) % m) (fun m a b w => w * subMod m a b % m)) d

/-- A pair of elements executes when its even element is active and its odd element lies below VL. -/
def pairActive (t : EngArch) (pm : Option (BitVec 3)) (i : Nat) : Bool := t.active pm (2 * (i / 2)) && decide (2 * (i / 2) + 1 < t.vl)

/-- 07, Table 7.9: products of pairs modulo X² − ζ; ζ is vd[i] (08, Table 8.1: one factor shared, the other and ζ public). -/
def execVnttmul (e : Fin 144) (q : BitVec 3) (vd vs1 vs2 : BitVec 5) (pm : Option (BitVec 3)) (sh : BitVec 2) (s : State) : Host.Outcome State Fault Refusal :=
  s.on fun d => engOp e (fun t =>
    let w := vWidth t.vtype
    let g := vGroup t.vtype
    let k := sh.toNat
    let m := nttMod t q
    let a := (VSrc.reg vs1).read t k w g
    let b := (VSrc.reg vs2).read t k w g
    let z := (VSrc.reg vd).read t k w g
    let os : List VOpnd := [{ n := vs1.toNat, r := g }, { n := vs2.toNat, r := g }, { n := vd.toNat, r := g }]
    let refuse := if k = 0 then none else if z.shared then some vd.toNat else if a.shared != b.shared then none else some vs2.toNat
    vCheck t { ill := nttIll q || os.any (fun o => t.badGroup (t.isShared k o.n) o) || t.badGroup (decide (k ≠ 0)) { n := vd.toNat, r := g },
               widths := [16, 32], modulus := m.2, sh := k, vd := vd.toNat, srcs := os, refuse := refuse }
      (.ok (vWrite t (pairActive t pm) t.vl (if k = 0 then 1 else t.d) g vd.toNat k (fun j i =>
        if i % 2 = 0 then some ((a.el j i * b.el j i + a.el j (i + 1) * b.el j (i + 1) * z.el 0 i) % m.1)
        else some ((a.el j (i - 1) * b.el j i + a.el j i * b.el j (i - 1)) % m.1))))) d

/-! ## Keccak and SHA-2 (07, Table 7.10) -/

/-- x with its low n bits replaced. -/
def lowBits (n x v : Nat) : Nat := x - x % 2 ^ n + v % 2 ^ n

/-- 07, Table 7.10: Keccak-f[1600] on the low 25 lanes of vd; on shares it is a gadget (08, Tables 8.1 and 8.4). -/
def execVkeccak (e : Fin 144) (vd : BitVec 5) (sh : BitVec 2) (s : State) : Host.Outcome State Fault Refusal :=
  s.on fun d => engRun e (fun _ t d =>
    let k := sh.toNat
    let o : VOpnd := { n := vd.toNat, r := 1 }
    let shared := t.isShared k vd.toNat
    let perm : Nat → Nat := fun x => (keccakBits 24 (BitVec.ofNat 1600 x)).toNat
    vCheck t { ill := t.badGroup (decide (k ≠ 0)) o, widths := anyWidth, modulus := none, sh := k, vd := vd.toNat, srcs := [o],
               refuse := if k ≠ 0 ∧ !shared then some vd.toNat else none }
      (if k = 0 then .ok (t.setV vd.toNat (lowBits 1600 (t.vBits vd.toNat) (perm (t.vBits vd.toNat))) 0).vEnd
       else
        let x := (VSrc.reg vd).read t k 1600 1
        let r := perm (x.xorAll 0 t.d)
        drawing e (1536 * pairsOf t.d) (t.d - 1) ((List.range t.d).foldl (fun u j =>
          u.setV (vd.toNat + j) (lowBits 1600 (t.vBits (vd.toNat + j)) (ShareKind.share .xor (fun q => d.fresh 1600 q) t.d r j)) k) t).vEnd d)) d

/-- One compression: eight chaining words of w bits in vd, a block of 16 big-endian words in vs1. -/
def vSha (p : Sha2Par) (w : Nat) (vd vs1 : BitVec 5) (t : EngArch) : EngRes :=
  vCheck t { ill := false, widths := anyWidth, modulus := none, sh := 0, vd := vd.toNat,
             srcs := [{ n := vd.toNat, r := 1 }, { n := vs1.toNat, r := 1 }], refuse := none }
    (let h := (List.range 8).map (elemOf w (t.vBits vd.toNat))
     let n := sha2Compress p h (beWords w 16 (toBytes (2 * w) (t.vBits vs1.toNat)))
     .ok (t.setV vd.toNat (lowBits (8 * w) (t.vBits vd.toNat) (n.foldr (fun x a => x % 2 ^ w + 2 ^ w * a) 0)) 0).vEnd)

/-- 07, Table 7.10: one SHA-256 compression. -/
def execVsha256 (e : Fin 144) (vd vs1 : BitVec 5) (s : State) : Host.Outcome State Fault Refusal :=
  s.on fun d => engOp e (vSha sha256Par 32 vd vs1) d

/-- 07, Table 7.10: one SHA-512 compression. -/
def execVsha512 (e : Fin 144) (vd vs1 : BitVec 5) (s : State) : Host.Outcome State Fault Refusal :=
  s.on fun d => engOp e (vSha sha512Par 64 vd vs1) d

/-! ## Samplers (07 R163, Table 7.11) -/

/-- The modulus that FUNC[1:0] names. -/
def samMod (t : EngArch) (q : BitVec 2) : Nat × Option Nat := if 2 ≤ q.toNat then mkMod t (q.toNat - 2) else builtIn t q.toNat

/-- Put accepted candidates into elements fill, fill + 1, … below vl. -/
def samFill (w vl : Nat) : List (Option Nat) → Nat × Nat → Nat × Nat
  | [], r => r
  | none :: l, r => samFill w vl l r
  | some v :: l, (fill, x) => if fill < vl then samFill w vl l (fill + 1, setElem w x fill v) else (fill, x)

/-- The loop of 07 R163: FILL, CUR and the destination group. -/
def samLoop (w vl n unit : Nat) (img : Nat) (cand : Nat → List (Option Nat)) : (fuel : Nat) → (fill cur x : Nat) → Nat × Nat × Nat
  | 0, fill, cur, x => (fill, cur, x)
  | f + 1, fill, cur, x =>
    if fill < vl ∧ cur + unit ≤ n then
      let r := samFill w vl (cand ((img >>> (8 * cur)) % 2 ^ (8 * unit))) (fill, x)
      samLoop w vl n unit img cand f r.1 (cur + unit) r.2
    else (fill, cur, x)

/-- A rejection sampler with its cursor in x[rs2]; it changes vd only where it accepts a candidate. -/
def vSample (q : BitVec 2) (vd vs1 rs2 : BitVec 5) (unit : Nat) (cand : (q c : Nat) → List (Option Nat)) (t : EngArch) : EngRes :=
  let w := vWidth t.vtype
  let g := vGroup t.vtype
  let m := samMod t q
  let o : VOpnd := { n := vs1.toNat, r := g }
  vCheck t { ill := t.badGroup false o || t.badGroup false { n := vd.toNat, r := g }, widths := [16, 32, 64], modulus := m.2, sh := 0,
             vd := vd.toNat, srcs := [o], refuse := none }
    (let c := (t.getX rs2).toNat
     let n := 512 * g
     let r := samLoop w t.vl n unit (t.grp vs1.toNat g) (cand m.1) n (c % 2 ^ 32) (c / 2 ^ 32) (t.grp vd.toNat g)
     let u := if c % 2 ^ 32 < r.1 then t.setGrp vd.toNat r.2.2 0 g else t
     .ok (u.setX rs2 (BitVec.ofNat 64 (r.2.1 * 2 ^ 32 + r.1))).vEnd)

/-- A candidate is accepted below a bound. -/
def below (q c : Nat) : Option Nat := if c < q then some c else none

/-- 07, Table 7.11: 12-bit candidates, two of each 3 bytes. -/
def execVsamu12 (e : Fin 144) (q : BitVec 2) (vd vs1 rs2 : BitVec 5) (s : State) : Host.Outcome State Fault Refusal :=
  s.on fun d => engOp e (vSample q vd vs1 rs2 3 (fun q c => [below q (c % 4096), below q (c / 4096)])) d

/-- 07, Table 7.11: 23-bit candidates. -/
def execVsamu23 (e : Fin 144) (q : BitVec 2) (vd vs1 rs2 : BitVec 5) (s : State) : Host.Outcome State Fault Refusal :=
  s.on fun d => engOp e (vSample q vd vs1 rs2 3 (fun q c => [below q (c % 2 ^ 23)])) d

/-- 07, Table 7.11: z < 15 gives 2 − (z mod 5). -/
def execVsamb2 (e : Fin 144) (q : BitVec 2) (vd vs1 rs2 : BitVec 5) (s : State) : Host.Outcome State Fault Refusal :=
  s.on fun d => engOp e (vSample q vd vs1 rs2 1 (fun q c => [c % 16, c / 16].map (fun z => if z < 15 then some (subMod q 2 (z % 5)) else none))) d

/-- 07, Table 7.11: z < 9 gives 4 − z. -/
def execVsamb4 (e : Fin 144) (q : BitVec 2) (vd vs1 rs2 : BitVec 5) (s : State) : Host.Outcome State Fault Refusal :=
  s.on fun d => engOp e (vSample q vd vs1 rs2 1 (fun q c => [c % 16, c / 16].map (fun z => if z < 9 then some (subMod q 4 z) else none))) d

/-- x − y modulo q, x and y the sums of eta bits each of element i's 2·eta bits of the image. -/
def cbdOf (eta q img i : Nat) : Nat :=
  let c := img >>> (2 * eta * i)
  subMod q (onesOf (c % 2 ^ eta) eta) (onesOf ((c >>> eta) % 2 ^ eta) eta)

/-- Centred binomial sampling; on shares a gadget from Boolean shares to shares modulo q (08, Table 8.1). -/
def vCbd (e : Fin 144) (eta : Nat) (q : BitVec 2) (vd vs1 : BitVec 5) (pm : Option (BitVec 3)) (sh : BitVec 2) (d : Device) : Device :=
  engRun e (fun _ t d =>
    let w := vWidth t.vtype
    let g := vGroup t.vtype
    let m := samMod t q
    if sh = 0 then vPlain vd [vs1] [16, 32, 64] (fun t => samMod t q) (fun t => t.active pm) (fun _ m _ i => some (cbdOf eta m (t.grp vs1.toNat g) i)) t
    else
      let x := (VSrc.reg vs1).read t sh.toNat (4096 * g) g
      vCheck t (gadgetChecks t vd [vs1] sh [16, 32, 64] m.2 true x.shared)
        (drawing e (2 * pairsOf t.d * w * t.vl) ((t.d - 1) * t.vl)
          (gadgetWrite t d pm vd.toNat (.sum m.1) (fun i => cbdOf eta m.1 (x.xorAll 0 t.d) i)) d)) d

/-- 07, Table 7.11: centred binomial sampling, eta 2. -/
def execVcbd2 (e : Fin 144) (q : BitVec 2) (vd vs1 : BitVec 5) (pm : Option (BitVec 3)) (sh : BitVec 2) (s : State) : Host.Outcome State Fault Refusal :=
  s.on fun d => vCbd e 2 q vd vs1 pm sh d

/-- 07, Table 7.11: centred binomial sampling, eta 3. -/
def execVcbd3 (e : Fin 144) (q : BitVec 2) (vd vs1 : BitVec 5) (pm : Option (BitVec 3)) (sh : BitVec 2) (s : State) : Host.Outcome State Fault Refusal :=
  s.on fun d => vCbd e 3 q vd vs1 pm sh d

/-! ## Carry-less, GF(2^m) and AES (07, Table 7.12) -/

/-- An element-wise instruction of this unit on two sources. -/
def vGf (vd vs1 vs2 : BitVec 5) (pm : Option (BitVec 3)) (widths : List Nat) (f : Nat → Nat → Nat) (t : EngArch) : EngRes :=
  vPlain vd [vs1, vs2] widths noMod (fun t => t.active pm) (fun _ _ el i => some (f (el 0 i) (el 1 i))) t

/-- 07, Table 7.12: low 64 bits of the carry-less product. -/
def execVcxmLo (e : Fin 144) (vd vs1 vs2 : BitVec 5) (pm : Option (BitVec 3)) (s : State) : Host.Outcome State Fault Refusal :=
  s.on fun d => engOp e (vGf vd vs1 vs2 pm [64] (fun a b => clmul a b 64)) d

/-- 07, Table 7.12: high 64 bits of the carry-less product. -/
def execVcxmHi (e : Fin 144) (vd vs1 vs2 : BitVec 5) (pm : Option (BitVec 3)) (s : State) : Host.Outcome State Fault Refusal :=
  s.on fun d => engOp e (vGf vd vs1 vs2 pm [64] (fun a b => clmul a b 64 >>> 64)) d

/-- 07, Table 7.12: product modulo z^12 + z^3 + 1. -/
def execVgfmul12 (e : Fin 144) (vd vs1 vs2 : BitVec 5) (pm : Option (BitVec 3)) (s : State) : Host.Outcome State Fault Refusal :=
  s.on fun d => engOp e (vGf vd vs1 vs2 pm [16] (gfMul 12 0x009)) d

/-- 07, Table 7.12: product modulo z^13 + z^4 + z^3 + z + 1. -/
def execVgfmul13 (e : Fin 144) (vd vs1 vs2 : BitVec 5) (pm : Option (BitVec 3)) (s : State) : Host.Outcome State Fault Refusal :=
  s.on fun d => engOp e (vGf vd vs1 vs2 pm [16] (gfMul 13 0x01B)) d

/-- An AES row: block j is elements 2j and 2j + 1. -/
def vAes (vd : BitVec 5) (srcs : List (BitVec 5)) (pm : Option (BitVec 3)) (f : Nat → Nat → Nat) (t : EngArch) : EngRes :=
  vPlain vd srcs [64] noMod (fun t => pairActive t pm) (fun _ _ el i =>
    let block : Nat → Nat := fun s => el s (2 * (i / 2)) + 2 ^ 64 * el s (2 * (i / 2) + 1)
    some (elemOf 64 (f (block 0) (block 1)) (i % 2))) t

/-- 07, Table 7.12: forward round. -/
def execVafr (e : Fin 144) (vd vs1 vs2 : BitVec 5) (pm : Option (BitVec 3)) (s : State) : Host.Outcome State Fault Refusal :=
  s.on fun d => engOp e (vAes vd [vs1, vs2] pm aesForward) d

/-- 07, Table 7.12: forward final round. -/
def execVafl (e : Fin 144) (vd vs1 vs2 : BitVec 5) (pm : Option (BitVec 3)) (s : State) : Host.Outcome State Fault Refusal :=
  s.on fun d => engOp e (vAes vd [vs1, vs2] pm aesFinal) d

/-- 07, Table 7.12: inverse round of the straight inverse cipher. -/
def execVair (e : Fin 144) (vd vs1 vs2 : BitVec 5) (pm : Option (BitVec 3)) (s : State) : Host.Outcome State Fault Refusal :=
  s.on fun d => engOp e (vAes vd [vs1, vs2] pm aesInverse) d

/-- 07, Table 7.12: inverse final round. -/
def execVail (e : Fin 144) (vd vs1 vs2 : BitVec 5) (pm : Option (BitVec 3)) (s : State) : Host.Outcome State Fault Refusal :=
  s.on fun d => engOp e (vAes vd [vs1, vs2] pm aesInvFinal) d

/-- 07, Table 7.12: InvMixColumns. -/
def execVaim (e : Fin 144) (vd vs1 : BitVec 5) (pm : Option (BitVec 3)) (s : State) : Host.Outcome State Fault Refusal :=
  s.on fun d => engOp e (vAes vd [vs1] pm (fun x _ => invMixColumns x)) d

/-- 07, Table 7.12: SubWord on each 32-bit element. -/
def execVasw (e : Fin 144) (vd vs1 : BitVec 5) (pm : Option (BitVec 3)) (s : State) : Host.Outcome State Fault Refusal :=
  s.on fun d => engOp e (vPlain vd [vs1] [32] noMod (fun t => t.active pm) (fun _ _ el i =>
    some (((List.range 4).map (fun k => sbox (elemOf 8 (el 0 i) k))).foldr (fun b a => b + 256 * a) 0))) d

end Sys2Proof.Machine
end

