-- ==== Sys2Proof/Machine/VectorMove.lean ====
section
/-!
DEFINITION. Sys2Proof/Machine/VectorMove.lean: moves, permutes and reductions, compares and predicates, vector memory and long accumulators
(07, Tables 7.13 to 7.16): rows 193 to 242.
-/
namespace Sys2Proof.Machine
open Sys2Proof

/-! ## Moves, permutes and reductions (07, Table 7.13) -/

/-- A single register of a group operand: its group is aligned, and only that register is read or written. -/
def vOne (vd : Nat) (groups reads : List (BitVec 5)) (t : EngArch) (f : EngRes) : EngRes :=
  vCheck t { ill := groups.any (fun n => t.badGroup false { n := n.toNat, r := vGroup t.vtype }), widths := anyWidth, modulus := none, sh := 0,
             vd := vd, srcs := reads.map (fun n => { n := n.toNat, r := 1 }), refuse := none } f

/-- 07, Table 7.13: element 0 into a scalar register. -/
def execVxget (e : Fin 144) (rd vs1 : BitVec 5) (s : State) : Host.Outcome State Fault Refusal :=
  s.on fun d => engOp e (fun t =>
    vOne rd.toNat [vs1] [vs1] t (.ok (t.setX rd (BitVec.ofNat 64 (elemOf (vWidth t.vtype) (t.vBits vs1.toNat) 0))).vEnd)) d

/-- 07, Table 7.13: a scalar into element 0. -/
def execVxput (e : Fin 144) (vd rs2 : BitVec 5) (pm : Option (BitVec 3)) (s : State) : Host.Outcome State Fault Refusal :=
  s.on fun d => engOp e (fun t =>
    vOne vd.toNat [vd] [] t (.ok (
      if t.active pm 0 then (t.setV vd.toNat (setElem (vWidth t.vtype) (t.vBits vd.toNat) 0 (t.getX rs2).toNat) 0).vEnd else t.vEnd))) d

/-- An element-wise rearrangement of the groups srcs. -/
def vMoveEl (vd : BitVec 5) (srcs : List (BitVec 5)) (pm : Option (BitVec 3)) (k : (el : Nat → Nat → Nat) → Nat → Option Nat) (t : EngArch) : EngRes :=
  vPlain vd srcs anyWidth noMod (fun t => t.active pm) (fun _ _ el i => k el i) t

/-- x[rs2] as an element. -/
def slideBy (t : EngArch) (rs2 : BitVec 5) : Nat := (t.getX rs2).toNat % 2 ^ vWidth t.vtype

/-- 07, Table 7.13: elements slide up; those below k are unchanged. -/
def execVshupX (e : Fin 144) (vd vs1 rs2 : BitVec 5) (pm : Option (BitVec 3)) (s : State) : Host.Outcome State Fault Refusal :=
  s.on fun d => engOp e (fun t =>
    let k := slideBy t rs2
    vMoveEl vd [vs1] pm (fun el i => if k ≤ i then some (el 0 (i - k)) else none) t) d

/-- 07, Table 7.13: elements slide down; zeros enter from above VLCAP. -/
def execVshdnX (e : Fin 144) (vd vs1 rs2 : BitVec 5) (pm : Option (BitVec 3)) (s : State) : Host.Outcome State Fault Refusal :=
  s.on fun d => engOp e (fun t =>
    let k := slideBy t rs2
    vMoveEl vd [vs1] pm (fun el i => some (if i + k < vCap t.vtype then el 0 (i + k) else 0)) t) d

/-- 07, Table 7.13: permute by index. -/
def execVperm (e : Fin 144) (vd vs1 vs2 : BitVec 5) (pm : Option (BitVec 3)) (s : State) : Host.Outcome State Fault Refusal :=
  s.on fun d => engOp e (fun t =>
    vMoveEl vd [vs1, vs2] pm (fun el i => some (if el 1 i < vCap t.vtype then el 0 (el 1 i) else 0)) t) d

/-- The numbers below n whose bit of p is set, in order. -/
def setBits (p n : Nat) : List Nat := (List.range n).filter (fun i => bitOf p i)

/-- 07, Table 7.13: the elements below VL whose predicate bit is set are packed; PM is 0. -/
def execVpack (e : Fin 144) (vd vs1 : BitVec 5) (pr : BitVec 3) (s : State) : Host.Outcome State Fault Refusal :=
  s.on fun d => engOp e (fun t =>
    let u := { t with vresume := 0 }
    let l := setBits (t.pBits pr.toNat) t.vl
    vMoveEl vd [vs1] none (fun el i => (l[i]?).map (el 0)) u) d

/-- 07, Table 7.13: interleave from element h on. -/
def interleave (h : Nat) (el : Nat → Nat → Nat) (i : Nat) : Option Nat := some (el (i % 2) (h + i / 2))
def execVilvLo (e : Fin 144) (vd vs1 vs2 : BitVec 5) (pm : Option (BitVec 3)) (s : State) : Host.Outcome State Fault Refusal :=
  s.on fun d => engOp e (vMoveEl vd [vs1, vs2] pm (interleave 0)) d

/-- 07, Table 7.13: interleave of the high halves. -/
def execVilvHi (e : Fin 144) (vd vs1 vs2 : BitVec 5) (pm : Option (BitVec 3)) (s : State) : Host.Outcome State Fault Refusal :=
  s.on fun d => engOp e (fun t => vMoveEl vd [vs1, vs2] pm (interleave (t.vl / 2)) t) d

/-- Element c of vs1[0..VL−1] followed by vs2[0..VL−1]. -/
def concatEl (vl : Nat) (el : Nat → Nat → Nat) (c : Nat) : Nat := if c < vl then el 0 c else el 1 (c - vl)

/-- 07, Table 7.13: de-interleave, even elements. -/
def execVdlvE (e : Fin 144) (vd vs1 vs2 : BitVec 5) (pm : Option (BitVec 3)) (s : State) : Host.Outcome State Fault Refusal :=
  s.on fun d => engOp e (fun t => vMoveEl vd [vs1, vs2] pm (fun el i => some (concatEl t.vl el (2 * i))) t) d

/-- 07, Table 7.13: de-interleave, odd elements. -/
def execVdlvO (e : Fin 144) (vd vs1 vs2 : BitVec 5) (pm : Option (BitVec 3)) (s : State) : Host.Outcome State Fault Refusal :=
  s.on fun d => engOp e (fun t => vMoveEl vd [vs1, vs2] pm (fun el i => some (concatEl t.vl el (2 * i + 1))) t) d

/-- A reduction: element 0 of vs2 combined with every active element of vs1, into element 0 of vd. -/
def vReduce (vd vs1 vs2 : BitVec 5) (pm : Option (BitVec 3)) (f : Nat → Nat → Nat) (t : EngArch) : EngRes :=
  let w := vWidth t.vtype
  let g := vGroup t.vtype
  vCheck t { ill := [vd, vs1, vs2].any (fun n => t.badGroup false { n := n.toNat, r := g }), widths := anyWidth, modulus := none, sh := 0,
             vd := vd.toNat, srcs := [{ n := vs1.toNat, r := g }, { n := vs2.toNat, r := 1 }], refuse := none }
    (.ok (if t.vl ≤ t.vresume then t.vEnd else
      let r := (List.range t.vl).foldl (fun a i => if t.active pm i then f a (elemOf w (t.grp vs1.toNat g) i) else a) (elemOf w (t.vBits vs2.toNat) 0)
      (t.setV vd.toNat (setElem w (t.vBits vd.toNat) 0 r) 0).vEnd))

/-- 07, Table 7.13: sum reduction. -/
def execVrdadd (e : Fin 144) (vd vs1 vs2 : BitVec 5) (pm : Option (BitVec 3)) (s : State) : Host.Outcome State Fault Refusal :=
  s.on fun d => engOp e (vReduce vd vs1 vs2 pm (fun a b => a + b)) d

/-- 07, Table 7.13: XOR reduction. -/
def execVrdxor (e : Fin 144) (vd vs1 vs2 : BitVec 5) (pm : Option (BitVec 3)) (s : State) : Host.Outcome State Fault Refusal :=
  s.on fun d => engOp e (vReduce vd vs1 vs2 pm (fun a b => a ^^^ b)) d

/-- 07, Table 7.13: OR reduction. -/
def execVrdor (e : Fin 144) (vd vs1 vs2 : BitVec 5) (pm : Option (BitVec 3)) (s : State) : Host.Outcome State Fault Refusal :=
  s.on fun d => engOp e (vReduce vd vs1 vs2 pm (fun a b => a ||| b)) d

/-- 07, Table 7.13: each element its own index. -/
def execVidx (e : Fin 144) (vd : BitVec 5) (pm : Option (BitVec 3)) (s : State) : Host.Outcome State Fault Refusal :=
  s.on fun d => engOp e (vMoveEl vd [] pm (fun _ i => some i)) d

/-- 07, Table 7.13: one whole register with its tag. -/
def execVmovr (e : Fin 144) (vd vs1 : BitVec 5) (s : State) : Host.Outcome State Fault Refusal :=
  s.on fun d => engOp e (fun t => vOne vd.toNat [] [] t (.ok (t.setV vd.toNat (t.vBits vs1.toNat) (t.vTag vs1.toNat)).vEnd)) d

/-! ## Compares (07 R164, Table 7.14) -/

/-- The bits below n that f gives, the others below n kept, those from n on clear. -/
def patchBits (f : Nat → Option Bool) (p : Nat) : (n : Nat) → Nat
  | 0 => 0
  | n + 1 => patchBits f p n + b2n ((f n).getD (bitOf p n)) * 2 ^ n

/-- A compare of vs1 with a second source. -/
def vCompare (pd : BitVec 3) (vs1 : BitVec 5) (b : VSrc) (pm : Option (BitVec 3)) (f : (w a b : Nat) → Bool) (t : EngArch) : EngRes :=
  let w := vWidth t.vtype
  let g := vGroup t.vtype
  let x := (VSrc.reg vs1).read t 0 w g
  let y := b.read t 0 w g
  let os := ({ n := vs1.toNat, r := g } : VOpnd) :: b.opnd g
  vCheck t { ill := os.any (t.badGroup false), widths := anyWidth, modulus := none, sh := 0, vd := pd.toNat, srcs := os, refuse := none }
    (.ok (if t.vl ≤ t.vresume then t.vEnd else
      (t.setP pd.toNat (patchBits (fun i => if t.active pm i then some (f w (x.el 0 i) (y.el 0 i)) else none) (t.pBits pd.toNat) t.vl)).vEnd))

/-- 07, Table 7.14: equal. -/
def execVceq (e : Fin 144) (pd : BitVec 3) (vs1 vs2 : BitVec 5) (pm : Option (BitVec 3)) (s : State) : Host.Outcome State Fault Refusal :=
  s.on fun d => engOp e (vCompare pd vs1 (.reg vs2) pm (fun _ a b => decide (a = b))) d

/-- 07, Table 7.14: not equal. -/
def execVcne (e : Fin 144) (pd : BitVec 3) (vs1 vs2 : BitVec 5) (pm : Option (BitVec 3)) (s : State) : Host.Outcome State Fault Refusal :=
  s.on fun d => engOp e (vCompare pd vs1 (.reg vs2) pm (fun _ a b => decide (a ≠ b))) d

/-- 07, Table 7.14: unsigned less-than. -/
def execVcltu (e : Fin 144) (pd : BitVec 3) (vs1 vs2 : BitVec 5) (pm : Option (BitVec 3)) (s : State) : Host.Outcome State Fault Refusal :=
  s.on fun d => engOp e (vCompare pd vs1 (.reg vs2) pm (fun _ a b => decide (a < b))) d

/-- 07, Table 7.14: signed less-than. -/
def execVclt (e : Fin 144) (pd : BitVec 3) (vs1 vs2 : BitVec 5) (pm : Option (BitVec 3)) (s : State) : Host.Outcome State Fault Refusal :=
  s.on fun d => engOp e (vCompare pd vs1 (.reg vs2) pm ltSigned) d

/-- 07, Table 7.14: equal to x[rs2]. -/
def execVceqX (e : Fin 144) (pd : BitVec 3) (vs1 rs2 : BitVec 5) (pm : Option (BitVec 3)) (s : State) : Host.Outcome State Fault Refusal :=
  s.on fun d => engOp e (vCompare pd vs1 (.sca rs2) pm (fun _ a b => decide (a = b))) d

/-- 07, Table 7.14: not equal to x[rs2]. -/
def execVcneX (e : Fin 144) (pd : BitVec 3) (vs1 rs2 : BitVec 5) (pm : Option (BitVec 3)) (s : State) : Host.Outcome State Fault Refusal :=
  s.on fun d => engOp e (vCompare pd vs1 (.sca rs2) pm (fun _ a b => decide (a ≠ b))) d

/-- 07, Table 7.14: unsigned less than x[rs2]. -/
def execVcltuX (e : Fin 144) (pd : BitVec 3) (vs1 rs2 : BitVec 5) (pm : Option (BitVec 3)) (s : State) : Host.Outcome State Fault Refusal :=
  s.on fun d => engOp e (vCompare pd vs1 (.sca rs2) pm (fun _ a b => decide (a < b))) d

/-- 07, Table 7.14: unsigned at least x[rs2]. -/
def execVcgeuX (e : Fin 144) (pd : BitVec 3) (vs1 rs2 : BitVec 5) (pm : Option (BitVec 3)) (s : State) : Host.Outcome State Fault Refusal :=
  s.on fun d => engOp e (vCompare pd vs1 (.sca rs2) pm (fun _ a b => decide (b ≤ a))) d

/-! ## Predicates (07 R164, Table 7.14) -/

/-- A predicate instruction needs a type and ignores ES_VRESUME. -/
def pOp (t : EngArch) (f : EngArch) : EngRes := if t.vtype = 0 then .trap 0x10 0 else .ok f.vEnd

/-- Bits below VL computed, those at and above VL clear. -/
def pLogic (pd : BitVec 3) (f : (t : EngArch) → Nat → Bool) (t : EngArch) : EngRes :=
  pOp t (t.setP pd.toNat (patchBits (fun i => some (f t i)) 0 t.vl))

/-- 07, Table 7.14: AND. -/
def execPand (e : Fin 144) (pd ps1 ps2 : BitVec 3) (s : State) : Host.Outcome State Fault Refusal :=
  s.on fun d => engOp e (pLogic pd (fun t i => bitOf (t.pBits ps1.toNat) i && bitOf (t.pBits ps2.toNat) i)) d

/-- 07, Table 7.14: OR. -/
def execPor (e : Fin 144) (pd ps1 ps2 : BitVec 3) (s : State) : Host.Outcome State Fault Refusal :=
  s.on fun d => engOp e (pLogic pd (fun t i => bitOf (t.pBits ps1.toNat) i || bitOf (t.pBits ps2.toNat) i)) d

/-- 07, Table 7.14: XOR. -/
def execPxor (e : Fin 144) (pd ps1 ps2 : BitVec 3) (s : State) : Host.Outcome State Fault Refusal :=
  s.on fun d => engOp e (pLogic pd (fun t i => bitOf (t.pBits ps1.toNat) i != bitOf (t.pBits ps2.toNat) i)) d

/-- 07, Table 7.14: AND NOT. -/
def execPandn (e : Fin 144) (pd ps1 ps2 : BitVec 3) (s : State) : Host.Outcome State Fault Refusal :=
  s.on fun d => engOp e (pLogic pd (fun t i => bitOf (t.pBits ps1.toNat) i && !bitOf (t.pBits ps2.toNat) i)) d

/-- 07, Table 7.14: NOT. -/
def execPnot (e : Fin 144) (pd ps1 : BitVec 3) (s : State) : Host.Outcome State Fault Refusal :=
  s.on fun d => engOp e (pLogic pd (fun t i => !bitOf (t.pBits ps1.toNat) i)) d

/-- 07, Table 7.14: set. -/
def execPset (e : Fin 144) (pd : BitVec 3) (s : State) : Host.Outcome State Fault Refusal :=
  s.on fun d => engOp e (pLogic pd (fun _ _ => true)) d

/-- 07, Table 7.14: clear. -/
def execPclr (e : Fin 144) (pd : BitVec 3) (s : State) : Host.Outcome State Fault Refusal :=
  s.on fun d => engOp e (pLogic pd (fun _ _ => false)) d

/-- 07, Table 7.14: set where x[rs1] + i < x[rs2], unsigned. -/
def execPrange (e : Fin 144) (pd : BitVec 3) (rs1 rs2 : BitVec 5) (s : State) : Host.Outcome State Fault Refusal :=
  s.on fun d => engOp e (pLogic pd (fun t i => (t.getX rs1 + BitVec.ofNat 64 i).ult (t.getX rs2))) d

/-- 07, Table 7.14: number of set bits below VL. -/
def execPpop (e : Fin 144) (rd : BitVec 5) (ps1 : BitVec 3) (s : State) : Host.Outcome State Fault Refusal :=
  s.on fun d => engOp e (fun t => pOp t (t.setX rd (BitVec.ofNat 64 (onesOf (t.pBits ps1.toNat) t.vl)))) d

/-- 07, Table 7.14: index of the lowest set bit below VL, or VL. -/
def execPlow (e : Fin 144) (rd : BitVec 5) (ps1 : BitVec 3) (s : State) : Host.Outcome State Fault Refusal :=
  s.on fun d => engOp e (fun t => pOp t (t.setX rd (BitVec.ofNat 64 ((setBits (t.pBits ps1.toNat) t.vl).headD t.vl)))) d

/-- The access of pld and pst: 64 bytes, aligned to 8; the scalar causes come before those of the vector chapter (06 R147, 07 R171). -/
def pAccess (t : EngArch) (a : Nat) (f : EngRes) : EngRes :=
  if a % 8 ≠ 0 then .trap 0x03 a
  else if pastOpm a 64 then .trap 0x04 a
  else if t.vtype = 0 then .trap 0x10 0
  else if t.awaits a 64 then .stall 0
  else f

/-- 07, Table 7.14: load a predicate. -/
def execPld (e : Fin 144) (pd : BitVec 3) (rs1 : BitVec 5) (s : State) : Host.Outcome State Fault Refusal :=
  s.on fun d => engOp e (fun t =>
    let a := (t.getX rs1).toNat
    pAccess t a (.ok (t.setP pd.toNat (ofBytes (t.read a 64))).vEnd)) d

/-- 07, Table 7.14: store a predicate. -/
def execPst (e : Fin 144) (ps : BitVec 3) (rs1 : BitVec 5) (s : State) : Host.Outcome State Fault Refusal :=
  s.on fun d => engOp e (fun t =>
    let a := (t.getX rs1).toNat
    pAccess t a (.ok (t.write a (toBytes 64 (t.pBits ps.toNat))).vEnd)) d

/-! ## Vector memory (07 R165, R166, Table 7.15; 08 R175) -/

/-- The cause an element of b bytes faults with: alignment before range. -/
def elemFault (b a : Nat) : Option Nat := if a % b ≠ 0 then some 0x12 else if opmSize < a + b then some 0x11 else none

/-- The cause of the first of n shares, 512·G bytes apart, that faults. -/
def shareFault (b stride a : Nat) : (n : Nat) → Option Nat
  | 0 => none
  | n + 1 => match shareFault b stride a n with
    | some c => some c
    | none => elemFault b ((a + n * stride) % 2 ^ 64)

/-- The first of n elements from i that faults: its number and its cause. -/
def firstFault (f : Nat → Option Nat) : (n i : Nat) → Option (Nat × Nat)
  | 0, _ => none
  | n + 1, i => match f i with
    | some c => some (i, c)
    | none => firstFault f n (i + 1)

/-- A vector memory access: elements of b bytes, `addr i` the address of element i's share 0, n shares `stride` apart, up to lim elements of which
`act` says which are accessed. `perform m` is the engine's state with the elements below m done. -/
def vAccess (t : EngArch) (act : Nat → Bool) (lim b n stride : Nat) (addr : Nat → Nat) (perform : Nat → EngArch) : EngRes :=
  let bad := firstFault (fun i => if act i then shareFault b stride (addr i) n else none) (lim - t.vresume) t.vresume
  let stop := (bad.map Prod.fst).getD lim
  if (List.range (stop - t.vresume)).any (fun q => act (t.vresume + q) &&
      (List.range n).any (fun j => t.awaits ((addr (t.vresume + q) + j * stride) % 2 ^ 64) b)) then .stall 0
  else match bad with
    | none => .ok (perform lim)
    | some (i, c) => .part { perform i with vresume := i } c (addr i)

/-- Loads below m into n shares of g registers from vd. -/
def loadElems (t : EngArch) (act : Nat → Bool) (w n g stride vd tag : Nat) (addr : Nat → Nat) (m : Nat) : EngArch :=
  if m ≤ t.vresume then t.vEnd
  else (vWriteTo t act m g w (fun j => vd + j * g) tag (fun j i => some (ofBytes (t.read ((addr i + j * stride) % 2 ^ 64) (w / 8)))) n).vEnd

/-- Stores of the elements below m, in element order, share by share. -/
def storeElems (t : EngArch) (act : Nat → Bool) (w n stride : Nat) (el : (j i : Nat) → Nat) (addr : Nat → Nat) : (m : Nat) → EngArch
  | 0 => t.vEnd
  | m + 1 =>
    let u := storeElems t act w n stride el addr m
    if act m then (List.range n).foldl (fun u j => u.write ((addr m + j * stride) % 2 ^ 64) (toBytes (w / 8) (el j m))) u else u

/-- The checks of a load into, or a store from, the group v with the index group `idx`, if there is one. -/
def memChecks (t : EngArch) (v : BitVec 5) (idx : List (BitVec 5)) (sh : BitVec 2) (store : Bool) : VChecks :=
  let g := vGroup t.vtype
  let s := sh.toNat
  let os := (idx ++ (if store then [v] else [])).map (fun n => ({ n := n.toNat, r := g } : VOpnd))
  { ill := (idx.any (fun n => t.badGroup false { n := n.toNat, r := g })) || t.badGroup (decide (s ≠ 0)) { n := v.toNat, r := g },
    widths := anyWidth, modulus := none, sh := s, vd := v.toNat, srcs := os,
    refuse := if store && decide (s ≠ 0) && !t.isShared s v.toNat then some v.toNat else none }

/-- A load of the group vd. -/
def vLoad (vd : BitVec 5) (idx : List (BitVec 5)) (pm : Option (BitVec 3)) (sh : BitVec 2) (addr : EngArch → Nat → Nat) (t : EngArch) : EngRes :=
  let w := vWidth t.vtype
  let g := vGroup t.vtype
  let n := if sh = 0 then 1 else t.d
  vCheck t (memChecks t vd idx sh false)
    (vAccess t (t.active pm) t.vl (w / 8) n (512 * g) (addr t) (loadElems t (t.active pm) w n g (512 * g) vd.toNat sh.toNat (addr t)))

/-- A store of the group vs. -/
def vStore (vs : BitVec 5) (idx : List (BitVec 5)) (pm : Option (BitVec 3)) (sh : BitVec 2) (addr : EngArch → Nat → Nat) (t : EngArch) : EngRes :=
  let w := vWidth t.vtype
  let g := vGroup t.vtype
  let n := if sh = 0 then 1 else t.d
  vCheck t (memChecks t vs idx sh true)
    (vAccess t (t.active pm) t.vl (w / 8) n (512 * g) (addr t)
      (storeElems t (t.active pm) w n (512 * g) (fun j i => elemOf w (t.grp (vs.toNat + j * g) g) i) (addr t)))

/-- Addresses of element i: unit stride, strided, indexed (07, Table 7.15). -/
def unitAddr (rs1 : BitVec 5) (t : EngArch) (i : Nat) : Nat := ((t.getX rs1).toNat + i * (vWidth t.vtype / 8)) % 2 ^ 64
def strideAddr (rs1 rs2 : BitVec 5) (t : EngArch) (i : Nat) : Nat := ((t.getX rs1).toNat + i * (t.getX rs2).toNat) % 2 ^ 64
def indexAddr (rs1 vs2 : BitVec 5) (t : EngArch) (i : Nat) : Nat :=
  ((t.getX rs1).toNat + elemOf (vWidth t.vtype) (t.grp vs2.toNat (vGroup t.vtype)) i) % 2 ^ 64

/-- 07, Table 7.15: unit-stride load. -/
def execVld (e : Fin 144) (vd rs1 : BitVec 5) (pm : Option (BitVec 3)) (sh : BitVec 2) (s : State) : Host.Outcome State Fault Refusal :=
  s.on fun d => engOp e (vLoad vd [] pm sh (unitAddr rs1)) d

/-- 07, Table 7.15: unit-stride store. -/
def execVst (e : Fin 144) (vs rs1 : BitVec 5) (pm : Option (BitVec 3)) (sh : BitVec 2) (s : State) : Host.Outcome State Fault Refusal :=
  s.on fun d => engOp e (vStore vs [] pm sh (unitAddr rs1)) d

/-- The 64 elements of a whole register, from ES_VRESUME on; VL and PM are ignored. -/
def wholeActive (t : EngArch) (i : Nat) : Bool := decide (t.vresume ≤ i)
def wholeAddr (rs1 : BitVec 5) (t : EngArch) (i : Nat) : Nat := ((t.getX rs1).toNat + 8 * i) % 2 ^ 64

/-- 07, Table 7.15: whole-register load; it writes tag 0. -/
def execVldw (e : Fin 144) (vd rs1 : BitVec 5) (s : State) : Host.Outcome State Fault Refusal :=
  s.on fun d => engOp e (fun t => vOne vd.toNat [] [] t
    (vAccess t (wholeActive t) 64 8 1 0 (wholeAddr rs1 t) (loadElems t (wholeActive t) 64 1 1 0 vd.toNat 0 (wholeAddr rs1 t)))) d

/-- 07, Table 7.15: whole-register store. -/
def execVstw (e : Fin 144) (vs rs1 : BitVec 5) (s : State) : Host.Outcome State Fault Refusal :=
  s.on fun d => engOp e (fun t => vOne vs.toNat [] [vs] t
    (vAccess t (wholeActive t) 64 8 1 0 (wholeAddr rs1 t)
      (storeElems t (wholeActive t) 64 1 0 (fun _ i => elemOf 64 (t.vBits vs.toNat) i) (wholeAddr rs1 t)))) d

/-- 07, Table 7.15: strided load. -/
def execVlds (e : Fin 144) (vd rs1 rs2 : BitVec 5) (pm : Option (BitVec 3)) (s : State) : Host.Outcome State Fault Refusal :=
  s.on fun d => engOp e (vLoad vd [] pm 0 (strideAddr rs1 rs2)) d

/-- 07, Table 7.15: strided store. -/
def execVsts (e : Fin 144) (vs rs1 rs2 : BitVec 5) (pm : Option (BitVec 3)) (s : State) : Host.Outcome State Fault Refusal :=
  s.on fun d => engOp e (vStore vs [] pm 0 (strideAddr rs1 rs2)) d

/-- 07, Table 7.15: indexed gather. -/
def execVldx (e : Fin 144) (vd rs1 vs2 : BitVec 5) (pm : Option (BitVec 3)) (s : State) : Host.Outcome State Fault Refusal :=
  s.on fun d => engOp e (vLoad vd [vs2] pm 0 (indexAddr rs1 vs2)) d

/-- 07, Table 7.15: indexed scatter. -/
def execVstx (e : Fin 144) (vs rs1 vs2 : BitVec 5) (pm : Option (BitVec 3)) (s : State) : Host.Outcome State Fault Refusal :=
  s.on fun d => engOp e (vStore vs [vs2] pm 0 (indexAddr rs1 vs2)) d

/-! ## Long accumulators (07 R168, Table 7.16) -/

/-- An instruction on la k with sources among the vector groups; the new value of la k, and an x register to write. -/
def vLong (la : BitVec 3) (srcs : List (BitVec 5)) (f : (t : EngArch) → (acc : Nat) → Nat) (t : EngArch) : EngRes :=
  let g := vGroup t.vtype
  let n := 4 * la.toNat
  let os := srcs.map (fun n => ({ n := n.toNat, r := g } : VOpnd))
  vCheck t { ill := os.any (t.badGroup false), widths := [64], modulus := none, sh := 0, vd := n, srcs := { n := n, r := 4 } :: os, refuse := none }
    (.ok (t.setGrp n (f t (t.grp n 4) % 2 ^ 16384) 0 4).vEnd)

/-- vs1 as an integer whose limbs are its elements below VL. -/
def limbs (t : EngArch) (vs1 : BitVec 5) : Nat := t.grp vs1.toNat (vGroup t.vtype) % 2 ^ (64 * t.vl)

/-- 07, Table 7.16: clear. -/
def execVlclr (e : Fin 144) (la : BitVec 3) (s : State) : Host.Outcome State Fault Refusal :=
  s.on fun d => engOp e (vLong la [] (fun _ _ => 0)) d

/-- 07, Table 7.16: add. -/
def execVladd (e : Fin 144) (la : BitVec 3) (vs1 : BitVec 5) (s : State) : Host.Outcome State Fault Refusal :=
  s.on fun d => engOp e (vLong la [vs1] (fun t a => a + limbs t vs1)) d

/-- 07, Table 7.16: subtract. -/
def execVlsub (e : Fin 144) (la : BitVec 3) (vs1 : BitVec 5) (s : State) : Host.Outcome State Fault Refusal :=
  s.on fun d => engOp e (vLong la [vs1] (fun t a => subW 16384 a (limbs t vs1))) d

/-- 07, Table 7.16: accumulate vector times scalar. -/
def execVlmac (e : Fin 144) (la : BitVec 3) (vs1 rs2 : BitVec 5) (s : State) : Host.Outcome State Fault Refusal :=
  s.on fun d => engOp e (vLong la [vs1] (fun t a => a + limbs t vs1 * (t.getX rs2).toNat)) d

/-- 07, Table 7.16: accumulate products limb by limb. -/
def execVlmacv (e : Fin 144) (la : BitVec 3) (vs1 vs2 : BitVec 5) (s : State) : Host.Outcome State Fault Refusal :=
  s.on fun d => engOp e (vLong la [vs1, vs2] (fun t a =>
    (List.range t.vl).foldl (fun a i => a + elemOf 64 (limbs t vs1) i * elemOf 64 (limbs t vs2) i * 2 ^ (64 * i)) a)) d

/-- 07, Table 7.16: limb 0 into a scalar register, and the rest moves down. -/
def execVlpop (e : Fin 144) (rd : BitVec 5) (la : BitVec 3) (s : State) : Host.Outcome State Fault Refusal :=
  s.on fun d => engOp e (fun t => match vLong la [] (fun _ a => a >>> 64) t with
    | .ok u => .ok (u.setX rd (BitVec.ofNat 64 (t.vBits (4 * la.toNat))))
    | r => r) d

/-- 07, Table 7.16: right shift by limbs. -/
def execVlshr (e : Fin 144) (la : BitVec 3) (rs2 : BitVec 5) (s : State) : Host.Outcome State Fault Refusal :=
  s.on fun d => engOp e (vLong la [] (fun t a => if 256 ≤ (t.getX rs2).toNat then 0 else a >>> (64 * (t.getX rs2).toNat))) d

end Sys2Proof.Machine
end

