-- ==== Sys2Proof/Machine/Dispatch.lean ====
section
/-!
DEFINITION. Sys2Proof/Machine/Dispatch.lean: one arm for each command of the table.
-/
namespace Sys2Proof.Machine
open Sys2Proof

/-- The effect of a command on everything but the queue of commands. -/
def exec (i : Instr) (s : State) : Host.Outcome State Fault Refusal :=
  match i with
  | .add e rd rs1 rs2 => Sys2Proof.Machine.execAdd e rd rs1 rs2 s
  | .sub e rd rs1 rs2 => Sys2Proof.Machine.execSub e rd rs1 rs2 s
  | .andR e rd rs1 rs2 => Sys2Proof.Machine.execAnd e rd rs1 rs2 s
  | .orR e rd rs1 rs2 => Sys2Proof.Machine.execOr e rd rs1 rs2 s
  | .xorR e rd rs1 rs2 => Sys2Proof.Machine.execXor e rd rs1 rs2 s
  | .andn e rd rs1 rs2 => Sys2Proof.Machine.execAndn e rd rs1 rs2 s
  | .shl e rd rs1 rs2 => Sys2Proof.Machine.execShl e rd rs1 rs2 s
  | .shr e rd rs1 rs2 => Sys2Proof.Machine.execShr e rd rs1 rs2 s
  | .sar e rd rs1 rs2 => Sys2Proof.Machine.execSar e rd rs1 rs2 s
  | .ror e rd rs1 rs2 => Sys2Proof.Machine.execRor e rd rs1 rs2 s
  | .lts e rd rs1 rs2 => Sys2Proof.Machine.execLts e rd rs1 rs2 s
  | .ltu e rd rs1 rs2 => Sys2Proof.Machine.execLtu e rd rs1 rs2 s
  | .min e rd rs1 rs2 => Sys2Proof.Machine.execMin e rd rs1 rs2 s
  | .max e rd rs1 rs2 => Sys2Proof.Machine.execMax e rd rs1 rs2 s
  | .minu e rd rs1 rs2 => Sys2Proof.Machine.execMinu e rd rs1 rs2 s
  | .maxu e rd rs1 rs2 => Sys2Proof.Machine.execMaxu e rd rs1 rs2 s
  | .csel e rd rs1 rs2 => Sys2Proof.Machine.execCsel e rd rs1 rs2 s
  | .clz e rd rs1 => Sys2Proof.Machine.execClz e rd rs1 s
  | .ctz e rd rs1 => Sys2Proof.Machine.execCtz e rd rs1 s
  | .popc e rd rs1 => Sys2Proof.Machine.execPopc e rd rs1 s
  | .brev e rd rs1 => Sys2Proof.Machine.execBrev e rd rs1 s
  | .zxW e rd rs1 => Sys2Proof.Machine.execZxW e rd rs1 s
  | .sxW e rd rs1 => Sys2Proof.Machine.execSxW e rd rs1 s
  | .zxH e rd rs1 => Sys2Proof.Machine.execZxH e rd rs1 s
  | .zxB e rd rs1 => Sys2Proof.Machine.execZxB e rd rs1 s
  | .addi e rd rs1 imm => Sys2Proof.Machine.execAddi e rd rs1 imm s
  | .andi e rd rs1 imm => Sys2Proof.Machine.execAndi e rd rs1 imm s
  | .ori e rd rs1 imm => Sys2Proof.Machine.execOri e rd rs1 imm s
  | .xori e rd rs1 imm => Sys2Proof.Machine.execXori e rd rs1 imm s
  | .ltsi e rd rs1 imm => Sys2Proof.Machine.execLtsi e rd rs1 imm s
  | .ltui e rd rs1 imm => Sys2Proof.Machine.execLtui e rd rs1 imm s
  | .shli e rd rs1 n => Sys2Proof.Machine.execShli e rd rs1 n s
  | .shri e rd rs1 n => Sys2Proof.Machine.execShri e rd rs1 n s
  | .sari e rd rs1 n => Sys2Proof.Machine.execSari e rd rs1 n s
  | .rori e rd rs1 n => Sys2Proof.Machine.execRori e rd rs1 n s
  | .hset e rd imm hw => Sys2Proof.Machine.execHset e rd imm hw s
  | .hins e rd imm hw => Sys2Proof.Machine.execHins e rd imm hw s
  | .mul e rd rs1 rs2 => Sys2Proof.Machine.execMul e rd rs1 rs2 s
  | .mulhiU e rd rs1 rs2 => Sys2Proof.Machine.execMulhiU e rd rs1 rs2 s
  | .mulhiS e rd rs1 rs2 => Sys2Proof.Machine.execMulhiS e rd rs1 rs2 s
  | .ld e rt rs1 w off => Sys2Proof.Machine.execLd e rt rs1 w off s
  | .st e rt rs1 w off => Sys2Proof.Machine.execSt e rt rs1 w off s
  | .rld e ro rr lenm1 => Sys2Proof.Machine.execRld e ro rr lenm1 s
  | .rst e ro rr lenm1 => Sys2Proof.Machine.execRst e ro rr lenm1 s
  | .rstU e ro rr lenm1 => Sys2Proof.Machine.execRstU e ro rr lenm1 s
  | .rwait e => Sys2Proof.Machine.execRwait e s
  | .dma e rd rs1 => Sys2Proof.Machine.execDma e rd rs1 s
  | .dwait e rs1 => Sys2Proof.Machine.execDwait e rs1 s
  | .sync e => Sys2Proof.Machine.execSync e s
  | .brEq e rs1 rs2 off => Sys2Proof.Machine.execBrEq e rs1 rs2 off s
  | .brNe e rs1 rs2 off => Sys2Proof.Machine.execBrNe e rs1 rs2 off s
  | .brLt e rs1 rs2 off => Sys2Proof.Machine.execBrLt e rs1 rs2 off s
  | .brGe e rs1 rs2 off => Sys2Proof.Machine.execBrGe e rs1 rs2 off s
  | .brLtu e rs1 rs2 off => Sys2Proof.Machine.execBrLtu e rs1 rs2 off s
  | .brGeu e rs1 rs2 off => Sys2Proof.Machine.execBrGeu e rs1 rs2 off s
  | .jl e rd off => Sys2Proof.Machine.execJl e rd off s
  | .jlr e rd rs1 imm => Sys2Proof.Machine.execJlr e rd rs1 imm s
  | .esr e rd es => Sys2Proof.Machine.execEsr e rd es s
  | .esw e es rs1 => Sys2Proof.Machine.execEsw e es rs1 s
  | .keyreq e rd rs1 rs2 usage => Sys2Proof.Machine.execKeyreq e rd rs1 rs2 usage s
  | .keywait e rd rs1 => Sys2Proof.Machine.execKeywait e rd rs1 s
  | .ent e rd rs1 rs2 reseed => Sys2Proof.Machine.execEnt e rd rs1 rs2 reseed s
  | .jobLiu e rd rs1 => Sys2Proof.Machine.execJobLiu e rd rs1 s
  | .jobDigest e rd rs1 => Sys2Proof.Machine.execJobDigest e rd rs1 s
  | .jwait e rd rs1 => Sys2Proof.Machine.execJwait e rd rs1 s
  | .endR e rs1 rs2 status => Sys2Proof.Machine.execEnd e rs1 rs2 status s
  | .scfail e => Sys2Proof.Machine.execScfail e s
  | .brk e code => Sys2Proof.Machine.execBrk e code s
  | .tret e => Sys2Proof.Machine.execTret e s
  | .inwait e rs1 => Sys2Proof.Machine.execInwait e rs1 s
  | .vcfg e rd rs1 rs2 => Sys2Proof.Machine.execVcfg e rd rs1 rs2 s
  | .vcfgi e rd rs1 type => Sys2Proof.Machine.execVcfgi e rd rs1 type s
  | .vsetm e mk rs1 => Sys2Proof.Machine.execVsetm e mk rs1 s
  | .vgetm e rd mk => Sys2Proof.Machine.execVgetm e rd mk s
  | .vbytes e rd => Sys2Proof.Machine.execVbytes e rd s
  | .vcfgk e rd type => Sys2Proof.Machine.execVcfgk e rd type s
  | .vadd e vd vs1 vs2 pm sh => Sys2Proof.Machine.execVadd e vd vs1 vs2 pm sh s
  | .vaddX e vd vs1 rs2 pm sh => Sys2Proof.Machine.execVaddX e vd vs1 rs2 pm sh s
  | .vsub e vd vs1 vs2 pm sh => Sys2Proof.Machine.execVsub e vd vs1 vs2 pm sh s
  | .vsubX e vd vs1 rs2 pm sh => Sys2Proof.Machine.execVsubX e vd vs1 rs2 pm sh s
  | .vand e vd vs1 vs2 pm sh => Sys2Proof.Machine.execVand e vd vs1 vs2 pm sh s
  | .vor e vd vs1 vs2 pm sh => Sys2Proof.Machine.execVor e vd vs1 vs2 pm sh s
  | .vxor e vd vs1 vs2 pm sh => Sys2Proof.Machine.execVxor e vd vs1 vs2 pm sh s
  | .vandn e vd vs1 vs2 pm sh => Sys2Proof.Machine.execVandn e vd vs1 vs2 pm sh s
  | .vandX e vd vs1 rs2 pm sh => Sys2Proof.Machine.execVandX e vd vs1 rs2 pm sh s
  | .vxorX e vd vs1 rs2 pm sh => Sys2Proof.Machine.execVxorX e vd vs1 rs2 pm sh s
  | .vshl e vd vs1 vs2 pm => Sys2Proof.Machine.execVshl e vd vs1 vs2 pm s
  | .vshr e vd vs1 vs2 pm => Sys2Proof.Machine.execVshr e vd vs1 vs2 pm s
  | .vshlX e vd vs1 rs2 pm sh => Sys2Proof.Machine.execVshlX e vd vs1 rs2 pm sh s
  | .vshrX e vd vs1 rs2 pm sh => Sys2Proof.Machine.execVshrX e vd vs1 rs2 pm sh s
  | .vsarX e vd vs1 rs2 pm => Sys2Proof.Machine.execVsarX e vd vs1 rs2 pm s
  | .vrotlX e vd vs1 rs2 pm sh => Sys2Proof.Machine.execVrotlX e vd vs1 rs2 pm sh s
  | .vshlI e vd vs1 imm pm sh => Sys2Proof.Machine.execVshlI e vd vs1 imm pm sh s
  | .vshrI e vd vs1 imm pm sh => Sys2Proof.Machine.execVshrI e vd vs1 imm pm sh s
  | .vsarI e vd vs1 imm pm => Sys2Proof.Machine.execVsarI e vd vs1 imm pm s
  | .vrotlI e vd vs1 imm pm sh => Sys2Proof.Machine.execVrotlI e vd vs1 imm pm sh s
  | .vminu e vd vs1 vs2 pm => Sys2Proof.Machine.execVminu e vd vs1 vs2 pm s
  | .vmaxu e vd vs1 vs2 pm => Sys2Proof.Machine.execVmaxu e vd vs1 vs2 pm s
  | .vmul e vd vs1 vs2 pm => Sys2Proof.Machine.execVmul e vd vs1 vs2 pm s
  | .vmulhiU e vd vs1 vs2 pm => Sys2Proof.Machine.execVmulhiU e vd vs1 vs2 pm s
  | .vpick e vd vs1 vs2 pr => Sys2Proof.Machine.execVpick e vd vs1 vs2 pr s
  | .vcopy e vd vs1 pm sh => Sys2Proof.Machine.execVcopy e vd vs1 pm sh s
  | .vbcastX e vd rs2 pm => Sys2Proof.Machine.execVbcastX e vd rs2 pm s
  | .vbcastI e vd imm pm => Sys2Proof.Machine.execVbcastI e vd imm pm s
  | .vorX e vd vs1 rs2 pm sh => Sys2Proof.Machine.execVorX e vd vs1 rs2 pm sh s
  | .vandnX e vd vs1 rs2 pm sh => Sys2Proof.Machine.execVandnX e vd vs1 rs2 pm sh s
  | .vmadd e mk vd vs1 vs2 pm sh => Sys2Proof.Machine.execVmadd e mk vd vs1 vs2 pm sh s
  | .vmsub e mk vd vs1 vs2 pm sh => Sys2Proof.Machine.execVmsub e mk vd vs1 vs2 pm sh s
  | .vmmul e mk vd vs1 vs2 pm sh => Sys2Proof.Machine.execVmmul e mk vd vs1 vs2 pm sh s
  | .vmac e mk vd vs1 vs2 pm sh => Sys2Proof.Machine.execVmac e mk vd vs1 vs2 pm sh s
  | .vmmulX e mk vd vs1 rs2 pm sh => Sys2Proof.Machine.execVmmulX e mk vd vs1 rs2 pm sh s
  | .vmacX e mk vd vs1 rs2 pm sh => Sys2Proof.Machine.execVmacX e mk vd vs1 rs2 pm sh s
  | .vmred e mk vd vs1 pm sh => Sys2Proof.Machine.execVmred e mk vd vs1 pm sh s
  | .vmcen e mk vd vs1 pm => Sys2Proof.Machine.execVmcen e mk vd vs1 pm s
  | .vntt e q vd vs1 vs2 pm sh => Sys2Proof.Machine.execVntt e q vd vs1 vs2 pm sh s
  | .vintt e q vd vs1 vs2 pm sh => Sys2Proof.Machine.execVintt e q vd vs1 vs2 pm sh s
  | .vnttmul e q vd vs1 vs2 pm sh => Sys2Proof.Machine.execVnttmul e q vd vs1 vs2 pm sh s
  | .vkeccak e vd sh => Sys2Proof.Machine.execVkeccak e vd sh s
  | .vsha256 e vd vs1 => Sys2Proof.Machine.execVsha256 e vd vs1 s
  | .vsha512 e vd vs1 => Sys2Proof.Machine.execVsha512 e vd vs1 s
  | .vsamu12 e q vd vs1 rs2 => Sys2Proof.Machine.execVsamu12 e q vd vs1 rs2 s
  | .vsamu23 e q vd vs1 rs2 => Sys2Proof.Machine.execVsamu23 e q vd vs1 rs2 s
  | .vsamb2 e q vd vs1 rs2 => Sys2Proof.Machine.execVsamb2 e q vd vs1 rs2 s
  | .vsamb4 e q vd vs1 rs2 => Sys2Proof.Machine.execVsamb4 e q vd vs1 rs2 s
  | .vcbd2 e q vd vs1 pm sh => Sys2Proof.Machine.execVcbd2 e q vd vs1 pm sh s
  | .vcbd3 e q vd vs1 pm sh => Sys2Proof.Machine.execVcbd3 e q vd vs1 pm sh s
  | .vcxmLo e vd vs1 vs2 pm => Sys2Proof.Machine.execVcxmLo e vd vs1 vs2 pm s
  | .vcxmHi e vd vs1 vs2 pm => Sys2Proof.Machine.execVcxmHi e vd vs1 vs2 pm s
  | .vgfmul12 e vd vs1 vs2 pm => Sys2Proof.Machine.execVgfmul12 e vd vs1 vs2 pm s
  | .vgfmul13 e vd vs1 vs2 pm => Sys2Proof.Machine.execVgfmul13 e vd vs1 vs2 pm s
  | .vafr e vd vs1 vs2 pm => Sys2Proof.Machine.execVafr e vd vs1 vs2 pm s
  | .vafl e vd vs1 vs2 pm => Sys2Proof.Machine.execVafl e vd vs1 vs2 pm s
  | .vair e vd vs1 vs2 pm => Sys2Proof.Machine.execVair e vd vs1 vs2 pm s
  | .vail e vd vs1 vs2 pm => Sys2Proof.Machine.execVail e vd vs1 vs2 pm s
  | .vaim e vd vs1 pm => Sys2Proof.Machine.execVaim e vd vs1 pm s
  | .vasw e vd vs1 pm => Sys2Proof.Machine.execVasw e vd vs1 pm s
  | .vxget e rd vs1 => Sys2Proof.Machine.execVxget e rd vs1 s
  | .vxput e vd rs2 pm => Sys2Proof.Machine.execVxput e vd rs2 pm s
  | .vshupX e vd vs1 rs2 pm => Sys2Proof.Machine.execVshupX e vd vs1 rs2 pm s
  | .vshdnX e vd vs1 rs2 pm => Sys2Proof.Machine.execVshdnX e vd vs1 rs2 pm s
  | .vperm e vd vs1 vs2 pm => Sys2Proof.Machine.execVperm e vd vs1 vs2 pm s
  | .vpack e vd vs1 pr => Sys2Proof.Machine.execVpack e vd vs1 pr s
  | .vilvLo e vd vs1 vs2 pm => Sys2Proof.Machine.execVilvLo e vd vs1 vs2 pm s
  | .vilvHi e vd vs1 vs2 pm => Sys2Proof.Machine.execVilvHi e vd vs1 vs2 pm s
  | .vdlvE e vd vs1 vs2 pm => Sys2Proof.Machine.execVdlvE e vd vs1 vs2 pm s
  | .vdlvO e vd vs1 vs2 pm => Sys2Proof.Machine.execVdlvO e vd vs1 vs2 pm s
  | .vrdadd e vd vs1 vs2 pm => Sys2Proof.Machine.execVrdadd e vd vs1 vs2 pm s
  | .vrdxor e vd vs1 vs2 pm => Sys2Proof.Machine.execVrdxor e vd vs1 vs2 pm s
  | .vrdor e vd vs1 vs2 pm => Sys2Proof.Machine.execVrdor e vd vs1 vs2 pm s
  | .vidx e vd pm => Sys2Proof.Machine.execVidx e vd pm s
  | .vmovr e vd vs1 => Sys2Proof.Machine.execVmovr e vd vs1 s
  | .vceq e pd vs1 vs2 pm => Sys2Proof.Machine.execVceq e pd vs1 vs2 pm s
  | .vcne e pd vs1 vs2 pm => Sys2Proof.Machine.execVcne e pd vs1 vs2 pm s
  | .vcltu e pd vs1 vs2 pm => Sys2Proof.Machine.execVcltu e pd vs1 vs2 pm s
  | .vclt e pd vs1 vs2 pm => Sys2Proof.Machine.execVclt e pd vs1 vs2 pm s
  | .vceqX e pd vs1 rs2 pm => Sys2Proof.Machine.execVceqX e pd vs1 rs2 pm s
  | .vcneX e pd vs1 rs2 pm => Sys2Proof.Machine.execVcneX e pd vs1 rs2 pm s
  | .vcltuX e pd vs1 rs2 pm => Sys2Proof.Machine.execVcltuX e pd vs1 rs2 pm s
  | .vcgeuX e pd vs1 rs2 pm => Sys2Proof.Machine.execVcgeuX e pd vs1 rs2 pm s
  | .pand e pd ps1 ps2 => Sys2Proof.Machine.execPand e pd ps1 ps2 s
  | .por e pd ps1 ps2 => Sys2Proof.Machine.execPor e pd ps1 ps2 s
  | .pxor e pd ps1 ps2 => Sys2Proof.Machine.execPxor e pd ps1 ps2 s
  | .pandn e pd ps1 ps2 => Sys2Proof.Machine.execPandn e pd ps1 ps2 s
  | .pnot e pd ps1 => Sys2Proof.Machine.execPnot e pd ps1 s
  | .pset e pd => Sys2Proof.Machine.execPset e pd s
  | .pclr e pd => Sys2Proof.Machine.execPclr e pd s
  | .prange e pd rs1 rs2 => Sys2Proof.Machine.execPrange e pd rs1 rs2 s
  | .ppop e rd ps1 => Sys2Proof.Machine.execPpop e rd ps1 s
  | .plow e rd ps1 => Sys2Proof.Machine.execPlow e rd ps1 s
  | .pld e pd rs1 => Sys2Proof.Machine.execPld e pd rs1 s
  | .pst e ps rs1 => Sys2Proof.Machine.execPst e ps rs1 s
  | .vld e vd rs1 pm sh => Sys2Proof.Machine.execVld e vd rs1 pm sh s
  | .vst e vs rs1 pm sh => Sys2Proof.Machine.execVst e vs rs1 pm sh s
  | .vldw e vd rs1 => Sys2Proof.Machine.execVldw e vd rs1 s
  | .vstw e vs rs1 => Sys2Proof.Machine.execVstw e vs rs1 s
  | .vlds e vd rs1 rs2 pm => Sys2Proof.Machine.execVlds e vd rs1 rs2 pm s
  | .vsts e vs rs1 rs2 pm => Sys2Proof.Machine.execVsts e vs rs1 rs2 pm s
  | .vldx e vd rs1 vs2 pm => Sys2Proof.Machine.execVldx e vd rs1 vs2 pm s
  | .vstx e vs rs1 vs2 pm => Sys2Proof.Machine.execVstx e vs rs1 vs2 pm s
  | .vlclr e la => Sys2Proof.Machine.execVlclr e la s
  | .vladd e la vs1 => Sys2Proof.Machine.execVladd e la vs1 s
  | .vlsub e la vs1 => Sys2Proof.Machine.execVlsub e la vs1 s
  | .vlmac e la vs1 rs2 => Sys2Proof.Machine.execVlmac e la vs1 rs2 s
  | .vlmacv e la vs1 vs2 => Sys2Proof.Machine.execVlmacv e la vs1 vs2 s
  | .vlpop e rd la => Sys2Proof.Machine.execVlpop e rd la s
  | .vlshr e la rs2 => Sys2Proof.Machine.execVlshr e la rs2 s
  | .vsplitB e vd vs1 pm sh => Sys2Proof.Machine.execVsplitB e vd vs1 pm sh s
  | .vsplitA e vd vs1 mk pm sh => Sys2Proof.Machine.execVsplitA e vd vs1 mk pm sh s
  | .vjoinB e vd vs1 pm sh => Sys2Proof.Machine.execVjoinB e vd vs1 pm sh s
  | .vjoinA e vd vs1 mk pm sh => Sys2Proof.Machine.execVjoinA e vd vs1 mk pm sh s
  | .va2b e vd vs1 mk pm sh => Sys2Proof.Machine.execVa2b e vd vs1 mk pm sh s
  | .vb2a e vd vs1 mk pm sh => Sys2Proof.Machine.execVb2a e vd vs1 mk pm sh s
  | .vrefreshB e vd vs1 pm sh => Sys2Proof.Machine.execVrefreshB e vd vs1 pm sh s
  | .vrefreshA e vd vs1 mk pm sh => Sys2Proof.Machine.execVrefreshA e vd vs1 mk pm sh s
  | .vmcmp e vd vs1 vs2 sh => Sys2Proof.Machine.execVmcmp e vd vs1 vs2 sh s
  | .vmsel e vd vs1 vs2 pm sh => Sys2Proof.Machine.execVmsel e vd vs1 vs2 pm sh s
  | .vmask e vd pm => Sys2Proof.Machine.execVmask e vd pm s
  | .sqDoorbell a n => Sys2Proof.Machine.execSqDoorbell a n s
  | .admDoorbell a => Sys2Proof.Machine.execAdmDoorbell a s
  | .burstDataArrive a q data err => Sys2Proof.Machine.execBurstDataArrive a q data err s
  | .scanResume a n => Sys2Proof.Machine.execScanResume a n s
  | .cqHeadWrite a n head => Sys2Proof.Machine.execCqHeadWrite a n head s
  | .admCqHeadWrite a head => Sys2Proof.Machine.execAdmCqHeadWrite a head s
  | .ntcHeadWrite a head => Sys2Proof.Machine.execNtcHeadWrite a head s
  | .sqDisable a n => Sys2Proof.Machine.execSqDisable a n s
  | .sqReenable a n => Sys2Proof.Machine.execSqReenable a n s
  | .sqIdle a n => Sys2Proof.Machine.execSqIdle a n s
  | .admEnable a => Sys2Proof.Machine.execAdmEnable a s
  | .admDisable a => Sys2Proof.Machine.execAdmDisable a s
  | .ntcEnable a => Sys2Proof.Machine.execNtcEnable a s
  | .ntcDisable a => Sys2Proof.Machine.execNtcDisable a s
  | .badDoorbellClear a => Sys2Proof.Machine.execBadDoorbellClear a s
  | .msixUnmask a what v on => Sys2Proof.Machine.execMsixUnmask a what v on s
  | .coalTimer a n => Sys2Proof.Machine.execCoalTimer a n s
  | .createCq a => Sys2Proof.Machine.execCreateCq a s
  | .deleteCq a => Sys2Proof.Machine.execDeleteCq a s
  | .createSq a => Sys2Proof.Machine.execCreateSq a s
  | .deleteSq a => Sys2Proof.Machine.execDeleteSq a s
  | .queryQueue a => Sys2Proof.Machine.execQueryQueue a s
  | .modifyCq a => Sys2Proof.Machine.execModifyCq a s
  | .unassignedOpcode a => Sys2Proof.Machine.execUnassignedOpcode a s
  | .abort a => Sys2Proof.Machine.execAbort a s
  | .weirJoin k => Sys2Proof.Machine.execWeirJoin k s
  | .weirCharge n => Sys2Proof.Machine.execWeirCharge n s
  | .weirShed k => Sys2Proof.Machine.execWeirShed k s
  | .readySteal k e => Sys2Proof.Machine.execReadySteal k e s
  | .engineDispatch l => Sys2Proof.Machine.execEngineDispatch l s
  | .inputStaged k lst data aux rd => Sys2Proof.Machine.execInputStaged k lst data aux rd s
  | .storeDrainDone k => Sys2Proof.Machine.execStoreDrainDone k s
  | .commit k => Sys2Proof.Machine.execCommit k s
  | .completionWrite k => Sys2Proof.Machine.execCompletionWrite k s
  | .contextFetchDone n rd => Sys2Proof.Machine.execContextFetchDone n rd s
  | .ctxAlloc a => Sys2Proof.Machine.execCtxAlloc a s
  | .ctxHold a => Sys2Proof.Machine.execCtxHold a s
  | .ctxClose a => Sys2Proof.Machine.execCtxClose a s
  | .ctxFree a => Sys2Proof.Machine.execCtxFree a s
  | .ctxSet a => Sys2Proof.Machine.execCtxSet a s
  | .ctxRead a => Sys2Proof.Machine.execCtxRead a s
  | .rsvAlloc a => Sys2Proof.Machine.execRsvAlloc a s
  | .rsvFree a => Sys2Proof.Machine.execRsvFree a s
  | .holdExpired n => Sys2Proof.Machine.execHoldExpired n s
  | .expirySweep => Sys2Proof.Machine.execExpirySweep s
  | .weirCtrlWrite n v => Sys2Proof.Machine.execWeirCtrlWrite n v s
  | .rsvScrubPass errs => Sys2Proof.Machine.execRsvScrubPass errs s
  | .rsvPageScrub page => Sys2Proof.Machine.execRsvPageScrub page s
  | .rsvPageRetire page => Sys2Proof.Machine.execRsvPageRetire page s
  | .preemptTrigger k => Sys2Proof.Machine.execPreemptTrigger k s
  | .saveDone e => Sys2Proof.Machine.execSaveDone e s
  | .watchdog e => Sys2Proof.Machine.execWatchdog e s
  | .imemParityRefetch e => Sys2Proof.Machine.execImemParityRefetch e s
  | .storeLineDrain l => Sys2Proof.Machine.execStoreLineDrain l s
  | .rldComplete e rd => Sys2Proof.Machine.execRldComplete e rd s
  | .dmaListComplete e rd => Sys2Proof.Machine.execDmaListComplete e rd s
  | .leaseExpire e h => Sys2Proof.Machine.execLeaseExpire e h s
  | .mgReseedRequest e => Sys2Proof.Machine.execMgReseedRequest e s
  | .mgAtLimit e => Sys2Proof.Machine.execMgAtLimit e s
  | .liuBindGrant => Sys2Proof.Machine.execLiuBindGrant s
  | .liuJobArrive u => Sys2Proof.Machine.execLiuJobArrive u s
  | .liuSetmod u => Sys2Proof.Machine.execLiuSetmod u s
  | .liuLoad u => Sys2Proof.Machine.execLiuLoad u s
  | .liuStore u => Sys2Proof.Machine.execLiuStore u s
  | .liuZero u => Sys2Proof.Machine.execLiuZero u s
  | .liuCopy u => Sys2Proof.Machine.execLiuCopy u s
  | .liuAdd u => Sys2Proof.Machine.execLiuAdd u s
  | .liuSub u => Sys2Proof.Machine.execLiuSub u s
  | .liuMul u => Sys2Proof.Machine.execLiuMul u s
  | .liuSqr u => Sys2Proof.Machine.execLiuSqr u s
  | .liuInv u => Sys2Proof.Machine.execLiuInv u s
  | .liuExp u => Sys2Proof.Machine.execLiuExp u s
  | .liuJobEnd u => Sys2Proof.Machine.execLiuJobEnd u s
  | .digestJobArrive => Sys2Proof.Machine.execDigestJobArrive s
  | .digestJobStart u => Sys2Proof.Machine.execDigestJobStart u s
  | .digestPreempt => Sys2Proof.Machine.execDigestPreempt s
  | .digestJobEnd u => Sys2Proof.Machine.execDigestJobEnd u s
  | .digGo k v => Sys2Proof.Machine.execDigGo k v s
  | .digRegJobDone k => Sys2Proof.Machine.execDigRegJobDone k s
  | .digResultRead k u => Sys2Proof.Machine.execDigResultRead k u s
  | .conditionerOutput => Sys2Proof.Machine.execConditionerOutput s
  | .healthFail grp apt => Sys2Proof.Machine.execHealthFail grp apt s
  | .whdTestMain => Sys2Proof.Machine.execWhdTestMain s
  | .whdTestFb => Sys2Proof.Machine.execWhdTestFb s
  | .sourceTestDone fb pass => Sys2Proof.Machine.execSourceTestDone fb pass s
  | .whdInjectRct grp fb => Sys2Proof.Machine.execWhdInjectRct grp fb s
  | .whdInjectApt grp fb => Sys2Proof.Machine.execWhdInjectApt grp fb s
  | .rawCapture grp fb => Sys2Proof.Machine.execRawCapture grp fb s
  | .rawCaptureDone samples => Sys2Proof.Machine.execRawCaptureDone samples s
  | .whdRawDataRead => Sys2Proof.Machine.execWhdRawDataRead s
  | .noEntropyTimeout k => Sys2Proof.Machine.execNoEntropyTimeout k s
  | .keyAlloc a => Sys2Proof.Machine.execKeyAlloc a s
  | .keyDestroy a => Sys2Proof.Machine.execKeyDestroy a s
  | .keyQuery a => Sys2Proof.Machine.execKeyQuery a s
  | .keyRestrict a => Sys2Proof.Machine.execKeyRestrict a s
  | .ssAttach => Sys2Proof.Machine.execSsAttach s
  | .ssBlockIn intact => Sys2Proof.Machine.execSsBlockIn intact s
  | .ssSlotFree => Sys2Proof.Machine.execSsSlotFree s
  | .ssTimeout u => Sys2Proof.Machine.execSsTimeout u s
  | .registerRoutine data => Sys2Proof.Machine.execRegisterRoutine data s
  | .unregisterRoutine => Sys2Proof.Machine.execUnregisterRoutine s
  | .queryRoutine => Sys2Proof.Machine.execQueryRoutine s
  | .loadSrl data => Sys2Proof.Machine.execLoadSrl data s
  | .hgClose g => Sys2Proof.Machine.execHgClose g s
  | .hgOpen g => Sys2Proof.Machine.execHgOpen g s
  | .hgDrained g => Sys2Proof.Machine.execHgDrained g s
  | .hgCloseTimeout g => Sys2Proof.Machine.execHgCloseTimeout g s
  | .hgDselWrite g r => Sys2Proof.Machine.execHgDselWrite g r s
  | .hgDdataCommit v => Sys2Proof.Machine.execHgDdataCommit v s
  | .flrStart n => Sys2Proof.Machine.execFlrStart n s
  | .pfFlr => Sys2Proof.Machine.execPfFlr s
  | .vfEnableClear => Sys2Proof.Machine.execVfEnableClear s
  | .flrComplete n => Sys2Proof.Machine.execFlrComplete n s
  | .faultReport source unit slot syndrome => Sys2Proof.Machine.execFaultReport source unit slot syndrome s
  | .custodyFault source unit syndrome => Sys2Proof.Machine.execCustodyFault source unit syndrome s
  | .faultActionFence => Sys2Proof.Machine.execFaultActionFence s
  | .faultActionReplay => Sys2Proof.Machine.execFaultActionReplay s
  | .faultActionLowFlow => Sys2Proof.Machine.execFaultActionLowFlow s
  | .faultActionStop => Sys2Proof.Machine.execFaultActionStop s
  | .fatalDrainEnd => Sys2Proof.Machine.execFatalDrainEnd s
  | .fatalDwellExpire => Sys2Proof.Machine.execFatalDwellExpire s
  | .faultAutoAck => Sys2Proof.Machine.execFaultAutoAck s
  | .fltAckWrite upper v => Sys2Proof.Machine.execFltAckWrite upper v s
  | .unitTestDone cls idx pass => Sys2Proof.Machine.execUnitTestDone cls idx pass s
  | .spareInService l => Sys2Proof.Machine.execSpareInService l s
  | .lowFlowExit => Sys2Proof.Machine.execLowFlowExit s
  | .thermalWarning celsius => Sys2Proof.Machine.execThermalWarning celsius s
  | .wedgeDetect => Sys2Proof.Machine.execWedgeDetect s
  | .fltInjectArm source unit => Sys2Proof.Machine.execFltInjectArm source unit s
  | .fltInjectCancel source unit => Sys2Proof.Machine.execFltInjectCancel source unit s
  | .fltFence => Sys2Proof.Machine.execFltFence s
  | .fltTest => Sys2Proof.Machine.execFltTest s
  | .fltUnfence => Sys2Proof.Machine.execFltUnfence s
  | .unitFence a => Sys2Proof.Machine.execUnitFence a s
  | .unitTest a => Sys2Proof.Machine.execUnitTest a s
  | .unitUnfence a => Sys2Proof.Machine.execUnitUnfence a s
  | .faultHistory a => Sys2Proof.Machine.execFaultHistory a s
  | .fltHistRead => Sys2Proof.Machine.execFltHistRead s
  | .aliveToggle => Sys2Proof.Machine.execAliveToggle s
  | .leveeEvent src => Sys2Proof.Machine.execLeveeEvent src s
  | .leveeIntervalEnd => Sys2Proof.Machine.execLeveeIntervalEnd s
  | .zeroizeDone => Sys2Proof.Machine.execZeroizeDone s
  | .leveeRelease => Sys2Proof.Machine.execLeveeRelease s
  | .levFiredClear v => Sys2Proof.Machine.execLevFiredClear v s
  | .levTestSeenClear v => Sys2Proof.Machine.execLevTestSeenClear v s
  | .levStim v => Sys2Proof.Machine.execLevStim v s
  | .battCfgCopy => Sys2Proof.Machine.execBattCfgCopy s
  | .batteryFire src => Sys2Proof.Machine.execBatteryFire src s
  | .svcPressed => Sys2Proof.Machine.execSvcPressed s
  | .svcWindowExpire => Sys2Proof.Machine.execSvcWindowExpire s
  | .evrAppend => Sys2Proof.Machine.execEvrAppend s
  | .evrCursorWrite v => Sys2Proof.Machine.execEvrCursorWrite v s
  | .evrDataRead => Sys2Proof.Machine.execEvrDataRead s
  | .evwCursorWrite a v => Sys2Proof.Machine.execEvwCursorWrite a v s
  | .evwDataRead a => Sys2Proof.Machine.execEvwDataRead a s
  | .evrClear confirm => Sys2Proof.Machine.execEvrClear confirm s
  | .secondIntervalEnd => Sys2Proof.Machine.execSecondIntervalEnd s
  | .train fromCompute => Sys2Proof.Machine.execTrain fromCompute s
  | .keyRequest => Sys2Proof.Machine.execKeyRequest s
  | .keyRequestExport => Sys2Proof.Machine.execKeyRequestExport s
  | .keyRequestCreate => Sys2Proof.Machine.execKeyRequestCreate s
  | .keyRequestCommit => Sys2Proof.Machine.execKeyRequestCommit s
  | .keyRequestAbandon => Sys2Proof.Machine.execKeyRequestAbandon s
  | .keyDeliver => Sys2Proof.Machine.execKeyDeliver s
  | .keyRefuse => Sys2Proof.Machine.execKeyRefuse s
  | .keyRevoke => Sys2Proof.Machine.execKeyRevoke s
  | .keyRevokeAck => Sys2Proof.Machine.execKeyRevokeAck s
  | .unitKeyLoad => Sys2Proof.Machine.execUnitKeyLoad s
  | .regRead => Sys2Proof.Machine.execRegRead s
  | .regWrite => Sys2Proof.Machine.execRegWrite s
  | .regReply => Sys2Proof.Machine.execRegReply s
  | .proxyTimeout => Sys2Proof.Machine.execProxyTimeout s
  | .entropyRequest => Sys2Proof.Machine.execEntropyRequest s
  | .entropyDeliver => Sys2Proof.Machine.execEntropyDeliver s
  | .modeApply => Sys2Proof.Machine.execModeApply s
  | .modeDone => Sys2Proof.Machine.execModeDone s
  | .modeDoneTimeout => Sys2Proof.Machine.execModeDoneTimeout s
  | .heartbeat up => Sys2Proof.Machine.execHeartbeat up s
  | .heartbeatSend up => Sys2Proof.Machine.execHeartbeatSend up s
  | .stwRead core addr len host ident data => Sys2Proof.Machine.execStwRead core addr len host ident data s
  | .stwWrite core addr len host ident data => Sys2Proof.Machine.execStwWrite core addr len host ident data s
  | .stwReply => Sys2Proof.Machine.execStwReply s
  | .flumeRetransmit up => Sys2Proof.Machine.execFlumeRetransmit up s
  | .sublinkSilence u => Sys2Proof.Machine.execSublinkSilence u s
  | .sublinkRetrainDone u ok => Sys2Proof.Machine.execSublinkRetrainDone u ok s
  | .bothSublinksDown => Sys2Proof.Machine.execBothSublinksDown s
  | .sbStop => Sys2Proof.Machine.execSbStop s
  | .sbClear => Sys2Proof.Machine.execSbClear s
  | .sbClearDone => Sys2Proof.Machine.execSbClearDone s
  | .sbFatal => Sys2Proof.Machine.execSbFatal s
  | .sbPresentFall => Sys2Proof.Machine.execSbPresentFall s
  | .fallbackSwitch => Sys2Proof.Machine.execFallbackSwitch s
  | .fallbackReturn => Sys2Proof.Machine.execFallbackReturn s
  | .joinInit member => Sys2Proof.Machine.execJoinInit member s
  | .joinResp member => Sys2Proof.Machine.execJoinResp member s
  | .joinFin member => Sys2Proof.Machine.execJoinFin member s
  | .joinAck member => Sys2Proof.Machine.execJoinAck member s
  | .joinReject member => Sys2Proof.Machine.execJoinReject member s
  | .joinResend member => Sys2Proof.Machine.execJoinResend member s
  | .joinRetry member => Sys2Proof.Machine.execJoinRetry member s
  | .keepalive member => Sys2Proof.Machine.execKeepalive member s
  | .keepaliveSend member => Sys2Proof.Machine.execKeepaliveSend member s
  | .close member => Sys2Proof.Machine.execClose member s
  | .channelIdleClose member => Sys2Proof.Machine.execChannelIdleClose member s
  | .channelRejoin member => Sys2Proof.Machine.execChannelRejoin member s
  | .wsRetransmit member => Sys2Proof.Machine.execWsRetransmit member s
  | .peerLost member => Sys2Proof.Machine.execPeerLost member s
  | .wsFrameReceive port frame fcsOk => Sys2Proof.Machine.execWsFrameReceive port frame fcsOk s
  | .migPull member => Sys2Proof.Machine.execMigPull member s
  | .migOffer member => Sys2Proof.Machine.execMigOffer member s
  | .migReady member => Sys2Proof.Machine.execMigReady member s
  | .migRelease member => Sys2Proof.Machine.execMigRelease member s
  | .migAbort member => Sys2Proof.Machine.execMigAbort member s
  | .migQuery member => Sys2Proof.Machine.execMigQuery member s
  | .migQuerySend member request => Sys2Proof.Machine.execMigQuerySend member request s
  | .migTimeout source member request => Sys2Proof.Machine.execMigTimeout source member request s
  | .ctxMigrateOut a => Sys2Proof.Machine.execCtxMigrateOut a s
  | .ctxMigrateIn a => Sys2Proof.Machine.execCtxMigrateIn a s
  | .keyRepl member => Sys2Proof.Machine.execKeyRepl member s
  | .keyReplAck member => Sys2Proof.Machine.execKeyReplAck member s
  | .keyReplDestroy member => Sys2Proof.Machine.execKeyReplDestroy member s
  | .grantReq member => Sys2Proof.Machine.execGrantReq member s
  | .grant member => Sys2Proof.Machine.execGrant member s
  | .grantRefuse member => Sys2Proof.Machine.execGrantRefuse member s
  | .grantWaitExpire handle => Sys2Proof.Machine.execGrantWaitExpire handle s
  | .rehome member => Sys2Proof.Machine.execRehome member s
  | .credentialCheck => Sys2Proof.Machine.execCredentialCheck s
  | .linkUp link => Sys2Proof.Machine.execLinkUp link s
  | .linkDown link => Sys2Proof.Machine.execLinkDown link s
  | .wsIdentity => Sys2Proof.Machine.execWsIdentity s
  | .wsCredential data => Sys2Proof.Machine.execWsCredential data s
  | .wsReplicate => Sys2Proof.Machine.execWsReplicate s
  | .wsRehome => Sys2Proof.Machine.execWsRehome s
  | .wsRevoke => Sys2Proof.Machine.execWsRevoke s
  | .wsQuery => Sys2Proof.Machine.execWsQuery s
  | .wsTmplCtrlWrite v => Sys2Proof.Machine.execWsTmplCtrlWrite v s
  | .retain => Sys2Proof.Machine.execRetain s
  | .retentionEntered => Sys2Proof.Machine.execRetentionEntered s
  | .retentionWake source => Sys2Proof.Machine.execRetentionWake source s
  | .wakeDone => Sys2Proof.Machine.execWakeDone s
  | .maintEnter => Sys2Proof.Machine.execMaintEnter s
  | .maintExit => Sys2Proof.Machine.execMaintExit s
  | .debugToken token => Sys2Proof.Machine.execDebugToken token s
  | .debugPauseExpire found => Sys2Proof.Machine.execDebugPauseExpire found s
  | .provision key => Sys2Proof.Machine.execProvision key s
  | .profileLoad image => Sys2Proof.Machine.execProfileLoad image s
  | .profileApplied bad => Sys2Proof.Machine.execProfileApplied bad s
  | .registerWrite a bar2 o n v => Sys2Proof.Machine.execRegisterWrite a bar2 o n v s
  | .read64bitLowWord a bar2 o n => Sys2Proof.Machine.execRead64bitLowWord a bar2 o n s
  | .pwrgoodRise debugEn test => Sys2Proof.Machine.execPwrgoodRise debugEn test s
  | .pwrgoodFall => Sys2Proof.Machine.execPwrgoodFall s
  | .resetNAssert => Sys2Proof.Machine.execResetNAssert s
  | .resetNRelease debugEn => Sys2Proof.Machine.execResetNRelease debugEn s
  | .perstNAssert => Sys2Proof.Machine.execPerstNAssert s
  | .perstNRelease => Sys2Proof.Machine.execPerstNRelease s
  | .pcieLinkLoss down lost => Sys2Proof.Machine.execPcieLinkLoss down lost s
  | .custodyBooted found => Sys2Proof.Machine.execCustodyBooted found s
  | .flumeTrained s0 s1 => Sys2Proof.Machine.execFlumeTrained s0 s1 s
  | .entropyReady main fb bad => Sys2Proof.Machine.execEntropyReady main fb bad s
  | .unitsTested engs lius digs => Sys2Proof.Machine.execUnitsTested engs lius digs s
  | .reservoirTrained us badPages => Sys2Proof.Machine.execReservoirTrained us badPages s
  | .srlLoaded bad => Sys2Proof.Machine.execSrlLoaded bad s
  | .serviceReady => Sys2Proof.Machine.execServiceReady s
  | .configReady speed width => Sys2Proof.Machine.execConfigReady speed width s
  | .bmcDaa addr setdasa => Sys2Proof.Machine.execBmcDaa addr setdasa s
  | .bmcRstdaa => Sys2Proof.Machine.execBmcRstdaa s
  | .bmcIdentity n => Sys2Proof.Machine.execBmcIdentity n s
  | .bmcTemperature n temps hotspot => Sys2Proof.Machine.execBmcTemperature n temps hotspot s
  | .bmcRails n => Sys2Proof.Machine.execBmcRails n s
  | .bmcMode n => Sys2Proof.Machine.execBmcMode n s
  | .bmcHealth n => Sys2Proof.Machine.execBmcHealth n s
  | .bmcLastFatal n => Sys2Proof.Machine.execBmcLastFatal n s
  | .bmcEvrSeek seq => Sys2Proof.Machine.execBmcEvrSeek seq s
  | .bmcEvrRead n => Sys2Proof.Machine.execBmcEvrRead n s
  | .bmcEvrStatus n => Sys2Proof.Machine.execBmcEvrStatus n s
  | .bmcAlert n => Sys2Proof.Machine.execBmcAlert n s
  | .bmcUnknownCommand code write => Sys2Proof.Machine.execBmcUnknownCommand code write s
  | .tapBypass code => Sys2Proof.Machine.execTapBypass code s
  | .tapIdcode => Sys2Proof.Machine.execTapIdcode s
  | .tapSamplePreload bits => Sys2Proof.Machine.execTapSamplePreload bits s
  | .tapExtest => Sys2Proof.Machine.execTapExtest s
  | .tapClamp => Sys2Proof.Machine.execTapClamp s
  | .tapHighz => Sys2Proof.Machine.execTapHighz s
  | .debugTapInstruction code => Sys2Proof.Machine.execDebugTapInstruction code s
  | .ntcLostRead a => Sys2Proof.Machine.execNtcLostRead a s
  | .qmStallsRead => Sys2Proof.Machine.execQmStallsRead s
  | .ctxCacheMissRead => Sys2Proof.Machine.execCtxCacheMissRead s
  | .rsvCorrRead => Sys2Proof.Machine.execRsvCorrRead s
  | .rsvUncorrRead => Sys2Proof.Machine.execRsvUncorrRead s
  | .engPreemptsRead e => Sys2Proof.Machine.execEngPreemptsRead e s
  | .engScrubsRead e => Sys2Proof.Machine.execEngScrubsRead e s
  | .engEccRead e => Sys2Proof.Machine.execEngEccRead e s
  | .latSbRead l => Sys2Proof.Machine.execLatSbRead l s
  | .latImpreciseRead l => Sys2Proof.Machine.execLatImpreciseRead l s
  | .sluPreemptsRead => Sys2Proof.Machine.execSluPreemptsRead s
  | .sluStealsRead => Sys2Proof.Machine.execSluStealsRead s
  | .sluWatchdogRead => Sys2Proof.Machine.execSluWatchdogRead s
  | .engMgReseedsRead e => Sys2Proof.Machine.execEngMgReseedsRead e s
  | .engMgStallRead e => Sys2Proof.Machine.execEngMgStallRead e s
  | .liuJobsRead k => Sys2Proof.Machine.execLiuJobsRead k s
  | .liuRefusedRead k => Sys2Proof.Machine.execLiuRefusedRead k s
  | .liuAbortsRead k => Sys2Proof.Machine.execLiuAbortsRead k s
  | .liuParityRead k => Sys2Proof.Machine.execLiuParityRead k s
  | .liuCheckfailRead k => Sys2Proof.Machine.execLiuCheckfailRead k s
  | .liuWaitingRead => Sys2Proof.Machine.execLiuWaitingRead s
  | .digJobsRead k => Sys2Proof.Machine.execDigJobsRead k s
  | .digPreemptsRead k => Sys2Proof.Machine.execDigPreemptsRead k s
  | .digParityRead k => Sys2Proof.Machine.execDigParityRead k s
  | .digWaitingRead => Sys2Proof.Machine.execDigWaitingRead s
  | .digSlotsRead => Sys2Proof.Machine.execDigSlotsRead s
  | .whdFailsRead => Sys2Proof.Machine.execWhdFailsRead s
  | .whdCondRead => Sys2Proof.Machine.execWhdCondRead s
  | .whdDrbgReseedsRead => Sys2Proof.Machine.execWhdDrbgReseedsRead s
  | .whdWaitRead c => Sys2Proof.Machine.execWhdWaitRead c s
  | .whdNoentRead => Sys2Proof.Machine.execWhdNoentRead s
  | .cisUpdatesRead => Sys2Proof.Machine.execCisUpdatesRead s
  | .cisLeavesRead => Sys2Proof.Machine.execCisLeavesRead s
  | .cisBurnedRead => Sys2Proof.Machine.execCisBurnedRead s
  | .kstFetchesRead => Sys2Proof.Machine.execKstFetchesRead s
  | .kstStoresRead => Sys2Proof.Machine.execKstStoresRead s
  | .kstTagfailRead => Sys2Proof.Machine.execKstTagfailRead s
  | .kstSlotsRead => Sys2Proof.Machine.execKstSlotsRead s
  | .kstKcacheHitRead => Sys2Proof.Machine.execKstKcacheHitRead s
  | .kstKcacheMissRead => Sys2Proof.Machine.execKstKcacheMissRead s
  | .allotEngtimeRead n => Sys2Proof.Machine.execAllotEngtimeRead n s
  | .hgViolRead g => Sys2Proof.Machine.execHgViolRead g s
  | .hgTimeoutsRead g => Sys2Proof.Machine.execHgTimeoutsRead g s
  | .fltCountCRead => Sys2Proof.Machine.execFltCountCRead s
  | .fltCountURead => Sys2Proof.Machine.execFltCountURead s
  | .engReplayCountRead n => Sys2Proof.Machine.execEngReplayCountRead n s
  | .levEventsRead u => Sys2Proof.Machine.execLevEventsRead u s
  | .evrDroppedRead => Sys2Proof.Machine.execEvrDroppedRead s
  | .wsFecCorrRead p => Sys2Proof.Machine.execWsFecCorrRead p s
  | .wsFecUncorrRead p => Sys2Proof.Machine.execWsFecUncorrRead p s
  | .wsRxdropRead p => Sys2Proof.Machine.execWsRxdropRead p s
  | .modTransitionsRead => Sys2Proof.Machine.execModTransitionsRead s
  | .modLockViolRead => Sys2Proof.Machine.execModLockViolRead s
  | .clkUnlocksRead => Sys2Proof.Machine.execClkUnlocksRead s
  | .pwrDroopRead => Sys2Proof.Machine.execPwrDroopRead s
  | .pciErrorsRead => Sys2Proof.Machine.execPciErrorsRead s
  | .illegalInstruction e w => Sys2Proof.Machine.execIllegalInstruction e w s
  | .flumeTagFailure u up => Sys2Proof.Machine.execFlumeTagFailure u up s
  | .flumeMalformedMessage seqOut => Sys2Proof.Machine.execFlumeMalformedMessage seqOut s
  | .pcieCompletionTimeout a q k => Sys2Proof.Machine.execPcieCompletionTimeout a q k s
  | .thermalWarningClear celsius => Sys2Proof.Machine.execThermalWarningClear celsius s
  | .droop => Sys2Proof.Machine.execDroop s
  | .powerLoss => Sys2Proof.Machine.execPowerLoss s
  | .rootPllLock => Sys2Proof.Machine.execRootPllLock s
  | .streamedInputArrival k lst data rd => Sys2Proof.Machine.execStreamedInputArrival k lst data rd s
  | .rsvPageOpDone errs => Sys2Proof.Machine.execRsvPageOpDone errs s

end Sys2Proof.Machine
end

