-- ==== Sys2Proof/Machine/Tick.lean ====
section
/-!
DEFINITION. Sys2Proof/Machine/Tick.lean: what the block does when no command waits: device time advances by one count (01 R19), the engines that run
count their cycles (05 R120 to R122; 14 R289), the conditioner takes samples (12 R252). DESIGN CHOICE: one tick is one step on an empty queue; every
other effect of time is a command of the table.
-/
namespace Sys2Proof.Machine

/-- Nanoseconds of one count of device time: 4 on PER_CLK, 10 on the fallback oscillator (01 R19). -/
def Device.tickNs (d : Device) : Nat := if d.fl.fallback then 10 else 4

/-- What one count adds to device time (01 R19): where device time and the real-time counter differ by a count or more, slewing leaves out or doubles one count
in 10,000, which is 100 ppm. -/
def Device.timeStep (d : Device) : Nat :=
  let n := d.tickNs
  if d.fl.slew < 10_000 then n
  else if d.time + n ≤ d.lev.rtcNs then 2 * n
  else if d.lev.rtcNs + n ≤ d.time then 0
  else n

/-- A count of the clocks (01 R19): device time, the real-time counter, and device time as the compute die has it. -/
def tickClocks (d : Device) : Device :=
  let n := d.timeStep
  { d with
    time := d.time + n
    lev := { d.lev with rtcNs := d.lev.rtcNs + d.tickNs }
    fl := { d.fl with computeTime := d.fl.computeTime + d.tickNs, slew := if n = d.tickNs then d.fl.slew + 1 else 0 } }

/-- The mask generator of an engine runs ahead into its FIFO (08 R181). -/
def tickMask (e : Nat) (d : Device) : Device := d.updEng e (fun g => { g with mg := mgFill 4 g.mg })

/-- ENG_CLK cycles of one tick: 2 GHz. -/
def Device.tickCycles (d : Device) : Nat := 2 * d.tickNs

/-- An engine that runs a command counts n cycles: ES_CYCLES stands still while it waits for a key, for entropy or for its mask generator, whose
stall is counted (05 R121; 08, Table 8.7); its slice, its busy time and its allotment's shares go on. -/
def tickEngine (n e : Nat) (d : Device) : Device :=
  match (d.eng e).slot with
  | none => d
  | some k =>
    if (d.eng e).st ≠ .running ∨ (d.cmdOr k).phase ≠ .running then d else
    let a := (d.cmdOr k).allot
    let p := (d.eng e).arch.paused
    let d := d.updEng e (fun g => { g with
      busy := g.busy + n
      arch := { g.arch with
        cycles := if p = 1 ∨ p = 2 then g.arch.cycles else g.arch.cycles + n
        sliceCycles := g.arch.sliceCycles + n } })
    let d := if p = 2 then d.bump (engPage e + 0x02C) 0xFFFF_FFFF n else d
    let d := d.updLat (latOf e) (fun t => { t with
      credit := Tbl.upd 0 t.credit a (fun c => c - (n : Int))
      window := Tbl.upd 0 t.window a (fun c => c + n) })
    d.updAllot a (fun t => { t with engTime := t.engTime + n })

/-- The 1 ms window of a Lateral (14 R289) starts again. -/
def tickWindow (l : Nat) (d : Device) : Device :=
  if (d.lat l).windowStart + 1_000_000 ≤ d.time then d.updLat l (fun t => { t with window := [], windowStart := d.time }) else d

/-- One count of device time. -/
def tick (d : Device) : Device :=
  let n := d.tickCycles
  let d := releaseClear (tickClocks d)
  let d := foldOver tickWindow (List.range 16) d
  let d := if d.stopped then d else foldOver (fun e d => tickMask e (tickEngine n e d)) (d.engs.map Prod.fst) d
  let d := if d.whd.main.inService && decide (d.whd.feed = 0) then { d with whd := { d.whd with block := min 2000 (d.whd.block + n) } } else d
  settleAdmin { d with boot := { d.boot with droop := false } }

end Sys2Proof.Machine
end

