-- ==== Sys2Proof/WellFormed.lean ====
section
/-!
DEFINITION. Sys2Proof/WellFormed.lean: the conditions on a command's operands that their types do not say: fields of a Furrow word that the spec makes
illegal (06 R127, R131; 07 R157, Table 7.9, Table 7.17), and the sizes and alignment of what a host event carries (02 R29; 13 R266; 18 R375, R376,
R378; 21 R429).
-/
namespace Sys2Proof

/-- The conditions on a command's operands. -/
def Instr.wellFormed : Instr → Bool
  | .ld _ _ _ w _ => decide (w ≠ 7)
  | .st _ _ _ w _ => decide (w.toNat < 4)
  | .vntt _ q _ _ _ _ _ => decide (q ≠ 2) && decide (q ≠ 3)
  | .vintt _ q _ _ _ _ _ => decide (q ≠ 2) && decide (q ≠ 3)
  | .vnttmul _ q _ _ _ _ _ => decide (q ≠ 2) && decide (q ≠ 3)
  | .vsplitB _ _ _ _ sh => decide (sh ≠ 0)
  | .vsplitA _ _ _ _ _ sh => decide (sh ≠ 0)
  | .vjoinB _ _ _ _ sh => decide (sh ≠ 0)
  | .vjoinA _ _ _ _ _ sh => decide (sh ≠ 0)
  | .va2b _ _ _ _ _ sh => decide (sh ≠ 0)
  | .vb2a _ _ _ _ _ sh => decide (sh ≠ 0)
  | .vrefreshB _ _ _ _ sh => decide (sh ≠ 0)
  | .vrefreshA _ _ _ _ _ sh => decide (sh ≠ 0)
  | .vmcmp _ _ _ _ sh => decide (sh ≠ 0)
  | .vmsel _ _ _ _ _ sh => decide (sh ≠ 0)
  | .burstDataArrive _ _ data _ => decide (data.length ≤ 8)
  | .debugToken token => decide (token.length = 4659)
  | .provision key => decide (key.length = 2592)
  | .profileLoad image => decide (image.length ≤ 196608)
  | .registerWrite _ _ _ n _ => decide (n ≠ 0)
  | .read64bitLowWord _ _ _ n => decide (n ≠ 0)
  | _ => true

end Sys2Proof
end

