-- ==== Sys2Proof/Safety.lean ====
section
/-!
DEFINITION. Sys2Proof/Safety.lean: what counts as a safe run of the block: every step of it answers a next state, and its tables stay in canonical form.
-/
namespace Sys2Proof.Machine
open Sys2Proof

/-- t follows s by n steps. -/
def Steps : Nat → State → State → Prop
  | 0, s, t => s = t
  | n + 1, s, t => ∃ u, step s = .next u ∧ Steps n u t

/-- Every run from s goes on: after any n steps the next step answers a next state. -/
def Safe (s : State) : Prop := ∀ n t, Steps n s t → ∃ u, step t = .next u

/-- A byte memory is in its one canonical form: addresses strictly rising, no byte equal to 0, which an unlisted address reads as. The Reservoir (04 R100) and
each engine's operand memory (06) are such memories. -/
abbrev Memory.wf (t : Tbl Byte) : Prop := Tbl.wf 0 t = true

end Sys2Proof.Machine
end

