-- ==== Sys2Proof/Certificates/Slice0/Obligations.lean ====
section
/-!
DEFINITION. Sys2Proof/Certificates/Slice0/Obligations.lean: the statements for the provers, and the few notions in which they are put.
-/
namespace Sys2Proof.Claims
open Sys2Proof Sys2Proof.Machine

/-! ## The notions of the statements -/

/-- Command i leads from s to the state with device d and the same queue: nothing stops it. -/
def Gives (i : Instr) (s : State) (d : Device) : Prop := exec i s = .next { s with dev := d }

/-- Command i leads from s to a state of which p holds, with the same queue. -/
def Does (i : Instr) (s : State) (p : Device → Prop) : Prop := ∃ d, Gives i s d ∧ p d

/-- Engine e runs command k, and its next instruction lies within the text, before the run limit (05 R121; 06 R137). -/
abbrev Issues (s : State) (e : Fin 144) (k : Nat) : Prop :=
  s.dev.issuer e = some k ∧ (s.dev.eng e).arch.cycles < runLimit (s.dev.cmdOr k) ∧ (s.dev.eng e).arch.pc < (s.dev.eng e).arch.textLen

/-- The value of scalar register r of engine e. -/
def xOf (s : State) (e : Fin 144) (r : BitVec 5) : W64 := (s.dev.eng e).arch.getX r

/-- Instruction i of engine e retires: the engine's architectural state becomes t with the pc at the next instruction; nothing else changes. -/
def Retires (i : Instr) (s : State) (e : Fin 144) (t : EngArch) : Prop :=
  Gives i s (s.dev.updArch e (fun o => { t with pc := o.pc + 4, paused := 0 }))

/-- Instruction i of engine e writes v to rd, and nothing else but the pc. -/
def WritesX (i : Instr) (s : State) (e : Fin 144) (rd : BitVec 5) (v : W64) : Prop := Retires i s e ((s.dev.eng e).arch.setX rd v)

/-- Instruction i of engine e goes to text offset p, the engine's state otherwise t; nothing else changes. -/
def GoesTo (i : Instr) (s : State) (e : Fin 144) (p : Nat) (t : EngArch) : Prop :=
  Gives i s (s.dev.updArch e (fun _ => { t with pc := p, paused := 0 }))

/-- Instruction i of engine e waits for the reason w: the engine only notes it. -/
def Waits (i : Instr) (s : State) (e : Fin 144) (w : Nat) : Prop := Gives i s (s.dev.updArch e (fun t => { t with paused := w }))

/-- Instruction i of engine e, which runs command k, traps without effect (06 R146). -/
def Traps (i : Instr) (s : State) (e : Fin 144) (k cause tval : Nat) : Prop := Gives i s (takeTrap e k cause tval s.dev)

/-- n as a 64-bit value. -/
def w64 (n : Nat) : W64 := BitVec.ofNat 64 n

/-- The bytes of operand memory of engine e that an instruction touches are not awaited (06 R132). -/
abbrev Ready (s : State) (e : Fin 144) (a n : Nat) : Prop := (s.dev.eng e).arch.awaits a n = false

/-- A branch: taken, within the text, to its target; past it, IMEM_RANGE; not taken, to the next instruction. -/
def BranchesWhen (i : Instr) (s : State) (e : Fin 144) (k : Nat) (off : BitVec 16) (c : Prop) : Prop :=
  let t := (s.dev.eng e).arch
  let p := (w64 t.pc + off.signExtend 64 * 4).toNat
  (c → p % 4 = 0 → p < t.textLen → GoesTo i s e p t) ∧ (c → p % 4 ≠ 0 ∨ t.textLen ≤ p → Traps i s e k 0x02 p) ∧ (¬ c → Retires i s e t)

/-- No admin command waits for a condition of the device, so nothing settles beside the command at hand. -/
abbrev NoAdminWaits (d : Device) : Prop := ∀ a < 64, (d.adm a).waits = .none

/-- LIU u is about to run command word c, of operation op, of its job j (10 R228). -/
abbrev LiuRuns (s : State) (u : Fin 32) (op : Nat) (j : LiuJob) (c : LiuCmd) : Prop :=
  s.dev.stopped = false ∧ s.dev.liuNext u op = some (j, c)

/-- After command word c of job j LIU u holds v in slot c.dst and every other slot's value as before, its job is one word further and has not ended; the
command, the modulus and the other units are as before. -/
def LiuPuts (i : Instr) (s : State) (u : Fin 32) (j : LiuJob) (c : LiuCmd) (v : Nat) (mont : Bool) : Prop :=
  Does i s (fun d =>
    (d.liu u).slot c.dst = { val := BitVec.ofNat 8192 v, mont := mont } ∧
    (∀ q, q ≠ c.dst → ((d.liu u).slot q).val = ((s.dev.liu u).slot q).val) ∧
    (d.liu u).modulus = (s.dev.liu u).modulus ∧ (d.liu u).n = (s.dev.liu u).n ∧ (d.liu u).bound = (s.dev.liu u).bound ∧
    (∃ j', (d.liu u).queue = j' :: (s.dev.liu u).queue.drop 1 ∧ j'.pos = j.pos + 1 ∧ j'.outcome = none ∧ j'.cmds = j.cmds) ∧
    (∀ w, w ≠ u.val → d.liu w = s.dev.liu w) ∧ d.engs = s.dev.engs ∧ d.cmds = s.dev.cmds)

/-- A refusal of command word c of job j: the destination, where there is one, becomes zero and the job ends REFUSED with the reason at its index (10 R233). -/
def LiuRefuses (i : Instr) (s : State) (u : Fin 32) (j : LiuJob) (c : LiuCmd) (reason : Nat) : Prop :=
  Does i s (fun d =>
    (∀ q ∈ c.dest, (d.liu u).slot q = {}) ∧
    (∃ j', (d.liu u).queue = j' :: (s.dev.liu u).queue.drop 1 ∧ j'.outcome = some (1, reason, j.pos)) ∧
    (∀ w, w ≠ u.val → d.liu w = s.dev.liu w) ∧ d.engs = s.dev.engs ∧ d.cmds = s.dev.cmds)

/-- Element i, of width w, of the group of g vector registers from n. -/
abbrev vElt (t : EngArch) (w n g i : Nat) : Nat := elemOf w (t.grp n g) i

/-- Registers outside the k from n hold what they held, tag and all. -/
def SameRegs (t u : EngArch) (n k : Nat) : Prop := ∀ q, q < n ∨ n + k ≤ q → Tbl.get ({} : VShare) u.v q = Tbl.get {} t.v q

/-- The width is one that the instruction has, the groups of the result and of the sources are aligned, the sources are unshared, and some element is still to be done. -/
abbrev VecOk (s : State) (e : Fin 144) (widths : List Nat) (vd : BitVec 5) (srcs : List (BitVec 5)) : Prop :=
  let t := (s.dev.eng e).arch
  t.vtype ≠ 0 ∧ vWidth t.vtype ∈ widths ∧ t.vresume < t.vl ∧ vd.toNat % vGroup t.vtype = 0 ∧
    ∀ n ∈ srcs, n.toNat % vGroup t.vtype = 0 ∧ ∀ q < vGroup t.vtype, t.vTag (n.toNat + q) = 0

/-- Instruction i changes vector registers of engine e alone, so that p holds, and ends with ES_VRESUME 0 and the pc at the next instruction. -/
def VecWrites (i : Instr) (s : State) (e : Fin 144) (p : EngArch → Prop) : Prop :=
  ∃ v', Gives i s (s.dev.updArch e (fun t => { t with v := v', vresume := 0, pc := t.pc + 4, paused := 0 })) ∧ p { (s.dev.eng e).arch with v := v' }

/-- Instruction i writes f j, to the element's width, to every element j of group vd that executes, keeps the others, marks the group unshared, and changes nothing else. -/
def VecPuts (i : Instr) (s : State) (e : Fin 144) (vd : BitVec 5) (pm : Option (BitVec 3)) (f : Nat → Nat) : Prop :=
  let t := (s.dev.eng e).arch
  let w := vWidth t.vtype
  let g := vGroup t.vtype
  VecWrites i s e (fun u =>
    (∀ j < 4096 * g / w, vElt u w vd.toNat g j = if t.active pm j then f j % 2 ^ w else vElt t w vd.toNat g j) ∧
    (∀ q < g, u.vTag (vd.toNat + q) = 0) ∧ SameRegs t u vd.toNat g)

/-- A sampler puts value v into element n of vd, leaves the others, and its cursor register then names the next element and byte c. -/
def SampleTakes (i : Instr) (s : State) (e : Fin 144) (vd rs2 : BitVec 5) (n v c : Nat) : Prop :=
  let t := (s.dev.eng e).arch
  let w := vWidth t.vtype
  let g := vGroup t.vtype
  Does i s (fun d =>
    let u := (d.eng e).arch
    vElt u w vd.toNat g n = v ∧ (∀ j < 4096 * g / w, j ≠ n → vElt u w vd.toNat g j = vElt t w vd.toNat g j) ∧ SameRegs t u vd.toNat g ∧
    u.x = (t.setX rs2 (w64 (c * 2 ^ 32 + (n + 1)))).x ∧ u.pc = t.pc + 4 ∧ u.opm = t.opm ∧ d.rsv = s.dev.rsv)

/-- Instruction i writes predicate pd so that its bits are f, and changes nothing else but ES_VRESUME and the pc. -/
def PredPuts (i : Instr) (s : State) (e : Fin 144) (pd : BitVec 3) (f : Nat → Bool) : Prop :=
  ∃ x : BitVec 512, Retires i s e { (s.dev.eng e).arch with p := Tbl.set 0 (s.dev.eng e).arch.p pd.toNat x, vresume := 0 } ∧
    ∀ j < 512, x.getLsbD j = f j

/-- A vector store: the elements below lim that execute, w bits wide, are stored each at its address, the later over the earlier; every other byte keeps its value, and nothing else changes. -/
def VecStores (i : Instr) (s : State) (e : Fin 144) (lim : Nat) (act : Nat → Bool) (addr : Nat → Nat) (w : Nat) (f : Nat → Nat) : Prop :=
  let t := (s.dev.eng e).arch
  Does i s (fun d =>
    let u := (d.eng e).arch
    (∀ j < lim, act j = true → (∀ q < lim, j < q → act q = true → addr q + w / 8 ≤ addr j ∨ addr j + w / 8 ≤ addr q) →
      readBytes u.opm (addr j) (w / 8) = toBytes (w / 8) (f j)) ∧
    (∀ b, (∀ j < lim, act j = true → b < addr j ∨ addr j + w / 8 ≤ b) → readBytes u.opm b 1 = readBytes t.opm b 1) ∧
    u.vresume = 0 ∧ u.pc = t.pc + 4 ∧ u.v = t.v ∧ u.x = t.x ∧ u.p = t.p ∧ u.m = t.m ∧ u.keys = t.keys ∧ d.rsv = s.dev.rsv ∧ d.cmds = s.dev.cmds ∧ d.lats = s.dev.lats)

/-- A shared operand of the routine's masking order from register n: its group is aligned, all its shares lie below v32, and each carries the tag. -/
abbrev SharedGroup (t : EngArch) (n : BitVec 5) : Prop :=
  n.toNat % vGroup t.vtype = 0 ∧ n.toNat + (t.shares + 1) * vGroup t.vtype ≤ 32 ∧ ∀ q < (t.shares + 1) * vGroup t.vtype, t.vTag (n.toNat + q) = t.shares

/-- Instruction i writes f j q, to the element's width, to element q, where it executes, of each share j of vd, keeps the others, tags the shares, and changes nothing else. -/
def SharesPut (i : Instr) (s : State) (e : Fin 144) (vd : BitVec 5) (pm : Option (BitVec 3)) (f : Nat → Nat → Nat) : Prop :=
  let t := (s.dev.eng e).arch
  let w := vWidth t.vtype
  let g := vGroup t.vtype
  VecWrites i s e (fun u =>
    (∀ j < t.shares + 1, ∀ q < 4096 * g / w,
      vElt u w (vd.toNat + j * g) g q = if t.active pm q then f j q % 2 ^ w else vElt t w (vd.toNat + j * g) g q) ∧
    (∀ q < (t.shares + 1) * g, u.vTag (vd.toNat + q) = t.shares) ∧ SameRegs t u vd.toNat ((t.shares + 1) * g))

/-- What the shares of element i of the operand from register n make up: their XOR, and their sum. -/
def xorOf (t : EngArch) (w n g D i : Nat) : Nat := (List.range D).foldl (fun a j => a ^^^ vElt t w (n + j * g) g i) 0
def sumOf (t : EngArch) (w n g D i : Nat) : Nat := (List.range D).foldl (fun a j => a + vElt t w (n + j * g) g i) 0

/-- A gadget i: it draws n bits from the engine's generator; p holds of every element that executes; elements that do not execute keep their value in every share; the destination's registers carry the tag; nothing else changes
but how many free values have been taken. -/
def Gadget (i : Instr) (s : State) (e : Fin 144) (vd : BitVec 5) (pm : Option (BitVec 3)) (tag n : Nat) (p : EngArch → Nat → Prop) : Prop :=
  let t := (s.dev.eng e).arch
  let w := vWidth t.vtype
  let g := vGroup t.vtype
  let shares := if tag = 0 then 1 else t.shares + 1
  ∃ v' free,
    Gives i s { (s.dev.updEng e (fun x => { x with
      arch := { x.arch with v := v', vresume := 0, pc := x.arch.pc + 4, paused := 0 }
      mg := mgSpend n x.mg })) with free := free } ∧
    let u : EngArch := { t with v := v' }
    (∀ j, t.active pm j = true → p u j) ∧
    (∀ q < shares, ∀ j < 4096 * g / w, t.active pm j = false → vElt u w (vd.toNat + q * g) g j = vElt t w (vd.toNat + q * g) g j) ∧
    (∀ q < shares * g, u.vTag (vd.toNat + q) = tag) ∧ SameRegs t u vd.toNat (shares * g)

/-- A host access to the page of allotment a reaches it: the block answers, is not asleep, a is not being torn down, and no proxied write of a is under way (14 R291; 18
R373; 19 R399; 21 R432). -/
abbrev PageTaken (s : State) (a : Nat) : Prop :=
  s.dev.barLive = true ∧ s.dev.asleep = false ∧ (s.dev.allot a).flr = none ∧ (hostAccess a s.dev).proxyBusy a = false

/-- A host access to BAR0 word o reaches its block: it is live and awake (18 R373; 19 R399). -/
abbrev BarReached (s : State) (o : Nat) : Prop := s.dev.blockLive o = true ∧ s.dev.asleep = false

/-- The same, of a word of the compute die, no proxied write under way (21 R432). -/
abbrev BarTaken (s : State) (o : Nat) : Prop := BarReached s o ∧ proxied o = false ∧ (hostAccess 0 s.dev).proxyBusy 0 = false

/-- Command i, a host write of v to BAR0 word o of the custody die, travels there as REG_WRITE; a read as REG_READ (21 R432, R433). -/
def WriteTravels (i : Instr) (s : State) (o v : Nat) : Prop :=
  BarReached s o → Gives i s (proxyAccess 0 o true v (hostAccess 0 s.dev))
def ReadTravels (i : Instr) (s : State) (o : Nat) : Prop := BarReached s o → Gives i s (proxyAccess 0 o false 0 (hostAccess 0 s.dev))

/-- The jobs that command k has issued, and the same with f applied to job n of a unit. -/
def jobsOf (d : Device) (k : Nat) : List JobOut := match d.archOf k with
  | some t => t.jobs
  | none => []
def withJob (l : List JobOut) (n unit : Nat) (f : JobOut → JobOut) : List JobOut := l.map (fun o => if o.ident = n ∧ o.unit = unit then f o else o)

/-- The admin command at the front of allotment a is entry e, numbered o, of opcode op, and passes the checks of 02 R37: reserved parts zero, aligned, accepted in the mode, not held. -/
abbrev AdminTurn (s : State) (a op : Nat) (listed align : List (Nat × Nat)) (o : Nat) (e : Entry) : Prop :=
  admFront a s.dev = some (o, e) ∧ bytesAt e 2 2 = op ∧ s.dev.stopped = false ∧ s.dev.md.mode ≠ .retention ∧ paramsClean e listed = true ∧
    (∀ x ∈ align, bytesAt e x.1 8 % x.2 = 0) ∧ s.dev.admAccepts a op = true ∧ (s.dev.leveeHold = true → op ≤ 6)

/-- Command slot k holds a command that p holds of, and what follows holds of it. -/
abbrev Holding (d : Device) (k : Nat) (p : Cmd → Prop) : Prop := ∃ c, d.cmd k = some c ∧ p c

/-- The next message that its die receives over a running Flume is m (01 R11, R12). -/
abbrev CustodyGets (s : State) (m : Msg) : Prop := s.dev.flumeRuns = true ∧ nextMsg s.dev.fl.toCustody = some m
abbrev ComputeGets (s : State) (m : Msg) : Prop := s.dev.flumeRuns = true ∧ nextMsg s.dev.fl.toCompute = some m

/-- The write of v to word o of function fn that comes next at the custody die, access i of the proxy, is still waited for; a read comes next (21 R432). -/
abbrev WriteArrives (s : State) (o fn v i : Nat) : Prop := CustodyGets s (.regWrite o fn v i) ∧ ((tookCustody s.dev).proxyOf i).isSome = true
abbrev ReadArrives (s : State) (o fn i : Nat) : Prop := CustodyGets s (.regRead o fn i)

/-- The write is performed, so that the device is d, and its reply leaves; read access i is answered with v. -/
def Performs (s : State) (i : Nat) (d : Device) : Prop := Gives .regWrite s (toCompute (.regReply i 0 true) d)
def Answers (s : State) (i v : Nat) (d' : Device) : Prop := d'.fl = (toCompute (.regReply i v true) (tookCustody s.dev)).fl

/-- The message that comes next from member m is of type t with payload bs (a MIG_PULL that waits for its context is passed over), and the device once it is taken. -/
abbrev WsGets (s : State) (m t : Nat) (bs : List Byte) : Prop := firstWhere (fun x => decide (x.1 ≠ 0x20 ∨ t = 0x20)) (s.dev.peer m).inbox = some (t, bs)
def wsTook (m t : Nat) (bs : List Byte) (d : Device) : Device := d.updPeer m (fun p => { p with inbox := dropFirst (fun x => x = (t, bs)) p.inbox })

/-- The tables of the device are in their one canonical form: the Reservoir and every engine's operand memory, saved copies too, as lists of rising addresses without zero bytes (04, 06 R130), the operand
slots of every LIU, the slots of the Cistern and the sources of the Levee, which list only what differs from the default. -/
def Canonical (d : Device) : Prop :=
  Tbl.wf 0 d.rsv.mem = true ∧ (∀ x ∈ d.engs, Tbl.wf 0 x.2.arch.opm = true) ∧ (∀ x ∈ d.cmds, ∀ r ∈ x.2.saved, Tbl.wf 0 r.arch.opm = true) ∧
  (∀ x ∈ d.lius, Tbl.wf {} x.2.slots = true) ∧ Tbl.wf {} d.cis.slots = true ∧ Tbl.wf {} d.lev.src = true

end Sys2Proof.Claims
open Sys2Proof Sys2Proof.Machine Sys2Proof.Claims

/-! ## The block as a whole -/

/-- A step with a command at the front of the queue is exec of it on the rest. -/
def Sys2Proof.Claims.StepRunsFrontCommand : Prop :=
  ∀ (c : Instr) (s : State), step { s with pending := c :: s.pending } = exec c s

/-- On an empty queue a step is one tick of device time (assumption 3, DESIGN CHOICE): the queue stays empty, the real-time counter advances by 4 ns, or by
10 ns on the fallback oscillator (01 R19); so does device time, but that one count in 10,000 is doubled while it lies a count or more behind, or left out while
it lies a count or more ahead (assumption 134); and no key, context, Reservoir byte or operating mode changes. -/
def Obligations.EmptyQueueAdvancesTime : Prop :=
  ∀ s : State, s.pending = [] → ∃ d, step s = .next { s with dev := d } ∧
    (let n := if s.dev.fl.fallback then 10 else 4
     d.lev.rtcNs = s.dev.lev.rtcNs + n ∧
     d.time = s.dev.time + (if s.dev.fl.slew < 10000 then n else if s.dev.time + n ≤ s.dev.lev.rtcNs then 2 * n else if s.dev.lev.rtcNs + n ≤ s.dev.time then 0 else n)) ∧
    d.part = s.dev.part ∧ d.boot.droop = false ∧ d.md = s.dev.md ∧ d.cis = s.dev.cis ∧ d.ctxs = s.dev.ctxs ∧ d.rsv = s.dev.rsv

/-- Every command of the table leads to a next state, whatever the state and the operands, and leaves the queue alone. -/
def Sys2Proof.Claims.EveryCommandCompletes : Prop := ∀ (c : Instr) (s : State), ∃ d, Gives c s d

/-- StepRunsFrontCommand and EveryCommandCompletes, together. -/
def Obligations.StepsRunAndComplete : Prop := StepRunsFrontCommand ∧ EveryCommandCompletes


/-- After reset nothing waits, device time is 0, both dies are in reset, the mode is Bring-up, no key, context, command, allotment page or record
exists, every table is in its canonical form, and each Lateral holds the engines that the part exposes and its spares (05 R113; 13 R268; 18 R370; 19 R385). -/
def Obligations.ResetLeavesNothing : Prop :=
  ∀ p : Part,
    let d := (State.resetOf p).dev
    (State.resetOf p).pending = [] ∧ Canonical d ∧ d.part = p ∧ d.time = 0 ∧ d.out = [] ∧
    d.boot.computeReset = true ∧ d.boot.custodyReset = true ∧ d.boot.serviceReady = false ∧ d.boot.configReady = false ∧
    d.md.mode = .bringup ∧ d.md.owner = false ∧
    d.cmds = [] ∧ d.ctxs = [] ∧ d.cis.slots = [] ∧ d.ss.objs = [] ∧ d.rsv.mem = [] ∧ d.evr.ring = [] ∧ d.lats = [] ∧
    (∀ e : Fin 144, (d.eng e).arch = {} ∧ (d.eng e).slot = none ∧
      (d.eng e).st = if e.val % 9 < exposed p then .idle else .spare)

/-! ## The Furrow engine: scalar instructions (06) -/

/-- 06 R128: x0 reads as zero and discards writes; every other scalar register reads as last written, and a write leaves the others alone. -/
def Obligations.ScalarRegisterFile : Prop :=
  ∀ (t : EngArch) (v : W64) (r q : BitVec 5),
    t.getX 0 = 0 ∧ t.setX 0 v = t ∧ (r ≠ 0 → (t.setX r v).getX r = v) ∧ (q ≠ r → (t.setX r v).getX q = t.getX q) ∧
    (t.setX r v).opm = t.opm ∧ (t.setX r v).v = t.v ∧ (t.setX r v).p = t.p ∧ (t.setX r v).m = t.m ∧ (t.setX r v).pc = t.pc

/-- 06 R129, Tables 6.3 and 6.4: each integer instruction writes its result, modulo 2^64, to rd and advances the pc; nothing else changes. -/
def Sys2Proof.Claims.IntegerArithmetic : Prop :=
  ∀ (s : State) (e : Fin 144) (k : Nat) (rd rs1 rs2 : BitVec 5) (imm : BitVec 16), Issues s e k →
    let a := xOf s e rs1
    let b := xOf s e rs2
    WritesX (.add e rd rs1 rs2) s e rd (w64 (a.toNat + b.toNat)) ∧
    WritesX (.sub e rd rs1 rs2) s e rd (w64 (a.toNat + (2 ^ 64 - b.toNat))) ∧
    WritesX (.addi e rd rs1 imm) s e rd (BitVec.ofInt 64 (a.toInt + imm.toInt)) ∧
    WritesX (.mul e rd rs1 rs2) s e rd (w64 (a.toNat * b.toNat)) ∧
    WritesX (.mulhiU e rd rs1 rs2) s e rd (w64 (a.toNat * b.toNat / 2 ^ 64)) ∧
    WritesX (.mulhiS e rd rs1 rs2) s e rd (BitVec.ofInt 64 (a.toInt * b.toInt / 2 ^ 64)) ∧
    WritesX (.lts e rd rs1 rs2) s e rd (if a.toInt < b.toInt then 1 else 0) ∧
    WritesX (.ltu e rd rs1 rs2) s e rd (if a.toNat < b.toNat then 1 else 0) ∧
    WritesX (.ltsi e rd rs1 imm) s e rd (if a.toInt < imm.toInt then 1 else 0) ∧
    WritesX (.ltui e rd rs1 imm) s e rd (if a.toNat < imm.toNat then 1 else 0) ∧
    WritesX (.min e rd rs1 rs2) s e rd (BitVec.ofInt 64 (min a.toInt b.toInt)) ∧
    WritesX (.max e rd rs1 rs2) s e rd (BitVec.ofInt 64 (max a.toInt b.toInt)) ∧
    WritesX (.minu e rd rs1 rs2) s e rd (w64 (min a.toNat b.toNat)) ∧
    WritesX (.maxu e rd rs1 rs2) s e rd (w64 (max a.toNat b.toNat)) ∧
    WritesX (.csel e rd rs1 rs2) s e rd (if b ≠ 0 then a else xOf s e rd)

/-- 06 R129: a shift takes bits [5:0] of rs2, or the 6-bit immediate; a right shift is the quotient by the power of two, of the unsigned value or of
the signed one; a rotation brings the bits shifted out back at the top. -/
def Sys2Proof.Claims.ShiftsAndRotations : Prop :=
  ∀ (s : State) (e : Fin 144) (k : Nat) (rd rs1 rs2 : BitVec 5) (n : BitVec 6), Issues s e k →
    let a := xOf s e rs1
    let m := (xOf s e rs2).toNat % 64
    WritesX (.shl e rd rs1 rs2) s e rd (w64 (a.toNat * 2 ^ m)) ∧
    WritesX (.shr e rd rs1 rs2) s e rd (w64 (a.toNat / 2 ^ m)) ∧
    WritesX (.sar e rd rs1 rs2) s e rd (BitVec.ofInt 64 (a.toInt / 2 ^ m)) ∧
    WritesX (.ror e rd rs1 rs2) s e rd (w64 (a.toNat / 2 ^ m + a.toNat * 2 ^ (64 - m))) ∧
    WritesX (.shli e rd rs1 n) s e rd (w64 (a.toNat * 2 ^ n.toNat)) ∧
    WritesX (.shri e rd rs1 n) s e rd (w64 (a.toNat / 2 ^ n.toNat)) ∧
    WritesX (.sari e rd rs1 n) s e rd (BitVec.ofInt 64 (a.toInt / 2 ^ n.toNat)) ∧
    WritesX (.rori e rd rs1 n) s e rd (w64 (a.toNat / 2 ^ n.toNat + a.toNat * 2 ^ (64 - n.toNat)))

/-- 06 R129: the instructions that work bit by bit, byte by byte or halfword by halfword: for each, the result is the value r of which every bit,
byte or count is as the tables say. -/
def Sys2Proof.Claims.BitwiseInstructions : Prop :=
  ∀ (s : State) (e : Fin 144) (k : Nat) (rd rs1 rs2 : BitVec 5) (imm : BitVec 16) (hw : BitVec 2), Issues s e k →
    let a := xOf s e rs1
    let b := xOf s e rs2
    let d := xOf s e rd
    (∃ r : W64, WritesX (.andR e rd rs1 rs2) s e rd r ∧ ∀ i < 64, r.getLsbD i = (a.getLsbD i && b.getLsbD i)) ∧
    (∃ r : W64, WritesX (.orR e rd rs1 rs2) s e rd r ∧ ∀ i < 64, r.getLsbD i = (a.getLsbD i || b.getLsbD i)) ∧
    (∃ r : W64, WritesX (.xorR e rd rs1 rs2) s e rd r ∧ ∀ i < 64, r.getLsbD i = (a.getLsbD i ^^ b.getLsbD i)) ∧
    (∃ r : W64, WritesX (.andn e rd rs1 rs2) s e rd r ∧ ∀ i < 64, r.getLsbD i = (a.getLsbD i && !b.getLsbD i)) ∧
    (∃ r : W64, WritesX (.andi e rd rs1 imm) s e rd r ∧ ∀ i < 64, r.getLsbD i = (a.getLsbD i && imm.getLsbD i)) ∧
    (∃ r : W64, WritesX (.ori e rd rs1 imm) s e rd r ∧ ∀ i < 64, r.getLsbD i = (a.getLsbD i || imm.getLsbD i)) ∧
    (∃ r : W64, WritesX (.xori e rd rs1 imm) s e rd r ∧ ∀ i < 64, r.getLsbD i = (a.getLsbD i ^^ imm.getLsbD i)) ∧
    (∃ n ≤ 64, WritesX (.clz e rd rs1) s e rd (w64 n) ∧ a.toNat < 2 ^ (64 - n) ∧ (n < 64 → 2 ^ (63 - n) ≤ a.toNat)) ∧
    (∃ n ≤ 64, WritesX (.ctz e rd rs1) s e rd (w64 n) ∧ 2 ^ n ∣ a.toNat ∧ (n < 64 → ¬ 2 ^ (n + 1) ∣ a.toNat)) ∧
    WritesX (.popc e rd rs1) s e rd (w64 ((List.range 64).countP (fun i => a.getLsbD i))) ∧
    (∃ r : W64, WritesX (.brev e rd rs1) s e rd r ∧ ∀ i < 8, r.extractLsb' (8 * i) 8 = a.extractLsb' (8 * (7 - i)) 8) ∧
    WritesX (.zxW e rd rs1) s e rd (w64 (a.toNat % 2 ^ 32)) ∧
    WritesX (.zxH e rd rs1) s e rd (w64 (a.toNat % 2 ^ 16)) ∧
    WritesX (.zxB e rd rs1) s e rd (w64 (a.toNat % 2 ^ 8)) ∧
    WritesX (.sxW e rd rs1) s e rd (BitVec.ofInt 64 (BitVec.ofNat 32 a.toNat).toInt) ∧
    WritesX (.hset e rd imm hw) s e rd (w64 (imm.toNat * 2 ^ (16 * hw.toNat))) ∧
    (∃ r : W64, WritesX (.hins e rd imm hw) s e rd r ∧
      ∀ i < 64, r.getLsbD i = if i / 16 = hw.toNat then imm.getLsbD (i % 16) else d.getLsbD i)

/-- 06 R129 and Table 6.4, the last sentences: a format-A word of an instruction that takes no rs2 stands for none when that field is not zero; nor does a word of MAJOR 0x08 with imm[15:8] not zero. -/
def Sys2Proof.Claims.UnusedRegisterFields : Prop :=
  ∀ (e : Fin 144) (rd rs1 rs2 : BitVec 5) (arg : BitVec 7) (imm : BitVec 16), rs2 ≠ 0 →
    (∀ f ∈ ([0x011, 0x012, 0x013, 0x014, 0x015, 0x016, 0x017, 0x018] : List (BitVec 11)), furrowDecode e (wordA 0x01 rd rs1 rs2 f) = none) ∧
    (∀ f ∈ ([0x000, 0x001, 0x002, 0x003] : List (BitVec 11)), furrowDecode e (wordA 0x14 rd rs1 rs2 f) = none) ∧
    (∀ f ∈ ([0x2, 0x4, 0x5, 0x7, 0x8, 0x9, 0xA] : List (BitVec 4)), furrowDecode e (wordA 0x22 rd rs1 rs2 (arg ++ f)) = none) ∧
    (imm.toNat / 256 ≠ 0 → furrowDecode e (wordI 0x08 rd rs1 imm) = none) ∧
    furrowDecode e (wordA 0x01 rd rs1 0 0x011) = some (.clz e rd rs1) ∧ furrowDecode e (wordA 0x01 rd rs1 0 0x018) = some (.zxB e rd rs1)

/-- IntegerArithmetic and ShiftsAndRotations and BitwiseInstructions and UnusedRegisterFields, together. -/
def Obligations.IntegerInstructions : Prop := IntegerArithmetic ∧ ShiftsAndRotations ∧ BitwiseInstructions ∧ UnusedRegisterFields


/-- 06 R131, R132, R128: a load takes the bytes at rs1 + off13, modulo 2^64, lowest first, extended by sign (W 0 to 3) or by zeros (W 4 to 6), and writes
only rt; a store writes the low bytes of rt there; every other byte of operand memory reads as before. -/
def Sys2Proof.Claims.OperandMemoryAccess : Prop :=
  ∀ (s : State) (e : Fin 144) (k : Nat) (rt rs1 : BitVec 5) (w : BitVec 3) (off : BitVec 13), Issues s e k →
    let a := (xOf s e rs1 + off.signExtend 64).toNat
    let n := 2 ^ (w.toNat % 4)
    let t := (s.dev.eng e).arch
    let v := ofBytes (readBytes t.opm a n)
    a % n = 0 → a < 0x40000 → Ready s e a n →
    (w.toNat < 4 → WritesX (.ld e rt rs1 w off) s e rt (BitVec.ofInt 64 (BitVec.ofNat (8 * n) v).toInt)) ∧
    (4 ≤ w.toNat → w.toNat < 7 → WritesX (.ld e rt rs1 w off) s e rt (w64 v)) ∧
    (w.toNat < 4 → Does (.st e rt rs1 w off) s (fun d =>
      let u := (d.eng e).arch
      readBytes u.opm a n = (List.range n).map (fun i => (xOf s e rt).extractLsb' (8 * i) 8) ∧
      (∀ b, b < a ∨ a + n ≤ b → readBytes u.opm b 1 = readBytes t.opm b 1) ∧
      u.x = t.x ∧ u.pc = t.pc + 4 ∧ u.v = t.v ∧ u.p = t.p ∧ u.m = t.m ∧ u.keys = t.keys ∧ u.jobs = t.jobs ∧ d.rsv = s.dev.rsv ∧
      d.cmds = s.dev.cmds ∧ d.lats = s.dev.lats))

/-- 06 R131, R132, R146, R147: where ld and st trap: OPM_ALIGN for an address that is no multiple of the width, before OPM_RANGE for one at or above
0x4_0000; where the bytes are still awaited they wait. -/
def Sys2Proof.Claims.OperandMemoryTraps : Prop :=
  ∀ (s : State) (e : Fin 144) (k : Nat) (rt rs1 : BitVec 5) (w : BitVec 3) (off : BitVec 13), Issues s e k →
    let a := (xOf s e rs1 + off.signExtend 64).toNat
    let n := 2 ^ (w.toNat % 4)
    (w.toNat < 7 → a % n ≠ 0 → Traps (.ld e rt rs1 w off) s e k 0x03 a) ∧
    (w.toNat < 7 → a % n = 0 → 0x40000 ≤ a → Traps (.ld e rt rs1 w off) s e k 0x04 a) ∧
    (w.toNat < 7 → a % n = 0 → a < 0x40000 → ¬ Ready s e a n → Waits (.ld e rt rs1 w off) s e 0) ∧
    (w.toNat < 4 → a % n ≠ 0 → Traps (.st e rt rs1 w off) s e k 0x03 a) ∧
    (w.toNat < 4 → a % n = 0 → 0x40000 ≤ a → Traps (.st e rt rs1 w off) s e k 0x04 a) ∧
    (w.toNat < 4 → a % n = 0 → a < 0x40000 → ¬ Ready s e a n → Waits (.st e rt rs1 w off) s e 0)

/-- OperandMemoryAccess and OperandMemoryTraps, together. -/
def Obligations.OperandMemory : Prop := OperandMemoryAccess ∧ OperandMemoryTraps


/-- 06 R133, R134: rld is issued when its ranges hold, fewer than 16 are outstanding, nothing awaited overlaps and the Lateral's Headgate permits it: it
joins the outstanding reads. rst puts the bytes into the Lateral's store buffer, into a new line of the command where they lie in one line that it does
not hold. rst.u writes the Reservoir at once. rwait and sync retire when nothing that they wait for is left, else they wait. -/
def Sys2Proof.Claims.ReservoirTransfers : Prop :=
  ∀ (s : State) (e : Fin 144) (k : Nat) (ro rr : BitVec 5) (lenm1 : BitVec 8), Issues s e k →
    let t := (s.dev.eng e).arch
    let a := (xOf s e ro).toNat
    let p := (xOf s e rr).toNat
    let n := lenm1.toNat + 1
    let l := e.val / 9
    (a + n ≤ 0x40000 → p < 2 ^ 34 → p % 256 + n ≤ 256 → Ready s e a n →
      (t.rlds.length < 16 → s.dev.linesOver l k p n = false → (rsvAccess s.dev l (s.dev.cmdOr k) 0 [(p, n)]).1 = .permit →
        Retires (.rld e ro rr lenm1) s e { t with rlds := t.rlds ++ [{ rsv := p, opm := a, len := n }] }) ∧
      (p % 64 + n ≤ 64 → (s.dev.lat l).sb.all (fun x => !(x.line == p / 64 && x.slot == k)) = true → (s.dev.lat l).sb.length < 64 →
        Does (.rst e ro rr lenm1) s (fun d =>
          (d.lat l).sb = (s.dev.lat l).sb ++ [{ line := p / 64, slot := k, eng := e, bytes := (readBytes t.opm a n).zipIdx.map (fun y => (p % 64 + y.2, y.1)) }] ∧
          (d.eng e).arch = { t with pc := t.pc + 4, paused := 0 } ∧ d.rsv = s.dev.rsv ∧ d.cmds = s.dev.cmds)) ∧
      ((rsvAccess s.dev l (s.dev.cmdOr k) 1 [(p, n)]).1 = .permit →
        Does (.rstU e ro rr lenm1) s (fun d =>
          readBytes d.rsv.mem p n = readBytes t.opm a n ∧ (∀ b, b < p ∨ p + n ≤ b → readBytes d.rsv.mem b 1 = readBytes s.dev.rsv.mem b 1) ∧
          (d.eng e).arch = { t with pc := t.pc + 4, paused := 0 } ∧ d.lats = s.dev.lats ∧ d.cmds = s.dev.cmds))) ∧
    (t.rlds = [] → Retires (.rwait e) s e t) ∧
    (t.rlds ≠ [] → Waits (.rwait e) s e 0) ∧
    (t.rlds = [] → t.lists = [] → s.dev.linesDrained l k = true → Retires (.sync e) s e t) ∧
    (¬ (t.rlds = [] ∧ t.lists = [] ∧ s.dev.linesDrained l k = true) → Waits (.sync e) s e 0)

/-- 06 R133, R147: where rld, rst and rst.u trap: OPM_RANGE for operand memory before RSV_RANGE for the Reservoir; a seventeenth rld waits. -/
def Sys2Proof.Claims.ReservoirTransferTraps : Prop :=
  ∀ (s : State) (e : Fin 144) (k : Nat) (ro rr : BitVec 5) (lenm1 : BitVec 8), Issues s e k →
    let a := (xOf s e ro).toNat
    let p := (xOf s e rr).toNat
    let n := lenm1.toNat + 1
    ∀ i ∈ [Instr.rld e ro rr lenm1, Instr.rst e ro rr lenm1, Instr.rstU e ro rr lenm1],
      (0x40000 < a + n → Traps i s e k 0x04 a) ∧
      (a + n ≤ 0x40000 → 2 ^ 34 ≤ p ∨ 256 < p % 256 + n → Traps i s e k 0x05 p) ∧
      (a + n ≤ 0x40000 → p < 2 ^ 34 → p % 256 + n ≤ 256 → ¬ Ready s e a n → Waits i s e 0)

/-- 06 R135, R136, Table 6.7: a list of one sound descriptor is handed to the DMA unit under the lowest identifier that is not outstanding; a list that
is not aligned to 16 bytes, or whose first descriptor breaks its form, traps with DMA_DESC at that descriptor. dwait waits for its list alone. -/
def Sys2Proof.Claims.DmaLists : Prop :=
  ∀ (s : State) (e : Fin 144) (k : Nat) (rd rs1 : BitVec 5), Issues s e k →
    let t := (s.dev.eng e).arch
    let a := (xOf s e rs1).toNat
    let w0 := ofBytes (readBytes t.opm a 4)
    let w1 := ofBytes (readBytes t.opm (a + 4) 4)
    let w2 := ofBytes (readBytes t.opm (a + 8) 8)
    let sound : Prop := w0 < 2 ^ 18 ∧ w1 < 2 ^ 19 ∧ w2 < 2 ^ 34 ∧ w0 + w1 % 2 ^ 16 + 1 ≤ 0x40000 ∧ w2 + w1 % 2 ^ 16 + 1 ≤ 2 ^ 34
    (t.lists.length < 4 → a % 16 = 0 → a + 16 ≤ 0x40000 → Ready s e a 16 →
      (∀ i < 8, sound → 2 ^ 18 ≤ w1 → (∀ l ∈ t.lists, l.ident ≠ i) → (∀ j < i, ∃ l ∈ t.lists, l.ident = j) →
        Retires (.dma e rd rs1) s e (EngArch.setX { t with lists := t.lists ++ [{ ident := i, descs := [{ opm := w0, len := w1 % 2 ^ 16 + 1, write := w1 / 2 ^ 16 % 2 = 1, unbuf := w1 / 2 ^ 17 % 2 = 1, rsv := w2 }] }] } rd (w64 i))) ∧
      (¬ sound → Traps (.dma e rd rs1) s e k 0x06 a)) ∧
    (t.lists.length < 4 → a % 16 ≠ 0 → Traps (.dma e rd rs1) s e k 0x06 a) ∧
    (4 ≤ t.lists.length → Waits (.dma e rd rs1) s e 0) ∧
    (a < 8 → (∀ l ∈ t.lists, l.ident ≠ a) → Retires (.dwait e rs1) s e t) ∧
    (a < 8 → (∃ l ∈ t.lists, l.ident = a) → Waits (.dwait e rs1) s e 0)

/-- ReservoirTransfers and ReservoirTransferTraps and DmaLists, together. -/
def Obligations.ReservoirInstructions : Prop := ReservoirTransfers ∧ ReservoirTransferTraps ∧ DmaLists


/-- 06 R137, Table 6.8: the branches, by the comparison of two registers, and the jumps, which link; a target that is no multiple of 4 or not below the
text's length traps with IMEM_RANGE, ES_TVAL the target. -/
def Obligations.BranchesAndJumps : Prop :=
  ∀ (s : State) (e : Fin 144) (k : Nat) (rd rs1 rs2 : BitVec 5) (off imm : BitVec 16) (far : BitVec 21), Issues s e k →
    let t := (s.dev.eng e).arch
    let a := xOf s e rs1
    let b := xOf s e rs2
    BranchesWhen (.brEq e rs1 rs2 off) s e k off (a = b) ∧
    BranchesWhen (.brNe e rs1 rs2 off) s e k off (a ≠ b) ∧
    BranchesWhen (.brLt e rs1 rs2 off) s e k off (a.toInt < b.toInt) ∧
    BranchesWhen (.brGe e rs1 rs2 off) s e k off (b.toInt ≤ a.toInt) ∧
    BranchesWhen (.brLtu e rs1 rs2 off) s e k off (a.toNat < b.toNat) ∧
    BranchesWhen (.brGeu e rs1 rs2 off) s e k off (b.toNat ≤ a.toNat) ∧
    (let p := (w64 t.pc + far.signExtend 64 * 4).toNat
     (p % 4 = 0 → p < t.textLen → GoesTo (.jl e rd far) s e p (t.setX rd (w64 (t.pc + 4)))) ∧
     (p % 4 ≠ 0 ∨ t.textLen ≤ p → Traps (.jl e rd far) s e k 0x02 p)) ∧
    (let p := (a + imm.signExtend 64).toNat
     (p % 4 = 0 → p < t.textLen → GoesTo (.jlr e rd rs1 imm) s e p (t.setX rd (w64 (t.pc + 4)))) ∧
     (p % 4 ≠ 0 ∨ t.textLen ≤ p → Traps (.jlr e rd rs1 imm) s e k 0x02 p))

/-- 06 R138 to R140, Tables 6.9 and 6.11: esr reads each engine state register into rd; esw writes ES_VRESUME and
ES_INCONS (between its value and ES_INAVAIL), and ES_EPC, ES_TVEC and ES_VTYPE as the statements beside this one say; a number that names no register, a register that is not writable, or a value that it does not take traps with ES_ACCESS. -/
def Obligations.EngineStateRegisters : Prop :=
  ∀ (s : State) (e : Fin 144) (k : Nat) (rd rs1 : BitVec 5) (n : BitVec 8), Issues s e k →
    let t := (s.dev.eng e).arch
    let v := (xOf s e rs1).toNat
    let table : List (Nat × Nat) := [(0x00, (if t.intrap then 1 else 0) + 2 * (if t.stream then 1 else 0)), (0x01, t.cause), (0x02, t.epc), (0x03, t.tval),
      (0x04, t.tvec), (0x08, t.vl), (0x09, t.vtype), (0x0A, t.vresume), (0x0C, t.shares), (0x10, t.allot), (0x11, t.routine), (0x12, t.param), (0x13, t.arg0),
      (0x14, t.arg1), (0x15, t.arg2), (0x16, t.inlen), (0x17, t.outmax), (0x18, t.keyh), (0x19, t.ctxw), (0x1A, t.inaddr), (0x1B, t.outaddr),
      (0x1C, t.auxaddr), (0x1D, t.outcap), (0x1E, t.inavail), (0x1F, t.incons), (0x20, t.cycles), (0x21, t.leaf), (0x22, t.rlds.length)]
    (∀ x ∈ table, n.toNat = x.1 → WritesX (.esr e rd n) s e rd (w64 x.2)) ∧
    ((∀ x ∈ table, n.toNat ≠ x.1) → Traps (.esr e rd n) s e k 0x07 n.toNat) ∧
    Retires (.esw e 0x0A rs1) s e { t with vresume := v % 4096 } ∧
    (t.incons ≤ v → v ≤ t.inavail → Retires (.esw e 0x1F rs1) s e { t with incons := v }) ∧
    (v < t.incons ∨ t.inavail < v → Traps (.esw e 0x1F rs1) s e k 0x07 0x1F) ∧
    (n.toNat ∉ [0x02, 0x04, 0x09, 0x0A, 0x1F] → Traps (.esw e n rs1) s e k 0x07 n.toNat)

/-- 06 R139: esw writes ES_TVEC or ES_EPC with a multiple of 4 below 2^16 and below TEXT_LEN, zero among them; any other value traps with ES_ACCESS, without any effect before the
trap is taken. With ES_TVEC 0 no trap finds a handler: whatever its cause, the command ends with ROUTINE_TRAP. -/
def Obligations.TrapVectorWrites : Prop :=
  ∀ (s : State) (e : Fin 144) (k : Nat) (rs1 : BitVec 5), Issues s e k →
    let t := (s.dev.eng e).arch
    let v := (xOf s e rs1).toNat
    let bad : Prop := v % 2 ^ 2 ≠ 0 ∨ v / 2 ^ 16 ≠ 0 ∨ ¬ v < t.textLen
    (bad → Traps (.esw e 0x02 rs1) s e k 0x07 0x02 ∧ Traps (.esw e 0x04 rs1) s e k 0x07 0x04) ∧
    (¬ bad → Retires (.esw e 0x02 rs1) s e { t with epc := v } ∧ Retires (.esw e 0x04 rs1) s e { t with tvec := v }) ∧
    (t.tvec = 0 → ∀ c x, c ≠ 0x09 →
      takeTrap e k c x s.dev = endRoutine k 0x49 ((t.pc / 4 % 2 ^ 16) * 2 ^ 16 + (if t.intrap then 0x0A else c)) 0 s.dev) ∧
    (∀ x, takeTrap e k 0x09 x s.dev = (endRoutine k 0x49 ((t.pc / 4 % 2 ^ 16) * 2 ^ 16 + 0x09) 0 s.dev).bump 0x000F_800C)

/-- 06 R146, Table 6.14: how a trap is taken: outside a handler, with a cause that a routine may handle and a handler set, ES_EPC, ES_CAUSE and ES_TVAL
take the pc, the cause and the value, INTRAP sets and the pc goes to ES_TVEC, and nothing else changes; otherwise the command ends with ROUTINE_TRAP, its
DETAIL the instruction's index and the cause, or DOUBLE inside a handler. brk raises BREAK with its code; tret returns to ES_EPC, and a preemption requested while the
handler ran begins then, where the allotment has a free save slot (05 R122). -/
def Obligations.TrapsAndReturn : Prop :=
  ∀ (s : State) (e : Fin 144) (k : Nat) (code : BitVec 7), Issues s e k →
    let t := (s.dev.eng e).arch
    (∀ c ∈ [0x03, 0x04, 0x08, 0x11, 0x12], ∀ v, t.intrap = false → t.tvec ≠ 0 →
      takeTrap e k c v s.dev = s.dev.updArch e (fun t => { t with epc := t.pc, cause := c, tval := v, intrap := true, pc := t.tvec })) ∧
    (∀ c v, c ≠ 0x09 → t.intrap = true → takeTrap e k c v s.dev = endRoutine k 0x49 ((t.pc / 4 % 2 ^ 16) * 2 ^ 16 + 0x0A) 0 s.dev) ∧
    (∀ c v, c ≠ 0x09 → t.intrap = false → c ∉ [0x03, 0x04, 0x08, 0x11, 0x12] ∨ t.tvec = 0 →
      takeTrap e k c v s.dev = endRoutine k 0x49 ((t.pc / 4 % 2 ^ 16) * 2 ^ 16 + c) 0 s.dev) ∧
    (t.intrap = false → t.tvec ≠ 0 →
      Gives (.brk e code) s (s.dev.updArch e (fun t => { t with epc := t.pc, cause := 0x08, tval := code.toNat, intrap := true, pc := t.tvec }))) ∧
    (t.intrap = true → (s.dev.eng e).preemptDue = false → GoesTo (.tret e) s e t.epc { t with intrap := false }) ∧
    (t.intrap = true → (s.dev.eng e).preemptDue = true → s.dev.saveSlotsUsed (s.dev.cmdOr k).allot < 28 →
      Gives (.tret e) s (beginSave e (s.dev.updArch e (fun _ => { t with intrap := false, pc := t.epc, paused := 0 })))) ∧
    (t.intrap = false → (s.dev.eng e).preemptDue = false → Traps (.tret e) s e k 0x01 0)

/-- 06 R141, 13 R273: keyreq of a key that no lease serves sends one KEY_REQUEST, of the handle, the required usage (an owner routine's own) and the
routine's masking order, and the command notes it under the lowest free identifier, which rd receives; a key that a lease of the engine serves is written at rs2 at once, without a message
on the Flume; a fifth request traps with SERVICE. keywait of
a delivered key gives the bytes delivered, and ES_LEAF the leaf of a stateful key; of one that waits it waits; of a refused one it ends the command
with the refusal's status. -/
def Obligations.KeyServices : Prop :=
  ∀ (s : State) (e : Fin 144) (k : Nat) (rd rs1 rs2 : BitVec 5) (u : BitVec 4), Issues s e k →
    let t := (s.dev.eng e).arch
    let h := (xOf s e rs1).toNat % 2 ^ 32
    let c := s.dev.cmdOr k
    let use := c.keyUsage h u.toNat
    let dest := (xOf s e rs2).toNat
    (isSrl c.attr.routine = false → use = u.toNat) ∧
    (t.readsDone = true → s.dev.keyTurn c h = true →
      ∀ i < 4, (∀ r ∈ t.keys, r.ident ≠ i) → (∀ j < i, ∃ r ∈ t.keys, r.ident = j) → t.keys.length < 4 →
        (c.keyOp h ≠ 0 ∨ c.signsStateful = true ∨ s.dev.heldKey e t c h use = none → ∀ q < 4, s.dev.requestBusy e q = false → (∀ j < q, s.dev.requestBusy e j = true) →
          Does (.keyreq e rd rs1 rs2 u) s (fun d =>
            (∃ r : KeyReq, d.fl.toCustody = s.dev.fl.toCustody ++ [s.dev.flight s.dev.fl.seqCustody (.keyRequest (c.keyOp h) r)] ∧
              r.handle = h ∧ r.usage = use ∧ r.order = t.shares ∧ r.request = q ∧ r.eng = e ∧ r.allot = c.allot ∧ r.slot = k) ∧
            (d.eng e).arch = { EngArch.setX { t with keys := t.keys ++ [{ ident := i, eng := e, request := q, handle := h, usage := use, dest := dest }] } rd (w64 i) with pc := t.pc + 4, paused := 0 } ∧
            d.rsv = s.dev.rsv ∧ d.lats = s.dev.lats)) ∧
        (∀ l, c.keyOp h = 0 → c.signsStateful = false → s.dev.heldKey e t c h use = some l → l.stale = false → dest + l.bytes.length + l.attr.length ≤ 0x3FC00 →
          Does (.keyreq e rd rs1 rs2 u) s (fun d =>
            readBytes (d.eng e).arch.opm dest l.bytes.length = l.bytes ∧ (∀ b, b < dest ∨ dest + l.bytes.length + l.attr.length ≤ b → readBytes (d.eng e).arch.opm b 1 = readBytes t.opm b 1) ∧
            (rd ≠ 0 → (d.eng e).arch.getX rd = w64 i) ∧ (∀ r, r ≠ rd → (d.eng e).arch.getX r = t.getX r) ∧ (d.eng e).arch.pc = t.pc + 4 ∧
            d.fl = s.dev.fl ∧ d.rsv = s.dev.rsv ∧ d.lats = s.dev.lats ∧ d.cmds = s.dev.cmds))) ∧
    (4 ≤ t.keys.length → Traps (.keyreq e rd rs1 rs2 u) s e k 0x0C 1) ∧
    (∀ r, firstWhere (fun (x : KeyReqOut) => x.ident == (xOf s e rs1).toNat) t.keys = some r →
      (∀ n leaf, r.outcome = .delivered n leaf → c.refusesKey t r n = false →
        Retires (.keywait e rd rs1) s e (EngArch.setX { t with keys := t.keys.filter (fun x => x.ident ≠ r.ident), leaf := leaf.getD t.leaf } rd (w64 n))) ∧
      (∀ n leaf, r.outcome = .delivered n leaf → c.refusesKey t r n = true → Gives (.keywait e rd rs1) s (endRoutine k 0x28 5 0 s.dev)) ∧
      (r.outcome = .waiting → r.fromLease = none → Waits (.keywait e rd rs1) s e 1) ∧
      (∀ st det, r.outcome = .refused st det → Gives (.keywait e rd rs1) s (endRoutine k st det 0 s.dev)) ∧
      (r.outcome = .discarded → Traps (.keywait e rd rs1) s e k 0x0C 2)) ∧
    ((∀ r ∈ t.keys, r.ident ≠ (xOf s e rs1).toNat) → Traps (.keywait e rd rs1) s e k 0x0C 2)

/-- 06 R142, R143: ent, in a routine with fresh randomness, for 1 to 256 bytes that fit operand memory: it asks the Wellhead once, in class 3 for family 0x0E
and class 1 for the others, and waits; once the bytes are there it writes them at rs1, and rd takes their number. inwait waits until ES_INAVAIL reaches the
smaller of rs1 and IN_LEN. -/
def Sys2Proof.Claims.RandomBytesAndInput : Prop :=
  ∀ (s : State) (e : Fin 144) (k : Nat) (rd rs1 rs2 : BitVec 5) (reseed : Bool), Issues s e k →
    let t := (s.dev.eng e).arch
    let a := (xOf s e rs1).toNat
    let n := (xOf s e rs2).toNat
    (t.needsRandom = true → 1 ≤ n → n ≤ 256 → a + n ≤ 0x40000 → Ready s e a n →
      (t.entBytes.length = n → Does (.ent e rd rs1 rs2 reseed) s (fun d =>
        readBytes (d.eng e).arch.opm a n = t.entBytes ∧ (∀ b, b < a ∨ a + n ≤ b → readBytes (d.eng e).arch.opm b 1 = readBytes t.opm b 1) ∧
        (rd ≠ 0 → (d.eng e).arch.getX rd = w64 n) ∧ (∀ r, r ≠ rd → (d.eng e).arch.getX r = t.getX r) ∧
        (d.eng e).arch.entWait = none ∧ (d.eng e).arch.entBytes = [] ∧ (d.eng e).arch.pc = t.pc + 4 ∧ d.fl = s.dev.fl ∧ d.rsv = s.dev.rsv)) ∧
      (t.entBytes.length ≠ n → t.entAsked.isSome = true → Waits (.ent e rd rs1 rs2 reseed) s e 1) ∧
      (t.entBytes.length ≠ n → t.entAsked = none → Does (.ent e rd rs1 rs2 reseed) s (fun d =>
        let cls := if t.routine / 256 = 0x0E then 3 else 1
        d.fl.toCustody = s.dev.fl.toCustody ++ [s.dev.flight s.dev.fl.seqCustody (.entropyRequest e cls n reseed)] ∧
        (d.eng e).arch = { t with entAsked := some (cls, n), entBytes := [], entWait := some (t.entWait.getD s.dev.time), paused := 1 }))) ∧
    (t.needsRandom = false ∨ n = 0 ∨ 256 < n → Traps (.ent e rd rs1 rs2 reseed) s e k 0x0C 3) ∧
    (min a t.inlen ≤ t.inavail → Retires (.inwait e rs1) s e t) ∧
    (t.inavail < min a t.inlen → Waits (.inwait e rs1) s e 0)

/-- 06 R144, R145, Table 6.13: what end of an owner routine comes to: an OK within OUT_MAX and ES_OUTCAP stages its output length, its DETAIL and the context window that the
routine wrote; an output above OUT_MAX, or STATUS OUTPUT_TOO_SMALL, ends the command with OUTPUT_TOO_SMALL and the size required; VERIFY_FALSE, MISMATCH and
REFUSED_INPUT end it with OUT_LEN 0. Of any routine anything else traps with END_STATUS. scfail raises the Contained fault of the engine for replay. -/
def Sys2Proof.Claims.RoutineEnds : Prop :=
  ∀ (s : State) (e : Fin 144) (k : Nat) (rs1 rs2 : BitVec 5) (st : BitVec 7), Issues s e k →
    let t := (s.dev.eng e).arch
    let n := (xOf s e rs1).toNat
    let det := (xOf s e rs2).toNat % 2 ^ 32
    (isSrl t.routine = false → n ≤ t.outcap → det / 2 ^ 16 ≠ 0xFFFF →
      (st = 0 → n ≤ t.outmax → Gives (.endR e rs1 rs2 st) s
        (endRoutine k 0 det n (s.dev.updCmd k (fun c => { c with staged := some { outLen := n, detail := det, window := t.window } })))) ∧
      (st = 0 → t.outmax < n → Gives (.endR e rs1 rs2 st) s (endRoutine k 0x13 0 n s.dev)) ∧
      (st = 0x13 → Gives (.endR e rs1 rs2 st) s (endRoutine k 0x13 0 n s.dev)) ∧
      (st ∈ [0x02, 0x03, 0x10] → Gives (.endR e rs1 rs2 st) s (endRoutine k st.toNat det 0 s.dev))) ∧
    (st ∉ [0x00, 0x02, 0x03, 0x10, 0x13] ∨ det / 2 ^ 16 = 0xFFFF ∨ t.outcap < n → Traps (.endR e rs1 rs2 st) s e k 0x0B st.toNat) ∧
    Does (.scfail e) s (fun d =>
      d.fl.toCustody = s.dev.fl.toCustody ++ [s.dev.flight s.dev.fl.seqCustody (.faultReport { source := 0x1F, unit := e, slot := some k, time := s.dev.fl.computeTime })] ∧
      (d.eng e).arch = { t with faulted := true } ∧ d.cmds = s.dev.cmds ∧ d.rsv = s.dev.rsv ∧ d.issuer e = none)

/-- 03 R75, Tables 3.19, 3.20; 09 R195: how a routine of the library ends, when its end is issued with a status that end takes (assumption 152): with REFUSED_INPUT where its arguments
or AUX_ADDR are not as Tables 3.10 to 3.14 say; not before its keys and its input are there; then with the status, DETAIL and output that the routine comes to, the output staged at OUT_ADDR's place. -/
def Sys2Proof.Claims.LibraryRoutineEnds : Prop :=
  ∀ (s : State) (e : Fin 144) (k : Nat) (rs1 rs2 : BitVec 5) (st : BitVec 7), Issues s e k →
    let t := (s.dev.eng e).arch
    let c := s.dev.cmdOr k
    let n := (xOf s e rs1).toNat
    let det := (xOf s e rs2).toNat % 2 ^ 32
    isSrl t.routine = true → st ∈ [0x00, 0x02, 0x03, 0x10, 0x13] → n ≤ t.outcap → det / 2 ^ 16 ≠ 0xFFFF →
      (∀ r, c.earlyRefusal = some r → Gives (.endR e rs1 rs2 st) s (endRoutine k 0x10 r 0 s.dev)) ∧
      (c.earlyRefusal = none → s.dev.srlIn c t = none → Waits (.endR e rs1 rs2 st) s e 0) ∧
      (∀ i, c.earlyRefusal = none → s.dev.srlIn c t = some i → Does (.endR e rs1 rs2 st) s (fun d =>
        let r := srlEnd i
        (s.dev.cmd k = some c → Holding d k (fun x => x.phase = .draining ∧ x.status = r.st ∧ (c.attr.routine / 256 ≠ 0x0C → x.detail = r.det) ∧
          x.outLen = (if r.st = 0 ∨ r.st = 0x13 then r.out.length else 0))) ∧
        (r.st = 0 → r.made = none → readBytes d.rsv.mem c.outAt r.out.length = r.out) ∧
        (r.st ≠ 0 → d.rsv = s.dev.rsv)))

/-- 03 R85; 09 R200, R210, R211: a decapsulation never refuses: whatever the ciphertext, it comes to OK with DETAIL 0. 09 R220: decryption gives back what encryption under the same key, nonce
and associated data gave, and any other tag is a MISMATCH; AES-CTR is its own inverse. 09 R221, 11 R245: a digest that
differs from the one expected is a MISMATCH. 09 R218: X25519 takes u without its top bit, modulo p; an agreement that comes to zero is refused with DETAIL 3. -/
def Sys2Proof.Claims.LibraryResults : Prop :=
  (∀ i : SrlIn, eRoutine i.e ∈ [0x0103, 0x0105, 0x0603, 0x0703] → (srlResult i).st = 0 ∧ (srlResult i).det = 0) ∧
  (∀ key iv aad m tag : List Byte,
    gcmOpen key iv aad (gcmSeal key iv aad m) = some m ∧ chachaOpen key iv aad (chachaSeal key iv aad m) = some m ∧
    (tag.length = 16 → tag ≠ (gcmSeal key iv aad m).drop m.length → gcmOpen key iv aad ((gcmSeal key iv aad m).take m.length ++ tag) = none) ∧
    (tag.length = 16 → tag ≠ (chachaSeal key iv aad m).drop m.length → chachaOpen key iv aad ((chachaSeal key iv aad m).take m.length ++ tag) = none)) ∧
  (∀ i j : SrlIn, eRoutine i.e = 0x0A02 → eRoutine j.e = 0x0A03 → i.p = j.p → i.key = j.key → i.aux = j.aux → i.arg 1 = j.arg 1 →
    (i.p = 2 → j.input = (srlResult i).out → srlResult j = { out := i.input }) ∧
    (i.p = 1 ∨ i.p = 6 → eAux i.e ≠ 0 → i.arg 1 ≤ i.input.length → j.input = i.input.take (i.arg 1) ++ (srlResult i).out →
      srlResult j = { out := i.input.drop (i.arg 1) })) ∧
  (∀ i : SrlIn, eRoutine i.e = 0x0B05 → (srlResult i).st = if digestOf i.p false i.input i.macLen = i.aux then 0 else 0x03) ∧
  (∀ u v scalar : List Byte, ofBytes u % 2 ^ 255 % curveX25519.p = ofBytes v % 2 ^ 255 % curveX25519.p → curveX25519.run scalar u = curveX25519.run scalar v) ∧
  (∀ i : SrlIn, eRoutine i.e = 0x0904 → i.p = 4 →
    let z := curveX25519.run i.key.material i.input
    (ofBytes z = 0 → srlResult i = { st := 0x10, det := 3 }) ∧ (ofBytes z ≠ 0 → toContext i.e = false → (srlResult i).out = z ∧ (srlResult i).st = 0))

/-- 06 R145: when a routine has ended its command waits for the drain of its stores with the status, DETAIL and OUT_LEN that it was given, only an OK
keeps what it staged, no LIU and no digest job stays with it; commands of other slots stay as they are. -/
def Sys2Proof.Claims.EndedRoutineDrains : Prop :=
  ∀ (d : Device) (k st det ol : Nat) (c : Cmd), d.cmd k = some c →
    (∃ c', (endRoutine k st det ol d).cmd k = some c' ∧ c'.phase = .draining ∧ c'.status = st ∧ c'.detail = det ∧ c'.outLen = ol ∧
      c'.staged = (if st = 0 then c.staged else none) ∧ c'.entry = c.entry ∧ c'.allot = c.allot ∧ c'.leaf = c.leaf ∧ c'.streams = []) ∧
    (∀ j, j ≠ k → (endRoutine k st det ol d).cmd j = d.cmd j) ∧
    (∀ u < 32, ((endRoutine k st det ol d).liu u).bound ≠ some k) ∧
    k ∉ (endRoutine k st det ol d).liuWait

/-- RoutineEnds, LibraryRoutineEnds, LibraryResults and EndedRoutineDrains, together. -/
def Obligations.EndOfARoutine : Prop := RoutineEnds ∧ LibraryRoutineEnds ∧ LibraryResults ∧ EndedRoutineDrains


/-- 06 R141, R142; 10 R224, R226; 11 R238: a job is taken under the lowest identifier that is not outstanding, which rd receives: by the LIU that the command
holds, or the one that it now binds, or by the digest queue; a ninth job traps with SERVICE. jwait gives the status word of a job that has ended, waits
for one that has not, and traps with SERVICE for none. -/
def Sys2Proof.Claims.JobServices : Prop :=
  ∀ (s : State) (e : Fin 144) (k : Nat) (rd rs1 : BitVec 5), Issues s e k →
    let t := (s.dev.eng e).arch
    let p := (xOf s e rs1).toNat
    (t.readsDone = true → t.jobs.length < 8 → ∀ i < 8, (∀ o ∈ t.jobs, o.ident ≠ i) → (∀ j < i, ∃ o ∈ t.jobs, o.ident = j) →
      ((∀ r ∈ liuReads p (liuJobAt t p i), Ready s e r.1 r.2) → s.dev.liuOf k = none → s.dev.liuWait = [] → ∀ u, s.dev.liuFor (latOf e) = some u →
        Does (.jobLiu e rd rs1) s (fun d =>
          (d.liu u).bound = some k ∧ (d.liu u).eng = (s.dev.cmdOr k).engine.getD 0 ∧
          (d.liu u).queue = (s.dev.liu u).queue ++ [if (s.dev.liu u).failed.isSome then { liuJobAt t p i with outcome := some (4, 0, 0) } else liuJobAt t p i] ∧
          (d.eng e).arch = { EngArch.setX { t with jobs := t.jobs ++ [{ ident := i, unit := 0, writes := liuWrites (liuJobAt t p i) }] } rd (w64 i) with pc := t.pc + 4, paused := 0 } ∧
          d.cmds = s.dev.cmds ∧ d.rsv = s.dev.rsv)) ∧
      ((∀ r ∈ digReads p (digJobAt t p k e i), Ready s e r.1 r.2) → (∀ o ∈ t.jobs, o.word = none) →
        Does (.jobDigest e rd rs1) s (fun d =>
          d.digArrive = s.dev.digArrive ++ [{ digJobAt t p k e i with skip := false }] ∧
          (d.eng e).arch = { EngArch.setX { t with jobs := t.jobs ++ [{ ident := i, unit := 1, writes := digWrites (digJobAt t p k e i) }] } rd (w64 i) with pc := t.pc + 4, paused := 0 } ∧
          d.cmds = s.dev.cmds ∧ d.rsv = s.dev.rsv))) ∧
    (8 ≤ t.jobs.length → Traps (.jobLiu e rd rs1) s e k 0x0C 4 ∧ Traps (.jobDigest e rd rs1) s e k 0x0C 4) ∧
    (∀ o, firstWhere (fun (x : JobOut) => x.ident == p) t.jobs = some o → o.ends = none →
      (∀ w, o.word = some w → Does (.jwait e rd rs1) s (fun d =>
        (d.eng e).arch = { EngArch.setX { t with jobs := t.jobs.filter (fun x => x.ident ≠ o.ident) } rd (w64 w) with pc := t.pc + 4, paused := 0 } ∧
        d.cmds = s.dev.cmds ∧ d.rsv = s.dev.rsv)) ∧
      (o.word = none → Waits (.jwait e rd rs1) s e 0)) ∧
    ((∀ o ∈ t.jobs, o.ident ≠ p) → Traps (.jwait e rd rs1) s e k 0x0C 5)

/-- RandomBytesAndInput and JobServices, together. -/
def Obligations.RandomInputAndJobs : Prop := RandomBytesAndInput ∧ JobServices


/-! ## Long-integer units (10) and bulk digest engines (11) -/

/-- 10 R231, R232, Tables 10.3 and 10.5: the modular operations of an LIU on operands below its modulus m: sum, difference, product, square, inverse and power, each
the residue below m, in DST; where an operand is not below m, an operand of INV or EXP is 0 or 1, an exponent is 0 or 1, or no inverse exists, the command refuses with its reason. -/
def Obligations.ModularArithmeticOfTheLiu : Prop :=
  ∀ (s : State) (u : Fin 32) (j : LiuJob) (c : LiuCmd),
    let m := (s.dev.liu u).modulus
    let a := ((s.dev.liu u).slot c.src1).val.toNat
    let b := ((s.dev.liu u).slot c.src2).val.toNat
    let e := b % 2 ^ c.len
    0 < m → m < 2 ^ 8192 →
    (LiuRuns s u 0x06 j c → a < m → b < m → LiuPuts (.liuAdd u) s u j c ((a + b) % m) true) ∧
    (LiuRuns s u 0x07 j c → a < m → b < m → LiuPuts (.liuSub u) s u j c ((a + (m - b)) % m) true) ∧
    (LiuRuns s u 0x08 j c → a < m → b < m → LiuPuts (.liuMul u) s u j c (a * b % m) true) ∧
    (LiuRuns s u 0x09 j c → a < m → LiuPuts (.liuSqr u) s u j c (a * a % m) true) ∧
    (LiuRuns s u 0x0A j c → 1 < a → a < m → Nat.Coprime a m → ∃ v < m, v * a % m = 1 ∧ LiuPuts (.liuInv u) s u j c v true) ∧
    (LiuRuns s u 0x0B j c → 1 < a → a < m → 1 < e → LiuPuts (.liuExp u) s u j c (a ^ e % m) true) ∧
    (LiuRuns s u 0x06 j c → m ≤ a ∨ m ≤ b → LiuRefuses (.liuAdd u) s u j c 2) ∧
    (LiuRuns s u 0x08 j c → m ≤ a ∨ m ≤ b → LiuRefuses (.liuMul u) s u j c 2) ∧
    (LiuRuns s u 0x0A j c → a ≤ 1 → a < m → LiuRefuses (.liuInv u) s u j c 3) ∧
    (LiuRuns s u 0x0A j c → 1 < a → a < m → ¬ Nat.Coprime a m → LiuRefuses (.liuInv u) s u j c 4) ∧
    (LiuRuns s u 0x0B j c → a < m → a ≤ 1 ∨ e ≤ 1 → LiuRefuses (.liuExp u) s u j c 3)

/-- 10 R227, R230: SETMOD takes an odd modulus whose top word is not zero, and brings every slot to plain form; one that is not leaves no modulus and refuses. LOAD gives
DST the number that its bytes spell, ZERO gives it 0, COPY the value and form of the source. STORE writes the low LEN bytes of the value into operand memory of
the command, and only those. -/
def Obligations.LiuModulusAndMoves : Prop :=
  ∀ (s : State) (u : Fin 32) (j : LiuJob) (c : LiuCmd),
    let x := s.dev.liu u
    let m := (x.slot c.src1).val.toNat
    let good : Prop := m % 2 = 1 ∧ 2 ^ (64 * (c.len - 1)) ≤ m ∧ m < 2 ^ (64 * c.len)
    (LiuRuns s u 0x01 j c → c.op = 0x01 → good → Tbl.wf {} x.slots = true → Does (.liuSetmod u) s (fun d =>
      (d.liu u).modulus = m ∧ (d.liu u).n = c.len ∧ (∀ q, (d.liu u).slot q = { val := (x.slot q).val, mont := false }) ∧
      (∃ j', (d.liu u).queue = j' :: x.queue.drop 1 ∧ j'.pos = j.pos + 1 ∧ j'.outcome = none))) ∧
    (LiuRuns s u 0x01 j c → c.op = 0x01 → ¬ good → Tbl.wf {} x.slots = true → Does (.liuSetmod u) s (fun d =>
      (d.liu u).modulus = 0 ∧ (d.liu u).n = 0 ∧ (∀ q, ((d.liu u).slot q).val = (x.slot q).val) ∧
      (∃ j', (d.liu u).queue = j' :: x.queue.drop 1 ∧ j'.outcome = some (1, 1, j.pos)))) ∧
    (LiuRuns s u 0x02 j c → LiuPuts (.liuLoad u) s u j c (ofBytes (if c.be then c.bytes.reverse else c.bytes)) false) ∧
    (LiuRuns s u 0x04 j c → LiuPuts (.liuZero u) s u j c 0 false) ∧
    (LiuRuns s u 0x05 j c → LiuPuts (.liuCopy u) s u j c (x.slot c.src1).val.toNat (x.slot c.src1).mont) ∧
    (∀ (k e : Nat) (cmd : Cmd), LiuRuns s u 0x03 j c → x.bound = some k → s.dev.cmd k = some cmd → cmd.saved = none → cmd.engine = some e →
      Does (.liuStore u) s (fun d =>
        readBytes (d.eng e).arch.opm c.opm c.len = (if c.be then (toBytes c.len (x.slot c.src1).val.toNat).reverse else toBytes c.len (x.slot c.src1).val.toNat) ∧
        (∀ b, b < c.opm ∨ c.opm + c.len ≤ b → readBytes (d.eng e).arch.opm b 1 = readBytes (s.dev.eng e).arch.opm b 1) ∧
        (d.eng e).arch.x = (s.dev.eng e).arch.x ∧ (d.eng e).arch.pc = (s.dev.eng e).arch.pc ∧ (d.liu u).slots = x.slots ∧
        (∃ j', (d.liu u).queue = j' :: x.queue.drop 1 ∧ j'.pos = j.pos + 1 ∧ j'.outcome = none)))

/-- 10 R224, R225, R228, R229, Table 10.4: a waiting request takes the free LIU nearest its Lateral; a job that arrives is checked for form; a job whose words have all run,
or that was refused, gives its command the status word and leaves the queue, a failed one skipping those behind it; RELEASE ends the binding, the slots zeroed. -/
def Obligations.LiuJobsBeginAndEnd : Prop :=
  ∀ (s : State) (u : Fin 32), s.dev.stopped = false →
    let x := s.dev.liu u
    (∀ k rest, s.dev.liuWait = k :: rest → s.dev.liuFor (s.dev.cmdOr k).lateral = some u.val → Does .liuBindGrant s (fun d =>
      (d.liu u).bound = some k ∧ (d.liu u).allot = (s.dev.cmdOr k).allot ∧ (d.liu u).queue = x.queue ∧ d.liuWait = rest.filter (fun y => y ≠ k) ∧
      (∀ w, w ≠ u.val → d.liu w = s.dev.liu w))) ∧
    (∀ j, x.queue = [j] → j.arrived = false → j.outcome = none → Gives (.liuJobArrive u) s
      (s.dev.updLiu u (fun x => { x with queue := [{ j with arrived := true, outcome := j.malformed }] }))) ∧
    (∀ (k e : Nat) (cmd : Cmd) (j : LiuJob) (rest : List LiuJob) (o : JobOut), x.faulted = false → x.bound = some k → x.queue = j :: rest → j.arrived = true → j.release = false →
      j.outcome = none → j.cmds.length ≤ j.pos → s.dev.cmd k = some cmd → cmd.saved = none → cmd.engine = some e →
      (s.dev.eng e).arch.jobs = [o] → o.ident = j.ident → o.unit = 0 →
      Does (.liuJobEnd u) s (fun d =>
        (d.eng e).arch.jobs = [{ o with word := some (u.val * 2 ^ 24 + min j.finish 0xFFFF_FFFF * 2 ^ 32) }] ∧
        (d.liu u).queue = rest ∧ (d.liu u).bound = some k ∧ (d.liu u).slots = x.slots ∧ (d.liu u).modulus = x.modulus)) ∧
    (∀ (k reason index : Nat) (j : LiuJob) (rest : List LiuJob), x.bound = some k → x.queue = j :: rest → j.arrived = true → j.outcome = some (1, reason, index) →
      Does (.liuJobEnd u) s (fun d =>
        (d.liu u).failed = some j.ident ∧ (d.liu u).queue = rest.map (fun y => { y with outcome := some (4, 0, 0) }) ∧ (d.liu u).bound = some k)) ∧
    (∀ (k : Nat) (j : LiuJob), x.faulted = false → x.bound = some k → x.queue = [j] → j.arrived = true → j.release = true → j.outcome = none → j.cmds.length ≤ j.pos →
      x.katDue = false → x.fenceDue = false → NoAdminWaits s.dev →
      Does (.liuJobEnd u) s (fun d => (d.liu u).bound = none ∧ (d.liu u).slots = [] ∧ (d.liu u).modulus = 0 ∧ (d.liu u).queue = []))

/-- 11 R240, R244: a digest job that arrives, neither skipped nor malformed, its segments' length as declared, waits from now on; one with a malformed descriptor gets RESULT
3 and its reason, the first that holds of a header, a segment, a range and a missing stream; one whose length differs will end its command with LENGTH_SHORT or LENGTH_LONG. -/
def Sys2Proof.Claims.DigestJobsArrive : Prop :=
  ∀ (s : State) (j : DigJob) (rest : List DigJob), s.dev.stopped = false → s.dev.digArrive = j :: rest → j.skip = false →
    let n := sumBy (fun x => x.len) j.segs
    let opens : Prop := j.start = true ∨ j.importB = true ∨ ∃ v, s.dev.streamOf j = some v ∧ v.state.alg = j.alg
    let form : Prop := j.badHeader = false ∧ j.badSegment = false ∧ j.badRange = false
    (form → opens → n = j.declLen →
      Does .digestJobArrive s (fun d => d.digWait = s.dev.digWait ++ [{ j with queued := s.dev.time }] ∧ d.digArrive = rest ∧ d.cmds = s.dev.cmds ∧ d.engs = s.dev.engs ∧
        d.digs = s.dev.digs ∧ d.rsv = s.dev.rsv)) ∧
    (form → opens → n ≠ j.declLen →
      Does .digestJobArrive s (fun d => d.digArrive = rest ∧ d.digWait = s.dev.digWait ∧ d.digs = s.dev.digs ∧
        jobsOf d j.slot = withJob (jobsOf s.dev j.slot) j.ident 1 (fun o => { o with ends := some (if n < j.declLen then 0x11 else 0x12, min n 0xFFFFFFFF) }))) ∧
    (∀ r, (r = 1 ∧ j.badHeader = true ∨ r = 2 ∧ j.badHeader = false ∧ j.badSegment = true ∨ r = 3 ∧ j.badHeader = false ∧ j.badSegment = false ∧ j.badRange = true ∨
        r = 4 ∧ form ∧ ¬ opens) → (∀ x ∈ rest ++ s.dev.digWait, x.slot = j.slot → x.ident ≠ j.ident) →
      Does .digestJobArrive s (fun d => (∀ x ∈ d.digWait, x ∈ s.dev.digWait) ∧ (∀ x ∈ d.digArrive, x ∈ rest) ∧ d.digs = s.dev.digs ∧
        ∃ w, w % 256 = 3 ∧ w / 2 ^ 16 % 256 = r ∧ ∀ o ∈ jobsOf s.dev j.slot, o.ident = j.ident → o.unit = 1 → { o with word := some w } ∈ jobsOf d j.slot))

/-- 11 R242, R243, R246: a free digest engine takes, of the jobs that can start, the one that has waited longest. It begins with nothing absorbed, or goes on from its stream's
slot, from the slot that it was preempted to, or from the blob that it imports, and absorbs the bytes of its segments, of operand memory as the job was issued and of the
Reservoir through HG_DIG; streamed input of which nothing has come makes it wait on the engine. -/
def Sys2Proof.Claims.DigestJobsStart : Prop :=
  ∀ (s : State) (u : Fin 8) (j : DigJob) (z : DigState), s.dev.stopped = false → s.dev.digFree u = true →
    j ∈ s.dev.digWait → s.dev.digStartable j = true → (∀ x ∈ s.dev.digWait, s.dev.digStartable x = true → x ≠ j → j.queued < x.queued) →
    let c := s.dev.cmdOr j.slot
    let fresh : Prop := j.save = none ∧ j.importB = false ∧ (j.start = true ∨ s.dev.streamOf j = none) ∧ z = { alg := j.alg, cshake := j.cshake }
    let opened : Prop := j.save = none ∧ j.importB = true ∧ s.dev.importBlob c.allot j.alg j.blob = .inl z
    let kept : Prop := ∃ v, (j.save = some v ∨ j.save = none ∧ j.importB = false ∧ j.start = false ∧ s.dev.streamOf j = some v) ∧ s.dev.accepts j v = true ∧ v.state = z
    fresh ∨ opened ∨ kept →
    let takes (bs : List Byte) : Prop := Does (.digestJobStart u) s (fun d => (d.dig u).st = 1 ∧ (d.dig u).allot = c.allot ∧ d.digWait.length + 1 = s.dev.digWait.length ∧
      (∀ x, (x.slot ≠ j.slot ∨ x.ident ≠ j.ident) → (x ∈ d.digWait ↔ x ∈ s.dev.digWait)) ∧
      ∃ j', (d.dig u).job = some j' ∧ j'.slot = j.slot ∧ j'.ident = j.ident ∧ j'.state = some { z with absorbed := z.absorbed ++ bs })
    ((∀ x ∈ j.segs, (x.kind = 0 ∧ ∀ q < x.len, (checkAll s.dev 81 c.allot 0 false c.window (linePieces (x.addr + q) (x.len - q))).1 = .permit) ∨
        (x.kind = 1 ∧ x.bytes.length = x.len)) →
      takes ((j.segs.flatMap (fun x => if x.kind = 0 then s.dev.rsvRead x.addr x.len else x.bytes)).drop j.donePos)) ∧
    (∀ x more t, j.segs = x :: more → x.kind = 2 → x.len ≠ 0 → j.donePos = 0 → s.dev.archOf j.slot = some t → t.inavail = t.incons → t.inavail < t.inlen → takes [])

/-- 11 R241 to R243, R245, R246, R250: a digest job whose bytes are all absorbed writes its result, or its wrapped state, into operand memory, compares its result, or
leaves its state in its stream's slot, and its status word says so; the engine is free again. Of the running jobs that may be preempted the one that has run longest leaves the engine and
waits with its state in a slot. The register-level job of an engine under test starts with GO and ends DONE with its result; a read of a
result word before DONE gives zero and sets EARLY_READ. -/
def Sys2Proof.Claims.DigestJobsEnd : Prop :=
  ∀ (s : State) (u : Fin 8),
    let g := s.dev.dig u
    (∀ (j : DigJob) (z : DigState), s.dev.stopped = false → g.faulted = false → g.job = some j → j.state = some z → j.donePos = sumBy (fun x => x.len) j.segs →
      g.st = 1 → g.fenceDue = false → NoAdminWaits s.dev →
      let c := s.dev.cmdOr j.slot
      let out := digestOf z.alg z.cshake z.absorbed j.outLen
      let count := (s.dev.allot c.allot).wrapCount
      let blob := hostBlob (s.dev.keyReg c.allot 1) c.allot z count
      let ends (hit : Prop) (p : Device → Prop) : Prop := Does (.digestJobEnd u) s (fun d => p d ∧ (d.dig u).job = none ∧ (d.dig u).st = 0 ∧ d.rsv = s.dev.rsv ∧
        ∃ w, w % 2 ^ 8 = 0 ∧ (w / 2 ^ 8 % 2 = 1 ↔ hit) ∧ jobsOf d j.slot = withJob (jobsOf s.dev j.slot) j.ident 1 (fun o => { o with word := some w }))
      let puts (a : Nat) (bs : List Byte) (d : Device) : Prop := ∀ t, s.dev.archOf j.slot = some t → ∃ t', d.archOf j.slot = some t' ∧ readBytes t'.opm a bs.length = bs ∧
        ∀ b, b < a ∨ a + bs.length ≤ b → readBytes t'.opm b 1 = readBytes t.opm b 1
      (j.finish = true → j.compare = false → ends False (fun d => puts j.outOpm out d)) ∧
      (j.finish = true → j.compare = true → ends (out = j.expect) (fun d => ∀ t, s.dev.archOf j.slot = some t → ∃ t', d.archOf j.slot = some t' ∧ t'.opm = t.opm)) ∧
      (j.finish = false → j.exportB = true → ends False (fun d => puts j.blobOpm blob d ∧ (d.allot c.allot).wrapCount = (count + 1) % 2 ^ 64)) ∧
      (∀ cmd, s.dev.cmd j.slot = some cmd → j.finish = false → j.exportB = false → ends False (fun d =>
        (∃ v, d.streamOf j = some v ∧ v.state = z ∧ v.count = count ∧ d.accepts j v = true) ∧ (d.allot c.allot).wrapCount = (count + 1) % 2 ^ 64))) ∧
    (∀ (j x : DigJob), s.dev.stopped = false → g.job = some j → g.fenceDue = false → NoAdminWaits s.dev → bitOf (s.dev.reg 0x71000) 31 = true →
      x ∈ s.dev.digWait → s.dev.digStartable x = true → x.queued + field (s.dev.reg 0x71000) 23 12 * 1000 ≤ s.dev.time → (∀ v < 8, s.dev.digFree v = false) →
      s.dev.digEligible u = true → (∀ v < 8, v ≠ u.val → s.dev.digEligible v = true → g.started < (s.dev.dig v).started) →
      Does .digestPreempt s (fun d => (d.dig u).job = none ∧ (d.dig u).st = 0 ∧ (∀ v, v ≠ u.val → d.dig v = s.dev.dig v) ∧
        ∃ j' v, d.digWait = s.dev.digWait ++ [j'] ∧ j'.slot = j.slot ∧ j'.ident = j.ident ∧ j'.save = some v ∧ v.state = j.state.getD {} ∧ j'.donePos = j.donePos ∧
          j'.preempts = j.preempts + 1 ∧ j'.queued = s.dev.time)) ∧
    (s.dev.stopped = false → g.busyFlag = true → (1 ≤ g.alg ∧ g.alg ≤ 11) → g.outLen = digLen g.alg → g.outLen ≠ 0 → g.compare = false → isShake g.alg = false →
      (checkAll s.dev 81 0 0 false none (linePieces g.src g.len)).1 = .permit →
      Does (.digRegJobDone u) s (fun d => (d.dig u).done = true ∧ (d.dig u).busyFlag = false ∧
        (d.dig u).result = digestOf g.alg false (s.dev.rsvRead g.src g.len) g.outLen ∧ d.rsv = s.dev.rsv)) ∧
    (let h := hostAccess 0 s.dev;
      (∀ v : BitVec 31, BarTaken s (0x0007_0004 + 0x100 * u) →
        ((h.dig u).st ≠ 3 ∨ (h.dig u).busyFlag = true → Gives (.digGo u v) s h) ∧
        ((h.dig u).st = 3 → (h.dig u).busyFlag = false → Does (.digGo u v) s (fun d => d.dig u = { h.dig u with
          alg := field v.toNat 3 0, cshake := bitOf v.toNat 4, compare := bitOf v.toNat 5, outLen := field v.toNat 14 8,
          done := decide (g.srcLen ≠ g.len), busyFlag := decide (g.srcLen = g.len), earlyRead := false, matched := false,
          short := decide (g.srcLen < g.len), long := decide (g.len < g.srcLen), access := false, result := [] }))) ∧
      (∀ q : Fin 16, let o := 0x0007_0040 + 0x100 * u.val + 4 * q.val;
        BarTaken s o → Does (.digResultRead u q) s (fun d => (d.dig u).earlyRead = ((h.dig u).earlyRead || !(h.dig u).done) ∧ d.out = h.out ++ [.readReply 0 o (readReg o h)] ∧
          ((h.dig u).done = false → readReg o h = 0))))

/-- DigestJobsArrive, DigestJobsStart and DigestJobsEnd, together. -/
def Obligations.DigestJobs : Prop := DigestJobsArrive ∧ DigestJobsStart ∧ DigestJobsEnd


/-! ## The Furrow engine: vector instructions (07) -/

/-- 07 R154, R155, Tables 7.2 and 7.6: a type of width code 1 to 4 whose group is at most the width in bytes is set with its length, the smaller of the count and
VLCAP, or VLCAP itself with FULL; any other type leaves type and length 0. rd takes the length. Moduli are written and read whole; vbytes gives 512. Each ends with
ES_VRESUME 0. -/
def Obligations.VectorConfiguration : Prop :=
  ∀ (s : State) (e : Fin 144) (k : Nat) (rd rs1 rs2 ty : BitVec 5) (mk : BitVec 2), Issues s e k →
    let t := (s.dev.eng e).arch
    let a := (xOf s e rs1).toNat
    let x := (xOf s e rs2).toNat
    let valid (y : Nat) : Prop := y < 32 ∧ 1 ≤ y % 8 ∧ y % 8 ≤ 4 ∧ 2 ^ (y / 8) ≤ 2 ^ (y % 8 - 1)
    let cap (y : Nat) : Nat := 4096 * 2 ^ (y / 8) / (4 * 2 ^ (y % 8))
    let sets (i : Instr) (y n : Nat) : Prop := Retires i s e { EngArch.setX { t with vtype := y, vl := n } rd (w64 n) with vresume := 0 }
    (valid ty.toNat → sets (.vcfgi e rd rs1 ty) ty.toNat (min a (cap ty.toNat)) ∧ sets (.vcfgk e rd ty) ty.toNat (min t.vl (cap ty.toNat))) ∧
    (¬ valid ty.toNat → sets (.vcfgi e rd rs1 ty) 0 0 ∧ sets (.vcfgk e rd ty) 0 0) ∧
    (valid (x % 32) → x < 32 → sets (.vcfg e rd rs1 rs2) x (min a (cap x))) ∧
    (valid (x % 32) → 32 ≤ x → x < 64 → sets (.vcfg e rd rs1 rs2) (x % 32) (cap (x % 32))) ∧
    (¬ valid (x % 32) ∨ 64 ≤ x → sets (.vcfg e rd rs1 rs2) 0 0) ∧
    (valid (a % 32) → Retires (.esw e 0x09 rs1) s e { t with vtype := a % 32, vl := min t.vl (cap (a % 32)) }) ∧
    (¬ valid (a % 32) → Retires (.esw e 0x09 rs1) s e { t with vtype := 0, vl := 0 }) ∧
    Retires (.vsetm e mk rs1) s e { t with m := Tbl.set 0 t.m mk.toNat (xOf s e rs1), vresume := 0 } ∧
    Retires (.vgetm e rd mk) s e { t.setX rd (Tbl.get 0 t.m mk.toNat) with vresume := 0 } ∧
    Retires (.vbytes e rd) s e { t.setX rd 512 with vresume := 0 }

/-- 07 R159, R161, Table 7.7 with SH = 0: each integer instruction computes its elements from ES_VRESUME to VL where the predicate allows, on public operands whose groups are
aligned; the result's registers become unshared, and nothing else changes. -/
def Obligations.VectorIntegerOperations : Prop :=
  ∀ (s : State) (e : Fin 144) (k : Nat) (vd vs1 vs2 rs2 imm : BitVec 5) (pm : Option (BitVec 3)) (pr : BitVec 3), Issues s e k →
    let t := (s.dev.eng e).arch
    let w := vWidth t.vtype
    let g := vGroup t.vtype
    let a := vElt t w vs1.toNat g
    let b := vElt t w vs2.toNat g
    let c := (xOf s e rs2).toNat % 2 ^ w
    let bits (x : Nat) : BitVec w := BitVec.ofNat w x
    (VecOk s e anyWidth vd [vs1, vs2] →
      VecPuts (.vadd e vd vs1 vs2 pm 0) s e vd pm (fun i => a i + b i) ∧
      VecPuts (.vsub e vd vs1 vs2 pm 0) s e vd pm (fun i => a i + (2 ^ w - b i)) ∧
      VecPuts (.vand e vd vs1 vs2 pm 0) s e vd pm (fun i => (bits (a i) &&& bits (b i)).toNat) ∧
      VecPuts (.vor e vd vs1 vs2 pm 0) s e vd pm (fun i => (bits (a i) ||| bits (b i)).toNat) ∧
      VecPuts (.vxor e vd vs1 vs2 pm 0) s e vd pm (fun i => (bits (a i) ^^^ bits (b i)).toNat) ∧
      VecPuts (.vandn e vd vs1 vs2 pm 0) s e vd pm (fun i => (bits (a i) &&& ~~~ bits (b i)).toNat) ∧
      VecPuts (.vshl e vd vs1 vs2 pm) s e vd pm (fun i => a i * 2 ^ (b i % w)) ∧
      VecPuts (.vshr e vd vs1 vs2 pm) s e vd pm (fun i => a i / 2 ^ (b i % w)) ∧
      VecPuts (.vminu e vd vs1 vs2 pm) s e vd pm (fun i => min (a i) (b i)) ∧
      VecPuts (.vmaxu e vd vs1 vs2 pm) s e vd pm (fun i => max (a i) (b i)) ∧
      VecPuts (.vmul e vd vs1 vs2 pm) s e vd pm (fun i => a i * b i) ∧
      VecPuts (.vmulhiU e vd vs1 vs2 pm) s e vd pm (fun i => a i * b i / 2 ^ w) ∧
      VecPuts (.vpick e vd vs1 vs2 pr) s e vd none (fun i => if bitOf (t.pBits pr.toNat) i then b i else a i)) ∧
    (VecOk s e anyWidth vd [vs1] →
      VecPuts (.vaddX e vd vs1 rs2 pm 0) s e vd pm (fun i => a i + c) ∧
      VecPuts (.vsubX e vd vs1 rs2 pm 0) s e vd pm (fun i => a i + (2 ^ w - c)) ∧
      VecPuts (.vandX e vd vs1 rs2 pm 0) s e vd pm (fun i => (bits (a i) &&& bits c).toNat) ∧
      VecPuts (.vorX e vd vs1 rs2 pm 0) s e vd pm (fun i => (bits (a i) ||| bits c).toNat) ∧
      VecPuts (.vxorX e vd vs1 rs2 pm 0) s e vd pm (fun i => (bits (a i) ^^^ bits c).toNat) ∧
      VecPuts (.vandnX e vd vs1 rs2 pm 0) s e vd pm (fun i => (bits (a i) &&& ~~~ bits c).toNat) ∧
      VecPuts (.vshlX e vd vs1 rs2 pm 0) s e vd pm (fun i => a i * 2 ^ (c % w)) ∧
      VecPuts (.vshrX e vd vs1 rs2 pm 0) s e vd pm (fun i => a i / 2 ^ (c % w)) ∧
      VecPuts (.vsarX e vd vs1 rs2 pm) s e vd pm (fun i => ((bits (a i)).sshiftRight (c % w)).toNat) ∧
      VecPuts (.vrotlX e vd vs1 rs2 pm 0) s e vd pm (fun i => ((bits (a i)).rotateLeft (c % w)).toNat) ∧
      VecPuts (.vshlI e vd vs1 imm pm 0) s e vd pm (fun i => a i * 2 ^ (imm.toNat % w)) ∧
      VecPuts (.vshrI e vd vs1 imm pm 0) s e vd pm (fun i => a i / 2 ^ (imm.toNat % w)) ∧
      VecPuts (.vsarI e vd vs1 imm pm) s e vd pm (fun i => ((bits (a i)).sshiftRight (imm.toNat % w)).toNat) ∧
      VecPuts (.vrotlI e vd vs1 imm pm 0) s e vd pm (fun i => ((bits (a i)).rotateLeft (imm.toNat % w)).toNat) ∧
      VecPuts (.vcopy e vd vs1 pm 0) s e vd pm (fun i => a i)) ∧
    (VecOk s e anyWidth vd [] →
      VecPuts (.vbcastX e vd rs2 pm) s e vd pm (fun _ => c) ∧
      VecPuts (.vbcastI e vd imm pm) s e vd pm (fun _ => (imm.signExtend 64).toNat))

/-- 07 R162, Table 7.8 with SH = 0: modular instructions modulo a register's odd m, 3 ≤ m < 2^(w−1): sum, difference, product, multiply-accumulate onto vd, reduction, each the
residue below m; vmcen gives the centred residue in two's complement. -/
def Sys2Proof.Claims.VectorModularArithmetic : Prop :=
  ∀ (s : State) (e : Fin 144) (k : Nat) (mk : BitVec 2) (vd vs1 vs2 rs2 : BitVec 5) (pm : Option (BitVec 3)), Issues s e k →
    let t := (s.dev.eng e).arch
    let w := vWidth t.vtype
    let g := vGroup t.vtype
    let a := vElt t w vs1.toNat g
    let b := vElt t w vs2.toNat g
    let z := vElt t w vd.toNat g
    let c := (xOf s e rs2).toNat % 2 ^ w
    let m := (Tbl.get 0 t.m mk.toNat).toNat
    m % 2 = 1 → 3 ≤ m → m < 2 ^ (w - 1) → VecOk s e anyWidth vd [vs1, vs2, vd] →
    VecPuts (.vmadd e mk vd vs1 vs2 pm 0) s e vd pm (fun i => (a i + b i) % m) ∧
    (∃ f, VecPuts (.vmsub e mk vd vs1 vs2 pm 0) s e vd pm f ∧ ∀ i, f i < m ∧ (f i + b i) % m = a i % m) ∧
    VecPuts (.vmmul e mk vd vs1 vs2 pm 0) s e vd pm (fun i => a i * b i % m) ∧
    VecPuts (.vmac e mk vd vs1 vs2 pm 0) s e vd pm (fun i => (a i * b i + z i) % m) ∧
    VecPuts (.vmmulX e mk vd vs1 rs2 pm 0) s e vd pm (fun i => a i * c % m) ∧
    VecPuts (.vmacX e mk vd vs1 rs2 pm 0) s e vd pm (fun i => (a i * c + z i) % m) ∧
    VecPuts (.vmred e mk vd vs1 pm 0) s e vd pm (fun i => a i % m) ∧
    VecPuts (.vmcen e mk vd vs1 pm) s e vd pm (fun i => (BitVec.ofInt w (if a i % m ≤ (m - 1) / 2 then (a i % m : Int) else (a i % m : Int) - m)).toNat)

/-- 07 R162, Table 7.9 with SH = 0: one Cooley–Tukey and one Gentleman–Sande layer of the number-theoretic transform, A and B in the two halves of the operand and of the result, W in vs2,
and the product of pairs modulo X² − ζ, ζ in vd; modulo 3,329, 8,380,417 or a register. -/
def Sys2Proof.Claims.VectorNtt : Prop :=
  ∀ (s : State) (e : Fin 144) (k : Nat) (q : BitVec 3) (vd vs1 vs2 : BitVec 5) (pm : Option (BitVec 3)), Issues s e k →
    let t := (s.dev.eng e).arch
    let w := vWidth t.vtype
    let g := vGroup t.vtype
    let m := if q = 0 then 3329 else if q = 1 then 8380417 else (Tbl.get 0 t.m (q.toNat - 4)).toNat
    let a := vElt t w vs1.toNat g
    let b := vElt t w (vs1.toNat + g) g
    let z := vElt t w vs2.toNat g
    let pairs (i : Nat) : Bool := t.active pm (2 * (i / 2)) && decide (2 * (i / 2) + 1 < t.vl)
    (q = 0 ∨ (q = 1 ∧ w = 32) ∨ (4 ≤ q.toNat ∧ m % 2 = 1 ∧ 3 ≤ m ∧ m < 2 ^ (w - 1))) →
    (VecOk s e [16, 32] vd [vs2] → vd.toNat % (2 * g) = 0 → vs1.toNat % (2 * g) = 0 → (∀ r < 2 * g, t.vTag (vs1.toNat + r) = 0) →
      VecWrites (.vntt e q vd vs1 vs2 pm 0) s e (fun u =>
        (∀ i < 4096 * g / w, vElt u w vd.toNat g i = if t.active pm i then (a i + z i * b i) % m else vElt t w vd.toNat g i) ∧
        (∀ i < 4096 * g / w, if t.active pm i then vElt u w (vd.toNat + g) g i < m ∧ (vElt u w (vd.toNat + g) g i + z i * b i) % m = a i % m
          else vElt u w (vd.toNat + g) g i = vElt t w (vd.toNat + g) g i) ∧
        (∀ r < 2 * g, u.vTag (vd.toNat + r) = 0) ∧ SameRegs t u vd.toNat (2 * g)) ∧
      VecWrites (.vintt e q vd vs1 vs2 pm 0) s e (fun u =>
        (∀ i < 4096 * g / w, vElt u w vd.toNat g i = if t.active pm i then (a i + b i) % m else vElt t w vd.toNat g i) ∧
        (∀ i < 4096 * g / w, if t.active pm i then ∃ x < m, (x + b i) % m = a i % m ∧ vElt u w (vd.toNat + g) g i = z i * x % m
          else vElt u w (vd.toNat + g) g i = vElt t w (vd.toNat + g) g i) ∧
        (∀ r < 2 * g, u.vTag (vd.toNat + r) = 0) ∧ SameRegs t u vd.toNat (2 * g))) ∧
    (VecOk s e [16, 32] vd [vs1, vs2, vd] →
      let y := vElt t w vd.toNat g
      VecWrites (.vnttmul e q vd vs1 vs2 pm 0) s e (fun u =>
        (∀ i < 4096 * g / w, vElt u w vd.toNat g i =
          if pairs i then (if i % 2 = 0 then a i * z i + a (i + 1) * z (i + 1) * y i else a (i - 1) * z i + a i * z (i - 1)) % m else y i) ∧
        (∀ r < g, u.vTag (vd.toNat + r) = 0) ∧ SameRegs t u vd.toNat g))

/-- VectorModularArithmetic and VectorNtt, together. -/
def Obligations.ModularVectors : Prop := VectorModularArithmetic ∧ VectorNtt


/-- 07 R163, Tables 7.10 and 7.11: Keccak-f[1600] on the low 25 lanes of vd; a SHA-256 and a SHA-512 compression of the block in vs1 onto the words in vd; centred binomial samples modulo m,
the difference of two sums of eta bits; a sampler fills elements in order with the candidates that it accepts and moves its cursor. -/
def Sys2Proof.Claims.VectorHashAndSampling : Prop :=
  ∀ (s : State) (e : Fin 144) (k : Nat) (q : BitVec 2) (vd vs1 rs2 : BitVec 5) (pm : Option (BitVec 3)), Issues s e k →
    let t := (s.dev.eng e).arch
    let w := vWidth t.vtype
    let g := vGroup t.vtype
    let m := if q = 0 then 3329 else if q = 1 then 8380417 else (Tbl.get 0 t.m (q.toNat - 2)).toNat
    let x := t.vBits vd.toNat
    let low (n v : Nat) : Nat := x / 2 ^ n * 2 ^ n + v % 2 ^ n
    let words (w n img : Nat) : List Nat := (List.range n).map (fun i => img / 2 ^ (w * i) % 2 ^ w)
    let one (i : Instr) (v : Nat) : Prop := VecWrites i s e (fun u => u.vBits vd.toNat = v ∧ u.vTag vd.toNat = 0 ∧ SameRegs t u vd.toNat 1)
    let ones (img at0 n : Nat) : Nat := (List.range n).countP (fun i => bitOf img (at0 + i))
    let img := t.grp vs1.toNat g
    let cursor := (xOf s e rs2).toNat
    (t.vtype ≠ 0 → w ∈ anyWidth → t.vTag vd.toNat = 0 →
      one (.vkeccak e vd 0) (low 1600 (keccakBits 24 (BitVec.ofNat 1600 x)).toNat) ∧
      (t.vTag vs1.toNat = 0 →
        one (.vsha256 e vd vs1) (low 256 ((sha2Compress sha256Par (words 32 8 x) (beWords 32 16 (toBytes 64 (t.vBits vs1.toNat)))).foldr (fun y a => y % 2 ^ 32 + 2 ^ 32 * a) 0)) ∧
        one (.vsha512 e vd vs1) (low 512 ((sha2Compress sha512Par (words 64 8 x) (beWords 64 16 (toBytes 128 (t.vBits vs1.toNat)))).foldr (fun y a => y % 2 ^ 64 + 2 ^ 64 * a) 0)))) ∧
    ((q = 0 ∧ w < 64) ∨ (q = 1 ∧ w = 32) ∨ (2 ≤ q.toNat ∧ m % 2 = 1 ∧ 3 ≤ m ∧ m < 2 ^ (w - 1)) → VecOk s e [16, 32, 64] vd [vs1] →
      (∃ f, VecPuts (.vcbd2 e q vd vs1 pm 0) s e vd pm f ∧ ∀ i, f i < m ∧ (f i + ones img (4 * i + 2) 2) % m = ones img (4 * i) 2 % m) ∧
      (∃ f, VecPuts (.vcbd3 e q vd vs1 pm 0) s e vd pm f ∧ ∀ i, f i < m ∧ (f i + ones img (6 * i + 3) 3) % m = ones img (6 * i) 3 % m) ∧
      (cursor % 2 ^ 32 < t.vl → t.vl ≤ 4096 * g / w → cursor / 2 ^ 32 + 3 = 512 * g → img / 2 ^ (8 * (cursor / 2 ^ 32)) % 2 ^ 23 < m →
        SampleTakes (.vsamu23 e q vd vs1 rs2) s e vd rs2 (cursor % 2 ^ 32) (img / 2 ^ (8 * (cursor / 2 ^ 32)) % 2 ^ 23) (512 * g)) ∧
      (cursor % 2 ^ 32 + 1 = t.vl → t.vl ≤ 4096 * g / w → cursor / 2 ^ 32 + 3 ≤ 512 * g → img / 2 ^ (8 * (cursor / 2 ^ 32)) % 2 ^ 12 < m →
        SampleTakes (.vsamu12 e q vd vs1 rs2) s e vd rs2 (cursor % 2 ^ 32) (img / 2 ^ (8 * (cursor / 2 ^ 32)) % 2 ^ 12) (cursor / 2 ^ 32 + 3)) ∧
      (cursor % 2 ^ 32 + 1 = t.vl → t.vl ≤ 4096 * g / w → cursor / 2 ^ 32 + 1 ≤ 512 * g →
        let z := img / 2 ^ (8 * (cursor / 2 ^ 32)) % 16
        (z < 15 → SampleTakes (.vsamb2 e q vd vs1 rs2) s e vd rs2 (cursor % 2 ^ 32) ((m + 2 - z % 5) % m) (cursor / 2 ^ 32 + 1)) ∧
        (z < 9 → SampleTakes (.vsamb4 e q vd vs1 rs2) s e vd rs2 (cursor % 2 ^ 32) ((2 * m + 4 - z) % m) (cursor / 2 ^ 32 + 1))))

/-- 07, Table 7.12: carry-less products, products in GF(2^12) and GF(2^13), and the AES rounds of FIPS 197 on 128-bit blocks held in pairs of 64-bit elements. -/
def Sys2Proof.Claims.VectorCarrylessAndAes : Prop :=
  ∀ (s : State) (e : Fin 144) (k : Nat) (vd vs1 vs2 : BitVec 5) (pm : Option (BitVec 3)), Issues s e k →
    let t := (s.dev.eng e).arch
    let w := vWidth t.vtype
    let g := vGroup t.vtype
    let a := vElt t w vs1.toNat g
    let b := vElt t w vs2.toNat g
    let block (f : Nat → Nat) (i : Nat) : Nat := f (2 * (i / 2)) + 2 ^ 64 * f (2 * (i / 2) + 1)
    let half (x i : Nat) : Nat := x / 2 ^ (64 * (i % 2)) % 2 ^ 64
    let blocks (i : Instr) (f : Nat → Nat → Nat) : Prop := VecWrites i s e (fun u =>
      (∀ j < 4096 * g / 64, vElt u 64 vd.toNat g j = if t.active pm (2 * (j / 2)) && decide (2 * (j / 2) + 1 < t.vl) then half (f (block a j) (block b j)) j else vElt t 64 vd.toNat g j) ∧
      (∀ r < g, u.vTag (vd.toNat + r) = 0) ∧ SameRegs t u vd.toNat g)
    (VecOk s e [64] vd [vs1, vs2] →
      VecPuts (.vcxmLo e vd vs1 vs2 pm) s e vd pm (fun i => clmul (a i) (b i) 64) ∧
      VecPuts (.vcxmHi e vd vs1 vs2 pm) s e vd pm (fun i => clmul (a i) (b i) 64 / 2 ^ 64) ∧
      blocks (.vafr e vd vs1 vs2 pm) aesForward ∧ blocks (.vafl e vd vs1 vs2 pm) aesFinal ∧
      blocks (.vair e vd vs1 vs2 pm) aesInverse ∧ blocks (.vail e vd vs1 vs2 pm) aesInvFinal) ∧
    (VecOk s e [64] vd [vs1] → blocks (.vaim e vd vs1 pm) (fun x _ => invMixColumns x)) ∧
    (VecOk s e [16] vd [vs1, vs2] →
      VecPuts (.vgfmul12 e vd vs1 vs2 pm) s e vd pm (fun i => gfMul 12 0x009 (a i) (b i)) ∧
      VecPuts (.vgfmul13 e vd vs1 vs2 pm) s e vd pm (fun i => gfMul 13 0x01B (a i) (b i))) ∧
    (VecOk s e [32] vd [vs1] →
      VecPuts (.vasw e vd vs1 pm) s e vd pm (fun i => sbox (a i % 256) + 256 * sbox (a i / 256 % 256) + 65536 * sbox (a i / 65536 % 256) + 16777216 * sbox (a i / 16777216)))

/-- VectorHashAndSampling and VectorCarrylessAndAes, together. -/
def Obligations.HashSamplingCarrylessAndAes : Prop := VectorHashAndSampling ∧ VectorCarrylessAndAes


/-- 07 R161, Table 7.13: element 0 to and from a scalar register, slides, permutation by index, packing under a predicate, interleaving and its inverse, reductions into element 0, indices, and the
copy of a whole register with its tag. -/
def Obligations.VectorMovesAndReductions : Prop :=
  ∀ (s : State) (e : Fin 144) (k : Nat) (rd vd vs1 vs2 rs2 : BitVec 5) (pm : Option (BitVec 3)) (pr : BitVec 3), Issues s e k →
    let t := (s.dev.eng e).arch
    let w := vWidth t.vtype
    let g := vGroup t.vtype
    let cap := 4096 * g / w
    let a := vElt t w vs1.toNat g
    let b := vElt t w vs2.toNat g
    let n := (xOf s e rs2).toNat % 2 ^ w
    let both (i : Nat) : Nat := if i < t.vl then a i else b (i - t.vl)
    let picked := (List.range t.vl).filter (fun i => bitOf (t.pBits pr.toNat) i)
    let reduces (i : Instr) (f : Nat → Nat → Nat) : Prop := VecWrites i s e (fun u =>
      elemOf w (u.vBits vd.toNat) 0 = ((List.range t.vl).filter (fun j => t.active pm j)).foldl (fun x j => f x (a j)) (b 0) % 2 ^ w ∧
      (∀ j < 4096 / w, j ≠ 0 → elemOf w (u.vBits vd.toNat) j = elemOf w (t.vBits vd.toNat) j) ∧ u.vTag vd.toNat = 0 ∧ SameRegs t u vd.toNat 1)
    (VecOk s e anyWidth vd [vs1, vs2] →
      VecPuts (.vperm e vd vs1 vs2 pm) s e vd pm (fun i => if b i < cap then a (b i) else 0) ∧
      VecPuts (.vilvLo e vd vs1 vs2 pm) s e vd pm (fun i => if i % 2 = 0 then a (i / 2) else b (i / 2)) ∧
      VecPuts (.vilvHi e vd vs1 vs2 pm) s e vd pm (fun i => if i % 2 = 0 then a (t.vl / 2 + i / 2) else b (t.vl / 2 + i / 2)) ∧
      VecPuts (.vdlvE e vd vs1 vs2 pm) s e vd pm (fun i => both (2 * i)) ∧
      VecPuts (.vdlvO e vd vs1 vs2 pm) s e vd pm (fun i => both (2 * i + 1)) ∧
      reduces (.vrdadd e vd vs1 vs2 pm) (fun x y => x + y) ∧
      reduces (.vrdxor e vd vs1 vs2 pm) (fun x y => x ^^^ y) ∧
      reduces (.vrdor e vd vs1 vs2 pm) (fun x y => x ||| y)) ∧
    (VecOk s e anyWidth vd [vs1] →
      VecPuts (.vshupX e vd vs1 rs2 pm) s e vd pm (fun i => if n ≤ i then a (i - n) else vElt t w vd.toNat g i) ∧
      VecPuts (.vshdnX e vd vs1 rs2 pm) s e vd pm (fun i => if i + n < cap then a (i + n) else 0) ∧
      (t.vresume = 0 → VecPuts (.vpack e vd vs1 pr) s e vd none (fun i => if i < picked.length then a (picked.getD i 0) else vElt t w vd.toNat g i)) ∧
      Retires (.vxget e rd vs1) s e { t.setX rd (w64 (a 0)) with vresume := 0 }) ∧
    (VecOk s e anyWidth vd [] →
      VecPuts (.vidx e vd pm) s e vd pm (fun i => i) ∧
      (t.active pm 0 = true → VecWrites (.vxput e vd rs2 pm) s e (fun u =>
        elemOf w (u.vBits vd.toNat) 0 = n ∧ (∀ j < 4096 / w, j ≠ 0 → elemOf w (u.vBits vd.toNat) j = elemOf w (t.vBits vd.toNat) j) ∧
        u.vTag vd.toNat = 0 ∧ SameRegs t u vd.toNat 1))) ∧
    (t.vtype ≠ 0 → w ∈ anyWidth → VecWrites (.vmovr e vd vs1) s e (fun u =>
      Tbl.get ({} : VShare) u.v vd.toNat = Tbl.get {} t.v vs1.toNat ∧ SameRegs t u vd.toNat 1))

/-- 07 R164, Table 7.14: a compare writes a bit of the predicate for each element that executes, keeps the bits of the others below VL and clears the bits from VL on; predicate logic writes the bits below VL
and clears the rest; ppop and plow count and find the bits below VL; pld and pst move 64 bytes. -/
def Obligations.ComparesAndPredicates : Prop :=
  ∀ (s : State) (e : Fin 144) (k : Nat) (pd p1 p2 : BitVec 3) (rd rs1 rs2 vs1 vs2 : BitVec 5) (pm : Option (BitVec 3)), Issues s e k →
    let t := (s.dev.eng e).arch
    let w := vWidth t.vtype
    let g := vGroup t.vtype
    let a := vElt t w vs1.toNat g
    let b := vElt t w vs2.toNat g
    let c := (xOf s e rs2).toNat % 2 ^ w
    let bit (p : BitVec 3) (i : Nat) : Bool := (Tbl.get 0 t.p p.toNat).getLsbD i
    let x := (xOf s e rs1).toNat
    let compares (i : Instr) (f : Nat → Bool) : Prop := PredPuts i s e pd (fun j => if j < t.vl then (if t.active pm j then f j else bit pd j) else false)
    let logic (i : Instr) (f : Nat → Bool) : Prop := PredPuts i s e pd (fun j => decide (j < t.vl) && f j)
    (VecOk s e anyWidth 0 [vs1, vs2] →
      compares (.vceq e pd vs1 vs2 pm) (fun i => a i == b i) ∧
      compares (.vcne e pd vs1 vs2 pm) (fun i => a i != b i) ∧
      compares (.vcltu e pd vs1 vs2 pm) (fun i => decide (a i < b i)) ∧
      compares (.vclt e pd vs1 vs2 pm) (fun i => (BitVec.ofNat w (a i)).slt (BitVec.ofNat w (b i)))) ∧
    (VecOk s e anyWidth 0 [vs1] →
      compares (.vceqX e pd vs1 rs2 pm) (fun i => a i == c) ∧
      compares (.vcneX e pd vs1 rs2 pm) (fun i => a i != c) ∧
      compares (.vcltuX e pd vs1 rs2 pm) (fun i => decide (a i < c)) ∧
      compares (.vcgeuX e pd vs1 rs2 pm) (fun i => decide (c ≤ a i))) ∧
    (t.vtype ≠ 0 → t.vl ≤ 512 →
      logic (.pand e pd p1 p2) (fun i => bit p1 i && bit p2 i) ∧
      logic (.por e pd p1 p2) (fun i => bit p1 i || bit p2 i) ∧
      logic (.pxor e pd p1 p2) (fun i => bit p1 i ^^ bit p2 i) ∧
      logic (.pandn e pd p1 p2) (fun i => bit p1 i && !bit p2 i) ∧
      logic (.pnot e pd p1) (fun i => !bit p1 i) ∧
      logic (.pset e pd) (fun _ => true) ∧
      logic (.pclr e pd) (fun _ => false) ∧
      logic (.prange e pd rs1 rs2) (fun i => decide ((x + i) % 2 ^ 64 < (xOf s e rs2).toNat)) ∧
      Retires (.ppop e rd p1) s e { t.setX rd (w64 ((List.range t.vl).countP (bit p1))) with vresume := 0 } ∧
      Retires (.plow e rd p1) s e { t.setX rd (w64 (((List.range t.vl).find? (bit p1)).getD t.vl)) with vresume := 0 } ∧
      (x % 8 = 0 → x + 64 ≤ 0x40000 → Ready s e x 64 →
        PredPuts (.pld e pd rs1) s e pd (fun i => ((readBytes t.opm (x + i / 8) 1).getD 0 0).getLsbD (i % 8)) ∧
        Does (.pst e p1 rs1) s (fun d => readBytes (d.eng e).arch.opm x 64 = toBytes 64 (Tbl.get 0 t.p p1.toNat).toNat ∧
          (∀ y, y < x ∨ x + 64 ≤ y → readBytes (d.eng e).arch.opm y 1 = readBytes t.opm y 1) ∧
          (d.eng e).arch.p = t.p ∧ (d.eng e).arch.v = t.v ∧ (d.eng e).arch.x = t.x ∧ (d.eng e).arch.pc = t.pc + 4 ∧ d.rsv = s.dev.rsv)))

/-- 07 R165, R166, Table 7.15: where every element that executes lies aligned within operand memory and nothing awaited overlaps, a vector load puts into each the bytes at its address, lowest first,
and a vector store puts each element's bytes there: unit stride, strided and indexed, all modulo 2^64; the whole-register forms move the 64 doublewords of one register. A store leaves every byte
that no element covers, and where elements overlap the later one holds. -/
def Sys2Proof.Claims.VectorMemory : Prop :=
  ∀ (s : State) (e : Fin 144) (k : Nat) (vd rs1 rs2 vs2 : BitVec 5) (pm : Option (BitVec 3)), Issues s e k →
    let t := (s.dev.eng e).arch
    let w := vWidth t.vtype
    let g := vGroup t.vtype
    let x := (xOf s e rs1).toNat
    let unit (i : Nat) : Nat := (x + i * (w / 8)) % 2 ^ 64
    let stride (i : Nat) : Nat := (x + i * (xOf s e rs2).toNat) % 2 ^ 64
    let index (i : Nat) : Nat := (x + vElt t w vs2.toNat g i) % 2 ^ 64
    let whole (i : Nat) : Nat := (x + 8 * i) % 2 ^ 64
    let fits (addr : Nat → Nat) : Prop := ∀ i, t.active pm i = true → addr i % (w / 8) = 0 ∧ addr i + w / 8 ≤ 0x40000 ∧ Ready s e (addr i) (w / 8)
    let loads (i : Instr) (addr : Nat → Nat) : Prop := VecPuts i s e vd pm (fun j => ofBytes (readBytes t.opm (addr j) (w / 8)))
    (VecOk s e anyWidth vd [] →
      (fits unit → loads (.vld e vd rs1 pm 0) unit) ∧
      (fits stride → loads (.vlds e vd rs1 rs2 pm) stride) ∧
      (vs2.toNat % g = 0 → (∀ q < g, t.vTag (vs2.toNat + q) = 0) → fits index → loads (.vldx e vd rs1 vs2 pm) index)) ∧
    (VecOk s e anyWidth vd [vd] →
      (fits unit → VecStores (.vst e vd rs1 pm 0) s e t.vl (t.active pm) unit w (vElt t w vd.toNat g)) ∧
      (fits stride → VecStores (.vsts e vd rs1 rs2 pm) s e t.vl (t.active pm) stride w (vElt t w vd.toNat g)) ∧
      (vs2.toNat % g = 0 → (∀ q < g, t.vTag (vs2.toNat + q) = 0) → fits index →
        VecStores (.vstx e vd rs1 vs2 pm) s e t.vl (t.active pm) index w (vElt t w vd.toNat g))) ∧
    (t.vtype ≠ 0 → w ∈ anyWidth → t.vresume < 64 → x % 8 = 0 → (∀ i < 64, t.vresume ≤ i → whole i + 8 ≤ 0x40000 ∧ Ready s e (whole i) 8) →
      VecWrites (.vldw e vd rs1) s e (fun u =>
        (∀ j < 64, elemOf 64 (u.vBits vd.toNat) j = if t.vresume ≤ j then ofBytes (readBytes t.opm (whole j) 8) else elemOf 64 (t.vBits vd.toNat) j) ∧
        u.vTag vd.toNat = 0 ∧ SameRegs t u vd.toNat 1) ∧
      (t.vTag vd.toNat = 0 → VecStores (.vstw e vd rs1) s e 64 (fun i => decide (t.vresume ≤ i)) whole 64 (fun i => elemOf 64 (t.vBits vd.toNat) i)))

/-- 07 R165, R166, R167: the first element n at fault stops a unit-stride vector load or store: those below it that execute are done, ES_VRESUME takes n and the trap carries its address,
VELEM_ALIGN before VELEM_RANGE; with the first executing element at fault nothing at all has been done. Without a fault an access to awaited bytes waits. -/
def Sys2Proof.Claims.VectorMemoryFaults : Prop :=
  ∀ (s : State) (e : Fin 144) (k : Nat) (vd rs1 : BitVec 5) (pm : Option (BitVec 3)), Issues s e k →
    let t := (s.dev.eng e).arch
    let w := vWidth t.vtype
    let g := vGroup t.vtype
    let unit (i : Nat) : Nat := ((xOf s e rs1).toNat + i * (w / 8)) % 2 ^ 64
    let fits (i : Nat) : Prop := unit i % (w / 8) = 0 ∧ unit i + w / 8 ≤ 0x40000
    let trapped (n : Nat) (u : EngArch) : Device := takeTrap e k (if unit n % (w / 8) ≠ 0 then 0x12 else 0x11) (unit n) (s.dev.updArch e (fun _ => u))
    let kept (n : Nat) (u : EngArch) : Prop := u.vresume = n ∧ u.pc = t.pc ∧ u.x = t.x ∧ u.p = t.p ∧ (n = t.vresume → u = t)
    (∀ n < t.vl, t.active pm n = true → ¬ fits n → (∀ i < n, t.active pm i = true → fits i ∧ Ready s e (unit i) (w / 8)) →
      (VecOk s e anyWidth vd [] → ∃ u, Gives (.vld e vd rs1 pm 0) s (trapped n u) ∧ kept n u ∧ u.opm = t.opm ∧ SameRegs t u vd.toNat g ∧
        ∀ j < 4096 * g / w, vElt u w vd.toNat g j = if j < n ∧ t.active pm j = true then ofBytes (readBytes t.opm (unit j) (w / 8)) else vElt t w vd.toNat g j) ∧
      (VecOk s e anyWidth vd [vd] → ∃ u, Gives (.vst e vd rs1 pm 0) s (trapped n u) ∧ kept n u ∧ u.v = t.v ∧
        (∀ j < n, t.active pm j = true → (∀ q < n, j < q → t.active pm q = true → unit q + w / 8 ≤ unit j ∨ unit j + w / 8 ≤ unit q) →
          readBytes u.opm (unit j) (w / 8) = toBytes (w / 8) (vElt t w vd.toNat g j)) ∧
        ∀ b, (∀ j < n, t.active pm j = true → b < unit j ∨ unit j + w / 8 ≤ b) → readBytes u.opm b 1 = readBytes t.opm b 1)) ∧
    ((∀ i, t.active pm i = true → fits i) → (∃ i, t.active pm i = true ∧ ¬ Ready s e (unit i) (w / 8)) →
      (VecOk s e anyWidth vd [] → Waits (.vld e vd rs1 pm 0) s e 0) ∧ (VecOk s e anyWidth vd [vd] → Waits (.vst e vd rs1 pm 0) s e 0))

/-- VectorMemory and VectorMemoryFaults, together. -/
def Obligations.VectorMemoryInstructions : Prop := VectorMemory ∧ VectorMemoryFaults


/-- 07 R168, Table 7.16: the long accumulators la0 to la7, of 16,384 bits, over v(4k) to v(4k+3), at element width 64: clear, add and subtract the limbs of vs1 below VL, accumulate them times a scalar
or limb by limb, pop the lowest limb, shift right by limbs; all modulo 2^16384. -/
def Obligations.LongAccumulators : Prop :=
  ∀ (s : State) (e : Fin 144) (k : Nat) (la : BitVec 3) (rd vs1 vs2 rs2 : BitVec 5), Issues s e k →
    let t := (s.dev.eng e).arch
    let g := vGroup t.vtype
    let n := 4 * la.toNat
    let acc := t.grp n 4
    let v1 := t.grp vs1.toNat g % 2 ^ (64 * t.vl)
    let limb (r : BitVec 5) (i : Nat) : Nat := if i < t.vl then vElt t 64 r.toNat g i else 0
    let c := (xOf s e rs2).toNat
    let becomes (i : Instr) (v : Nat) : Prop := VecWrites i s e (fun u => u.grp n 4 = v % 2 ^ 16384 ∧ (∀ q < 4, u.vTag (n + q) = 0) ∧ SameRegs t u n 4)
    vWidth t.vtype = 64 → t.vtype ≠ 0 → (∀ q < 4, t.vTag (n + q) = 0) →
    becomes (.vlclr e la) 0 ∧
    becomes (.vlshr e la rs2) (if c < 256 then acc / 2 ^ (64 * c) else 0) ∧
    Does (.vlpop e rd la) s (fun d => (d.eng e).arch.grp n 4 = acc / 2 ^ 64 ∧ (d.eng e).arch.x = (t.setX rd (w64 (acc % 2 ^ 64))).x ∧
      SameRegs t (d.eng e).arch n 4 ∧ (d.eng e).arch.vresume = 0 ∧ (d.eng e).arch.pc = t.pc + 4 ∧ (d.eng e).arch.opm = t.opm ∧ d.rsv = s.dev.rsv) ∧
    (vs1.toNat % g = 0 → (∀ q < g, t.vTag (vs1.toNat + q) = 0) →
      becomes (.vladd e la vs1) (acc + v1) ∧
      becomes (.vlsub e la vs1) (acc + (2 ^ 16384 - v1 % 2 ^ 16384)) ∧
      becomes (.vlmac e la vs1 rs2) (acc + v1 * c) ∧
      (vs2.toNat % g = 0 → (∀ q < g, t.vTag (vs2.toNat + q) = 0) →
        becomes (.vlmacv e la vs1 vs2) (acc + ((List.range t.vl).map (fun i => limb vs1 i * limb vs2 i * 2 ^ (64 * i))).sum)))

/-! ## Masked execution (08) -/

/-- 08 R174, R176, Table 8.1 with SH the routine's masking order: an instruction on shares works on each share by itself: XOR, addition, subtraction and copies on every share of both operands, a public operand entering
share 0 alone, AND with and shifts by a public operand on every share; modular addition, products with a public factor and reduction share by share modulo m. -/
def Obligations.SharedElementwise : Prop :=
  ∀ (s : State) (e : Fin 144) (k : Nat) (mk : BitVec 2) (vd vs1 vs2 rs2 : BitVec 5) (pm : Option (BitVec 3)) (sh : BitVec 2), Issues s e k →
    let t := (s.dev.eng e).arch
    let w := vWidth t.vtype
    let g := vGroup t.vtype
    let a (j : Nat) : Nat → Nat := vElt t w (vs1.toNat + j * g) g
    let b (j : Nat) : Nat → Nat := vElt t w (vs2.toNat + j * g) g
    let p := vElt t w vs2.toNat g
    let c := (xOf s e rs2).toNat % 2 ^ w
    let bits (x : Nat) : BitVec w := BitVec.ofNat w x
    let first (j x : Nat) : Nat := if j = 0 then x else 0
    let m := (Tbl.get 0 t.m mk.toNat).toNat
    sh ≠ 0 → t.shares = sh.toNat → VecOk s e anyWidth vd [] → vd.toNat + (t.shares + 1) * g ≤ 32 → SharedGroup t vs1 → 
    (SharedGroup t vs2 →
      SharesPut (.vxor e vd vs1 vs2 pm sh) s e vd pm (fun j i => (bits (a j i) ^^^ bits (b j i)).toNat) ∧
      SharesPut (.vadd e vd vs1 vs2 pm sh) s e vd pm (fun j i => a j i + b j i) ∧
      SharesPut (.vsub e vd vs1 vs2 pm sh) s e vd pm (fun j i => a j i + (2 ^ w - b j i)) ∧
      (m % 2 = 1 → 3 ≤ m → m < 2 ^ (w - 1) → SharesPut (.vmadd e mk vd vs1 vs2 pm sh) s e vd pm (fun j i => (a j i + b j i) % m))) ∧
    (vs2.toNat % g = 0 → (∀ q < g, t.vTag (vs2.toNat + q) = 0) →
      SharesPut (.vxor e vd vs1 vs2 pm sh) s e vd pm (fun j i => (bits (a j i) ^^^ bits (first j (p i))).toNat) ∧
      SharesPut (.vadd e vd vs1 vs2 pm sh) s e vd pm (fun j i => a j i + first j (p i)) ∧
      SharesPut (.vand e vd vs1 vs2 pm sh) s e vd pm (fun j i => (bits (a j i) &&& bits (p i)).toNat) ∧
      SharesPut (.vor e vd vs1 vs2 pm sh) s e vd pm (fun j i => (if j = 0 then bits (a j i) ||| bits (p i) else bits (a j i) &&& ~~~ bits (p i)).toNat) ∧
      (m % 2 = 1 → 3 ≤ m → m < 2 ^ (w - 1) → SharesPut (.vmmul e mk vd vs1 vs2 pm sh) s e vd pm (fun j i => a j i * p i % m))) ∧
    SharesPut (.vcopy e vd vs1 pm sh) s e vd pm a ∧
    SharesPut (.vandX e vd vs1 rs2 pm sh) s e vd pm (fun j i => (bits (a j i) &&& bits c).toNat) ∧
    SharesPut (.vxorX e vd vs1 rs2 pm sh) s e vd pm (fun j i => (bits (a j i) ^^^ bits (first j c)).toNat) ∧
    SharesPut (.vshlX e vd vs1 rs2 pm sh) s e vd pm (fun j i => a j i * 2 ^ (c % w)) ∧
    SharesPut (.vrotlX e vd vs1 rs2 pm sh) s e vd pm (fun j i => ((bits (a j i)).rotateLeft (c % w)).toNat) ∧
    (m % 2 = 1 → 3 ≤ m → m < 2 ^ (w - 1) → SharesPut (.vmred e mk vd vs1 pm sh) s e vd pm (fun j i => a j i % m))

/-- 08 R176, R179, Tables 8.1 and 8.4; 07, Table 7.17: the gadgets, whatever the fresh shares are: the shares of the result XOR, or add up modulo m, to the result of the values that the operands' shares make up; the generator gives
the bits of Table 8.4, and where it cannot the instruction waits. -/
def Sys2Proof.Claims.MaskedGadgets : Prop :=
  ∀ (s : State) (e : Fin 144) (k : Nat) (mk : BitVec 2) (vd vs1 vs2 : BitVec 5) (pm : Option (BitVec 3)) (sh : BitVec 2), Issues s e k →
    let t := (s.dev.eng e).arch
    let w := vWidth t.vtype
    let g := vGroup t.vtype
    let D := t.shares + 1
    let pairs := D * (D - 1) / 2
    let r := (Tbl.get 0 t.m mk.toNat).toNat
    let m := if r = 0 then 2 ^ w else r
    let xa := xorOf t w vs1.toNat g D
    let xb := xorOf t w vs2.toNat g D
    let sa := sumOf t w vs1.toNat g D
    let bits (x : Nat) : BitVec w := BitVec.ofNat w x
    let xors (u : EngArch) : Nat → Nat := xorOf u w vd.toNat g D
    let sums (u : EngArch) : Nat → Nat := fun i => sumOf u w vd.toNat g D i % m
    sh ≠ 0 → t.shares = sh.toNat → VecOk s e anyWidth vd [] → vd.toNat + D * g ≤ 32 → t.vl ≤ 4096 * g / w →
    (r = 0 ∨ (r % 2 = 1 ∧ 3 ≤ r ∧ r < 2 ^ (w - 1))) → 3 * pairs * w * t.vl ≤ mgRoom (s.dev.eng e).mg → D * w * t.vl ≤ mgRoom (s.dev.eng e).mg →
    (SharedGroup t vs1 →
      (SharedGroup t vs2 →
        Gadget (.vand e vd vs1 vs2 pm sh) s e vd pm sh.toNat (pairs * w * t.vl) (fun u i => xors u i = (bits (xa i) &&& bits (xb i)).toNat) ∧
        Gadget (.vor e vd vs1 vs2 pm sh) s e vd pm sh.toNat (pairs * w * t.vl) (fun u i => xors u i = (bits (xa i) ||| bits (xb i)).toNat) ∧
        Gadget (.vandn e vd vs1 vs2 pm sh) s e vd pm sh.toNat (pairs * w * t.vl) (fun u i => xors u i = (bits (xa i) &&& ~~~ bits (xb i)).toNat) ∧
        (SharedGroup t vd → Gadget (.vmsel e vd vs1 vs2 pm sh) s e vd pm sh.toNat (pairs * w * t.vl)
          (fun u i => xors u i = if xorOf t w vd.toNat g D 0 % 2 = 1 then xa i else xb i)) ∧
        (∃ v' mg free, Gives (.vmcmp e vd vs1 vs2 sh) s { (s.dev.updEng e (fun x => { x with arch := { x.arch with v := v', vresume := 0, pc := x.arch.pc + 4, paused := 0 }, mg := mg })) with free := free } ∧
          mg = mgSpend (pairs * w * t.vl) (s.dev.eng e).mg ∧
          ∀ i < 4096 * g / w, xorOf { t with v := v' } w vd.toNat g D i = if i = 0 ∧ ∀ j < t.vl, xa j = xb j then 1 else 0)) ∧
      Gadget (.va2b e vd vs1 mk pm sh) s e vd pm sh.toNat ((if m = 2 ^ w then 2 else 3) * pairs * w * t.vl) (fun u i => xors u i = sa i % m) ∧
      Gadget (.vb2a e vd vs1 mk pm sh) s e vd pm sh.toNat ((if m = 2 ^ w then 2 else 3) * pairs * w * t.vl) (fun u i => sums u i = xa i % m) ∧
      Gadget (.vrefreshB e vd vs1 pm sh) s e vd pm sh.toNat (pairs * w * t.vl) (fun u i => xors u i = xa i) ∧
      Gadget (.vrefreshA e vd vs1 mk pm sh) s e vd pm sh.toNat (pairs * w * t.vl) (fun u i => sums u i = sa i % m) ∧
      Gadget (.vjoinB e vd vs1 pm sh) s e vd pm 0 (pairs * w * t.vl) (fun u i => vElt u w vd.toNat g i = xa i) ∧
      Gadget (.vjoinA e vd vs1 mk pm sh) s e vd pm 0 (pairs * w * t.vl) (fun u i => vElt u w vd.toNat g i = sa i % m)) ∧
    (vs1.toNat % g = 0 → (∀ q < g, t.vTag (vs1.toNat + q) = 0) →
      Gadget (.vsplitB e vd vs1 pm sh) s e vd pm sh.toNat ((D - 1) * w * t.vl) (fun u i => xors u i = vElt t w vs1.toNat g i) ∧
      Gadget (.vsplitA e vd vs1 mk pm sh) s e vd pm sh.toNat ((D - 1) * w * t.vl) (fun u i => sums u i = vElt t w vs1.toNat g i % m)) ∧
    Gadget (.vmask e vd pm) s e vd pm 0 (w * t.vl) (fun u i => vElt u w vd.toNat g i = mgBits (w * t.vl) (s.dev.eng e).mg / 2 ^ (w * i) % 2 ^ w)

/-- 08 R181 to R183, Table 8.7: the generator asks once for 64 bytes of material when 2^20 blocks are left, stops at 2^24, and an instruction that needs more bits than it can give waits without effect. -/
def Sys2Proof.Claims.MaskGeneratorLimits : Prop :=
  ∀ (s : State) (e : Fin 144),
    let g := (s.dev.eng e).mg
    (g.seeded = true → 2 ^ 24 - 2 ^ 20 ≤ g.blocks → g.reqPending = false → Gives (.mgReseedRequest e) s
      (toCustody (.entropyRequest e 0 64 false) (s.dev.updEng e (fun x => { x with mg := { x.mg with reqPending := true } })))) ∧
    (g.reqPending = true ∨ g.blocks < 2 ^ 24 - 2 ^ 20 → Gives (.mgReseedRequest e) s s.dev) ∧
    (2 ^ 24 ≤ g.blocks → Gives (.mgAtLimit e) s (s.dev.updEng e (fun x => { x with mg := { x.mg with atLimit := true } }))) ∧
    (∀ (k : Nat) (vd : BitVec 5) (pm : Option (BitVec 3)), Issues s e k → VecOk s e anyWidth vd [] → g.seeded = false ∨ g.atLimit = true → Waits (.vmask e vd pm) s e 2)

/-- MaskedGadgets and MaskGeneratorLimits, together. -/
def Obligations.GadgetsAndTheirGenerator : Prop := MaskedGadgets ∧ MaskGeneratorLimits


/-- 07 R154, R157, R158, R162, R171; 08 R174, R177: the order in which a vector instruction is refused, on the sum and the modular sum: a group that is not aligned is illegal; then no type; then an invalid modulus; then a masking
order that is not the routine's; then a source that is shared where SH is 0. -/
def Sys2Proof.Claims.VectorTrapOrder : Prop :=
  ∀ (s : State) (e : Fin 144) (k : Nat) (mk : BitVec 2) (vd vs1 vs2 : BitVec 5) (pm : Option (BitVec 3)) (sh : BitVec 2), Issues s e k →
    let t := (s.dev.eng e).arch
    let w := vWidth t.vtype
    let g := vGroup t.vtype
    let m := (Tbl.get 0 t.m mk.toNat).toNat
    let aligned : Prop := vd.toNat % g = 0 ∧ vs1.toNat % g = 0 ∧ vs2.toNat % g = 0
    (sh = 0 → ¬ aligned → Traps (.vadd e vd vs1 vs2 pm sh) s e k 0x01 0 ∧ Traps (.vmadd e mk vd vs1 vs2 pm sh) s e k 0x01 0) ∧
    (sh = 0 → aligned → t.vtype = 0 → Traps (.vadd e vd vs1 vs2 pm sh) s e k 0x10 0 ∧ Traps (.vmadd e mk vd vs1 vs2 pm sh) s e k 0x10 0) ∧
    (sh = 0 → aligned → t.vtype ≠ 0 → w ∈ anyWidth → ¬ (m % 2 = 1 ∧ 3 ≤ m ∧ m < 2 ^ (w - 1)) → Traps (.vmadd e mk vd vs1 vs2 pm sh) s e k 0x14 mk.toNat) ∧
    (sh ≠ 0 → aligned → t.vtype ≠ 0 → w ∈ anyWidth → sh.toNat ≠ t.shares → vd.toNat + (t.shares + 1) * g ≤ 32 → vs1.toNat + (t.shares + 1) * g ≤ 32 → vs2.toNat + (t.shares + 1) * g ≤ 32 →
      Traps (.vadd e vd vs1 vs2 pm sh) s e k 0x13 vd.toNat) ∧
    (sh = 0 → aligned → t.vtype ≠ 0 → w ∈ anyWidth → t.vTag vs1.toNat ≠ 0 → Traps (.vadd e vd vs1 vs2 pm sh) s e k 0x13 vs1.toNat)

/-- 06 R127; 07 R157: an instruction word that stands for no instruction traps with ILLEGAL, ES_TVAL the word, and 0 is such a word. -/
def Sys2Proof.Claims.IllegalWords : Prop :=
  ∀ (s : State) (e : Fin 144) (k : Nat) (w : BitVec 32), Issues s e k →
    (furrowDecode e w = none → Traps (.illegalInstruction e w) s e k 0x01 w.toNat) ∧ furrowDecode e 0 = none

/-- VectorTrapOrder and IllegalWords, together. -/
def Obligations.TrapOrderAndIllegalWords : Prop := VectorTrapOrder ∧ IllegalWords


/-! ## Host interface (02) -/

/-- 02 R28 to R30, R36: a doorbell of a queue that is absent sets BAD_DOORBELL; one of an enabled queue at rest starts a scan, whose first burst reads up to 8 owned entries, no further than the
end of the ring nor than free command slots; one during a scan asks for another; without a free slot the queue is PENDING until one frees. -/
def Sys2Proof.Claims.DoorbellsAndScans : Prop :=
  ∀ (s : State) (a : Fin 64) (n : Fin 1024),
    let d := hostAccess a s.dev
    let q := d.sq a n
    let want := min 8 (min (q.depth - q.fetchIdx) (d.slotsLeft a))
    let may := ∀ i < want, gateCheck d a a (q.base + (q.fetchIdx + i) * 64) 64 0 true none = .permit
    let m := d.adm a
    let wantAdm := min 8 (m.depth - m.fetchIdx)
    (PageTaken s a →
      (q.present = false → Gives (.sqDoorbell a n) s (d.updAllot a (fun t => { t with badDoorbell := true }))) ∧
      (q.present = true → q.disable = false → q.error = false →
        (q.scanning = true ∨ q.pend = true → Gives (.sqDoorbell a n) s (d.updSq a n (fun q => { q with rescan := true }))) ∧
        (q.scanning = false → q.pend = false → d.frozen = false → 0 < want → may → Does (.sqDoorbell a n) s (fun d' =>
          d'.sq a n = { q with scanning := true, rescan := false, pend := false, burst := want } ∧ d'.out = s.dev.out ++ [.burstRead a n q.fetchIdx want] ∧
          d'.cmds = s.dev.cmds ∧ d'.allots = d.allots)) ∧
        (q.scanning = false → q.pend = false → d.frozen = false → want = 0 → Does (.sqDoorbell a n) s (fun d' =>
          d'.sq a n = { q with scanning := true, rescan := false, pend := true } ∧ d'.out = s.dev.out))) ∧
      (m.enable = true → m.error = false →
        (m.scanning = true → Gives (.admDoorbell a) s (d.updAdm a (fun q => { q with rescan := true }))) ∧
        (m.scanning = false → d.frozen = false → 0 < wantAdm → (∀ i < wantAdm, gateCheck d a a (m.sqBase + (m.fetchIdx + i) * 64) 64 0 true none = .permit) →
          Does (.admDoorbell a) s (fun d' => d'.adm a = { m with scanning := true, rescan := false, burst := wantAdm } ∧
            d'.out = s.dev.out ++ [.burstRead a 0xFFFF m.fetchIdx wantAdm] ∧ d'.sqs = s.dev.sqs)))) ∧
    (let q := s.dev.sq a n;
      q.present = true → q.pend = true → q.disable = false → q.error = false → (s.dev.allot a).flr = none → s.dev.stopped = false → s.dev.scansPaused = false → 0 < s.dev.slotsLeft a →
      Gives (.scanResume a n) s (issueBurst a n (s.dev.updSq a n (fun q => { q with pend := false }))))

/-- 02 R27, R29, R30, R53: the entries of a burst are looked at in ring order. One that is not owned ends the scan; an owned one has its CONTROL word written back with OWN 0, takes the lowest free
command slot, and the fetch position and
the count of consumed entries advance, then comes the next; without a free slot the entry stays as it is and the queue is PENDING; an admin entry joins the admin commands. A read that the host
link completes with an error puts the queue in ERROR, cause 3. -/
def Sys2Proof.Claims.BurstsAreConsumed : Prop :=
  ∀ (s : State) (a : Fin 64) (n : Fin 1024) (data : List Entry), s.dev.stopped = false → s.dev.scansPaused = false → (s.dev.allot a).flr = none →
    let q := s.dev.sq a n
    let m := s.dev.adm a
    let e := data.getD 0 0
    let back (d : Device) (base i : Nat) : Device := d.emit (.hostWrite a (base + i * 64 + 60) (toBytes 4 (eControl e % 2 ^ 31)))
    (0 < q.burst → q.disable = false → q.error = false →
      (eOwn e = false → q.rescan = false → Gives (.burstDataArrive a (some n) data false) s (s.dev.updSq a n (fun q => { q with scanning := false, rescan := false, burst := 0 }))) ∧
      (eOwn e = true → s.dev.slotsLeft a = 0 → Does (.burstDataArrive a (some n) data false) s (fun d => d.sq a n = { q with burst := 0, pend := true } ∧ d.out = s.dev.out ∧ d.cmds = s.dev.cmds)) ∧
      (eOwn e = true → s.dev.slotsLeft a ≠ 0 → gateCheck s.dev a a (q.base + q.fetchIdx * 64 + 60) 4 1 true none = .permit →
        Gives (.burstDataArrive a (some n) data false) s (examine a n ((burstOf q.burst data).drop 1) (consume a n e (back s.dev q.base q.fetchIdx))) ∧
        (∀ k attr, s.dev.freeSlot = some k → eBatch e = false → eBatchLast e = false → eOneCqe e = false → reservedClean e = true → q.batch = [] → s.dev.admitLate a e = (attr, none) →
          let d' := consume a n e (back s.dev q.base q.fetchIdx)
          d'.sq a n = { q with fetchIdx := (q.fetchIdx + 1) % q.depth, consumed := q.consumed + 1 } ∧
          Holding d' k (fun c => c.entry = e ∧ c.allot = a ∧ c.sq = n ∧ c.order = s.dev.order + 1 ∧ c.attr = attr ∧ c.phase = .waiting) ∧
          (∀ j, j ≠ k → d'.cmd j = s.dev.cmd j))) ∧
      Does (.burstDataArrive a (some n) data true) s (fun d =>
        let t := d.sq a n
        t.error = true ∧ t.disable = true ∧ t.cause = 3 ∧ t.failAddr = q.base + q.fetchIdx * 64 ∧ t.burst = 0 ∧ t.fetchIdx = q.fetchIdx)) ∧
    (0 < m.burst → m.enable = true → m.error = false →
      (eOwn e = true → gateCheck s.dev a a (m.sqBase + m.fetchIdx * 64 + 60) 4 1 true none = .permit →
        Gives (.burstDataArrive a none data false) s (examineAdm a ((burstOf m.burst data).drop 1) ((({ back s.dev m.sqBase m.fetchIdx with order := s.dev.order + 1 }).updAdm a (fun q => { q with
          fetchIdx := (q.fetchIdx + 1) % q.depth, cmds := q.cmds ++ [(s.dev.order + 1, e)] }))))) ∧
      (eOwn e = false → m.rescan = false → Gives (.burstDataArrive a none data false) s (s.dev.updAdm a (fun q => { q with scanning := false, rescan := false, burst := 0 }))) ∧
      Does (.burstDataArrive a none data true) s (fun d =>
        let t := d.adm a
        t.error = true ∧ t.cause = 3 ∧ t.failAddr = m.sqBase + m.fetchIdx * 64 ∧ t.burst = 0 ∧ t.fetchIdx = m.fetchIdx))

/-- DoorbellsAndScans and BurstsAreConsumed, together. -/
def Obligations.SubmissionQueues : Prop := DoorbellsAndScans ∧ BurstsAreConsumed


/-- 02 R33: a HEAD write of a completion queue, of the admin completion ring or of the notice ring is valid when (new − old) mod 65,536 ≤ (TAIL − old) mod 65,536. A valid one
becomes HEAD; an invalid one is ignored, HEAD keeping its value, and QUEUE_HEAD_INVALID is posted. A write that moves HEAD backwards is invalid. -/
def Obligations.HeadWrites : Prop :=
  (∀ (s : State) (a : Fin 64) (n : Fin 1024) (head : BitVec 16), PageTaken s a →
    let d := hostAccess a s.dev
    let c := d.cq a n
    let m := d.adm a
    let r := (d.allot a).ntc
    let within (h t : Nat) : Prop := (head.toNat + 65536 - h) % 65536 ≤ (t + 65536 - h) % 65536
    (c.present = true → within c.head c.tail → c.waiting = [] → Gives (.cqHeadWrite a n head) s (d.updCq a n (fun q => { q with head := head.toNat }))) ∧
    (c.present = true → ¬ within c.head c.tail → ∃ p, p % 65536 = head.toNat ∧ Gives (.cqHeadWrite a n head) s (notice a 0x7001 1 n p 0 0 d) ∧ ((notice a 0x7001 1 n p 0 0 d).cq a n).head = c.head) ∧
    (within m.head m.tail → m.cqWaiting = [] → m.enable = true →
        Does (.admCqHeadWrite a head) s (fun d' => d'.adm a = { m with head := head.toNat } ∧ d'.out = s.dev.out)) ∧
    (¬ within m.head m.tail → ∃ p, p % 65536 = head.toNat ∧ Gives (.admCqHeadWrite a head) s (notice a 0x7001 1 0x1_FFFF p 0 0 d) ∧
      ((notice a 0x7001 1 0x1_FFFF p 0 0 d).adm a).head = m.head) ∧
    (within r.head r.tail → r.held = [] → r.dropped = 0 →
        Does (.ntcHeadWrite a head) s (fun d' => (d'.allot a).ntc = { r with head := head.toNat } ∧ d'.out = s.dev.out)) ∧
    (¬ within r.head r.tail → ∃ p, p % 65536 = head.toNat ∧ Gives (.ntcHeadWrite a head) s (notice a 0x7001 1 0x2_0000 p 0 0 d) ∧
      (((notice a 0x7001 1 0x2_0000 p 0 0 d).allot a).ntc).head = r.head)) ∧
  (∀ old tail j : Nat, old < 65536 → tail < 65536 → 0 < j → (tail + 65536 - old) % 65536 + j < 65536 →
    ¬ ((old + 65536 - j) % 65536 + 65536 - old) % 65536 ≤ (tail + 65536 - old) % 65536)

/-- 02 R30, R36, R51, R52, R54 to R57: what the host's writes to a queue page do: DISABLE stops a queue, and a drained one becomes
IDLE and may run again; ENABLE starts the admin and the notice ring afresh; BAD_DOORBELL clears; a mask bit is set or cleared, and unmasking sends the messages that wait. -/
def Sys2Proof.Claims.QueueRegisters : Prop :=
  ∀ (s : State) (a : Fin 64) (n : Fin 1024) (what : Fin 3) (v : Fin 32),
    let d := hostAccess a s.dev
    let q := d.sq a n
    let m := d.adm a
    let r := (d.allot a).ntc
    (PageTaken s a →
      (q.present = true → q.disable = false → d.ofQueue a n = [] → q.batch = [] → Gives (.sqDisable a n) s (d.updSq a n (fun q => { q with
        disable := true, scanning := false, rescan := false, pend := false, batch := [] }))) ∧
      (q.present = true → q.idle = true → q.error = false → Gives (.sqReenable a n) s (d.updSq a n (fun q => { q with disable := false, idle := false }))) ∧
      ((d.allot a).ready = true → m.enable = false → m.idle = true → Does (.admEnable a) s (fun d' => d'.adm a = { m with
        enable := true, idle := false, error := false, cqBad := false, cause := 0, failAddr := 0, fetchIdx := 0, head := 0, tail := 0, scanning := false, rescan := false, burst := 0 })) ∧
      (m.enable = true → m.waits = .none → m.cmds = [] → m.cqWaiting = [] → m.burst = 0 → m.errorDue = false → Does (.admDisable a) s (fun d' => d'.adm a = { m with
        enable := false, scanning := false, rescan := false, idle := true })) ∧
      (r.enable = false → r.held = [] → r.dropped = 0 → Does (.ntcEnable a) s (fun d' => (d'.allot a).ntc = { r with enable := true, error := false, head := 0, tail := 0 })) ∧
      Does (.ntcDisable a) s (fun d' => (d'.allot a).ntc = { r with enable := false }) ∧
      Gives (.badDoorbellClear a) s (d.updAllot a (fun t => { t with badDoorbell := false })) ∧
      (∀ on : Bool, (∀ u < 32, ((d.allot a).vec u).pending = false) ∨ on = false → Does (.msixUnmask a what v on) s (fun d' => (on = true → d'.out = s.dev.out) ∧
        (what = 0 → ((d'.allot a).vec v).mask = !on) ∧ (what = 1 → (d'.allot a).funcMask = !on) ∧ (what = 2 → (d'.allot a).msixEnable = on))) ∧
      (let t := d.allot a;
        what = 1 → t.msixEnable = true → (t.vec v).pending = true → (t.vec v).mask = false → (∀ u < 32, u ≠ v.val → (t.vec u).pending = false) → Does (.msixUnmask a what v true) s (fun d' =>
          d'.out = s.dev.out ++ [.msix a v (t.vec v).addr (t.vec v).data] ∧ ((d'.allot a).vec v).pending = false))) ∧
    (let q := s.dev.sq a n;
      q.present = true → q.disable = true → q.burst = 0 → s.dev.ofQueue a n = [] → NoAdminWaits s.dev → Gives (.sqIdle a n) s (s.dev.updSq a n (fun q => { q with idle := true }))) ∧
    (let c := s.dev.cq a n;
      (s.dev.allot a).flr = none → c.present = true → c.irqEn = true → 0 < c.unsig → 0 < c.coalTime → c.oldest + c.coalTime * 1000 ≤ s.dev.time →
      Gives (.coalTimer a n) s (signal a c.vector (s.dev.updCq a n (fun q => { q with unsig := 0 }))))

/-- 02 R36 to R40, R438; 03 R82: queue management. Created queues have the parameters of the entry; a queue bound to is not deleted; QUERY_QUEUE writes 64 bytes; an opcode that is not assigned, or
not a VF's, is refused; ABORT answers how many commands matched, each of which ends. Each completes with OK. -/
def Sys2Proof.Claims.QueueManagement : Prop :=
  ∀ (s : State) (a : Fin 64) (o : Nat) (e : Entry),
    let d := s.dev
    let n := bytesAt e 4 2
    let depth := bytesAt e 6 2
    let base := bytesAt e 8 8
    let ok (d : Device) : Device := admDone a stOk 0 0 d
    (AdminTurn s a 0x0001 cqParams [(8, 4096)] o e → n < 1024 → (d.cq a n).present = false → isPow2Between depth 16 4096 = true → d.cqHeld a < (d.allot a).cqQuota → d.cqs.length < 16384 →
      bytesAt e 16 1 < 32 → (bytesAt e 18 1 ≤ 1 ∨ bytesAt e 20 2 ≠ 0) → bytesAt e 20 2 < 1024 → (d.gate a).close = false → ringPlaced d a base (depth * 16) false true = true →
      Gives (.createCq a) s (ok (d.updCq a n (fun _ => { present := true, depth := depth, base := base, vector := bytesAt e 16 1, irqEn := bitOf (bytesAt e 17 1) 0, coalCount := bytesAt e 18 1, coalTime := bytesAt e 20 2 })))) ∧
    (AdminTurn s a 0x0002 (wholeBytes 4 5) [] o e → n < 1024 → (d.cq a n).present = true →
      ((∃ x ∈ d.sqs, x.1 / 1024 = a ∧ x.2.cqId = n) → Gives (.deleteCq a) s (admDone a stRefused 0 0x9 d)) ∧
      ((∀ x ∈ d.sqs, x.1 / 1024 = a → x.2.cqId ≠ n) → Gives (.deleteCq a) s (ok (removeCq a n d)))) ∧
    (AdminTurn s a 0x0003 (wholeBytes 4 18) [(8, 4096)] o e → n < 1024 → (d.sq a n).present = false → isPow2Between depth 16 4096 = true → d.sqHeld a < (d.allot a).sqQuota → d.sqs.length < 16384 →
      bytesAt e 16 2 < 1024 → (d.cq a (bytesAt e 16 2)).present = true → bytesAt e 18 1 ≤ 1 → (d.gate a).close = false → ringPlaced d a base (depth * 64) true true = true →
      Gives (.createSq a) s (ok (d.updSq a n (fun _ => { present := true, depth := depth, base := base, cqId := bytesAt e 16 2, free := decide (bytesAt e 18 1 = 1) })))) ∧
    (AdminTurn s a 0x0004 (wholeBytes 4 5) [] o e → n < 1024 → (d.sq a n).present = true →
      let d := if (d.sq a n).disable then d else disableSq a n d
      ((d.sq a n).idle = true → Gives (.deleteSq a) s (ok (removeSq a n d))) ∧
      ((d.sq a n).idle = false → Gives (.deleteSq a) s (d.updAdm a (fun q => { q with waits := .queueIdle n })))) ∧
    (AdminTurn s a 0x0005 (wholeBytes 4 6 ++ wholeBytes 8 15) [(8, 64)] o e → n < 1024 → (bytesAt e 6 1 = 0 ∧ (d.sq a n).present = true ∨ bytesAt e 6 1 = 1 ∧ (d.cq a n).present = true) → (d.allot a).flr = none →
      gateCheck d a a base 64 1 true none = .permit → Gives (.queryQueue a) s (admDone a stOk 64 0 (d.emit (.hostWrite a base (queueRecord a n (bytesAt e 6 1) d))))) ∧
    (AdminTurn s a 0x0006 cqParams [] o e → n < 1024 → (d.cq a n).present = true → bytesAt e 16 1 < 32 → (bytesAt e 18 1 ≤ 1 ∨ bytesAt e 20 2 ≠ 0) → bytesAt e 20 2 < 1024 →
      Gives (.modifyCq a) s (ok (coalSignal a n (d.updCq a n (fun q => { q with vector := bytesAt e 16 1, irqEn := bitOf (bytesAt e 17 1) 0, coalCount := bytesAt e 18 1, coalTime := bytesAt e 20 2 }))))) ∧
    (admFront a d = some (o, e) →
      (a.val ≠ 0 → opcodeOwner (bytesAt e 2 2) = true → Gives (.unassignedOpcode a) s (admDone a stRefused 0 0xE d)) ∧
      (opcodeOwner (bytesAt e 2 2) = false → opcodeAssigned (bytesAt e 2 2) = false → Gives (.unassignedOpcode a) s (admDone a stRefused 0 0xD d))) ∧
    (AdminTurn s a 0x0010 (wholeBytes 4 9) [] o e → n = 0xFFFF ∨ n < 1024 ∧ (d.sq a n).present = true →
      let hit := (d.cmds.filter (fun x => abortMatches a n (bytesAt e 6 2) (bytesAt e 8 2) x.2)).map (fun x => x.1)
      Gives (.abort a) s (admDone a stOk 0 hit.length (foldOver (fun k d => if (d.cmdOr k).phase = .ended then d else if (d.cmdOr k).started then haltWith k stAborted 2 0 d else concludeUnstarted k stAborted 1 d) hit d)))

/-- QueueRegisters and QueueManagement, together. -/
def Obligations.QueueRegistersAndManagement : Prop := QueueRegisters ∧ QueueManagement


/-- 02 R32, R34, R36, R41, R48 to R50: the completion of an ended command is written when nothing of its queue must come first, into the next slot of its completion queue, and its command slot is
free again; without room it waits in the completion queue's line; a success that asks for no entry writes none. A batch that asked for one completion
has it when every member has ended, and all their slots are free again. -/
def Obligations.CompletionEntries : Prop :=
  ∀ (s : State) (k : Fin 4096) (c : Cmd),
    let d := s.dev
    let a := c.allot
    let n := (d.sq a c.sq).cqId
    let q := d.cq a n
    d.cmd k = some c → c.phase = .ended → (d.allot a).flr = none → d.frozen = false → batchClear c = true → d.parked k = false →
    let first (o : Nat) : Prop := (d.sq a c.sq).free = true ∧ d.inBarrier c = false ∨ ∀ x ∈ d.cmds, x.2.allot = a → x.2.sq = c.sq → o ≤ x.2.order
    let puts (slots : List Nat) (x : CqEntry) (d' : Device) : Prop :=
      (∀ j, d'.cmd j = if j ∈ slots then none else d.cmd j) ∧ (∃ more, d'.out = d.out ++ [.hostWrite a (q.base + q.tail % q.depth * 16) (toBytes 16 x.toNat)] ++ more) ∧
      (d'.cq a n).tail = (q.tail + 1) % 65536 ∧ (d'.cq a n).written = q.written + 1 ∧ (d'.cq a n).head = q.head ∧ d'.rsv = d.rsv
    let takes : Prop := q.error = false ∧ (q.tail + 65536 - q.head) % 65536 < q.depth ∧ q.waiting = []
    let may : Prop := q.present = true ∧ gateCheck d a a (q.base + q.tail % q.depth * 16) 16 1 true none = .permit
    (c.batchOne = false → first c.order →
      let quiet := if c.batch.isSome then c.batchErr else eErrOnly c.entry
      let pos := match c.batch with
        | some x => x.2
        | none => 0
      let x := mkCqe (eTag c.entry) c.sq c.status c.batch.isSome pos c.outLen c.detail
      (c.status = stOk → quiet = true → (∀ y ∈ d.cmds, y.2.allot = a → y.2.sq = c.sq → c.order ≤ y.2.order) →
        Does (.completionWrite k) s (fun d' => (∀ j, d'.cmd j = if j = k.val then none else d.cmd j) ∧ (d'.cq a n).tail = q.tail ∧ (d'.cq a n).written = q.written)) ∧
      (c.status ≠ stOk ∨ quiet = false → takes → may → Does (.completionWrite k) s (puts [k.val] x)) ∧
      (c.status ≠ stOk ∨ quiet = false → q.error = false → ¬ takes → Gives (.completionWrite k) s (d.updCq a n (fun q => { q with waiting := q.waiting ++ [(x, k.val, c.sq)] })))) ∧
    (c.batchOne = true → (∀ x ∈ d.cmds, sameBatch c x.2 = true → x.2.phase = .ended) →
      let ms := d.members c
      let x := batchCqe c (ms.map (fun m => m.2))
      (∀ m rest, ms = m :: rest → first m.2.order) → x.1 ≠ stOk ∨ c.batchErr = false → takes → may →
      Does (.completionWrite k) s (puts (ms.map (fun m => m.1)) x.2))

/-! ## Life of a command (03, 04, 05) -/

/-- 04 R96, R97, R99, R101; 03 R71, R73: a command free of waits joins the line of its Weir with its cost, or completes: with WEIR_SHED where the Weir is not its allotment's, with CONTEXT_ABSENT
where its context is free. The head of a line is charged and released to the Lateral with the least backlog when LEVEL covers its cost; it is shed when it has waited MAX_WAIT. Writing WEIR_CTRL
commits the staged words; enabling or moving a Weir fills LEVEL, disabling or moving it sheds its line. -/
def Obligations.WeirsAdmitCommands : Prop :=
  ∀ (s : State), s.dev.stopped = false →
    let d := s.dev
    (∀ (k : Fin 4096) (c : Cmd), d.cmd k = some c → c.phase = .waiting → d.barrierClear c = true → batchClear c = true → d.ctxTurn c = true →
      let d := expireBefore c d
      let w := d.weir c.weir
      let unfed : Prop := c.attr.needsRandom = true ∧ d.entropyAvailable = false ∨ c.attr.order ≠ 0 ∧ d.boot.entropyReady = false
      (d.ctxAnswer c = .go → ¬ unfed →
        (w.en = false ∨ w.allot ≠ c.allot → Gives (.weirJoin k) s (conclude k stWeirShed c.weir 0 d)) ∧
        (∀ n, w.en = true → w.allot = c.allot → d.costOf c = (n, false) → 0 < n → Does (.weirJoin k) s (fun d' =>
          d'.weir c.weir = { w with line := w.line ++ [k.val] } ∧ d'.cmd k = some { c with cost := n, since := d.time, entropySince := none, phase := .line } ∧
          ∀ j, j ≠ k.val → d'.cmd j = d.cmd j)) ∧
        (∀ b l, w.en = true → w.allot = c.allot → d.costOf c = (0, false) → d.findStage (stageNeed c) = some b →
          (d.updCmd k (fun c => { c with cost := 0 })).placement c.allot = some l → Does (.weirJoin k) s (fun d' =>
          d'.weirs = d.weirs ∧ (d'.lat l).ready = (d.lat l).ready ++ [k.val] ∧
          d'.cmd k = some { c with cost := 0, since := d.time, entropySince := none, phase := .ready, started := true, stageBase := b, stageSize := stageNeed c, lateral := l, readyAt := d.time, front := false }))) ∧
      (d.ctxAnswer c = .go → unfed → c.entropySince = none → Does (.weirJoin k) s (fun d' => d'.cmd k = some { c with entropySince := some d.time })) ∧
      (d.ctxAnswer c = .wait → Gives (.weirJoin k) s d) ∧
      (∀ st det, d.ctxAnswer c = .fail st det → Gives (.weirJoin k) s (conclude k st det 0 d)) ∧
      (c.takesCtx = false → d.ctxAnswer c = .go) ∧
      (c.takesCtx = true → (s.dev.ctx (eCtx c.entry)).st = .free → Gives (.weirJoin k) s (conclude k stCtxAbsent 0 0 s.dev))) ∧
    (∀ (n : Fin 4096) (k : Nat) (rest : List Nat) (c : Cmd) (b l : Nat),
      let r := refill n d
      let w := r.weir n
      w.line = k :: rest → d.cmd k = some c → w.covers c.cost = true → r.findStage (stageNeed c) = some b → r.placement c.allot = some l →
      Does (.weirCharge n) s (fun d' =>
        d'.weir n = { w with line := rest, level := if w.unlimited then w.level else w.level - (c.cost : Int) * 1024, charged := (w.charged + c.cost) % 2 ^ 32 } ∧
        (d'.lat l).ready = (d.lat l).ready ++ [k] ∧
        d'.cmd k = some { c with phase := .ready, started := true, stageBase := b, stageSize := stageNeed c, lateral := l, readyAt := d.time, front := false })) ∧
    (∀ (k : Fin 4096) (c : Cmd), d.cmd k = some c → c.phase = .line →
      let r := refill c.weir d
      let w := r.weir c.weir
      c.since + w.maxWait * 1_000_000 ≤ d.time → (w.maxWait = 0 → w.line.head? = some k.val) →
      (∀ h, w.line.head? = some h → w.covers (r.cmdOr h).cost = false ∨ release h r = none) →
      Gives (.weirShed k) s (concludeUnstarted k stWeirShed (c.weir + min ((d.time - c.since) / 1_000_000) 0xFFFF * 2 ^ 16)
        (r.updWeir c.weir (fun w => { w with shed := (w.shed + 1) % 2 ^ 32, shedSec := w.shedSec + 1, shedAllot := c.allot })))) ∧
    (∀ (n : Fin 4096) (v : BitVec 32), BarTaken s (0xB000C + 16 * n) →
      let d := hostAccess 0 s.dev
      let w := (refill n d).weir n
      let burst := max 1 (w.sBurst.getD w.burst)
      let rate := w.sRate.getD w.rate
      let en := bitOf v.toNat 8
      let moved := w.allot != field v.toNat 5 0
      let full : Int := (burst : Int) * 1024
      let level : Int := if (w.en = false ∧ en = true) ∨ moved = true then full else min w.level full
      let t : Weir := { w with
        rate := rate, burst := burst, maxWait := w.sWait.getD w.maxWait, sRate := none, sBurst := none, sWait := none, allot := field v.toNat 5 0, en := en,
        unlimited := bitOf v.toNat 9, level := if rate = 0 then min level 0 else level,
        shed := if moved then 0 else w.shed, charged := if moved then 0 else w.charged }
      (w.line = [] ∨ (en = true ∧ moved = false) → Does (.weirCtrlWrite n v) s (fun d' => d'.weir n = t ∧ d'.cmds = d.cmds)) ∧
      (en = false ∨ moved = true → (∀ k ∈ w.line, ∃ c, d.cmd k = some c ∧ c.weir = n) → Does (.weirCtrlWrite n v) s (fun d' =>
        (d'.weir n).line = [] ∧ (d'.weir n).en = en ∧ (d'.weir n).allot = field v.toNat 5 0 ∧ ∀ k ∈ w.line, Holding d' k (fun c => c.phase = .ended ∧ c.status = stWeirShed))))

/-- 05 R112, R116 to R120, R123, R124; 06, Table 6.9: a free engine takes from its Lateral's ready list the command that deficit round robin, PRIORITY and order choose, or one that has waited 20 us
elsewhere. A command starts with its registers zero, the pc at its image's entry and the ES registers as the entry says; its operand memory holds the image's data. The eligible command with the most
engine time is preempted, after its trap handler if one runs; its record is taken once its transfers are done, and it waits at the head of its Lateral's list. -/
def Obligations.EnginesTakeCommands : Prop :=
  ∀ (s : State), s.dev.stopped = false →
    let d := s.dev
    (∀ (l : Fin 16) (a k e : Nat) (credit : Tbl Int),
      let free := (enginesOf l).filter (fun e => d.engineFree e)
      let can (k : Nat) : Bool := free.any (fun e => d.startable e k)
      d.drr l ((((d.lat l).ready.filter can).map (fun k => (d.cmdOr k).allot)).eraseDups) = some (a, credit) → d.offer l a can = some k →
      d.bestEngine k (free.filter (fun e => d.startable e k)) = some e →
      Gives (.engineDispatch l) s (startOn e k (d.updLat l (fun t => { t with credit := credit, lastServed := a })))) ∧
    (∀ (k : Fin 4096) (e : Fin 144) (c : Cmd), d.cmd k = some c → c.phase = .ready → c.readyAt + 20_000 ≤ d.time → d.engineFree e = true → latOf e ≠ c.lateral →
      d.mayUse c.allot (latOf e) = true → d.startable e k = true →
      Gives (.readySteal k e) s ((startOn e k d).bump 0x000F_8008) ∧
      (c.saved = none → c.takesCtx = false → (d.eng e).lastAllot = none ∨ (d.eng e).lastAllot = some c.allot → Does (.readySteal k e) s (fun d' =>
        let g := d'.eng e
        let t := g.arch
        g.st = .running ∧ g.slot = some k.val ∧ g.lastAllot = some c.allot ∧ g.leases = (d.eng e).leases ∧ Holding d' k (fun x => x.phase = .running ∧ x.engine = some e.val) ∧
        k.val ∉ (d'.lat c.lateral).ready ∧ t.pc = c.attr.entry ∧ t.x = [] ∧ t.v = [] ∧ t.textLen = c.attr.textLen ∧ t.shares = c.attr.order ∧ t.routine = c.attr.routine ∧
        t.param = eParam c.entry ∧ t.inlen = eInLen c.entry ∧ t.inavail = (if c.attr.stream then 0 else eInLen c.entry) ∧ t.incons = 0 ∧ t.outmax = eOutMax c.entry ∧ t.keyh = eKey c.entry ∧ t.opm = writeBytes [] 0 (d.dataOf c) ∧ t.cycles = 0))) ∧
    (∀ (k : Fin 4096) (c : Cmd) (e : Nat), d.cmd k = some c → bitOf (d.reg 0x000F_8000) 31 = true → (d.lat c.lateral).ready.contains k.val = true → c.readyAt + d.sluWait * 1000 ≤ d.time →
      leastBy (fun e => 10 ^ 12 - (d.eng e).arch.sliceCycles) ((enginesOf c.lateral).filter (fun e => d.eligible c.lateral e c)) = some e →
      (∀ j, (d.eng e).arch.intrap = false → (d.eng e).slot = some j → Does (.preemptTrigger k) s (fun d' => (d'.eng e).st = .saving ∧ (d'.lat (latOf e)).busyWith = some e ∧
        (d'.eng e).arch = (d.eng e).arch ∧ Holding d' j (fun x => x.phase = .saved ∧ ∃ r, x.saved = some r ∧ r.complete = false ∧ r.gen = d.saveGen ∧ x.saveGen = d.saveGen))) ∧
      ((d.eng e).arch.intrap = true → Does (.preemptTrigger k) s (fun d' => (d'.eng e).preemptDue = true ∧ (d'.eng e).st = .running ∧ (d'.lat (latOf e)).busyWith = some e ∧
        (d'.eng e).arch = (d.eng e).arch ∧ d'.cmds = d.cmds))) ∧
    (∀ (e : Fin 144) (k : Nat) (c : Cmd) (r : SaveRec), (d.eng e).slot = some k → d.saveReady e k = true → d.cmd k = some c → c.saved = some r →
      (d.lat (latOf e)).busyWith = some e.val → (∀ g ∈ enginesOf (latOf e), (d.eng g).fenceDue = false) →
      Does (.saveDone e) s (fun d' => (d'.eng e).st = .idle ∧ (d'.eng e).slot = none ∧ (d'.lat (latOf e)).ready = k :: (d.lat (latOf e)).ready ∧ (d'.lat (latOf e)).busyWith = none ∧
        Holding d' k (fun x => x.saved = some { r with arch := { (d.eng e).arch with entAsked := none }, complete := true } ∧ x.engine = none ∧ x.front = true ∧ x.readyAt = d.time))) ∧
    (∀ (e : Fin 144) (k : Nat), (d.eng e).slot = some k → (d.eng e).st = .running → (d.cmdOr k).phase = .running → runLimit (d.cmdOr k) ≤ (d.eng e).arch.cycles →
      Gives (.watchdog e) s (takeTrap e k 0x09 (d.eng e).arch.cycles d)) ∧
    (∀ e : Fin 144, (d.eng e).st = .running → Gives (.imemParityRefetch e) s (raiseFault 0x1A e (d.eng e).slot 0 (d.bump (engPage e + 0x020 + 16 * 2 ^ 32) 0xFFFF)))

/-- 03 R62 to R64, R74, 04, Table 4.10: what reading an input comes to: a flat buffer whose pieces the gate permits is read; a gather list is refused when it is unaligned or an entry is malformed, and is short or long by
what its last entry leaves; a Reservoir buffer is short or long by its recorded length. -/
def Sys2Proof.Claims.InputsEnd : Prop :=
  ∀ (d : Device) (c : Cmd) (lst : List GatherEntry),
    let a := c.allot
    let n := eInLen c.entry
    let at_ := eInAddr c.entry
    (n = 0 → d.inputEnd c lst = .done) ∧
    (0 < n → eInRsv c.entry = false → bitOf at_ 63 = false →
      ((∀ p ∈ pieces at_ n, gateCheck d a a p.1 p.2 0 true none = .permit) → d.inputEnd c lst = .done) ∧
      (n ≤ 256 → (d.gate a).close = true → d.inputEnd c lst = .wait at_ n) ∧
      (∀ cs rg st, n ≤ 256 → gateCheck d a a at_ n 0 true none = .refuse cs rg st → d.inputEnd c lst = .refused 1 cs rg st at_ n)) ∧
    (0 < n → eInRsv c.entry = false → bitOf at_ 63 = true →
      let base := at_ % 2 ^ 63
      (base % 16 ≠ 0 → d.inputEnd c lst = .malformed) ∧
      (∀ g rest, lst = g :: rest → base % 16 = 0 → gateCheck d a a base 16 0 true none = .permit →
        let addr := g.1.toNat
        let len := g.2.1.toNat
        (bitOf addr 63 = true ∨ g.2.2.toNat / 2 ≠ 0 → d.inputEnd c lst = .malformed) ∧
        (bitOf addr 63 = false → g.2.2.toNat = 1 → (∀ p ∈ pieces addr (min len n), gateCheck d a a p.1 p.2 0 true none = .permit) →
          d.inputEnd c lst = if len < n then .short len else if n < len then .long len else .done))) ∧
    (0 < n → eInRsv c.entry = true →
      (d.bufFor c at_ = none → d.inputEnd c lst = .refused 5 0 0xFFFF false 0 0) ∧
      (∀ b x, d.bufFor c at_ = some (b, x) → d.inputEnd c lst = if x.len < n then .short x.len else if n < x.len then .long x.len else .done))

/-- 03 R62 to R64, R74, R86; 04 R105; 06 R140; 09 R195, R223: staging puts the input, from host memory or a Reservoir buffer, and behind no other bytes the auxiliary input, into staging, nothing else in the Reservoir changing;
an input that InputsEnd finds short, long, malformed or refused ends the command so; a closed gate makes it wait; of a streamed input only the auxiliary one is staged; no input is read for a routine that refuses its arguments.
`rd` says what the read of a Reservoir buffer met. Streamed input arrives in the 1 MiB window and advances ES_INAVAIL. -/
def Sys2Proof.Claims.InputIsStaged : Prop :=
  ∀ (s : State) (k : Fin 4096) (c : Cmd), s.dev.stopped = false → s.dev.cmd k = some c →
    let d := s.dev
    let a := c.allot
    let n := eInLen c.entry
    let x := c.attr.auxLen
    (∀ (lst : List GatherEntry) (data aux : List Byte) (rd : RsvRead), c.phase = .ready → c.inDone = false →
      let run := Instr.inputStaged k lst data aux rd
      (c.earlyRefusal.isSome = true → Gives run s (d.updCmd k (fun c => { c with inDone := true }))) ∧
      (c.earlyRefusal = none → c.attr.stream = true → (x = 0 ∨ ∀ p ∈ pieces (eAux c.entry) x, gateCheck d a a p.1 p.2 0 true none = .permit) → Does run s (fun d' =>
        d'.rsvRead c.auxAt x = padTo x aux ∧ d'.cmd k = some { c with inDone := true })) ∧
      (c.earlyRefusal = none → c.attr.stream = false →
        let buf := if eInRsv c.entry then d.bufFor c (eInAddr c.entry) else none
        let m := match buf with
          | some (_, b) => meetRead rd (d.partBase a + b.place) n d
          | none => d
        let bytes := match buf with
          | some (_, b) => m.rsvRead (m.partBase a + b.place) n
          | none => padTo n data
        (m.inputEnd c lst = .done → m.cmd k = some c → (x = 0 ∨ ∀ p ∈ pieces (eAux c.entry) x, gateCheck m a a p.1 p.2 0 true none = .permit) → Does run s (fun d' =>
          d'.rsvRead c.inAt n = bytes ∧ d'.rsvRead c.auxAt x = padTo x aux ∧ d'.cmd k = some { c with inDone := true } ∧
          ∀ b, (b < c.auxAt ∨ c.auxAt + x ≤ b) → (b < c.inAt ∨ c.inAt + n ≤ b) → d'.rsvRead b 1 = m.rsvRead b 1)) ∧
        (m.inputEnd c lst = .done → (m.gate a).close = true → 0 < x → x ≤ 256 → Does run s (fun d' => d'.rsv = m.rsv ∧ d'.cmds = m.cmds ∧ ∃ w ∈ (d'.gate a).waiting, w.who = .aux k ∧ w.addr = eAux c.entry)) ∧
        (∀ p q, m.inputEnd c lst = .wait p q → Gives run s (gateWait a (.input k) p q 0 m)) ∧
        (m.inputEnd c lst = .malformed → Gives run s (haltWith k stRefused 0xFFFF_000A 0 m)) ∧
        (∀ i, m.inputEnd c lst = .short i → Gives run s (haltWith k stShort i 0 m)) ∧
        (∀ i, m.inputEnd c lst = .long i → Gives run s (haltWith k stLong i 0 m)) ∧
        (∀ cs rg st p q, m.inputEnd c lst = .refused 5 cs rg st p q → Gives run s (haltWith k stAccess (violationDetail 5 rg 0 st) 0 m)) ∧
        (∀ op cs rg st p q, m.inputEnd c lst = .refused op cs rg st p q → op ≠ 5 →
          Gives run s (haltWith k stAccess (violationDetail op rg 0 st) 0 (reportRefusal a a p q 0 0xF1 cs rg st true m))))) ∧
    (∀ (lst : List GatherEntry) (data : List Byte) (rd : RsvRead) (t : EngArch), c.attr.stream = true → c.stageSize ≠ 0 → c.phase = .running ∨ c.phase = .saved → c.earlyRefusal = none →
      d.archOf k = some t → t.incons ≤ c.inArrived → c.inArrived < n → c.inArrived < t.incons + 0x10_0000 →
      let run := Instr.streamedInputArrival k lst data rd
      let room := min (n - c.inArrived) (t.incons + 0x10_0000 - c.inArrived)
      let arrives (bs : List Byte) : Prop := (∀ u < 8, ∀ j, (d.dig u).job = some j → j.slot = k.val → j.streams = false) → Does run s (fun d' =>
        (∀ i < bs.length, d'.rsvRead (c.inAt + (c.inArrived + i) % 0x10_0000) 1 = [bs.getD i 0]) ∧ d'.archOf k = some { t with inavail := c.inArrived + bs.length } ∧
        Holding d' k (fun x => x.inArrived = c.inArrived + bs.length ∧ x.input = c.input ++ bs ∧ x.phase = c.phase ∧ x.status = c.status))
      (eInRsv c.entry = false → bitOf (eInAddr c.entry) 63 = false →
        let bs := data.take room
        ((∀ p ∈ pieces (eInAddr c.entry + c.inArrived) bs.length, gateCheck d a a p.1 p.2 0 true none = .permit) → arrives bs) ∧
        ((d.gate a).close = true → 0 < bs.length → bs.length ≤ 256 → Gives run s (gateWait a (.input k) (eInAddr c.entry + c.inArrived) bs.length 0 d))) ∧
      (eInRsv c.entry = false → bitOf (eInAddr c.entry) 63 = true → eInAddr c.entry % 16 ≠ 0 → Gives run s (haltWith k stRefused 0xFFFF_000A 0 d)) ∧
      (∀ b x, eInRsv c.entry = true → d.bufFor c (eInAddr c.entry) = some (b, x) → rd = .clean →
        (x.len ≤ c.inArrived → Gives run s (haltWith k stShort x.len 0 d)) ∧
        (c.inArrived + room = n → n < x.len → Gives run s (haltWith k stLong x.len 0 d)) ∧
        (x.len = n → arrives (d.rsvRead (d.partBase a + x.place + c.inArrived) room))))

/-- 03 R64, R68 to R70, Table 3.4; 04 R89, R95, Table 4.10; 05 R115; 09 R208: once every store of an ended routine has drained its engine is free and the commit may begin, in order where the commands of a FIFO queue sign with
one stateful key. A bound key is committed by the custody die first; the commit then writes the staged output, at OUT_ADDR after the whole range passed the gate or into the Reservoir buffer, changes the context, and the command
has ended with OK; a refused range or a stale buffer ends it with ACCESS_VIOLATION and nothing written, a closed gate makes it wait. -/
def Obligations.RoutinesCommit : Prop :=
  ∀ (s : State) (k : Fin 4096) (c : Cmd), s.dev.stopped = false → s.dev.cmd k = some c → NoAdminWaits s.dev →
    let d := s.dev
    let a := c.allot
    let at_ := eOutAddr c.entry
    let n := c.outLen
    let bs := d.rsvRead c.outAt n
    let ended (d' : Device) : Prop := Holding d' k (fun x => x.phase = .ended ∧ x.status = stOk ∧ x.outLen = n ∧ x.detail = c.detail ∧ x.stageSize = 0)
    let settled (d' : Device) : Prop := ended d' ∧ (c.takesCtx = true → d'.ctx (eCtx c.entry) =
      ctxAfter c.attr.routine d.time (match c.staged with
        | some g => g.window
        | none => none) (d.ctx (eCtx c.entry)))
    let host : Prop := eOutMax c.entry ≠ 0 ∧ eOutRsv c.entry = false ∧ 0 < n
    let begins : Prop := c.phase = .checked ∧ d.leafTurn c = true ∧ c.commitBegun = false
    let goesOn : Prop := c.phase = .checked ∧ d.leafTurn c = true ∧ c.target = none ∧ (c.commitBegun = true ∨ d.outputEnd c = .done)
    (∀ e, c.phase = .draining → d.drained k = true → c.engine = some e → c.status = stOk → (d.eng e).fenceDue = false → Does (.storeDrainDone k) s (fun d' =>
      d'.cmd k = some { c with phase := .checked, engine := none } ∧ (d'.eng e).st = .idle ∧ (d'.eng e).slot = none)) ∧
    (c.phase = .draining → d.drained k = true → c.status ≠ stOk →
      (c.engine = none → Gives (.storeDrainDone k) s (settleAdmin (conclude k c.status c.detail n (d.updCmd k (fun c => { c with engine := none }))))) ∧
      (∀ e, c.engine = some e → Gives (.storeDrainDone k) s (settleAdmin (conclude k c.status c.detail n ((freeEngine e d).updCmd k (fun c => { c with engine := none })))))) ∧
    (eOutMax c.entry = 0 → d.outputEnd c = .done) ∧
    (host → (∀ p ∈ pieces at_ n, gateCheck d a a p.1 p.2 1 true none = .permit) → d.outputEnd c = .done) ∧
    (∀ b x, eOutMax c.entry ≠ 0 → eOutRsv c.entry = true → d.bufFor c at_ = some (b, x) → eOutMax c.entry ≤ 2 ^ x.sizeLog2 → d.outputEnd c = .done) ∧
    (∀ h, begins → d.outputEnd c = .done → c.target = some h → Gives (.commit k) s
      (toCustody (.keyRequest 3 { handle := h, allot := a, request := 4 + k, slot := k }) (d.updCmd k (fun c => { c with commitBegun := true })))) ∧
    (goesOn → eOutMax c.entry = 0 → n = 0 → eOutRsv c.entry = false → Does (.commit k) s (fun d' => d'.out = d.out ∧ settled d')) ∧
    (goesOn → host → (d.allot a).flr = none → Does (.commit k) s (fun d' =>
      d'.out = d.out ++ (pieces at_ n).map (fun p => .hostWrite a p.1 ((bs.drop (p.1 - at_)).take p.2)) ∧ settled d')) ∧
    (∀ b x, goesOn → eOutRsv c.entry = true → d.bufFor c at_ = some (b, x) → c.stageBase + c.stageSize ≤ d.partBase a → Does (.commit k) s (fun d' =>
      d'.rsvRead (d.partBase a + x.place) n = bs ∧ Tbl.find (d'.allot a).bufs b = some { x with len := n } ∧ d'.out = d.out ∧ settled d')) ∧
    (begins → host → n ≤ 256 →
      ((d.gate a).close = true → Gives (.commit k) s (gateWait a (.output k) at_ n 1 d)) ∧
      (∀ cs rg st, gateCheck d a a at_ n 1 true none = .refuse cs rg st → Gives (.commit k) s
        (settleAdmin (conclude k stAccess (violationDetail 4 rg 1 st) 0 (reportRefusal a a at_ n 1 0xF2 cs rg st true d))))) ∧
    (begins → eOutMax c.entry ≠ 0 → eOutRsv c.entry = true → d.bufFor c at_ = none → Gives (.commit k) s (settleAdmin (conclude k stAccess (violationDetail 5 0xFFFF 1 false) 0 d)))

/-- 05 R114; 06 R133, R135, Table 6.6; 01 R15; 04 R105: the oldest line of a store buffer drains to the Reservoir once its gate permits; the oldest rld, and a DMA list that reads, put the bytes that the Reservoir holds
into operand memory, and then what their reads met, `rd`, has its outcome; a lease that reaches 4,096 uses or its end is dropped. -/
def Sys2Proof.Claims.TransfersComplete : Prop :=
  ∀ (s : State), s.dev.frozen = false →
    let d := s.dev
    (∀ (l : Fin 16) (x : SbLine) (rest : List SbLine), (d.lat l).sb = x :: rest → (x.bytes.map (fun b => b.1)).Nodup →
      gateCheck d (latGate l) (d.cmdOr x.slot).allot (lineSpan x).1 (lineSpan x).2 1 false (d.cmdOr x.slot).window = .permit → Does (.storeLineDrain l) s (fun d' =>
        (d'.lat l).sb = rest ∧ (∀ b ∈ x.bytes, d'.rsvRead (x.line * 64 + b.1) 1 = [b.2]) ∧
        (∀ p, (∀ b ∈ x.bytes, p ≠ x.line * 64 + b.1) → d'.rsvRead p 1 = d.rsvRead p 1) ∧ d'.engs = d.engs ∧ d'.cmds = d.cmds)) ∧
    (∀ (l : Fin 16) (x : SbLine) (rest : List SbLine) (cs rg : Nat) (st : Bool), (d.lat l).sb = x :: rest →
      gateCheck d (latGate l) (d.cmdOr x.slot).allot (lineSpan x).1 (lineSpan x).2 1 false (d.cmdOr x.slot).window = .refuse cs rg st → Gives (.storeLineDrain l) s (imprecise l x cs rg d)) ∧
    (∀ (e : Fin 144) (r : RldOut) (rest : List RldOut) (rd : RsvRead), (d.eng e).arch.rlds = r :: rest → Gives (.rldComplete e rd) s
      (meetRead rd r.rsv r.len (d.updArch e (fun t => { (t.write r.opm (d.rsvRead r.rsv r.len)) with rlds := rest })))) ∧
    (∀ (e : Fin 144) (r : RldOut) (rest : List RldOut), (d.eng e).arch.rlds = r :: rest → Does (.rldComplete e .clean) s (fun d' =>
      readBytes (d'.eng e).arch.opm r.opm r.len = d.rsvRead r.rsv r.len ∧ (d'.eng e).arch.rlds = rest ∧
      (∀ b, b < r.opm ∨ r.opm + r.len ≤ b → readBytes (d'.eng e).arch.opm b 1 = readBytes (d.eng e).arch.opm b 1) ∧ d'.rsv = d.rsv)) ∧
    (∀ (e : Fin 144) (k : Nat) (i : DmaList) (rest : List DmaList) (rd : RsvRead), (d.eng e).arch.lists = i :: rest → (d.eng e).slot = some k →
      let r := runDescs e k (descFuel i.descs) i.descs d
      r.1 = .done → Gives (.dmaListComplete e rd) s (meetList rd i.descs (r.2.2.updArch e (fun t => { t with lists := if r.2.1 = [] then rest else { i with descs := r.2.1 } :: rest })))) ∧
    (∀ (e : Fin 144) (k : Nat) (x : DmaDesc) (i : DmaList) (rest : List DmaList), (d.eng e).arch.lists = i :: rest → i.descs = [x] → (d.eng e).slot = some k → x.write = false → 0 < x.len →
      x.rsv % 256 + x.len ≤ 256 → d.dmaWaits e k x x.len = false → rsvAccess d (latOf e) (d.cmdOr k) 0 [(x.rsv, x.len)] = (.permit, 0, 0) → Does (.dmaListComplete e .clean) s (fun d' =>
        readBytes (d'.eng e).arch.opm x.opm x.len = d.rsvRead x.rsv x.len ∧ (d'.eng e).arch.lists = rest ∧
        (∀ b, b < x.opm ∨ x.opm + x.len ≤ b → readBytes (d'.eng e).arch.opm b 1 = readBytes (d.eng e).arch.opm b 1) ∧ d'.rsv = d.rsv)) ∧
    (∀ (e : Fin 144) (h : BitVec 32), Does (.leaseExpire e h) s (fun d' => ∀ l, l ∈ (d'.eng e).leases ↔
      l ∈ (d.eng e).leases ∧ ¬ (l.handle = h.toNat ∧ (4096 ≤ l.uses ∨ l.ends ≤ d.time))))

/-- InputsEnd, InputIsStaged and TransfersComplete, together. -/
def Obligations.StagingAndTransfers : Prop := InputsEnd ∧ InputIsStaged ∧ TransfersComplete


/-! ## Session contexts and the Reservoir (04) -/

/-- 04 R89 to R94, Tables 4.2, 4.4 to 4.6: the admin commands on contexts. CTX_ALLOC opens the lowest free one; the others, in their turn on a context of the allotment, hold an ACTIVE one with its expiry,
close it with its secrets zero, free a CLOSED one, set LABEL and HOLD_TIME, copy headers out; another state or a free context is answered as Table 4.5 says. -/
def Obligations.ContextCommands : Prop :=
  ∀ (s : State) (a : Fin 64) (o : Nat) (e : Entry),
    let d := s.dev
    let n := ctxOf e
    let x := d.ctx n
    let ok (d : Device) : Device := admDone a stOk 0 0 d
    (AdminTurn s a 0x0020 (wholeBytes 8 19) [] o e → 1 ≤ bytesAt e 16 4 → bytesAt e 16 4 ≤ 86400 →
      (∀ m, d.ctxTaken a < (d.allot a).ctxQuota → d.freeCtx = some m → Gives (.ctxAlloc a) s (admDone a stOk 0 m (d.updCtx m (fun _ => {
        st := .opened, allot := a, label := bytesAt e 8 8, holdTime := bytesAt e 16 4, born := d.time })))) ∧
      ((d.allot a).ctxQuota ≤ d.ctxTaken a → Gives (.ctxAlloc a) s (admDone a stRefused 0 0x20 d))) ∧
    (d.ctxQuietFor a n o = true →
      (AdminTurn s a 0x0021 ctxParam [] o e →
        (x.st = .free ∨ x.allot ≠ a → Gives (.ctxHold a) s (admDone a stCtxAbsent 0 0 d)) ∧
        (x.allot = a → x.st = .active → Gives (.ctxHold a) s (ok (d.updCtx n (fun x => { x with st := .held, heldAt := d.time, holdExpiry := d.time + x.holdTime * 1_000_000_000 })))) ∧
        (x.allot = a → x.st = .opened → Gives (.ctxHold a) s (admDone a stCtxState 0 x.st.code d))) ∧
      (AdminTurn s a 0x0022 ctxParam [] o e → x.allot = a → x.st = .opened ∨ x.st = .active ∨ x.st = .held → Gives (.ctxClose a) s (ok (d.updCtx n (fun c => { c with
        st := .closed, secret := [], holdExpiry := 0, ephemeral := false, hybrid := false, mka := false })))) ∧
      (AdminTurn s a 0x0023 ctxParam [] o e → x.allot = a →
        (x.st = .closed → Gives (.ctxFree a) s (ok { (d.updCtx n (fun _ => {})) with cache := d.cache.filter (fun m => m ≠ n) })) ∧
        (x.st = .active → Gives (.ctxFree a) s (admDone a stCtxState 0 x.st.code d))) ∧
      (AdminTurn s a 0x0024 (ctxParam ++ wholeBytes 8 19 ++ [(20, 3)]) [] o e → x.allot = a →
        (bytesAt e 20 1 = 1 → x.st = .active → Gives (.ctxSet a) s (ok (d.updCtx n (fun x => { x with label := bytesAt e 8 8 })))) ∧
        (bytesAt e 20 1 = 2 → 1 ≤ bytesAt e 16 4 → bytesAt e 16 4 ≤ 86400 → x.st = .held →
          (d.time < x.heldAt + bytesAt e 16 4 * 1_000_000_000 → Gives (.ctxSet a) s (ok (d.updCtx n (fun c => { c with
            holdTime := bytesAt e 16 4, holdExpiry := x.heldAt + bytesAt e 16 4 * 1_000_000_000 })))) ∧
          (x.heldAt + bytesAt e 16 4 * 1_000_000_000 ≤ d.time → Gives (.ctxSet a) s (ok (expireCtx n (d.updCtx n (fun c => { c with
            holdTime := bytesAt e 16 4, holdExpiry := x.heldAt + bytesAt e 16 4 * 1_000_000_000 }))))))) ∧
      (AdminTurn s a 0x0025 (ctxParam ++ wholeBytes 8 19) [(8, 64)] o e → bytesAt e 16 4 = 1 → n + 1 ≤ 262144 → x.st ≠ .free → x.allot = a → (d.allot a).flr = none →
        gateCheck d a a (bytesAt e 8 8) 64 1 true none = .permit → Gives (.ctxRead a) s (admDone a stOk 64 0 (d.emit (.hostWrite a (bytesAt e 8 8) (x.header d.time))))))

/-- 04 R94, R95, R103 to R106, R108; 02 R47: an expired hold closes its context and is counted, a resumption in its line ending with it; the sweep of each whole 100 ms closes the others and posts SESSION_HOLD_EXPIRED, after
the completions of the resumptions ended; a fetched context is in the cache, which keeps the 16,384 last used, one whose line was uncorrectable is lost. RSV_ALLOC takes the lowest free buffer at a free aligned place; RSV_FREE
waits for the commands consumed before it that use the buffer, for later ones its reference is stale at once. -/
def Sys2Proof.Claims.HoldsBuffersAndCache : Prop :=
  ∀ (s : State) (a : Fin 64) (o : Nat) (e : Entry) (n : Fin 262144),
    let d := s.dev
    let x := d.ctx n
    (d.md.mode ≠ .retention → x.st = .held → x.holdExpiry ≤ d.time → d.resuming n = false →
      ((∀ y ∈ d.cmds, y.2.phase ≠ .line) → Does (.holdExpired n) s (fun d' =>
        d'.ctx n = { x with st := .closed, secret := [], holdExpiry := 0, ephemeral := false, hybrid := false, mka := false } ∧
        (d'.allot x.allot).expired = (d.allot x.allot).expired + 1 ∧ d'.out = d.out)) ∧
      (∀ (k : Fin 4096) (c : Cmd), d.cmds = [(k.val, c)] → c.attr.routine = 0x0C04 → eCtx c.entry = n.val → c.allot = x.allot → c.phase = .line → Does (.holdExpired n) s (fun d' =>
        (d'.ctx n).st = .closed ∧ Holding d' k (fun y => y.phase = .ended ∧ y.status = stCtxState ∧ y.detail = 5)))) ∧
    (d.md.mode ≠ .retention → d.lastSweep < d.time / 100_000_000 →
      Does .expirySweep s (fun d' => d'.lastSweep = d.time / 100_000_000) ∧
      (d.ctxs = [] → (d.allot a).expired ≠ 0 → (∀ b < 64, b ≠ a.val → (d.allot b).expired = 0) → (∀ y ∈ d.cmds, y.2.allot ≠ a ∨ y.2.phase ≠ .ended) →
        let t := d.allot a
        Gives .expirySweep s (notice a 0x9001 0 t.expired t.expiredLow 0 0
          ({ d with lastSweep := d.time / 100_000_000 }.updAllot a (fun t => { t with expired := 0, expiredLow := 0 }))))) ∧
    (d.md.mode ≠ .retention → d.time / 100_000_000 ≤ d.lastSweep → Gives .expirySweep s d) ∧
    (d.frozen = false → x.st ≠ .free → d.cache.contains n.val = false →
      Gives (.contextFetchDone n .clean) s (cacheCtx n (d.bump 0x000A_0200)) ∧
      (d.cache.length < 16384 → Does (.contextFetchDone n .clean) s (fun d' => d'.cache = d.cache ++ [n.val] ∧ d'.ctxs = d.ctxs)) ∧
      (∀ p, Gives (.contextFetchDone n (.corrected p)) s (cacheCtx n (meetRead (.corrected p) (n.val * 1024) 1024 (d.bump 0x000A_0200)))) ∧
      (∀ p : BitVec 24, let b := n.val * 1024 + p.toNat % 1024
        Gives (.contextFetchDone n (.uncorrectable p)) s (uncorrectable b (d.bump 0x000A_0200)) ∧
        uncorrectable b (d.bump 0x000A_0200) = retirePage (b / 4096) (loseContext n ((d.bump 0x000A_0200).bump 0x0009_000C)))) ∧
    (AdminTurn s a 0x0028 (wholeBytes 4 4) [] o e → 12 ≤ bytesAt e 4 1 → bytesAt e 4 1 ≤ 24 →
      (∀ b p, Tbl.lowestFree (d.allot a).bufs 0 4096 = some b → d.findPlace a (bytesAt e 4 1) = some p →
        Gives (.rsvAlloc a) s (admDone a stOk 0 ((d.allot a).ref b) (d.updAllot a (fun t => { t with bufs := Tbl.put t.bufs b { place := p, sizeLog2 := bytesAt e 4 1 } })))) ∧
      ((Tbl.lowestFree (d.allot a).bufs 0 4096).isSome = true → d.findPlace a (bytesAt e 4 1) = none → Gives (.rsvAlloc a) s (admDone a stRefused 0 0x22 d))) ∧
    (∀ b x, AdminTurn s a 0x0029 (wholeBytes 8 15) [] o e → (d.allot a).bufOf (bytesAt e 8 8) = some (b, x) →
      let used := d.bufUsers a (bytesAt e 8 8) d.order
      (used = false → Gives (.rsvFree a) s (admDone a stOk 0 0 (freeBuf a b d)) ∧ ((freeBuf a b d).allot a).bufOf (bytesAt e 8 8) = none) ∧
      (used = true → Does (.rsvFree a) s (fun d' => (d'.adm a).waits = .buffer b ∧ (d'.adm a).cmds = (d.adm a).cmds ∧ (d'.allot a).bufOf (bytesAt e 8 8) = some (b, { x with freeAt := some d.order }) ∧
        ∀ c, c.allot = a.val → d'.bufFor c (bytesAt e 8 8) = if d.order < c.order then none else some (b, { x with freeAt := some d.order }))))

/-- 04 R105, R106, Table 4.16: a scrub pass reports each error; three corrected errors of a page within 24 h retire it to a spare. RSV_PAGE_OP starts a scrub or a retirement of one page, refused on a page already retired;
its end clears BUSY. -/
def Sys2Proof.Claims.ScrubbingAndRetirement : Prop :=
  ∀ (s : State) (page : BitVec 22) (addr : BitVec 34),
    let d := s.dev
    let h := hostAccess 0 d
    let p := addr.toNat / 4096
    (d.rsv.trained = true → d.rsv.selfRefresh = false →
      Gives (.rsvScrubPass []) s d ∧
      Gives (.rsvScrubPass [(addr, false)]) s (corrected p (raiseFault 0x53 0xFFFF none addr.toNat d)) ∧
      Gives (.rsvScrubPass [(addr, true)]) s (uncorrectable addr.toNat (raiseFault 0x54 0xFFFF none addr.toNat d))) ∧
    (∀ t1 t2, Tbl.get [] d.rsv.corrTimes p = [t1, t2] → d.time < t1 + 86_400_000_000_000 → d.time < t2 + 86_400_000_000_000 → d.rsv.spares ≠ 0 → p ∉ d.rsv.retiredPages →
      (corrected p d).rsv.retiredPages = d.rsv.retiredPages ++ [p] ∧ (corrected p d).rsv.spares = d.rsv.spares - 1 ∧ (corrected p d).rsv.mem = d.rsv.mem) ∧
    (BarTaken s 0x0009_0018 → h.rsv.opBusy = false →
      (page.toNat ∉ h.rsv.retiredPages → Gives (.rsvPageScrub page) s { h with rsv := { h.rsv with opPage := page.toNat, opRetire := false, opBusy := true, opErr := false } }) ∧
      (page.toNat ∉ h.rsv.retiredPages → h.rsv.spares ≠ 0 → Gives (.rsvPageRetire page) s { h with rsv := { h.rsv with opPage := page.toNat, opRetire := true, opBusy := true, opErr := false } }) ∧
      (page.toNat ∈ h.rsv.retiredPages → Gives (.rsvPageScrub page) s { h with rsv := { h.rsv with opPage := page.toNat, opRetire := false, opErr := true } }) ∧
      (page.toNat ∈ h.rsv.retiredPages ∨ h.rsv.spares = 0 → Gives (.rsvPageRetire page) s { h with rsv := { h.rsv with opPage := page.toNat, opRetire := true, opErr := true } })) ∧
    (d.rsv.opBusy = true →
      (d.rsv.opRetire = true → Gives (.rsvPageOpDone []) s (retirePage d.rsv.opPage { d with rsv := { d.rsv with opBusy := false } })) ∧
      (d.rsv.opRetire = false →
        let f : Device := { d with rsv := { d.rsv with opBusy := false } }
        Gives (.rsvPageOpDone []) s f ∧
        ∀ x, Gives (.rsvPageOpDone [(x, false)]) s (corrected d.rsv.opPage f) ∧ Gives (.rsvPageOpDone [(x, true)]) s (uncorrectable (d.rsv.opPage * 4096 + x.toNat) f)))

/-- HoldsBuffersAndCache and ScrubbingAndRetirement, together. -/
def Obligations.BuffersCacheAndScrubbing : Prop := HoldsBuffersAndCache ∧ ScrubbingAndRetirement


/-! ## Allotments and Headgates (14) -/

/-- 14 R296 to R299, R303, Tables 14.5, 14.10: CLOSE stops new accesses at a gate, DRAINED sets once the old ones have retired, and opening records the descriptors written and makes the waiting accesses again; those that
wait HG_LIMIT are refused. Descriptors are written through the window: only a valid one, to a closed and drained gate that is not locked. -/
def Sys2Proof.Claims.HeadgatesCloseAndOpen : Prop :=
  ∀ (s : State) (g : Fin 84) (v : BitVec 32) (sel : BitVec 7) (r : BitVec 6),
    let d := s.dev
    let h := hostAccess 0 d
    let t := h.gate g
    let o := 0x0008_0000 + 0x10 * g.val
    let x := BitVec.ofNat 256 (withField h.dstage.toNat 255 224 v.toNat)
    (BarTaken s o → d.isLocked o = true → Gives (.hgClose g) s (lockedWrite o h) ∧ Gives (.hgOpen g) s (lockedWrite o h)) ∧
    (BarTaken s o → d.isLocked o = false →
      (t.close = false → Gives (.hgClose g) s (h.updGate g (fun t => { t with close := true, drained := false, written := 0 }))) ∧
      (t.close = true → Gives (.hgClose g) s h) ∧ (t.close = false → Gives (.hgOpen g) s h) ∧
      (t.close = true →
        let u := h.updGate g (fun t => { t with close := false, drained := false, written := 0, waiting := [] })
        Gives (.hgOpen g) s (foldOver retryAccess t.waiting (if t.written = 0 then u else recordCompute 0x6010 (if g.val < 64 then g.val else 0) false g t.written 0 0 u)))) ∧
    ((d.gate g).close = true →
      (d.gateQuiet g = true → Gives (.hgDrained g) s (d.updGate g (fun t => { t with drained := true }))) ∧
      (∀ w, (d.gate g).waiting = [w] → w.arrived + d.hgLimit ≤ d.time → Gives (.hgCloseTimeout g) s (settleAdmin (closedTimeout g w d))) ∧
      (∀ k a n, (d.gate g).waiting = [{ who := .input k, addr := a, len := n, kind := 0, arrived := 0 }] → d.hgLimit ≤ d.time → (d.gate g).reports < 64 → Gives (.hgCloseTimeout g) s
        (settleAdmin (haltWith k stAccess (violationDetail 1 0xFFFF 0 false) 0 (reportRefusal g (d.cmdOr k).allot a n 0 0xF1 4 0xFFFF false true
          (d.updGate g (fun t => { t with waiting := [] }))))))) ∧
    (BarTaken s 0x0008_1004 → Gives (.hgDselWrite sel r) s { h with
      dselGate := sel.toNat, dselRegion := r.toNat, dstage := (h.gate sel.toNat).region r.toNat }) ∧
    (BarTaken s 0x0008_102C → h.dselGate = g.val → h.dselRegion < regionCount g →
      (d.isLocked o = false → t.close = true → t.drained = true → descValid g x = true → Does (.hgDdataCommit v) s (fun d' =>
        (d'.gate g).region h.dselRegion = x ∧ (d'.gate g).written = t.written + 1 ∧ (∀ i, i ≠ h.dselRegion → (d'.gate g).region i = t.region i) ∧
        (d'.gate g).close = true ∧ d'.dselErr = false ∧ ∀ q, q ≠ g.val → d'.gate q = d.gate q)) ∧
      (d.isLocked o = false → t.close = false ∨ t.drained = false → Gives (.hgDdataCommit v) s { h with dselErr := true, dselCause := 1 }) ∧
      (d.isLocked o = true → Gives (.hgDdataCommit v) s { h with dselErr := true, dselCause := 2 }) ∧
      (d.isLocked o = false → t.close = true → t.drained = true → descValid g x = false → Gives (.hgDdataCommit v) s { h with dselErr := true, dselCause := 3 }))

/-- 14 R291 to R293, R304, Table 14.2: a function-level reset tears its allotment down: READY clears, the admin queue is emptied, its commands, buffers, keys and contexts are gone, the other functions are untouched; one of the PF or of VF
Enable tears all VFs down. At its end the queues are gone, the policy stays, and 0x7020 is recorded and, of a VF, posted. -/
def Sys2Proof.Claims.FunctionLevelResets : Prop :=
  ∀ (s : State) (n : Fin 64), s.dev.boot.configReady = true → s.dev.boot.computeReset = false →
    let d := s.dev
    (n ≠ 0 → Gives (.flrStart n) s (teardown n false d)) ∧
    Gives .pfFlr s (clearVfs (teardown 0 true d)) ∧ Gives .vfEnableClear s (clearVfs d) ∧
    (n ≠ 0 → d.cmds = [] → (d.allot n).flr = none → d.flt.due = [] → NoAdminWaits d → Does (.flrStart n) s (fun d' =>
      (d'.allot n).ready = false ∧ (d'.allot n).flr = some { start := d.time, viaPf := false, contexts := d.ctxHeld n } ∧ (d'.allot n).bufs = [] ∧ (d'.adm n).cmds = [] ∧ (d'.adm n).cqWaiting = [] ∧
      (∀ x ∈ d'.ctxs, x.2.allot = n → x.2.st = .free) ∧ (∀ x ∈ d'.cis.slots, x.2.attr.allot = n → x.2.attr.persistent = true) ∧ d'.regs = d.regs ∧ d'.flt = d.flt ∧ d'.boot = d.boot)) ∧
    (∀ t, (d.allot n).flr = some t → n ≠ 0 → 
      let us := min ((d.time - t.start) / 1000) 0xFFFF_FFFF
      let floor := (d.allot n).wrapCount % 2 ^ 32
      let p0 := n.val + 256 * b2n t.viaPf
      let kept : Device := { d with sqs := d.sqs.filter (fun x => decide (x.1 / 1024 ≠ n.val)), cqs := d.cqs.filter (fun x => decide (x.1 / 1024 ≠ n.val)) }
      Gives (.flrComplete n) s (notice 0 0x7020 0 p0 us t.contexts floor (recordCompute 0x7020 n false p0 us t.contexts floor
        (kept.updAllot n (fun a => a.afterFlr (d.readyMode n))))))

/-- HeadgatesCloseAndOpen and FunctionLevelResets, together. -/
def Obligations.HeadgatesAndFunctionReset : Prop := HeadgatesCloseAndOpen ∧ FunctionLevelResets


/-! ## Fault collection and recovery (15) -/

/-- 15 R305, R308 to R310, R318, Tables 15.2 to 15.4: a fault that the custody die sees is classified: a Corrected one is kept in the history and sets its pending bit, with that bit still set it is taken as Contained, a Contained one with
its bit set as Fatal; a Fatal one stops ALIVE, keeps its record and orders the stop. A report of the compute die is delivered over the Flume. -/
def Sys2Proof.Claims.FaultsAreClassified : Prop :=
  ∀ (s : State) (source : Fin 190) (unit : BitVec 16) (syndrome : BitVec 64),
    let d := s.dev
    let under : Bool := match unitClassOf source with
      | some c => (d.unit c unit.toNat).testing
      | none => false
    let f : FaultIn := { source := source, unit := unit.toNat, syndrome := syndrome.toNat, test := under, time := d.time }
    let g := faultGroup source
    let run := Instr.custodyFault source unit syndrome
    (custodySees source = true → d.boot.custodyReset = false → d.flt.injPending = false →
      Gives run s (unitsChanged (takeFault f d)) ∧
      (∀ c, under = true → unitClassOf source = some c → ((takeFault f d).unit c unit.toNat).testFailed = true ∧ (takeFault f d).flt.cPend = d.flt.cPend ∧ (takeFault f d).flt.uPend = d.flt.uPend) ∧
      (under = false → d.flt.fatal = none → faultClass source = 0 → bitOf d.flt.cPend g = false →
        (takeFault f d).flt.cPend = d.flt.cPend ||| 2 ^ g ∧ (takeFault f d).flt.uPend = d.flt.uPend ∧ (takeFault f d).flt.fatal = none ∧
        (takeFault f d).flt.seq = (d.flt.seq + 1) % 2 ^ 32) ∧
      (under = false → d.flt.fatal = none → faultClass source = 2 ∨ (faultClass source = 1 ∧ bitOf d.flt.uPend g = true) →
        let t := takeFault f d
        t.flt.alive = false ∧ t.flt.countF = satAdd 0xFFFF_FFFF d.flt.countF 1 ∧ t.flt.lastFatal = histRecord d f 2 (decide (faultClass source = 1)) false ∧
        (∃ x, t.flt.fatal = some x ∧ x.source = source ∧ x.stage = 0 ∧ x.since = d.time) ∧ t.md.change = none)) ∧
    (∀ f, CustodyGets s (.faultReport f) → Gives (.faultReport none unit none syndrome) s (unitsChanged (takeFault f (tookCustody d)))) ∧
    (∀ slot : Option (Fin 4096), computeSees source = true → d.boot.computeReset = false →
      let m := meetFault source unit.toNat (slot.map (fun k => k.val)) syndrome.toNat d
      let r : FaultIn := { f with slot := slot.map (fun k => k.val), time := d.stamp }
      Gives (.faultReport (some source) unit slot syndrome) s (deliverFault m) ∧
      (d.flt.injPending = false → faultClass source = 2 → (toCustody (.faultReport r) { d with fl := { d.fl with sbFatal := true } }).fl.toCustody = m.fl.toCustody ∧ m.fl.sbFatal = true) ∧
      (d.flt.injPending = false → faultClass source = 0 → d.flumeRuns = true → d.fl.toCustody = [] → source.val ∉ [0x00, 0x2C, 0x2D, 0x2E, 0x30, 0x32, 0x33, 0x34, 0x36] →
        Gives (.faultReport (some source) unit slot syndrome) s (unitsChanged (takeFault r (tookCustody (toCustody (.faultReport r) d))))) ∧
      (∀ e : Nat, d.flt.injPending = false → faultClass source = 1 → unitClassOf source = some 0 → e = unit.toNat → e < 144 → (d.unit 0 e).testing = false → (d.unit 0 e).fenced = false → (d.eng e).st.inService = true →
        (m.eng e).arch.faulted = true)) ∧
    (∀ celsius : BitVec 7, d.boot.computeReset = false →
      (108 ≤ celsius.toNat → d.flt.thermWarn = false → Gives (.thermalWarning celsius) s
        (lowFlowCheck (raiseFault 0x8B 0xFFFF none celsius.toNat (raiseAlert 2 { d with flt := { d.flt with thermWarn := true } })))) ∧
      (celsius.toNat ≤ 103 → d.flt.thermWarn = true → Gives (.thermalWarningClear celsius) s (lowFlowCheck { d with flt := { d.flt with thermWarn := false } })))

/-- 15 R311, R314, R317 to R322, R331: the orders of the custody die on the compute die: FENCE fences a unit, its command running again; REPLAY returns a command to its ready list; LOW-FLOW changes the mode; STOP ends every command with
UNRECOVERABLE_FAULT or stops at once. The end of the drain posts FAULT_FATAL and asserts SB_STOP, the dwell resets the compute die; silence marks it wedged. -/
def Sys2Proof.Claims.FaultActions : Prop :=
  ∀ (s : State),
    let d := s.dev
    (∀ c i q, ComputeGets s (.faultAction (.fence c i q)) → Gives .faultActionFence s (unitsChanged (fenceOrder c i q (tookCompute d)))) ∧
    (∀ k q c, ComputeGets s (.faultAction (.replay k q)) → d.cmd k = some c → c.phase = .running → c.started = true → c.replayFor ≠ some q → c.contained < 3 → c.replays < 3 → c.leafTaken = false →
      let r := replayCmd k q ((tookCompute d).updCmd k (fun c => { c with contained := c.contained + 1 }))
      Gives .faultActionReplay s (settleAdmin r) ∧
      (c.target = none → c.engine = none → Holding r k (fun x => x.phase = .ready ∧ x.replays = c.replays + 1 ∧ x.replayFor = some q ∧ x.lateral = c.lateral) ∧ (r.lat c.lateral).ready.head? = some k)) ∧
    (ComputeGets s (.faultAction .lowFlow) → d.md.mode = .service → d.lowFlowCond = true → Gives .faultActionLowFlow s (beginChange .lowFlow d.lowFlowCause false (tookCompute d))) ∧
    (∀ q f, ComputeGets s (.faultAction (.stop q)) → d.flt.fatal = some f → f.stage = 0 →
      (f.drain = false → Does .faultActionStop s (fun d' => d'.fl.sbStop = true ∧ d'.flt.fatal = some { f with stage := 2, dwellFrom := d.time } ∧ d'.cmds = d.cmds)) ∧
      (f.drain = true → d.cmds = [] → Does .faultActionStop s (fun d' => d'.fl.sbStop = d.fl.sbStop ∧ d'.flt.fatal = some { f with stage := 1 }))) ∧
    (∀ f, d.flt.fatal = some f → f.stage = 1 → d.cmds = [] ∨ f.since + 2_000_000 ≤ d.time →
      let p := bytesAt d.flt.lastFatal
      Does .fatalDrainEnd s (fun d' => d'.fl.sbStop = true ∧ d'.flt.fatal = some { f with stage := 2, dwellFrom := d.time } ∧ d'.allots = if d.cmds = [] then (noticeAll 0x3003 3 (p 0 4) (p 28 4) (p 16 4) (p 20 4) d).allots else d.allots)) ∧
    (∀ f, d.flt.fatal = some f → f.stage = 2 → f.double = false → d.autoReset = true → f.dwellFrom + d.fatalDwell * 1_000_000 ≤ d.time → Gives .fatalDwellExpire s (fatalReset d)) ∧
    (d.fl.trained = true → d.fl.lastBeat + 100_000 ≤ d.time → Gives .wedgeDetect s (wedge d)) ∧
    (d.md.mode = .lowFlow → d.lowFlowCond = false → d.flt.lowFlowOrdered = false → d.flt.clearSince + 1_000_000_000 ≤ d.time → Gives .lowFlowExit s (beginChange .service 4 false d)) ∧
    (d.healthy = true → Does .aliveToggle s (fun d' => d'.flt.alive = !d.flt.alive ∧ d'.out = d.out ++ [.aliveEdge] ∧ d'.lev = d.lev))

/-- FaultsAreClassified and FaultActions, together. -/
def Obligations.FaultsAndTheirActions : Prop := FaultsAreClassified ∧ FaultActions


/-- 15 R308, R327, R328, Table 15.14: writing 1s to FLT_ACK clears those pending bits alone, and an automatic acknowledgement clears the Corrected bit when its time is up; injections are armed and cancelled; FAULT_HISTORY copies the 32
records out, newest first, and FLT_HIST_DATA[7] advances AGE. -/
def Sys2Proof.Claims.FaultRegisters : Prop :=
  ∀ (s : State) (v : BitVec 32) (source unit : BitVec 8) (o : Nat) (e : Entry),
    let d := s.dev
    let h := hostAccess 0 d
    (WriteTravels (.fltAckWrite false v) s 0x000C_0800 v.toNat ∧ WriteTravels (.fltAckWrite true v) s 0x000C_0804 v.toNat ∧ ReadTravels .fltHistRead s 0x000C_083C) ∧
    (∀ n, WriteArrives s 0x000C_0800 0 v.toNat n → Does .regWrite s (fun d' =>
      (∀ i < 24, bitOf d'.flt.cPend i = (bitOf d.flt.cPend i && !bitOf v.toNat i)) ∧ d'.flt.uPend = d.flt.uPend ∧ d'.flt.history = d.flt.history)) ∧
    (∀ n, WriteArrives s 0x000C_0804 0 v.toNat n → Does .regWrite s (fun d' =>
      (∀ i < 24, bitOf d'.flt.uPend i = (bitOf d.flt.uPend i && !bitOf v.toNat i)) ∧ d'.flt.cPend = d.flt.cPend)) ∧
    (∀ g t, d.flt.acks = [(g, t)] → t ≤ d.time → Does .faultAutoAck s (fun d' => bitOf d'.flt.cPend g = false ∧ (∀ i, i ≠ g → bitOf d'.flt.cPend i = bitOf d.flt.cPend i) ∧ d'.flt.acks = [])) ∧
    (BarTaken s 0x000C_0010 →
      (source.toNat < 190 → faultMarked source.toNat = false → h.flt.injPending = false → faultClass source.toNat < 2 → Gives (.fltInjectArm source unit) s
        (recordAs 0x3011 source.toNat 0 false h.time source.toNat unit.toNat 0 0 { h with flt := { h.flt with injSource := source.toNat, injUnit := unit.toNat, injErr := false, injPending := true } })) ∧
      (190 ≤ source.toNat ∨ h.flt.injPending = true → Gives (.fltInjectArm source unit) s { h with flt := { h.flt with injSource := source.toNat, injUnit := unit.toNat, injErr := true } }) ∧
      Gives (.fltInjectCancel source unit) s { h with flt := { h.flt with injSource := source.toNat, injUnit := unit.toNat, injPending := false } }) ∧
    (AdminTurn s 0 0x0073 (wholeBytes 8 15) [(8, 64)] o e → (d.allot 0).flr = none → (∀ p ∈ pieces (bytesAt e 8 8) 1024, gateCheck d 0 0 p.1 p.2 1 true none = .permit) →
      Gives (.faultHistory 0) s (admDone 0 stOk 1024 0 (d.emit (.hostWrite 0 (bytesAt e 8 8) d.histBytes)))) ∧
    (∀ n, ReadArrives s 0x000C_083C 0 n → Does .regRead s (fun d' => d'.flt.histAge = (d.flt.histAge + 1) % 32 ∧ Answers s n (bytesAt (d.histAt d.flt.histAge) 28 4) d'))

/-- 15 R312, R313, R325, R326, Tables 15.9, 15.10: the owner's operations on a unit, through FLT_UNIT_OP or an admin command: refused for the first cause that holds, else FENCE fences it, TEST puts a fenced one under test, UNFENCE returns
one that passed. A test that ends sets its result, or returns or retires a unit that a fault fenced; a spare enters service for the engine it replaces. -/
def Sys2Proof.Claims.UnitOperations : Prop :=
  ∀ (s : State) (o : Nat) (e : Entry) (cls : Fin 7) (idx : Fin 144) (pass : Bool) (l : Fin 16),
    let d := s.dev
    let h := hostAccess 0 d
    let c := h.flt.unitCls
    let i := h.flt.unitIdx
    let chosen (op : Nat) : Device := { h with flt := { h.flt with unitOp := op, unitErr := false, unitCause := 0 } }
    (BarTaken s 0x000C_0024 →
      ((h.unitRefusal 1 c i = 0 → Gives .fltFence s (unitsChanged (ownerFence c i (chosen 1)))) ∧
       (h.unitRefusal 2 c i = 0 → Gives .fltTest s (unitsChanged (ownerTest c i (chosen 2)))) ∧
       (h.unitRefusal 3 c i = 0 → Gives .fltUnfence s (unitsChanged (returnUnit c i (chosen 3)))) ∧
       let refused (op : Nat) : Device := unitsChanged { h with flt := { h.flt with unitOp := op, unitErr := true, unitCause := h.unitRefusal op c i } }
       (h.unitRefusal 1 c i ≠ 0 → Gives .fltFence s (refused 1)) ∧ (h.unitRefusal 2 c i ≠ 0 → Gives .fltTest s (refused 2)) ∧ (h.unitRefusal 3 c i ≠ 0 → Gives .fltUnfence s (refused 3)))) ∧
    (let cls := field (bytesAt e 4 1) 2 0;
     let idx := bytesAt e 6 2;
     let waiting (op : Nat) : Device := d.updAdm 0 (fun q => { q with waits := .unitOp cls idx op });
     (AdminTurn s 0 0x0070 [(4, 7), (6, 255), (7, 255)] [] o e →
        (d.unitRefusal 1 cls idx = 0 → Gives (.unitFence 0) s (unitsChanged (ownerFence cls idx (waiting 1)))) ∧
        (d.unitRefusal 1 cls idx ≠ 0 → Gives (.unitFence 0) s (admDone 0 stRefused 0 (0x70 + d.unitRefusal 1 cls idx) d))) ∧
     (AdminTurn s 0 0x0071 [(4, 7), (6, 255), (7, 255)] [] o e →
        (d.unitRefusal 2 cls idx = 0 → Gives (.unitTest 0) s (unitsChanged (ownerTest cls idx (waiting 2)))) ∧
        (d.unitRefusal 2 cls idx ≠ 0 → Gives (.unitTest 0) s (admDone 0 stRefused 0 (0x70 + d.unitRefusal 2 cls idx) d))) ∧
     (AdminTurn s 0 0x0072 [(4, 7), (6, 255), (7, 255)] [] o e →
        (d.unitRefusal 3 cls idx = 0 → Gives (.unitUnfence 0) s (unitsChanged (returnUnit cls idx (waiting 3)))) ∧
        (d.unitRefusal 3 cls idx ≠ 0 → Gives (.unitUnfence 0) s (admDone 0 stRefused 0 (0x70 + d.unitRefusal 3 cls idx) d)))) ∧
    ((d.unit cls idx).testing = true → Gives (.unitTestDone cls idx pass) s (unitsChanged (testDone cls idx pass d)) ∧
      ((d.unit cls idx).ownerTest = true → ((testDone cls idx pass d).unit cls idx).passed = (pass && !(d.unit cls idx).testFailed) ∧ ((testDone cls idx pass d).unit cls idx).testing = false ∧
        ((testDone cls idx pass d).unit cls idx).fenced = (d.unit cls idx).fenced)) ∧
    (∀ g x rest, (d.lat l).spareFor = (g, x) :: rest →
      let without := d.updLat l (fun t => { t with spareFor := rest })
      let due : Prop := (d.eng x).fenceDue = true ∧ (d.eng x).st.inService = true
      ((d.eng g).st ≠ .spare → Gives (.spareInService l) s (unitsChanged (fenceIfIdle x (callSpare x without)))) ∧
      ((d.eng g).st = .spare → due → (d.eng x).st ≠ .idle → Gives (.spareInService l) s d) ∧
      ((d.eng g).st = .spare → ¬ due → exposed d.part ≤ d.latInService l → Gives (.spareInService l) s (unitsChanged without)) ∧
      ((d.eng g).st = .spare → due ∧ (d.eng x).st = .idle ∨ ¬ due ∧ d.latInService l < exposed d.part → Gives (.spareInService l) s
        (unitsChanged (fenceIfIdle x (recordAs 0x3007 (d.unitSource 0 x) 0 false d.time l g x 0 (seedEngine g
          ((scrubEngine g without).updEng g (fun y => { y with st := .idle, lastAllot := none, resident := [], mg := {} }))))))))

/-- FaultRegisters and UnitOperations, together. -/
def Obligations.FaultRegistersAndUnits : Prop := FaultRegisters ∧ UnitOperations


/-! ## The Levee and the event recorder (16) -/

/-- 16 R333 to R339, R344, R345, Table 16.2: a source whose events within its window reach K fires, once, and its configured set joins the response at the end of the interval: HOLD holds commands, zeroization stops and clears the
compute die, erasing the KER only where the set says so. Stimuli fire no source alone; releases are refused while a fired source would hold; firings are cleared by the owner. -/
def Sys2Proof.Claims.LeveeResponds : Prop :=
  ∀ (s : State) (src : Fin 18) (v : BitVec 18) (f : Firing),
    let d := s.dev
    let t := tookCustody d
    let x := d.levSrc src
    (d.levRuns src = true → x.fired = false → x.events = [] → d.lev.onBattery = false →
      (cfgK (d.levCfg src) ≤ 1 → d.lev.firings = [] ∨ d.time < d.lev.interval + 1000 → Does (.leveeEvent src) s (fun d' => (d'.levSrc src).fired = true ∧
        d'.lev.firings = putFiring { source := src, set := cfgResp (d.levCfg src), events := 1, at_ := d.time } d.lev.firings ∧ d'.lev.union = d.lev.union ∧
        d'.lev.interval = if d.lev.firings = [] then d.time / 1000 * 1000 else d.lev.interval)) ∧
      (1 < cfgK (d.levCfg src) → Does (.leveeEvent src) s (fun d' => (d'.levSrc src).fired = false ∧ (d'.levSrc src).events = [(d.time, true)] ∧ d'.lev.firings = d.lev.firings))) ∧
    (src.val ≠ 6 → d.levRuns src = false → Gives (.leveeEvent src) s d) ∧
    (d.lev.firings = [] ∨ d.time < d.lev.interval + 1000 → Gives .leveeIntervalEnd s d) ∧
    (d.lev.firings = [f] → d.lev.interval + 1000 ≤ d.time → d.lev.union = 0 →
      (f.set < 8 → Does .leveeIntervalEnd s (fun d' => d'.lev.firings = [] ∧ d'.lev.union = f.set / 4 * 4 ∧ (4 ≤ f.set → d'.leveeHold = true) ∧ d'.fl.sbStop = d.fl.sbStop ∧ d'.cis.kerPresent = d.cis.kerPresent)) ∧
      (f.set = 0x11 → d.lev.zeroizing = false → Does .leveeIntervalEnd s (fun d' => d'.lev.union = 0x1C ∧ d'.lev.zeroizing = true ∧ d'.lev.zeroizeFrom = d.time ∧ d'.fl.sbStop = true ∧ d'.fl.clearing = true ∧
        d'.fl.leases = [] ∧ d'.cis.kerPresent = d.cis.kerPresent ∧ d'.md.change = none)) ∧
      (f.set = 0x21 → d.lev.zeroizing = false → d.md.mode ≠ .debug → Does .leveeIntervalEnd s (fun d' => d'.cis.kerPresent = false ∧ d'.lev.zeroizing = true ∧ d'.lev.resetDue = true ∧ d'.fl.sbStop = true))) ∧
    (d.lev.zeroizing = true → d.fl.clearing = false → d.lev.resetDue = false → d.flt.fatal = none → d.lev.zeroizeAll = false →
      let z := record 0x2010 0 false 0 (min ((d.time - d.lev.zeroizeFrom) / 1000) 0xFFFF_FFFF) 0 0 (zeroizeCustody d)
      Gives .zeroizeDone s (restartCompute causeLevee 1 { z with lev := { z.lev with zeroizing := false, zeroizeAll := false, resetDue := false, union := 0 } }) ∧
      (∀ y ∈ z.cis.slots, y.2.attr.persistent = true) ∧ z.whd.pool = 0) ∧
    (WriteTravels .leveeRelease s 0x0011_0004 1 ∧ WriteTravels (.levFiredClear v) s 0x0011_0008 v.toNat ∧ WriteTravels (.levTestSeenClear v) s 0x0011_000C v.toNat ∧
      WriteTravels (.levStim v) s 0x0011_0010 v.toNat) ∧
    (∀ n,
      (WriteArrives s 0x0011_0004 0 1 n →
        (t.releaseBlocked = true → Performs s n { t with lev := { t.lev with ctrlErr := true } }) ∧
        (t.releaseBlocked = false → t.lev.union = 4 → Performs s n (resumeScans (noticeAll 0x2004 0 4 0 0 0 (record 0x2004 0 true 4 0 0 0 { t with lev := { t.lev with ctrlErr := false, union := 0 } })))) ∧
        (t.releaseBlocked = false → t.lev.union = 0x0C → t.flt.fatal = none → Performs s n (resumeScans (noticeAll 0x2004 0 12 0 0 0 (record 0x2004 0 true 12 0 0 0
          { t with lev := { t.lev with ctrlErr := false, union := 0 }, fl := { t.fl with sbStop := false } }))))) ∧
      (Tbl.wf {} d.lev.src = true →
        (WriteArrives s 0x0011_0008 0 v.toNat n → Does .regWrite s (fun d' => ∀ k, (d'.levSrc k).fired = ((d.levSrc k).fired && !bitOf v.toNat k) ∧ (d'.levSrc k).testSeen = (d.levSrc k).testSeen)) ∧
        (WriteArrives s 0x0011_000C 0 v.toNat n → Does .regWrite s (fun d' => ∀ k, (d'.levSrc k).testSeen = ((d.levSrc k).testSeen && !bitOf v.toNat k) ∧ (d'.levSrc k).fired = (d.levSrc k).fired))) ∧
      (WriteArrives s 0x0011_0010 0 (2 ^ src.val) n → d.md.mode ≠ .bringup →
        (x.fired = false → Performs s n (levEvent src false { t with lev := { t.lev with stimErr := false } })) ∧
        (x.fired = true → Performs s n { t with lev := { t.lev with stimErr := true } }) ∧
        (x.fired = false → x.events = [] → d.lev.onBattery = false → Does .regWrite s (fun d' => (d'.levSrc src).fired = false ∧ d'.lev.firings = d.lev.firings)))) ∧
    (d.boot.custodyReset = false → Gives .battCfgCopy s { d with lev := { d.lev with battCfg := d.battWords } } ∧
      Gives .svcPressed s (record 0x2101 0 false 0 0 0 0 { d with lev := { d.lev with svcOpenUntil := some (d.time + 30_000_000_000) } })) ∧
    (∀ z, d.lev.svcOpenUntil = some z → z ≤ d.time → Gives .svcWindowExpire s { d with lev := { d.lev with svcOpenUntil := none } }) ∧
    (∀ b : Fin 8, let y := d.levSrc b;
      d.lev.onBattery = true → y.fired = false → y.events ≠ [] → (∀ z ∈ y.events, d.inWindow (d.filterOf b).2 z.1 = true) → cfgK (d.filterOf b).1 ≤ y.events.length → d.lev.alarms.length < 16 →
      Does (.batteryFire b) s (fun d' => (d'.levSrc b).fired = true ∧ d'.lev.alarms.length = d.lev.alarms.length + 1 ∧
        d'.cis.kerPresent = (d.cis.kerPresent && !bitOf (d.filterOf b).1 8) ∧ d'.lev.zaResume = (d.lev.zaResume || bitOf (d.filterOf b).1 8)))

/-- 16 R346 to R351, Tables 16.7, 16.8; 00 R437: a record that arrives takes the next SEQ; the append queue full, it is dropped and counted. A cursor latches the first record at or after it, reading DATA[7] goes on to the next; a page window
shows only the allotment's own records and public ones; EVR_CLEAR empties the circular area; at the end of each second the summaries are appended. -/
def Sys2Proof.Claims.TheEventRecorder : Prop :=
  ∀ (s : State) (r : Rec32) (v : BitVec 32) (a : Fin 64) (w : EvrWin) (confirm : BitVec 16),
    let d := s.dev
    let t := tookCustody d
    let p := hostAccess a d
    let q := d.evr
    (CustodyGets s (.evrAppend r) → d.queuedRecords < 48 → q.ring.length < 8192 → Does .evrAppend s (fun d' =>
      d'.evr.next = (q.next + 1) % 2 ^ 32 ∧ d'.evr.ring = q.ring ++ [BitVec.ofNat 256 (r.toNat % 2 ^ 224 + q.next % 2 ^ 32 * 2 ^ 224)] ∧ d'.evr.oldest = q.oldest ∧ d'.evr.dropped = q.dropped)) ∧
    (CustodyGets s (.evrAppend r) → 48 ≤ d.queuedRecords → let t := tookCustody d; Gives .evrAppend s
      (custodyFault 0xB7 0xFFFF 0 { t with evr := { t.evr with dropSec := q.dropSec + 1, dropped := satAdd 0xFFFF_FFFF q.dropped 1 } })) ∧
    (WriteTravels (.evrCursorWrite v) s 0x0012_0004 v.toNat ∧ ReadTravels .evrDataRead s 0x0012_002C ∧ WriteTravels (.evrClear confirm) s 0x0012_0038 (confirm.toNat + 2 ^ 16)) ∧
    (d.barLive = true → d.asleep = false → (d.allot a).flr = none →
      Gives (.evwCursorWrite a v) s (proxyAccess a (2 ^ 32 + 0x4004) true v.toNat p) ∧ Gives (.evwDataRead a) s (proxyAccess a (2 ^ 32 + 0x402C) false 0 p)) ∧
    (∀ n, WriteArrives s 0x0012_0004 0 v.toNat n → q.win.area = false → q.oldest < 2 ^ 32 → q.ring.length ≤ 8192 → (v.toNat + 2 ^ 32 - q.oldest) % 2 ^ 32 < q.ring.length → Does .regWrite s (fun d' =>
      d'.evr.win = { q.win with cursor := v.toNat, valid := true, atEnd := false, gap := false, data := q.ring.getD ((v.toNat + 2 ^ 32 - q.oldest) % 2 ^ 32) 0 })) ∧
    (∀ n, ReadArrives s 0x0012_002C 0 n → q.win.valid = true → q.win.atEnd = false → Does .regRead s (fun d' =>
      Answers s n (bytesAt q.win.data 28 4) d' ∧ d'.evr.win = seekRecord d (fun _ => true) ((q.win.cursor + 1) % 2 ^ 32) q.win)) ∧
    (∀ n, WriteArrives s (2 ^ 32 + 0x4004) a v.toNat n → (d.allot a).flr = none → Performs s n (t.updAllot a (fun z => z.setEvw (cursorWrite t (seenBy a) v.toNat z.evw)))) ∧
    (∀ n, ReadArrives s (2 ^ 32 + 0x402C) a n → Does .regRead s (fun d' => Answers s n (bytesAt (d.allot a).evwData 28 4) d' ∧
      (d'.allot a).evw = windowAdvance d (seenBy a) (d.allot a).evw)) ∧
    (let c := cursorWrite d (seenBy a) v.toNat w; c.valid = true → recAllot c.data = a ∨ recPublic c.data = true) ∧
    (let c := windowAdvance d (seenBy a) w; c.valid = true → recAllot c.data = a ∨ recPublic c.data = true) ∧
    (∀ n, WriteArrives s 0x0012_0038 0 (confirm.toNat + 2 ^ 16) n →
      (confirm = 0xC1EA → d.md.mode ≠ .quarantine → Does .regWrite s (fun d' => d'.evr.ring.length = 1 ∧ d'.evr.oldest = q.next ∧ d'.evr.next = (q.next + 1) % 2 ^ 32 ∧ d'.evr.clearErr = false)) ∧
      (confirm ≠ 0xC1EA ∨ d.md.mode = .quarantine → Performs s n { t with evr := { t.evr with clearErr := true } })) ∧
    (d.second < d.time / 1_000_000_000 → Gives .secondIntervalEnd s { endSecond d with second := d.time / 1_000_000_000 } ∧
      (endSecond d).md.lockedSec = 0 ∧ (endSecond d).evr.dropSec = 0 ∧ (endSecond d).flt.perSource = []) ∧
    (d.time / 1_000_000_000 ≤ d.second → Gives .secondIntervalEnd s d)

/-- LeveeResponds and TheEventRecorder, together. -/
def Obligations.TheLevee : Prop := LeveeResponds ∧ TheEventRecorder


/-! ## The Flume (01; 13) -/

/-- 01 R14 to R16; 13 R273 to R275, Tables 13.5, 13.8; 08 R182, R185; 09 R207; 12 R259: key requests, the oldest that waited first, are checked and answered: a stateless key is delivered as order + 1 shares with a lease; an absent,
foreign or ill-suited one is refused; CREATE binds a target, COMMIT and ABANDON settle it. Deliveries land in operand memory, refusals wait for the keywait, an answer that an ended command asked for is scrubbed; a revoke drops every
lease of the key before it is acknowledged; unit keys enter their registers; entropy goes to its consumer. -/
def Sys2Proof.Claims.KeysOverTheFlume : Prop :=
  ∀ (s : State) (r : KeyReq),
    let d := s.dev
    let t := tookCustody d
    let u := tookCompute d
    (∀ op : Nat, let b := retryKeys op d
      b.flumeRuns = true → nextMsg b.fl.toCustody = some (.keyRequest op r) →
        let c := unitsChanged (keyRequest op r (tookCustody b))
        (op = 0 → Gives .keyRequest s c) ∧ (op = 1 → Gives .keyRequestExport s c) ∧ (op = 2 → Gives .keyRequestCreate s c) ∧ (op = 3 → Gives .keyRequestCommit s c) ∧ (op = 4 → Gives .keyRequestAbandon s c)) ∧
    (∀ op, d.cis.waiting = [] → retryKeys op d = d) ∧
    (∀ op st det, op < 3 → d.keyCheck op r = .refuse st det → keyRequest op r d = toCompute (.keyRefuse r.eng r.request st det) d) ∧
    (∀ a, d.keyCheck 0 r = .pass a → handleStore r.handle = false → (r.stateful = false ∧ r.reads = false) ∨ a.stateful = false → keyRequest 0 r d = deliverKey 0 r a (d.keyMaterial r.handle) none d) ∧
    (∀ a, d.keyCheck 1 r = .pass a → handleStore r.handle = false → keyRequest 1 r d = deliverKey 1 r a (d.keyMaterial r.handle) none d) ∧
    (∀ a, d.keyCheck 2 r = .pass a → handleStore r.handle = false →
      (d.entropyAvailable = true → let x := d.custodyRandom 32
        keyRequest 2 r d = deliverKey 2 r { a with st := 2 } x.1 none (x.2.updSlot (handleSlot r.handle) (fun s => { s with attr := { s.attr with st := 2 }, boundReq := some r.slot, kt := x.1 }))) ∧
      (d.entropyAvailable = false → keyRequest 2 r d = { d with cis := { d.cis with waiting := d.cis.waiting ++ [(2, r)] } })) ∧
    (let x := d.slot (handleSlot r.handle); handleStore r.handle = false → (keyRequest 4 r d).slot (handleSlot r.handle) = if x.boundReq = some r.slot then { x with attr := x.attr.unbind, boundReq := none, kt := [] } else x) ∧
    (handleAllot r.handle ≠ r.allot → handleAllot r.handle ≠ 0 → d.md.mode ≠ .quarantine → d.keyCheck 0 r = .refuse stKeyPolicy 2) ∧
    (∀ e q n last sh leaf lease bs info, ComputeGets s (.keyDeliver e q n last sh leaf lease bs info) →
      (4 ≤ q → Gives .keyDeliver s (u.updCmd (q - 4) (fun c => { c with target := none }))) ∧
      (∀ k x, q < 4 → u.keyHolder e q = some (k, x) →
        let whole := x.received ++ bs
        (last = true → Gives .keyDeliver s (landKey k e q x sh leaf lease whole info u) ∧
          (∀ a, leaf = none → u.archOf k = some a → x.dest + whole.length ≤ ctxWindow → Does .keyDeliver s (fun d' => ∃ a', d'.archOf k = some a' ∧ readBytes a'.opm x.dest whole.length = whole))) ∧
        (last = false → Gives .keyDeliver s (updRequest k e q (fun y => { y with received := y.received ++ bs }) u))) ∧
      (q < 4 → u.keyHolder e q = none →
        (∀ h a rest, (d.eng e).gone = (q, h, a) :: rest → last = true → leaf = none → Gives .keyDeliver s (u.updEng e (fun g => { g with gone := rest }))) ∧
        ((d.eng e).gone = [] → Gives .keyDeliver s (unitsChanged (custodyFault 0x7C 0xFFFF 0 u))))) ∧
    (∀ e q st det, ComputeGets s (.keyRefuse e q st det) →
      (∀ k x, q < 4 → u.keyHolder e q = some (k, x) → Gives .keyRefuse s (updRequest k e q (fun y => { y with outcome := .refused st det }) u)) ∧
      (q < 4 → u.keyHolder e q = none → Gives .keyRefuse s (u.updEng e (fun g => { g with gone := dropFirst (fun x => decide (x.1 = q)) g.gone }))) ∧
      (∀ c, 4 ≤ q → d.cmd (q - 4) = some c → c.commitBegun = true → c.phase = .checked → Gives .keyRefuse s (settleAdmin (haltWith (q - 4) st det 0 u)))) ∧
    (∀ hd i, ComputeGets s (.keyRevoke hd i) → Gives .keyRevoke s (toCustody (.keyRevokeAck i) (revokeHeld hd u)) ∧ ∀ g ∈ (revokeHeld hd u).engs, ∀ l ∈ g.2.leases, l.handle ≠ hd) ∧
    (∀ i, CustodyGets s (.keyRevokeAck i) →
      (∀ x rest, d.fl.revokes = x :: rest → x.ident = i → let v : Device := { t with fl := { t.fl with revokes := rest } }
        ((d.adm x.allot).waits = .revoke i → Gives .keyRevokeAck s (admDone x.allot stOk 0 0 v)) ∧ ((d.adm x.allot).waits ≠ .revoke i → Gives .keyRevokeAck s v)) ∧
      ((∀ x ∈ d.fl.revokes, x.ident ≠ i) → Gives .keyRevokeAck s t)) ∧
    (∀ a c key, ComputeGets s (.unitKeyLoad a c key) →
      let m := u.rsv
      let regs := Tbl.put m.keyRegs (4 * a + c) key
      let v : Device := { u with rsv := if c = 0 then { m with keyRegs := regs, keys := m.keys ||| 2 ^ a } else if c = 1 then { m with keyRegs := regs, wrapKeys := m.wrapKeys ||| 2 ^ a } else { m with keyRegs := regs, saveKeys := m.saveKeys ||| 2 ^ a } }
      Gives .unitKeyLoad s (if v.keysLoaded = true ∧ (v.adm 0).waits = .unitKeys then admDone 0 stOk 0 0 v else v)) ∧
    (∀ c cls n b, CustodyGets s (.entropyRequest c cls n b) → Gives .entropyRequest s (serveDrbgs (enqueueEnt { consumer := c, cls := cls, amount := n, since := d.time, reseed := b } t))) ∧
    (∀ c cls bs, ComputeGets s (.entropyDeliver c cls bs) →
      (cls = 1 ∨ cls = 3 → (d.eng c).arch.entAsked = some (cls, bs.length) → Gives .entropyDeliver s (u.updArch c (fun t => { t with entAsked := none, entBytes := bs }))) ∧
      (cls = 2 → 144 ≤ c → Gives .entropyDeliver s (u.updLiu (c - 144) (fun x => { x with katDue := false }))) ∧
      (cls = 0 → (d.eng c).mg.reqPending = true →
        let m := mgSeed (BitVec.ofNat 512 (ofBytes bs)) (d.eng c).mg
        Gives .entropyDeliver s (refreshStale c ((u.updEng c (fun g => { g with mg := m })).bump (engPage c + 0x028))) ∧
        m.seeded = true ∧ m.blocks = 0 ∧ m.reqPending = false ∧ m.state = keccakBits 24 ((d.eng c).mg.state ^^^ (BitVec.ofNat 512 (ofBytes bs)).zeroExtend 1600) ∧ m.fifo = (d.eng c).mg.fifo) ∧
      (cls = 0 → (d.eng c).mg.reqPending = false → Gives .entropyDeliver s u))

/-- 01 R8; 14 R298, R301, Table 14.3: a steward access passes gate 83, and for host memory gate 0 too; it is performed and answered, waits at a closed gate, or is refused, reported and answered so. -/
def Sys2Proof.Claims.StewardAccesses : Prop :=
  ∀ (d : Device) (core addr n ident : Nat) (data : List Byte),
    let act (kind : Nat) (host : Bool) : Device := stewardAccess core addr n kind host ident data d
    let permitted (kind : Nat) (host : Bool) : Prop := gateCheck d 83 0 addr n kind host none = .permit ∧ (host = true → gateCheck d 0 0 addr n kind true none = .permit)
    (permitted 0 false → act 0 false = toCustody (.stwReply ident true (d.rsvRead addr n)) d) ∧
    (permitted 0 true → act 0 true = toCustody (.stwReply ident true data) d) ∧
    (permitted 1 false → act 1 false = toCustody (.stwReply ident true []) (d.rsvWrite addr data)) ∧
    (permitted 1 true → act 1 true = toCustody (.stwReply ident true []) (hostWrite 0 addr data d)) ∧
    (∀ kind host, (d.gate 83).close = true → act kind host = gateWait 83 (.steward core host ident data) addr n kind d) ∧
    (∀ kind host c rg st, gateCheck d 83 0 addr n kind host none = .refuse c rg st →
      act kind host = toCustody (.stwReply ident false []) (reportRefusal 83 0 addr n kind (0xF8 + core) c rg st true d)) ∧
    (∀ kind c rg st, gateCheck d 83 0 addr n kind true none = .permit → gateCheck d 0 0 addr n kind true none = .refuse c rg st →
      act kind true = toCustody (.stwReply ident false []) (reportRefusal 0 0 addr n kind (0xF8 + core) c rg st true d))

/-- 01 R8, R10 to R13, R17 to R19, Tables 1.4 to 1.6; 13 R265, R275; 15 R322; 17 R360: the link and the sideband: TRAIN advances the boot counter, outside training it is malformed; heartbeats carry the sender's state, the last SEQ and
the time; steward messages are performed in their turn; a lost message is sent again; a tag failure, silence, a malformed message or both sublinks down are faults; SB_CLEAR is held 40 us and clears the compute die, after which
nothing of it remains; SB_FATAL marks it wedged; the fallback clock takes over. -/
def Sys2Proof.Claims.TheFlumeLink : Prop :=
  ∀ (s : State) (u : Fin 2) (up : Bool) (core : Fin 4) (addr : BitVec 64) (len : Fin 256) (host : Bool) (ident : BitVec 16) (data : BitVec 2048),
    let d := s.dev
    let n := len.val + 1
    let last (n : Nat) : Nat := (n + 0xFFFF_FFFF) % 2 ^ 32
    (d.inTraining = true → d.fl.training = false → Gives (.train false) s { d with fl := { d.fl with boot := d.fl.boot + 1, training := true, presentCustody := true } }) ∧
    (d.inTraining = true → d.fl.training = true → Gives (.train false) s d) ∧
    (d.inTraining = true → Gives (.train true) s { d with fl := { d.fl with trainSeen := true, presentCompute := true } }) ∧
    (d.inTraining = false → d.boot.custodyReset = false → d.boot.computeReset = false → Gives (.train up) s (unitsChanged (custodyFault 0x7A 0xFFFF 0 d))) ∧
    (d.flumeRuns = true →
      Gives (.heartbeatSend true) s (toCustody (.heartbeat 0 (d.beatState true) (last d.fl.rxCompute)) d) ∧
      Gives (.heartbeatSend false) s (toCompute (.heartbeat d.time (d.beatState false) (last d.fl.rxCustody)) d) ∧
      Gives (.flumeRetransmit true) s { d with fl := { d.fl with toCustody := resend d d.fl.toCustody } } ∧
      Gives (.flumeRetransmit false) s { d with fl := { d.fl with toCompute := resend d d.fl.toCompute } } ∧
      (∀ f rest, f.arrived = false → f.lost = true ∨ f.sent + 200 ≤ d.time → (resend d (f :: rest)).head? = some { f with retry := true, lost := false, sent := d.time, sub := d.carrier f.seq }) ∧
      (let m := Msg.stwRead core addr.toNat n host ident.toNat
       let act := stewardAccess core addr.toNat n 0 host ident.toNat (toBytes n data.toNat)
       (nextMsg d.fl.toCompute = some m → Gives (.stwRead core addr len host ident data) s (act (tookCompute d))) ∧
       (d.fl.toCompute = [] → Gives (.stwRead core addr len host ident data) s (act (tookCompute (toCompute m d)))) ∧
       (d.fl.toCompute ≠ [] → nextMsg d.fl.toCompute ≠ some m → Gives (.stwRead core addr len host ident data) s (toCompute m d))) ∧
      (let bs := toBytes n data.toNat
       let m := Msg.stwWrite core addr.toNat host ident.toNat bs
       let act := stewardAccess core addr.toNat n 1 host ident.toNat bs
       (nextMsg d.fl.toCompute = some m → Gives (.stwWrite core addr len host ident data) s (act (tookCompute d))) ∧
       (d.fl.toCompute = [] → Gives (.stwWrite core addr len host ident data) s (act (tookCompute (toCompute m d)))) ∧
       (d.fl.toCompute ≠ [] → nextMsg d.fl.toCompute ≠ some m → Gives (.stwWrite core addr len host ident data) s (toCompute m d))) ∧
      ((d.sublink u).up = true →
        let x : Device := if up then { d with fl := { d.fl with toCustody := loseOn u d.fl.toCustody } } else { d with fl := { d.fl with toCompute := loseOn u d.fl.toCompute } }
        let times := (d.sublink u).tagFails.filter (fun t => decide (d.time < t + 1_000_000)) ++ [d.time]
        let y := custodyFault 0x75 u 0 (x.updSublink u (fun z => { z with tagFails := times }))
        (times.length < 3 → Gives (.flumeTagFailure u up) s (unitsChanged y)) ∧ (3 ≤ times.length → Gives (.flumeTagFailure u up) s (unitsChanged (custodyFault 0x76 u 0 y)))) ∧
      (∀ f, f.sub = u.val → f.arrived = false → f.lost = false → loseOn u [f] = [{ f with lost := true }]) ∧
      Gives (.flumeMalformedMessage up) s (unitsChanged (custodyFault (if up then 0x7B else 0x7A) 0xFFFF 0 d))) ∧
    (∀ t st q, CustodyGets s (.heartbeat t st q) → let x := tookCustody d; Gives (.heartbeat true) s { x with fl := { x.fl with lastBeat := d.time } }) ∧
    (∀ t st q, ComputeGets s (.heartbeat t st q) → let x := tookCompute d; Gives (.heartbeat false) s { x with fl := { x.fl with computeTime := t } }) ∧
    (∀ i ok bs, CustodyGets s (.stwReply i ok bs) →
      (∀ x, firstWhere (fun x => decide (stagedIdent x.req.slot = i)) d.cis.staged = some x → Gives .stwReply s (unitsChanged (stagedReply x ok bs (tookCustody d)))) ∧
      ((∀ x ∈ d.cis.staged, stagedIdent x.req.slot ≠ i) →
        (∀ m rest, d.ws.migs = m :: rest → m.source = true → m.reads ≠ 0 → m.rid = i → Gives .stwReply s (migReply m ok (tookCustody d))) ∧
        ((∀ m ∈ d.ws.migs, m.source = false ∨ m.reads = 0 ∨ m.rid ≠ i) → Gives .stwReply s (tookCustody d)))) ∧
    (d.fl.trained = true → (d.sublink u).up = true → (d.sublink u).lastRx + 8000 ≤ d.time ∨ (d.sublink u).lastRxCompute + 8000 ≤ d.time → Gives (.sublinkSilence u) s (unitsChanged (custodyFault 0x77 u 0 d))) ∧
    ((d.sublink u).fenced = true → (d.sublink u).retraining = true →
      let again (b : Bool) : Device := d.updSublink u (fun x => { x with retrainFails := x.retrainFails + 1, retraining := b })
      Gives (.sublinkRetrainDone u true) s (unitsChanged (testDone 4 u true d)) ∧
      ((d.sublink u).retrainFails < 2 → Gives (.sublinkRetrainDone u false) s (again true)) ∧
      (2 ≤ (d.sublink u).retrainFails → Gives (.sublinkRetrainDone u false) s (unitsChanged (custodyFault 0x78 u 0 (testDone 4 u false (again false)))))) ∧
    (∀ t, d.fl.downSince = some t → d.fl.trained = true → d.fl.sub0.up = false → d.fl.sub1.up = false → t + 100_000 ≤ d.time → d.flt.fatal = none →
      Gives .bothSublinksDown s (unitsChanged (wedge (custodyFault 0x79 0xFFFF 0 d)))) ∧
    Gives .sbStop s { d with fl := { d.fl with sbStop := true } } ∧
    Does .sbClear s (fun d' => d'.fl.sbClear = true ∧ d'.fl.clearing = true ∧ d'.fl.clearFrom = d.time ∧ d'.fl.boot = d.fl.boot + 1 ∧ d'.fl.leases = [] ∧ ∀ x ∈ d'.cis.slots, x.2.attr.st ≠ 2) ∧
    (d.fl.clearing = true → Does .sbClearDone s (fun d' => d'.fl.clearing = false ∧ d'.fl.sbClear = (d.fl.sbClear && decide (d.time < d.fl.clearFrom + 40_000)) ∧
      (∀ e, (d'.eng e).arch = {} ∧ (d'.eng e).leases = [] ∧ (d'.eng e).mg = {}) ∧ (∀ k, (d'.liu k).slots = [] ∧ (d'.liu k).modulus = 0) ∧
      (∀ k, (d'.dig k).job = none) ∧ d'.cache = [] ∧ d'.ctxs = [] ∧ d'.rsv.keys = 0 ∧ d'.rsv.keyRegs = [] ∧ d'.rsv.mem = [])) ∧
    (d.boot.computeReset = false → Gives .sbFatal s (wedge { d with fl := { d.fl with sbFatal := true } }) ∧ Gives .sbPresentFall s (wedge { d with fl := { d.fl with presentCompute := false } })) ∧
    (d.fl.fallback = false → d.boot.custodyReset = false → Gives .fallbackSwitch s (unitsChanged (custodyFault 0xAC 0xFFFF 0 { d with fl := { d.fl with fallback := true } }))) ∧
    Gives .fallbackReturn s { d with fl := { d.fl with fallback := false } }

/-- KeysOverTheFlume, StewardAccesses and TheFlumeLink, together. -/
def Obligations.TheFlume : Prop := KeysOverTheFlume ∧ StewardAccesses ∧ TheFlumeLink


/-! ## The Wellhead (12) -/

/-- 12 R252, R254 to R256, R260, Tables 12.6 to 12.8: an output of the conditioner adds 32 bytes to the pool, which holds 4,096. A failed health test of a group, or of the fallback stream, is counted, discards the block under way and spends a pending
injection; it spoils a test run under way; of a source in service the third within a second retires it and zeroes the pool. A test run that passes returns its source to service, one that fails retires it. A wait of TIMEOUT without a source ends NO_ENTROPY,
held back while the test run that began the outage goes on. -/
def Sys2Proof.Claims.SourcesAndPool : Prop :=
  ∀ (s : State) (grp : Option (Fin 32)) (apt fb pass : Bool) (k : Fin 4096),
    let d := s.dev
    let w := d.whd
    (d.sourceUp = true → d.boot.custodyReset = false → d.captured = false →
      let b := d.bump 0x0013_001C
      Gives .conditionerOutput s (serveDrbgs { b with whd := { b.whd with pool := min 4096 (w.pool + 32), block := 0 } })) ∧
    (d.sourceUp = false ∨ d.boot.custodyReset = true ∨ d.captured = true → Gives .conditionerOutput s d) ∧
    (d.boot.custodyReset = true → Gives (.healthFail grp apt) s d) ∧
    (d.boot.custodyReset = false →
      let f := grp.isNone
      let stream := (grp.map Fin.val).getD 63
      let x := d.source f
      let times := x.failTimes.filter (fun t => decide (d.time < t + 1_000_000_000)) ++ [d.time]
      Does (.healthFail grp apt) s (fun d' =>
        let w' := d'.whd
        let more (b : Bool) (n : Nat) : Nat := if b then satAdd 255 n 1 else n
        w'.block = 0 ∧ w'.injPend = dropFirst (fun y => decide (y = (stream, apt))) w.injPend ∧
        w'.failsMainRct = more (!f && !apt) w.failsMainRct ∧ w'.failsMainApt = more (!f && apt) w.failsMainApt ∧
        w'.failsFbRct = more (f && !apt) w.failsFbRct ∧ w'.failsFbApt = more (f && apt) w.failsFbApt ∧
        d'.source (!f) = d.source (!f) ∧
        (x.testing ≠ none → d'.source f = { x with testBad := true } ∧ w'.pool = w.pool) ∧
        (x.testing = none → x.inService = false → d'.source f = x ∧ w'.pool = w.pool) ∧
        (x.testing = none → x.inService = true → times.length < 3 → d'.source f = { x with failTimes := times } ∧ w'.pool = w.pool) ∧
        (x.testing = none → x.inService = true → 3 ≤ times.length → d'.source f = { x with inService := false, retired := true, failTimes := [] } ∧ w'.pool = 0))) ∧
    (let x := d.source fb
     let ok := pass && !x.testBad
     let other := d.source (!fb)
     (x.testing = none → Gives (.sourceTestDone fb pass) s d) ∧
     (x.testing ≠ none → ok = true ∨ (other.inService = true ∧ other.testing = none) ∨ d.cmds = [] → Does (.sourceTestDone fb pass) s (fun d' =>
       (d'.source fb).testing = none ∧ (d'.source fb).inService = ok ∧ (d'.source fb).retired = !ok ∧ d'.whd.testPass = ok ∧ d'.source (!fb) = other))) ∧
    (let held : Prop := w.outageTest = true ∧ (w.main.testing ≠ none ∨ w.fb.testing ≠ none)
     (d.entropyOver k = true → ¬ held → Gives (.noEntropyTimeout k) s (noEntropyEnd k d)) ∧
     (d.entropyOver k = false ∨ held → Gives (.noEntropyTimeout k) s d)) ∧
    (∀ t, d.entropyWaitFrom k = some t →
      let det := (d.time - t) / 1000
      ((d.cmdOr k).started = false → noEntropyEnd k d = concludeUnstarted k stNoEntropy det (d.bump 0x0013_0040)) ∧
      ((d.cmdOr k).started = true → noEntropyEnd k d = haltWith k stNoEntropy det 0 (d.bump 0x0013_0040)))

/-- 12 R256, R262, Tables 12.6, 12.8; 21 R432: the Wellhead's registers lie on the custody die, to which the host's writes and reads travel. Arrived there, a write of WHD_TEST starts the test run of a source, the main one in Maintenance only, and not one that runs already; WHD_INJECT
and WHD_RAW_CTRL inject a failure and start a capture in Maintenance, and set their ERR elsewhere; a capture ends with its samples in the buffer, of which each read of WHD_RAW_DATA gives the next 32. -/
def Sys2Proof.Claims.WellheadRegisters : Prop :=
  ∀ (s : State) (fb : Bool) (g : Fin 32) (samples : BitVec 65536) (v i : Nat),
    let d := s.dev
    let t := tookCustody d
    let w := t.whd
    let maint : Prop := d.md.mode = .maintenance
    let at_ := g.val + 32 * b2n fb
    WriteTravels .whdTestMain s 0x0013_0010 1 ∧ WriteTravels .whdTestFb s 0x0013_0010 2 ∧
    WriteTravels (.whdInjectRct g fb) s 0x0013_0014 (at_ + 64) ∧ WriteTravels (.whdInjectApt g fb) s 0x0013_0014 (at_ + 128) ∧
    WriteTravels (.rawCapture g fb) s 0x0013_0050 (at_ + 64) ∧ ReadTravels .whdRawDataRead s 0x0013_0058 ∧
    (WriteArrives s 0x0013_0010 0 v i →
      (bitOf v 0 = true → Performs s i (startTest false t)) ∧ (bitOf v 0 = false → bitOf v 1 = true → Performs s i (startTest true t)) ∧
      (bitOf v 0 = false → bitOf v 1 = false → Performs s i t)) ∧
    ((t.source fb).testing ≠ none ∨ (fb = false ∧ ¬ maint) → startTest fb t = { t with whd := { w with testErr := true } }) ∧
    ((t.source fb).testing = none → fb = true ∨ maint →
      let t' := startTest fb t
      t'.source fb = { t.source fb with testing := some d.time, testBad := false } ∧ t'.whd.testErr = false ∧ t'.source (!fb) = t.source (!fb) ∧ t'.whd.pool = w.pool) ∧
    (let aim : Device := { t with whd := { w with injGroup := v % 32, injFb := bitOf v 5 } }
     let spoil (b : Bool) : Device := if t.md.mode = .maintenance then { aim with whd := { aim.whd with injErr := false, injPend := w.injPend ++ [(if bitOf v 5 then 63 else v % 32, b)] } } else { aim with whd := { aim.whd with injErr := true } }
     WriteArrives s 0x0013_0014 0 v i →
      (bitOf v 6 = true → Performs s i (spoil false)) ∧ (bitOf v 6 = false → bitOf v 7 = true → Performs s i (spoil true)) ∧ (bitOf v 6 = false → bitOf v 7 = false → Performs s i aim)) ∧
    (let aim : Device := { t with whd := { w with rawGroup := v % 32, rawFb := bitOf v 5 } }
     WriteArrives s 0x0013_0050 0 v i →
      (bitOf v 6 = false → Performs s i aim) ∧ (bitOf v 6 = true → w.rawBusy = true → Performs s i t) ∧
      (bitOf v 6 = true → w.rawBusy = false → ¬ maint → Performs s i { aim with whd := { aim.whd with rawErr := true } }) ∧
      (bitOf v 6 = true → w.rawBusy = false → maint → Performs s i { aim with whd := { aim.whd with rawErr := false, rawBusy := true, rawDone := false } })) ∧
    (d.whd.rawBusy = true → Gives (.rawCaptureDone samples) s { d with whd := { d.whd with rawBusy := false, rawDone := true, rawBuf := samples } }) ∧
    (d.whd.rawBusy = false → Gives (.rawCaptureDone samples) s d) ∧
    (ReadArrives s 0x0013_0058 0 i → Does .regRead s (fun d' => d'.whd = { w with rawCursor := (w.rawCursor + 1) % 2048 } ∧
      Answers s i (w.rawBuf.toNat / 2 ^ (32 * w.rawCursor) % 2 ^ 32) d'))

/-- SourcesAndPool and WellheadRegisters, together. -/
def Obligations.TheWellhead : Prop := SourcesAndPool ∧ WellheadRegisters

/-! ## Keys, the Sealed Store and programs (13, 03) -/

/-- 13 R271, R284, R285, Tables 13.15, 13.16: KEY_ALLOC refuses a persistent key or an object in Debug mode, then a key for another allotment, and fills the slot that it names or the lowest free one
with the attributes given, empty; KEY_DESTROY empties the slot, logs KEY_DESTROYED and waits for the revocation; KEY_QUERY writes the key's record; KEY_RESTRICT raises MASK_ORDER and clears the flags
named. A handle that names no key, or a key of another allotment, gets KEY_ABSENT, DETAIL 1; a persistent key in Debug mode 4, an unreadable one 2. Objects and stateful keys go through the Sealed Store,
which must be attached; what needs entropy waits for it. -/
def Obligations.KeyCommands : Prop :=
  ∀ (s : State) (a : Fin 64) (o : Nat) (e : Entry),
    let d := s.dev
    let h := bytesAt e 4 4
    let n := handleSlot h
    let x := d.slot n
    let t := allocAttr e
    let store := bitOf (bytesAt e 4 1) 0
    let reach (k : KeyAttr) : Prop := d.keyAttr h = some k ∧ (a.val = 0 ∨ k.allot = a.val) ∧ (d.md.mode = .debug → k.persistent = false)
    let mine (k : KeyAttr) : Prop := reach k ∧ handleStore h = false
    let absent (i : Instr) : Prop :=
      (d.keyAttr h = none → Gives i s (admDone a stKeyAbsent 0 1 d)) ∧
      ∀ k, d.keyAttr h = some k →
        (a.val ≠ 0 → k.allot ≠ a → Gives i s (admDone a stKeyAbsent 0 1 d)) ∧
        (a.val = 0 ∨ k.allot = a.val → d.md.mode = .debug → k.persistent = true → Gives i s (admDone a stKeyAbsent 0 4 d))
    let unread (i : Instr) : Prop := ∀ k, mine k → x.unreadable = true → Gives i s (admDone a stKeyAbsent 0 2 d)
    let m := bytesAt e 9 1
    let index (i : Nat) (lowest : Option Nat) : Prop := if bytesAt e 8 4 = 0xFFFF_FFFF then lowest = some i else i = bytesAt e 8 4
    (AdminTurn s a 0x0030 ((4, 1) :: wholeBytes 8 23) [] o e →
      (d.md.mode = .debug → t.persistent = true ∨ store = true → Gives (.keyAlloc a) s (admDone a stRefused 0 0x36 d)) ∧
      (d.md.mode ≠ .debug → a.val ≠ 0 → t.allot ≠ a.val → Gives (.keyAlloc a) s (admDone a stRefused 0 0x34 d)) ∧
      (d.allocRefusal a e ≠ 0 → Gives (.keyAlloc a) s (admDone a stRefused 0 (d.allocRefusal a e) d)) ∧
      (∀ i, d.allocRefusal a e = 0 → store = false → t.stateful = false → index i (Tbl.lowestFree d.cis.slots 0 4096) →
        (t.persistent = false ∨ d.entropyAvailable = true → Gives (.keyAlloc a) s (admDone a stOk 0 (t.allot * 2 ^ 26 + i) (writeSlot i { attr := t } d)) ∧
          ((writeSlot i { attr := t } d).slot i).attr = t ∧ ∀ j, j ≠ i → (writeSlot i { attr := t } d).slot j = d.slot j) ∧
        (t.persistent = true → d.entropyAvailable = false → Gives (.keyAlloc a) s d)) ∧
      (∀ i y, d.allocRefusal a e = 0 → store = true → d.ss.change = none → index i (d.freeObj t.allot) →
        ssBegin [(t.allot * 2 ^ 25 + i, emptyObj t false)] [] [] (.admin a (t.allot * 2 ^ 26 + 2 ^ 25 + i)) (admWait a .exchange d) = some y → Gives (.keyAlloc a) s y)) ∧
    (AdminTurn s a 0x0031 (wholeBytes 4 7) [] o e →
      absent (.keyDestroy a) ∧
      (∀ k, reach k → handleStore h = true ∨ k.stateful = true → d.ss.attached = false → Gives (.keyDestroy a) s (admDone a stRefused 0 0x35 d)) ∧
      (∀ k, mine k → k.stateful = false → k.st = 2 → Gives (.keyDestroy a) s d) ∧
      (∀ k y, reach k → handleStore h = true → d.ss.attached = true → k.st ≠ 2 → d.ss.change = none → ssBegin [] [objKey h] [] (.revoke a h true) (admWait a .exchange d) = some y → Gives (.keyDestroy a) s y) ∧
      (∀ k, mine k → k.stateful = false → k.st ≠ 2 →
        Gives (.keyDestroy a) s (revokeKey a h (keyGone h (writeSlot n {} d))) ∧
        Does (.keyDestroy a) s (fun d' => d'.slot n = {} ∧ (d'.adm a).waits = .revoke d.fl.nextRevoke ∧ (d'.adm a).cmds = (d.adm a).cmds ∧
          (∃ r : Flight, d'.fl.toCompute.getLast? = some r ∧ r.msg = .keyRevoke h d.fl.nextRevoke)))) ∧
    (AdminTurn s a 0x0032 (wholeBytes 4 15) [(8, 64)] o e →
      absent (.keyQuery a) ∧ unread (.keyQuery a) ∧
      ∀ k, reach k → handleStore h = true ∨ x.unreadable = false → (d.allot a).flr = none →
        gateCheck d a a (bytesAt e 8 8) 64 1 true none = .permit → Gives (.keyQuery a) s (admDone a stOk 64 0 (d.emit (.hostWrite a (bytesAt e 8 8) (d.keyRecord h k))))) ∧
    (AdminTurn s a 0x0033 (wholeBytes 4 7 ++ [(8, 3), (9, 255)]) [] o e →
      absent (.keyRestrict a) ∧ unread (.keyRestrict a) ∧
      (∀ k, reach k → handleStore h = true → d.ss.attached = false → Gives (.keyRestrict a) s (admDone a stRefused 0 0x35 d)) ∧
      (∀ k, mine k → x.unreadable = false →
        let keeps : Prop := m = 0xFF ∨ (k.maskOrder ≤ m ∧ m ≤ 3)
        let fresh : Prop := (k.persistent = false ∧ k.st ≠ 2 ∧ k.st ≠ 3) ∨ d.entropyAvailable = true
        (m ≠ 0xFF → m < k.maskOrder ∨ 3 < m → Gives (.keyRestrict a) s (admDone a stRefused 0 0x30 d)) ∧
        (keeps → k.persistent = true → 0xFFFF_FFFF ≤ x.gen → Gives (.keyRestrict a) s (admDone a stRefused 0 0x37 d)) ∧
        (keeps → k.persistent = false ∨ x.gen < 0xFFFF_FFFF → ¬ fresh → Gives (.keyRestrict a) s d) ∧
        (keeps → k.persistent = false ∨ x.gen < 0xFFFF_FFFF → fresh →
          Gives (.keyRestrict a) s (revokeKey a h (writeSlot n { x with attr := { k with
            maskOrder := if m = 0xFF then k.maskOrder else m, exportable := k.exportable && !bitOf (bytesAt e 8 1) 0, deterministicOk := k.deterministicOk && !bitOf (bytesAt e 8 1) 1 } } d)))))

/-- 13 R280, R281, R283, R285, Tables 13.13 to 13.15: SS_ATTACH, outside Debug mode, of a store that keeps the limits makes it the attached one, new and empty where NEW asks; D is the most data blocks that leave room for their node blocks. SS_BLOCK_IN takes a fetched block
and frees its slot, so that the request that waited for it alone is served; it posts the fetch once more when the tag fails, and the second failure loses the block. SS_SLOT_FREE frees the slot of a stored block. A slot of no such exchange is refused. A fetch, a request or a change that comes to KST_CTRL.TIMEOUT is given up. -/
def Obligations.SealedStoreCommands : Prop :=
  (∀ n ≤ 2 ^ 30, dataBlocksOf n + nodeBlocks (dataBlocksOf n) ≤ n ∧ n < dataBlocksOf n + 1 + nodeBlocks (dataBlocksOf n + 1)) ∧
  ∀ (s : State) (o : Nat) (e : Entry) (ok : Bool) (u : Fin 1024),
    let d := s.dev
    let blocks := bytesAt e 4 4
    let n := bytesAt e 16 2
    let i := bytesAt e 8 2
    let new := bitOf (bytesAt e 18 1) 0
    let x? := Tbl.find d.ss.xslots i
    (AdminTurn s 0 0x0038 (wholeBytes 4 17 ++ [(18, 1)]) [(8, 4096)] o e →
      (d.md.mode = .debug → Gives .ssAttach s (admDone 0 stRefused 0 0x36 d)) ∧
      (d.md.mode ≠ .debug →
        (blocks < 2 ^ 16 ∨ 2 ^ 30 < blocks ∨ n < 16 ∨ 1024 < n ∨ (new = false ∧ blocks ≠ d.ss.blocks) → Gives .ssAttach s (admDone 0 stRefused 0 0x39 d)) ∧
        (2 ^ 16 ≤ blocks → blocks ≤ 2 ^ 30 → 16 ≤ n → n ≤ 1024 →
          (new = true → d.ss.change = none →
            let t : Device := { d with ss := { rootOk := true, blocks := blocks, dataBlocks := dataBlocksOf blocks, attached := true, iova := bytesAt e 8 8, nslots := n } }
            Gives .ssAttach s (admDone 0 stOk 0 (dataBlocksOf blocks) (fetchWaiting (sendBatch (lostRequests d.ss.waiting t)))) ∧
            (d.ss.waiting = [] → Gives .ssAttach s (admDone 0 stOk 0 (dataBlocksOf blocks) t))) ∧
          (new = false → blocks = d.ss.blocks → d.ss.change = none → Gives .ssAttach s (admDone 0 stOk 0 (dataBlocksOf blocks) (fetchWaiting (sendBatch { d with ss := { d.ss with
            attached := true, iova := bytesAt e 8 8, nslots := n, xslots := [], slotsHigh := 0, toSend := d.ss.batch } })))) ∧
          (new = true ∨ blocks = d.ss.blocks → d.ss.change ≠ none → Gives .ssAttach s d)))) ∧
    (AdminTurn s 0 0x0039 (wholeBytes 4 9) [] o e →
      (d.md.mode = .debug → Gives (.ssBlockIn ok) s (admDone 0 stRefused 0 0x36 d)) ∧
      (d.md.mode ≠ .debug → d.ss.attached = false → Gives (.ssBlockIn ok) s (admDone 0 stRefused 0 0x35 d)) ∧
      (d.md.mode ≠ .debug → d.ss.attached = true → x? = none ∨ (∃ x, x? = some x ∧ (x.store = true ∨ x.block ≠ blocks)) → Gives (.ssBlockIn ok) s (admDone 0 stRefused 0 0x38 d)) ∧
      (∀ x p, d.md.mode ≠ .debug → d.ss.attached = true → x? = some x → x.store = false → x.block = blocks → d.slotAccess i 0 = (.permit, p) →
        Gives (.ssBlockIn true) s (admDone 0 stOk 0 0 (slotFreed i (blockCame blocks { d with ss := { d.ss with xslots := Tbl.erase d.ss.xslots i } }))) ∧
        (x.retried = false → Does (.ssBlockIn false) s (fun d' => Tbl.find d'.ss.xslots i = some { x with retried := true, posted := d.time } ∧ d'.ss.waiting = d.ss.waiting ∧ d'.ss.objs = d.ss.objs)) ∧
        (x.retried = true → let level := if d.ss.dataBlocks ≤ blocks then (d.nodePlace blocks).1 else 10
          Gives (.ssBlockIn false) s (admDone 0 stOk 0 0 (slotFreed i (blockLost blocks (notice 0 0x4012 2 blocks level 0 0 (record 0x4012 0 false blocks level 0 0 (d.bump 0x0015_0018 0xFFFF)))))))) ∧
      (∀ x c r st p q g, d.md.mode ≠ .debug → d.ss.attached = true → x? = some x → x.store = false → x.block = blocks → d.slotAccess i 0 = (.refuse c r st, p, q, g) →
        Gives (.ssBlockIn ok) s (admDone 0 stAccess 0 (violationDetail 4 r 0 st) (reportRefusal g 0 p q 0 0xF8 c r st true d)))) ∧
    (AdminTurn s 0 0x003A (wholeBytes 8 9) [] o e →
      (d.md.mode = .debug → Gives .ssSlotFree s (admDone 0 stRefused 0 0x36 d)) ∧
      (d.md.mode ≠ .debug → d.ss.attached = false → Gives .ssSlotFree s (admDone 0 stRefused 0 0x35 d)) ∧
      (d.md.mode ≠ .debug → d.ss.attached = true → x? = none ∨ (∃ x, x? = some x ∧ x.store = false) → Gives .ssSlotFree s (admDone 0 stRefused 0 0x38 d)) ∧
      (∀ x, d.md.mode ≠ .debug → d.ss.attached = true → x? = some x → x.store = true →
        let left := if d.ss.toSend.contains x.block then d.ss.batch else d.ss.batch.filter (fun b => b ≠ x.block)
        Gives .ssSlotFree s (slotFreed i (admDone 0 stOk 0 0 { d with ss := { d.ss with
          batch := left, journal := if left = [] then 0 else d.ss.journal, recovering := d.ss.recovering && !decide (left = []) } })))) ∧
    (∀ w k, d.ss.waiting = [w] → w.block < d.ss.dataBlocks → w.more = [] → w.leaf = none → d.keyCheck w.op w.req = .pass k →
      blockCame w.block d = useKey w.op w.req k { d with ss := { d.ss with waiting := [] } }) ∧
    (∀ x, Tbl.find d.ss.xslots u = some x → x.store = false → x.posted + d.ssTimeout ≤ d.time → d.ss.waiting = [] → d.ss.change = none → d.ss.toSend = [] →
      Does (.ssTimeout u) s (fun d' => d'.ss = { d.ss with xslots := Tbl.erase d.ss.xslots u } ∧ d'.engs = d.engs ∧ d'.cis = d.cis)) ∧
    (Tbl.find d.ss.xslots u = none →
      (d.ss.waiting = [] → d.ss.change = none → Gives (.ssTimeout u) s d) ∧
      (∀ w, d.ss.waiting = [w] → d.ss.xslots = [] → w.since + d.ssTimeout ≤ d.time → d.ss.change = none →
        Gives (.ssTimeout u) s (refuseWait w stKeyAbsent 3 { d with ss := { d.ss with waiting := [] } })) ∧
      (∀ c, d.ss.waiting = [] → d.ss.change = some c → c.since + d.ssTimeout ≤ d.time → Gives (.ssTimeout u) s (ssPump (ssAbandon c d))))

/-- 03 R78 to R81, 06 R149 to R151, 19 R395: REGISTER_ROUTINE takes an image that keeps every condition, in the order of R79, into the routine table; one that replaces another completes when no command is bound to the old one. UNREGISTER_ROUTINE
removes it, QUERY_ROUTINE reports it, LOAD_SRL takes a newer bundle that its key signed; an older, a malformed and a falsely signed one change nothing. A signature page is good when ML-DSA-87 accepts it over all before it under its context string, and it names the key's digest. -/
def Obligations.ProgramCommands : Prop :=
  ∀ (s : State) (o : Nat) (e : Entry) (data : List Byte),
    let d := s.dev
    let r := bytesAt e 4 2
    let len := bytesAt e 16 4
    let addr := bytesAt e 8 8
    let img := exactly len data
    let page := img.drop (img.length - 8192)
    let verdict (pk : List Byte) : Nat := mldsa87 "KQ FURROW IMAGE" pk (img.take (img.length - 8192)) (page.take 4627)
    let named (pk : List Byte) : Prop := word page 4627 32 = (sha3_256 pk).toNat
    let x? := Tbl.find d.routines r
    let v := word img 4 4
    (AdminTurn s 0 0x0040 (wholeBytes 4 5 ++ wholeBytes 8 19 ++ wholeBytes 24 31) [(8, 4096)] o e →
      (r < 0x1000 ∨ 0x1FFF < r → Gives (.registerRoutine data) s (admDone 0 stRefused 0 0x10 d)) ∧
      (0x1000 ≤ r → r ≤ 0x1FFF → len < 16384 ∨ 344064 < len → Gives (.registerRoutine data) s (admDone 0 stRefused 0 0x12 d)) ∧
      (0x1000 ≤ r → r ≤ 0x1FFF → 16384 ≤ len → len ≤ 344064 → (checkAll d 0 0 0 true none (pieces addr len)).1 = .permit →
        (∀ st det, d.imageRefusal r len img = some (st, det) → Gives (.registerRoutine data) s (admDone 0 st 0 det d)) ∧
        (∀ y, x? = some y → (imgHeader img).version ≤ y.attr.version → Gives (.registerRoutine data) s (admDone 0 stRefused 0 0x11 d)) ∧
        (d.imageRefusal r len img = none → (∃ pk, d.programKey = some pk ∧ verdict pk = 0 ∧ named pk)) ∧
        (d.imageRefusal r len img = none → x? = none →
          Gives (.registerRoutine data) s (admDone 0 stOk 0 (imgHeader img).version (storeImage r (bytesAt e 24 8) img d)) ∧
          ∃ y, Tbl.find (storeImage r (bytesAt e 24 8) img d).routines r = some y ∧ y.attr = (imgHeader img).routineAttr ∧ y.allotMask = bytesAt e 24 8 ∧ y.digest = sha3_256 img) ∧
        (∀ y, d.imageRefusal r len img = none → x? = some y → d.boundTo r y.attr.version = true →
          Does (.registerRoutine data) s (fun d' => (d'.adm 0).waits = .boundGone r y.attr.version ∧ (d'.adm 0).cmds = (d.adm 0).cmds)))) ∧
    (AdminTurn s 0 0x0041 (wholeBytes 4 5) [] o e →
      (r < 0x1000 ∨ 0x1FFF < r → Gives .unregisterRoutine s (admDone 0 stRefused 0 0x10 d)) ∧
      (0x1000 ≤ r → r ≤ 0x1FFF →
        (x? = none → Gives .unregisterRoutine s (admDone 0 stRoutineAbsent 0 0 d)) ∧
        (∀ y, x? = some y → d.boundTo r y.attr.version = true → Gives .unregisterRoutine s (admWait 0 (.boundGone r y.attr.version) (retireImage r d))) ∧
        (∀ y, x? = some y → d.boundTo r y.attr.version = false → Does .unregisterRoutine s (fun d' => Tbl.find d'.routines r = none ∧ (d'.adm 0).cmds = (d.adm 0).cmds.drop 1)))) ∧
    (AdminTurn s 0 0x0042 (wholeBytes 4 5 ++ wholeBytes 8 15) [(8, 64)] o e → (d.allot 0).flr = none → gateCheck d 0 0 addr 64 1 true none = .permit →
      (isSrl r = false → x? = none → Gives .queryRoutine s (admDone 0 stOk 64 0 (d.emit (.hostWrite 0 addr (zeros 64))))) ∧
      (isSrl r = true → d.boot.srlReady = false → Gives .queryRoutine s (admDone 0 stOk 64 0 (d.emit (.hostWrite 0 addr (zeros 64))))) ∧
      (isSrl r = true → d.boot.srlReady = true → ∃ t mask digest, t.minLen = (srlInRange r).1 ∧ t.maxLen = (srlInRange r).2 ∧
        Gives .queryRoutine s (admDone 0 stOk 64 0 ((d.tookFree 3).emit (.hostWrite 0 addr (routineRecord 1 d.boot.srlVersion mask digest t))))) ∧
      (∀ y, isSrl r = false → x? = some y →
        Gives .queryRoutine s (admDone 0 stOk 64 0 (d.emit (.hostWrite 0 addr (routineRecord (if y.waitingOld then 2 else 1) y.attr.version y.allotMask y.digest.toNat y.attr)))))) ∧
    (AdminTurn s 0 0x0043 (wholeBytes 8 19) [(8, 4096)] o e →
      (0x200_0000 < len → Gives (.loadSrl data) s (admDone 0 stRefused 0 0x13 d)) ∧
      (len < 12288 → Gives (.loadSrl data) s (admDone 0 stRefused 0 0x12 d)) ∧
      (12288 ≤ len → len ≤ 0x200_0000 → (checkAll d 0 0 0 true none (pieces addr len)).1 = .permit →
        let newer : Prop := d.boot.srlReady = true → d.boot.srlVersion < v
        let taken : Device := { d with boot := { d.boot with srl := srlCommit v d.boot.srl, srlReady := true, srlVersion := v } }
        (¬ newer → Gives (.loadSrl data) s (admDone 0 stRefused 0 0x11 d)) ∧
        (newer → bundleOk img = false → Gives (.loadSrl data) s (admDone 0 stRefused 0 0x12 d)) ∧
        (newer → bundleOk img = true → verdict srlKeyBytes ≠ 0 → Gives (.loadSrl data) s (admDone 0 stVerifyFalse 0 (verdict srlKeyBytes) d)) ∧
        (newer → bundleOk img = true → verdict srlKeyBytes = 0 → ¬ named srlKeyBytes → Gives (.loadSrl data) s (admDone 0 stVerifyFalse 0 3 d)) ∧
        (newer → bundleOk img = true → verdict srlKeyBytes = 0 → named srlKeyBytes →
          (d.boot.srlReady = false → Gives (.loadSrl data) s (admDone 0 stOk 0 v taken)) ∧
          (d.boot.srlReady = true → Gives (.loadSrl data) s (awaitOld 0 d.boot.srlVersion taken)))))

/-! ## Host accesses to registers (00, 21) -/

/-- The word of BAR0 that a read of a counter register returns and clears (00 R6), by the register maps of the chapters. -/
def Sys2Proof.Claims.rcWord : Instr → Option Nat
  | .qmStallsRead => some 0x0002_0008
  | .ctxCacheMissRead => some 0x000A_0200
  | .rsvCorrRead => some 0x0009_0008
  | .rsvUncorrRead => some 0x0009_000C
  | .engPreemptsRead e => some (engPage e + 0x18)
  | .engScrubsRead e => some (engPage e + 0x1C)
  | .engEccRead e => some (engPage e + 0x20)
  | .latImpreciseRead l => some (0x000F_400C + 0x100 * l)
  | .sluPreemptsRead => some 0x000F_8004
  | .sluStealsRead => some 0x000F_8008
  | .sluWatchdogRead => some 0x000F_800C
  | .engMgReseedsRead e => some (engPage e + 0x28)
  | .engMgStallRead e => some (engPage e + 0x2C)
  | .liuJobsRead k => some (0x0006_0008 + 0x100 * k)
  | .liuRefusedRead k => some (0x0006_0018 + 0x100 * k)
  | .liuAbortsRead k => some (0x0006_001C + 0x100 * k)
  | .liuParityRead k => some (0x0006_0020 + 0x100 * k)
  | .liuCheckfailRead k => some (0x0006_0024 + 0x100 * k)
  | .digJobsRead k => some (0x0007_00C0 + 0x100 * k)
  | .digPreemptsRead k => some (0x0007_00D0 + 0x100 * k)
  | .digParityRead k => some (0x0007_00D4 + 0x100 * k)
  | .whdFailsRead => some 0x0013_0008
  | .whdCondRead => some 0x0013_001C
  | .whdDrbgReseedsRead => some 0x0013_0028
  | .whdNoentRead => some 0x0013_0040
  | .cisUpdatesRead => some 0x0010_0004
  | .cisLeavesRead => some 0x0010_0010
  | .cisBurnedRead => some 0x0010_0014
  | .kstFetchesRead => some 0x0015_0010
  | .kstStoresRead => some 0x0015_0014
  | .kstTagfailRead => some 0x0015_0018
  | .kstKcacheHitRead => some 0x0015_0020
  | .kstKcacheMissRead => some 0x0015_0024
  | .allotEngtimeRead n => some (0x0002_100C + 16 * n)
  | .hgViolRead g => some (0x0008_0008 + 16 * g)
  | .hgTimeoutsRead g => some (0x0008_000C + 16 * g)
  | .fltCountCRead => some 0x000C_0030
  | .fltCountURead => some 0x000C_0034
  | .engReplayCountRead n => some (0x000C_0400 + 4 * n)
  | .levEventsRead u => some (0x0011_0200 + 4 * u)
  | .evrDroppedRead => some 0x0012_003C
  | .wsFecCorrRead p => some (0x000D_0104 + 0x40 * p)
  | .wsFecUncorrRead p => some (0x000D_0108 + 0x40 * p)
  | .wsRxdropRead p => some (0x000D_010C + 0x40 * p)
  | .modTransitionsRead => some 0x0014_000C
  | .modLockViolRead => some 0x0014_0010
  | .clkUnlocksRead => some 0x0001_0004
  | .pwrDroopRead => some 0x0001_000C
  | .pciErrorsRead => some 0x000E_0010
  | _ => none

/-- 00 R6; 21 R432: a read of a counter answers the word's value and clears it, so that the next read gives zero; where the word also shows what is waiting now, only the high-water mark is
cleared. A read of a word of the custody die travels there and is answered from there. Nothing is computed: no command, engine or key changes. -/
def Sys2Proof.Claims.ReadsThatClear : Prop :=
  ∀ (s : State) (l : Fin 16) (a : Fin 64) (c : Fin 4) (i : Nat),
    let h := hostAccess 0 s.dev
    let t := tookCustody s.dev
    let same (t d : Device) : Prop := d.cmds = t.cmds ∧ d.engs = t.engs ∧ d.rsv = t.rsv ∧ d.md = t.md ∧ d.cis.slots = t.cis.slots
    let reads (i : Instr) (o : Nat) (p : Device → Prop) : Prop := BarTaken s o → Does i s (fun d => d.out = h.out ++ [.readReply 0 o (readReg o h)] ∧ same h d ∧ p d)
    let arrives (o : Nat) (p : Device → Prop) : Prop := ReadArrives s o 0 i → Does .regRead s (fun d => Answers s i (readReg o t) d ∧ same t d ∧ p d)
    (∀ j o, rcWord j = some o →
      (isCustody o = false → reads j o (fun d => readReg o d = 0)) ∧
      (isCustody o = true → ReadTravels j s o ∧ arrives o (fun d => readReg o d = 0))) ∧
    reads .liuWaitingRead 0x0006_4004 (fun d => d.liuHigh = 0 ∧ d.liuWait = h.liuWait) ∧
    reads .digWaitingRead 0x0007_1008 (fun d => d.digHigh = 0 ∧ d.digWait = h.digWait) ∧
    reads .digSlotsRead 0x0007_1010 (fun d => d.allot h.digSlotSel = { h.allot h.digSlotSel with digSlotsHigh := 0 }) ∧
    reads (.latSbRead l) (0x000F_4008 + 0x100 * l) (fun d => d.lat l = { h.lat l with sbHigh := 0 }) ∧
    ReadTravels .kstSlotsRead s 0x0015_001C ∧ arrives 0x0015_001C (fun d => d.ss = { t.ss with slotsHigh := 0 }) ∧
    ReadTravels (.whdWaitRead c) s (0x0013_0030 + 4 * c) ∧ arrives (0x0013_0030 + 4 * c) (fun d => d.whd = { t.whd with waitHigh := Tbl.set 0 t.whd.waitHigh c 0 }) ∧
    (PageTaken s a → Does (.ntcLostRead a) s (fun d => d.out = (hostAccess a s.dev).out ++ [.readReply a 0x3010 ((hostAccess a s.dev).allot a).ntc.lost] ∧ (d.allot a).ntc.lost = 0))

/-- 18 R373, R381; 19 R399; 21 R428 to R433: an aligned write of a word acts on its register, one of a locked register is counted and ignored, one that covers part of a word, or of BAR0 by a VF, does nothing, and a request longer than 8 bytes or across an 8-byte boundary is refused and
counted; a read of 1 to 3 bytes reads its word, one of 8 bytes both. A write or read of a word that the custody die holds travels to it, later accesses of the function waiting behind a write, and the reply completes it; an access without a reply after 10 µs is dropped, a read giving all ones. The first 4-byte read of a 64-bit read-only
register latches its upper word. A block that is not live yet reads 0; accesses in Retention are held. -/
def Sys2Proof.Claims.HostRegisterAccesses : Prop :=
  ∀ (s : State) (a : Fin 64) (bar2 : Bool) (o v : BitVec 32) (k : BitVec 8) (x : BitVec 64) (off i : Nat),
    let d := s.dev
    let h := hostAccess 0 d
    let ha := hostAccess a d
    let n := o.toNat
    let fn := a.val
    let w := x.toNat
    let write4 : Instr := .registerWrite 0 false o 4 (v.setWidth 64)
    let read4 : Instr := .read64bitLowWord 0 false o 4
    let overlong : Prop := 8 < k.toNat ∨ 8 < n % 8 + k.toNat
    (overlong → (d.barLive = true → bar2 = true ∨ fn = 0 →
        let counted (d' : Device) : Prop := d'.out = d.out ++ [.unsupported fn n] ∧ d'.count (0x000E_0010 + 16 * 2 ^ 32) = satAdd 0xFFFF (d.count (0x000E_0010 + 16 * 2 ^ 32)) 1
        Does (.registerWrite a bar2 o k x) s counted ∧ Does (.read64bitLowWord a bar2 o k) s counted) ∧
      (d.barLive = false ∨ (bar2 = false ∧ fn ≠ 0) → Gives (.registerWrite a bar2 o k x) s d ∧ Gives (.read64bitLowWord a bar2 o k) s d)) ∧
    (¬ overlong →
      (k.toNat < 8 → k ≠ 4 ∨ n % 4 ≠ 0 → Gives (.registerWrite a bar2 o k x) s d) ∧
      (k = 0 → Gives (.read64bitLowWord a bar2 o k) s d) ∧
      (bar2 = false → fn ≠ 0 → Gives (.registerWrite a bar2 o k x) s d ∧ Gives (.read64bitLowWord a bar2 o k) s d) ∧
      (k = 8 → Gives (.registerWrite a bar2 o k x) s (hostWordWrite a bar2 (n + 4) (w / 2 ^ 32) (hostWordWrite a bar2 n (w % 2 ^ 32) d))) ∧
      (let low := n - n % 4
       4 < n % 4 + k.toNat → Gives (.read64bitLowWord a bar2 o k) s (hostWordRead a bar2 (low + 4) (answerReg (low + 4)) (hostWordRead a bar2 low (answerReg low) d)))) ∧
    (k ≠ 0 → k.toNat < 4 → n % 4 + k.toNat ≤ 4 →
      (BarTaken s (n - n % 4) → Gives (.read64bitLowWord 0 false o k) s (answerReg (n - n % 4) h)) ∧
      (isCustody (n - n % 4) = true → ReadTravels (.read64bitLowWord 0 false o k) s (n - n % 4)) ∧
      (n < 0x4000 ∨ 0x5000 ≤ n → PageTaken s a → Gives (.read64bitLowWord a true o k) s (answerPage a (n - n % 4) ha))) ∧
    (n = 0x000E_0008 → BarTaken s n →
      Does (.read64bitLowWord 0 false o 8) s (fun d' => (d'.allot 0).latch64 = none ∧ d'.out = h.out ++ [.readReply 0 n (readReg n h), .readReply 0 (n + 4) (readReg (n + 4) h)])) ∧
    (n % 4 = 0 →
      (d.blockLive n = false → Gives write4 s d ∧ (d.barLive = true → d.asleep = false → Gives read4 s (d.emit (.readReply 0 n 0)))) ∧
      (d.barLive = false → Gives read4 s (lostRead 0 n d)) ∧
      (d.blockLive n = true → d.asleep = true → Gives write4 s (holdWrite 0 n v.toNat d)) ∧ (d.barLive = true → d.asleep = true → Gives read4 s (holdRead 0 n d)) ∧
      (isCustody n = true ∨ h.proxyBusy 0 = true → WriteTravels write4 s n v.toNat ∧ ReadTravels read4 s n) ∧
      (BarTaken s n →
        (isRwl n = true → h.isLocked n = true → Gives write4 s (lockedWrite n h) ∧ (lockedWrite n h).count 0x0014_0010 = satAdd 0xFFFF_FFFF (h.count 0x0014_0010) 1) ∧
        (isRwl n = false ∨ h.isLocked n = false → Gives write4 s (applyReg n v.toNat h)) ∧
        (∀ y, (d.allot 0).latch64 = some (n, y) → Does read4 s (fun d' => (d'.allot 0).latch64 = none ∧ d'.out = h.out ++ [.readReply 0 n y])) ∧
        ((∀ y, (d.allot 0).latch64 ≠ some (n, y)) →
          (wideRo n = true → Does read4 s (fun d' => (d'.allot 0).latch64 = some (n + 4, readReg (n + 4) h) ∧ d'.out = h.out ++ [.readReply 0 n (readReg n h)])) ∧
          (wideRo n = false → Gives read4 s (answerReg n h))))) ∧
    (let p : ProxyAcc := { ident := h.fl.nextProxy, fn := 0, offset := n, write := true, since := d.time, value := v.toNat, here := !isCustody n };
      (proxyAccess 0 n true v.toNat h).fl.proxies = h.fl.proxies ++ [p] ∧
      (proxyAccess 0 n true v.toNat h).fl.toCustody = h.fl.toCustody ++ (if isCustody n then [h.flight h.fl.seqCustody (.regWrite n 0 v.toNat h.fl.nextProxy)] else []) ∧
      (proxyAccess 0 n false 0 h).fl.toCustody = h.fl.toCustody ++ (if isCustody n then [h.flight h.fl.seqCustody (.regRead n 0 h.fl.nextProxy)] else [])) ∧
    (n % 4 = 0 → n < 0x4000 ∨ 0x5000 ≤ n → PageTaken s a →
      Gives (.registerWrite a true o 4 (v.setWidth 64)) s (applyPage a n v.toNat ha) ∧ Gives (.read64bitLowWord a true o 4) s (answerPage a n ha)) ∧
    (n % 4 = 0 → 0x4000 ≤ n → n < 0x5000 → d.barLive = true → d.asleep = false → (d.allot a).flr = none →
      Gives (.registerWrite a true o 4 (v.setWidth 64)) s (proxyAccess a (2 ^ 32 + n) true v.toNat ha) ∧ Gives (.read64bitLowWord a true o 4) s (proxyAccess a (2 ^ 32 + n) false 0 ha)) ∧
    (CustodyGets s (.regRead off fn i) → let t := tookCustody d
      (off < 2 ^ 32 → Gives .regRead s (toCompute (.regReply i (readReg off t) true) (readEffect off t))) ∧
      (2 ^ 32 ≤ off → Gives .regRead s (toCompute (.regReply i (readPage fn (off - 2 ^ 32) t) true) (pageEffect fn (off - 2 ^ 32) t)))) ∧
    (CustodyGets s (.regWrite off fn v.toNat i) → let t := tookCustody d
      (t.proxyOf i = none → Gives .regWrite s t) ∧
      (t.proxyOf i ≠ none → off < 2 ^ 32 →
        (isRwl off = true → t.isLocked off = true → Gives .regWrite s (toCompute (.regReply i 0 false) (lockedWrite off t))) ∧
        (isRwl off = false ∨ t.isLocked off = false → Gives .regWrite s (toCompute (.regReply i 0 true) (applyReg off v.toNat t)))) ∧
      (t.proxyOf i ≠ none → 2 ^ 32 ≤ off → Gives .regWrite s (toCompute (.regReply i 0 true) (applyPage fn (off - 2 ^ 32) v.toNat t)))) ∧
    (∀ y ok, ComputeGets s (.regReply i y ok) → let t := tookCompute d
      (t.proxyOf i = none → Gives .regReply s t) ∧
      (∀ p, t.fl.proxies = [p] → p.ident = i → Does .regReply s (fun d' => d'.fl.proxies = [] ∧
        d'.out = if p.write then t.out else t.out ++ [.readReply p.fn (p.offset % 2 ^ 32) y])) ∧
      (∀ p q, t.fl.proxies = [p, q] → p.ident = i → p.write = true → q.ident ≠ i → q.here = true → q.write = true → q.fn = p.fn →
        Gives .regReply s (applyWrite p.fn q.offset q.value { t with fl := { t.fl with proxies := [] } }))) ∧
    (∀ p, d.fl.proxies = [p] → p.here = false →
      (p.since + 10_000 ≤ d.time → Does .proxyTimeout s (fun d' => d'.fl.proxies = [] ∧ d'.out = if p.write then d.out else d.out ++ [.readReply p.fn (p.offset % 2 ^ 32) 0xFFFF_FFFF])) ∧
      (d.time < p.since + 10_000 → Gives .proxyTimeout s d))

/-- ReadsThatClear and HostRegisterAccesses, together. -/
def Obligations.RegisterAccess : Prop := ReadsThatClear ∧ HostRegisterAccesses


/-! ## Operating modes, provisioning and the Base Profile (18) -/

/-- 18 R370 to R374, R382, Tables 18.4, 18.5: overlay triples are applied or reverted on the compute die, the old bits saved, and the last message is confirmed; the confirmation applies the target's overlay, or enters the mode; without it in 1 ms the custody die faults with source 0xBB.
An idle device enters Retention, where engine state is gone and contexts and the Reservoir stay; an access before that cancels the entry, one after it wakes the device: the unit keys leave anew, and once they are loaded the held writes, then the held reads, are served. MAINT_ENTER needs an open SVC_N window; MAINT_EXIT leaves Maintenance, and where nothing is to be left it only completes (the model's reading of R374 and Table 18.1, assumption 70, DEDUCED). That the overlays of Retention change at its entry, without MODE_APPLY, is the model's choice (assumption 158). -/
def Obligations.ModeChanges : Prop :=
  ∀ (s : State) (o m ph : Nat) (e : Entry) (ts : List Triple) (last : Bool) (src : Fin 4),
    let d := s.dev
    let t := tookCompute d
    let u := tookCustody d
    let refused (op det : Nat) : Device := admDone 0 stRefused 0 det (record 0x1002 0 false op det 0 0 d)
    (ComputeGets s (.modeApply m ph ts last) →
      (d.md.change = none → Gives .modeApply s t) ∧
      (d.md.change ≠ none → let r := runTriples (decide (ph = 1)) m ts t
        Gives .modeApply s (if last then toCustody (.modeDone m ph) r else r))) ∧
    (∀ (x : Triple) (was : Nat), let key := x.offset + x.mask * 2 ^ 32
      (∃ d1, runTriples false m [x] d = writeWord x.offset (merge (readWord x.offset d) x.value x.mask) d1 ∧ (key, readWord x.offset d &&& x.mask) ∈ (d1.overlay m).saved ∧ d1.regs = d.regs ∧ d1.weirs = d.weirs ∧ d1.gates = d.gates) ∧
      ((d.overlay m).saved = [(key, was)] → runTriples true m [x] d = writeWord x.offset (merge (readWord x.offset d) was x.mask) d)) ∧
    (CustodyGets s (.modeDone m ph) → d.md.change = none → Gives .modeDone s u) ∧
    (∀ c, d.md.change = some c →
      (CustodyGets s (.modeDone m ph) →
        (c.phase = 1 → ph = 0 → m = c.target.code → Gives .modeDone s (finishChange c u) ∧
          (c.byAdmin = false → c.target ≠ .service ∨ d.flt.lowFlowOrdered = false → let d' := finishChange c u
            d'.md.mode = c.target ∧ d'.md.prev = d.md.mode ∧ d'.md.change = none ∧ d'.count 0x0014_000C = satAdd 0xFFFF_FFFF (d.count 0x0014_000C) 1)) ∧
        (c.phase = 2 → ph = 1 → m = d.md.mode.code → Gives .modeDone s (applyPhase c.target c.cause c.byAdmin u) ∧
          ((d.overlay c.target.code).triples = [] → applyPhase c.target c.cause c.byAdmin u = toCompute (.modeApply c.target.code 0 [] true) { u with md := { d.md with change := some { c with phase := 1, since := d.time } } })) ∧
        (¬ (c.phase = 1 ∧ ph = 0 ∧ m = c.target.code) → ¬ (c.phase = 2 ∧ ph = 1 ∧ m = d.md.mode.code) → Gives .modeDone s u)) ∧
      (c.target ≠ .retention → c.since + 1_000_000 ≤ d.time → Gives .modeDoneTimeout s (unitsChanged (custodyFault 0xBB 0xFFFF 0 { d with md := { d.md with change := none } }))) ∧
      (c.target = .retention ∨ d.time < c.since + 1_000_000 → Gives .modeDoneTimeout s d) ∧
      (AdminTurn s 0 0x0052 [] [] o e → Gives .retain s d) ∧
      (AdminTurn s 0 0x0053 [] [] o e → Gives .maintEnter s d) ∧
      (c.target = .retention →
        Gives .retentionEntered s (enterMode .retention c.cause (applyOverlay 4 (powerGate (revertOverlay d.md.mode.code (wsPortsOff d))))) ∧
        ((d.overlay d.md.mode.code).triples = [] → (d.overlay 4).triples = [] → (∀ x ∈ d.ws.peers, x.2.up = false ∧ x.2.join = 0) →
          Does .retentionEntered s (fun d' => d'.md.mode = .retention ∧ d'.md.change = none ∧ d'.ctxs = d.ctxs ∧ d'.rsv.mem = d.rsv.mem ∧ d'.sqs = d.sqs ∧ d'.rsv.selfRefresh = true ∧ d'.rsv.keys = 0 ∧
            ∀ i : Fin 144, (d'.eng i).arch = {} ∧ (d'.eng i).leases = [] ∧ (d'.eng i).resident = [])) ∧
        (d.md.mode ≠ .retention → let idle : Device := { d with md := { d.md with change := none } }
          Gives (.retentionWake src) s (if d.flt.lowFlowOrdered then toCompute (.faultAction .lowFlow) idle else idle))) ∧
      (c.target ≠ .retention → Gives .retentionEntered s d ∧ (d.md.mode ≠ .retention → Gives (.retentionWake src) s d))) ∧
    (d.md.change = none → Gives .modeDoneTimeout s d ∧ Gives .retentionEntered s d ∧ (d.md.mode ≠ .retention → Gives (.retentionWake src) s d)) ∧
    (AdminTurn s 0 0x0052 [] [] o e → d.md.change = none →
      (d.lowFlowCond = true → Gives .retain s (refused 0x0052 0x50)) ∧
      (d.lowFlowCond = false → d.retainIdle = false → Gives .retain s (refused 0x0052 0x52)) ∧
      (d.lowFlowCond = false → d.retainIdle = true → Does .retain s (fun d' => d'.md = { d.md with change := some { target := .retention, phase := 0, cause := 1, since := d.time } } ∧ d'.engs = d.engs ∧ d'.ctxs = d.ctxs))) ∧
    (d.md.mode = .retention →
      (d.fl.sbStop = true ∨ d.md.waking = true → Gives (.retentionWake src) s d) ∧
      (d.fl.sbStop = false → d.md.waking = false → Does (.retentionWake src) s (fun d' => d'.md = { d.md with waking := true, wakeSource := src, wakeFrom := d.time } ∧
        d'.rsv = { d.rsv with selfRefresh := false } ∧ d'.fl.sub0.up = !d.fl.sub0.fenced ∧ d'.fl.sub1.up = !d.fl.sub1.fenced ∧
        ∃ l, d'.fl.toCompute = d.fl.toCompute ++ l ∧ l.length = 193 ∧ ∀ f ∈ l, ∃ a c k, f.msg = .unitKeyLoad a c k ∧ k = d.unitKey a c))) ∧
    (d.md.waking = false ∨ d.keysLoaded = false → Gives .wakeDone s d) ∧
    (∀ w v, d.md.waking = true → d.keysLoaded = true → w < 2 ^ 32 →
      let woken := wakeMode (wakeUp { d with md := { d.md with heldWrites := [], heldReads := [] } })
      woken.md.waking = false ∧ (woken.md.mode = .service ∨ woken.md.mode = .lowFlow) ∧
      (d.md.heldWrites = [] → d.md.heldReads = [] → Gives .wakeDone s woken) ∧
      (d.md.heldWrites = [(0, w, v)] → d.md.heldReads = [] →
        (isCustody w = false → woken.proxyBusy 0 = false → Gives .wakeDone s (applyReg w v woken)) ∧ (isCustody w = true → Gives .wakeDone s (proxyAccess 0 w true v woken))) ∧
      (d.md.heldWrites = [] → d.md.heldReads = [(0, w)] →
        (isCustody w = false → woken.proxyBusy 0 = false → Gives .wakeDone s (answerReg w woken)) ∧ (isCustody w = true → Gives .wakeDone s (proxyAccess 0 w false 0 woken)))) ∧
    (AdminTurn s 0 0x0053 [] [] o e → d.md.change = none →
      (d.lev.svcOpenUntil = none → Gives .maintEnter s (refused 0x0053 0x51)) ∧
      (∀ t, d.lev.svcOpenUntil = some t →
        (t ≤ d.time → Gives .maintEnter s (refused 0x0053 0x51)) ∧
        (d.time < t → let shut : Device := { d with lev := { d.lev with svcOpenUntil := none } }
          Gives .maintEnter s (admWait 0 .mode (beginChange .maintenance 1 true shut)) ∧
          ((d.overlay d.md.mode.code).triples = [] → (d.overlay 5).triples = [] → Does .maintEnter s (fun d' =>
            d'.md.change = some { target := .maintenance, phase := 1, cause := 1, since := d.time, byAdmin := true } ∧ (d'.adm 0).waits = .mode ∧ d'.lev.svcOpenUntil = none ∧ d'.md.mode = d.md.mode))))) ∧
    (AdminTurn s 0 0x0054 [] [] o e →
      (d.md.mode ≠ .maintenance → Gives .maintExit s (admDone 0 stOk 0 0 d)) ∧
      (d.md.mode = .maintenance → d.md.change ≠ none → Gives .maintExit s d) ∧
      (d.md.mode = .maintenance → d.md.change = none →
        Gives .maintExit s (admWait 0 .mode (beginChange d.serviceOrLow 1 true { d with md := { d.md with lowFlowNoted := false } })) ∧
        ((d.overlay d.md.mode.code).triples = [] → (d.overlay d.serviceOrLow.code).triples = [] →
          Does .maintExit s (fun d' => d'.md.change = some { target := d.serviceOrLow, phase := 1, cause := 1, since := d.time, byAdmin := true } ∧ (d'.adm 0).waits = .mode))))

/-- 18 R375 to R381, 19 R401, R402: a debug token that fails a check is refused and logged, one that passes, signed under the owner key, ends the pause under a test root; without one the pause ends after 60 s. PROVISION takes the owner key's digest and the time, makes old persistent keys unreadable, and completes when the unit keys are loaded anew; a second one is refused.
A profile that passes every check, its version above all before it, is committed with the gates closed; once they are quiet it is applied and the registers are locked; at bring-up the stored copy of the highest generation is. -/
def Obligations.ProvisioningAndProfile : Prop :=
  ∀ (s : State) (o : Nat) (e : Entry) (data : List Byte) (f : BootFind) (bad : BitVec 2),
    let d := s.dev
    let addr := bytesAt e 8 8
    let len := bytesAt e 16 4
    let read (n : Nat) : Prop := (checkAll d 0 0 0 true none (pieces addr n)).1 = .permit
    let booting : Prop := d.md.mode = .bringup ∨ (d.md.mode = .debug ∧ d.boot.serviceReady = false)
    (AdminTurn s 0 0x0055 (wholeBytes 8 19) [] o e → read (min len 4659) → let t := exactly (min len 4659) data
      (len ≠ 4659 → Gives (.debugToken data) s (admDone 0 stRefused 0 0x53 (record 0x1005 0 false 0x53 0 0 0 d))) ∧
      (∀ st det, d.tokenCheck len t = some (st, det) → Gives (.debugToken data) s (admDone 0 st 0 det (record 0x1005 0 false det 0 0 0 d))) ∧
      (d.tokenCheck len t = none → word t 8 8 = Config.serial.toNat ∧ d.time ≤ word t 16 8 ∧ word t 24 4 = d.md.debugCount ∧ mldsa87 "KQ DEBUG TOKEN" d.md.ownerKey (t.take 32) (t.drop 32) = 0 ∧
        Does (.debugToken data) s (fun d' => d'.md.debugPause = none ∧ d'.md.debugCount = (d.md.debugCount + 1) % 2 ^ 32 ∧ d'.cis.testRoot = true ∧ d'.cis.kerOk = false ∧ d'.cis.dur = testRoot))) ∧
    (∀ t, d.md.debugPause = some t →
      (t + 60_000_000_000 ≤ d.time → Gives (.debugPauseExpire f) s (unitKeyStep (installDur f (endPause 2 d)))) ∧ (d.time < t + 60_000_000_000 → Gives (.debugPauseExpire f) s d)) ∧
    (d.md.debugPause = none → Gives (.debugPauseExpire f) s d) ∧
    (AdminTurn s 0 0x0050 (wholeBytes 8 23) [] o e →
      (d.md.mode = .provisioning → d.md.owner = true → Gives (.provision data) s (admDone 0 stRefused 0 0x57 (record 0x1002 0 false 0x0050 0x57 0 0 d))) ∧
      (d.md.mode ≠ .provisioning ∨ d.md.owner = false →
        (d.boot.entropyReady = false → Gives (.provision data) s d) ∧
        (d.boot.entropyReady = true → read 2592 → Tbl.wf {} d.cis.slots = true → Does (.provision data) s (fun d' =>
          d'.md.mode = .provisioning ∧ d'.md.owner = true ∧ d'.md.ownerKey = exactly 2592 data ∧ d'.md.ownerDigest = sha3_256 (exactly 2592 data) ∧ d'.md.copies = [] ∧ d'.time = bytesAt e 16 8 ∧ d'.cis.kerOk = true ∧
          (d'.adm 0).waits = .unitKeys ∧ d'.rsv.keys = 0 ∧ ∀ n, d'.slot n = if (d.slot n).attr.persistent then { d.slot n with unreadable := true } else d.slot n)))) ∧
    (AdminTurn s 0 0x0051 (wholeBytes 8 19) [] o e →
      (d.md.mode = .provisioning → d.md.owner = false → Gives (.profileLoad data) s (admDone 0 stRefused 0 0x50 (record 0x1002 0 false 0x0051 0x50 0 0 d))) ∧
      (d.md.mode ≠ .provisioning ∨ d.md.owner = true →
        (d.md.change ≠ none → Gives (.profileLoad data) s d) ∧
        (d.md.change = none → read (min len 196609) → let img := exactly (min len 196609) data
          (∀ st r, d.profCheck img = .error (st, r) → Gives (.profileLoad data) s (admDone 0 st 0 r.detail (record 0xA002 0 false r.detail r.section_ r.record_ 0 d))) ∧
          (∀ p, d.profCheck img = .ok p → d.md.profFloor < p.version ∧ (let n := img.length - 4627; mldsa87 "KQ BASE PROFILE" d.md.ownerKey (img.take n) (img.drop n) = 0) ∧
            (let c := commitProfile p d; let r := if d.md.mode = .maintenance then revertOverlay 5 c else c
             Gives (.profileLoad data) s (admWait 0 .profile (foldOver closeGate (List.range 84) r))))))) ∧
    (¬ booting →
      (d.md.profPending = none → Gives (.profileApplied bad) s d) ∧
      (∀ p, d.md.profPending = some p →
        ((∀ g < 84, d.gateQuiet g = true) → Gives (.profileApplied bad) s (applyLoaded p d) ∧ Does (.profileApplied bad) s (fun d' => d'.md.prof = some p ∧ d'.md.profPending = none ∧ d'.md.locked = true ∧ d'.md.unlock = p.unlock)) ∧
        (∀ g < 84, d.gateQuiet g = false → Gives (.profileApplied bad) s d))) ∧
    (booting →
      (d.boot.stepReached ≠ 10 ∨ d.boot.unitsTested = false → Gives (.profileApplied bad) s d) ∧
      (d.boot.stepReached = 10 → d.boot.unitsTested = true →
        (d.md.copies = [] ∨ (bad = 0 ∧ (d.md.owner = false ∨ (d.cis.kerOk = false ∧ d.cis.testRoot = false))) → Gives (.profileApplied bad) s { d with boot := { d.boot with stepReached := 11 } }) ∧
        (∀ p q, d.md.owner = true → d.cis.kerOk = true ∨ d.cis.testRoot = true → d.md.copies = [p, q] → (bad = 0 ∧ p.gen < q.gen ∧ q.gen < 2 ^ 64) ∨ bad = 1 →
          Does (.profileApplied bad) s (fun d' => d'.md.prof = some q ∧ d'.md.locked = true ∧ d'.boot.stepReached = 11))))

/-! ## Power, resets, bring-up and the board (19, 20) -/

/-- 19 R388 to R391, 20 R406, R411, 02 R53, R55: PWRGOOD or RESET_N rising starts bring-up with its cause, unless a TEST ball was high as PWRGOOD rose; either falling resets both dies, which lose all volatile state, and keeps persistent keys and the Sealed Store; PERST_N low while in service resets the compute die alone, and its release goes on from step 3.
Lost link writes put their queues in ERROR with cause 5, lost notices go back to the head of the held ones in their order, a lost read gives cause 4 beside source 0x68; a droop is counted and reported. -/
def Obligations.PowerAndResets : Prop :=
  ∀ (s : State) (en down : Bool) (test : BitVec 4) (a : Fin 64) (n : Fin 1024) (k : Fin 4096) (w : LostWrite),
    let d := s.dev
    let b := d.boot
    let gone (d' : Device) : Prop := d'.boot.computeReset = true ∧ d'.boot.custodyReset = true ∧ d'.md.mode = .bringup ∧ d'.cmds = [] ∧ d'.ctxs = [] ∧ d'.sqs = [] ∧ d'.rsv.mem = [] ∧
      d'.whd = {} ∧ d'.engs = freshEngines d.part ∧ d'.ss.objs.map Prod.fst = d.ss.objs.map Prod.fst ∧
      (Tbl.wf {} d.cis.slots = true → ∀ q, (d.slot q).attr.persistent = true → (d.slot q).attr.st = 3 → d'.slot q = { d.slot q with boundReq := none, kt := [] })
    (b.pwrgood = false →
      let on : Device := { d with boot := { b with pwrgood := true, testHeld := decide (test ≠ 0), rails := 0x1FF } }
      (b.resetN = true → test = 0 → Gives (.pwrgoodRise en test) s (startBringup 1 1 { on with md := { d.md with debugStrap := en } })) ∧
      (b.resetN = false ∨ test ≠ 0 → Gives (.pwrgoodRise en test) s { on with lev := { d.lev with onBattery := false } }) ∧
      Gives .pwrgoodFall s d ∧ Gives .powerLoss s d) ∧
    (b.pwrgood = true → Gives (.pwrgoodRise en test) s d ∧
      (b.resetN = true → b.testHeld = false →
        Does .pwrgoodFall s (fun d' => gone d' ∧ d'.boot.pwrgood = false ∧ d'.lev.onBattery = true) ∧
        Does .powerLoss s (fun d' => gone d' ∧ d'.boot.pwrgood = false ∧ d'.lev.onBattery = true) ∧
        Does .resetNAssert s (fun d' => gone d' ∧ d'.boot.pwrgood = true ∧ d'.boot.resetN = false ∧ d'.lev.onBattery = d.lev.onBattery)) ∧
      (b.resetN = false ∨ b.testHeld = true → Does .pwrgoodFall s (fun d' => d'.boot.pwrgood = false ∧ d'.boot.testHeld = false ∧ d'.lev.onBattery = true ∧ d'.cis = d.cis ∧ d'.ss = d.ss ∧ d'.evr = d.evr))) ∧
    (b.resetN = true → b.pwrgood = false ∨ b.testHeld = true → Gives .resetNAssert s { d with boot := { b with resetN := false } }) ∧
    (b.resetN = true → Gives (.resetNRelease en) s d) ∧
    (b.resetN = false → Gives .resetNAssert s d ∧
      (b.pwrgood = true → b.testHeld = false → Gives (.resetNRelease en) s (startBringup 2 1 { d with boot := { b with resetN := true }, md := { d.md with debugStrap := en } })) ∧
      (b.pwrgood = false ∨ b.testHeld = true → Gives (.resetNRelease en) s { d with boot := { b with resetN := true } })) ∧
    (b.serviceReady = false → Gives .perstNAssert s { d with boot := { b with perstN := false, pcieLink := false, pcieLock := false, linkState := 0, configReady := false } }) ∧
    (b.serviceReady = true → Does .perstNAssert s (fun d' => d'.boot.computeReset = true ∧ d'.boot.custodyReset = b.custodyReset ∧ d'.boot.perstHold = true ∧ d'.boot.perstN = false ∧
      d'.cmds = [] ∧ d'.rsv.mem = [] ∧ d'.fl.boot = d.fl.boot + 1 ∧ d'.fl.sbClear = true ∧ d'.fl.clearFrom = d.time ∧ (d'.md.mode = .bringup ∨ d.md.mode = .debug))) ∧
    (b.perstHold = true → Gives .perstNRelease s { d with boot := { b with perstN := true, perstHold := false, resetCause := 4, attempt := 1, began := d.time, stepReached := 2, doneUs := 0 } }) ∧
    (b.perstHold = false → Gives .perstNRelease s { d with boot := { b with perstN := true } }) ∧
    (let after : Device := if down then { d with boot := { b with pcieLink := false, linkState := 0 } } else d
     (b.pcieLink = true →
       Gives (.pcieLinkLoss down [w]) s (settleAdmin (match w with
         | .completion b q x => cqError b q 5 x.toNat after
         | .writeBack b q x => sqError b q 5 x.toNat after
         | .admin b cq x => admError b cq 5 x.toNat after
         | .notice b x r => recordCompute 0x7003 b false 0x0002_0000 5 (x.toNat % 2 ^ 32) (x.toNat / 2 ^ 32) (after.updNtc b (fun t => { t with error := true, held := r :: t.held })))) ∧
       (∀ x y r1 r2, NoAdminWaits d → Does (.pcieLinkLoss down [.notice a x r1, .notice a y r2]) s (fun d' => (d'.allot a).ntc.held = r1 :: r2 :: (d.allot a).ntc.held ∧ (d'.allot a).ntc.error = true)) ∧
       (NoAdminWaits d → Gives (.pcieLinkLoss down []) s after)) ∧
     (b.pcieLink = false → Gives (.pcieLinkLoss down [w]) s d)) ∧
    (d.stopped = true → Gives (.pcieCompletionTimeout a (some n) none) s d ∧ Gives (.pcieCompletionTimeout a none none) s d ∧ Gives (.pcieCompletionTimeout a none (some k)) s d) ∧
    (d.stopped = false →
      ((d.sq a n).burst ≠ 0 → Gives (.pcieCompletionTimeout a (some n) none) s
        (settleAdmin (raiseFault 0x68 0xFFFF none 0 (sqError a n 4 ((d.sq a n).base + 64 * (d.sq a n).fetchIdx) (d.updSq a n (fun t => { t with burst := 0 })))))) ∧
      ((d.sq a n).burst = 0 → Gives (.pcieCompletionTimeout a (some n) none) s d) ∧
      ((d.adm a).burst ≠ 0 → Gives (.pcieCompletionTimeout a none none) s (settleAdmin (raiseFault 0x68 0xFFFF none 0 (admError a false 4 ((d.adm a).sqBase + 64 * (d.adm a).fetchIdx) d)))) ∧
      ((d.adm a).burst = 0 → Gives (.pcieCompletionTimeout a none none) s d) ∧
      (∀ c, d.cmd k = some c → c.phase = .ready → c.inDone = false → Gives (.pcieCompletionTimeout a none (some k)) s
        (settleAdmin (raiseFault 0x68 0xFFFF none 0 (haltWith k stAccess (violationDetail 1 0xFFFF 0 false) 0 d)))) ∧
      (d.cmd k = none → Gives (.pcieCompletionTimeout a none (some k)) s d)) ∧
    (b.computeReset = true → Gives .droop s d) ∧
    (b.computeReset = false → Does .droop s (fun d' => d'.boot = { b with droop := true } ∧ d'.count 0x0001_000C = satAdd 0xFFFF_FFFF (d.count 0x0001_000C) 1 ∧
      (∃ f : FaultIn, f.source = 0x8A ∧ d'.fl.toCustody = d.fl.toCustody ++ [d.flight d.fl.seqCustody (.faultReport f)])))

/-- 18 R370, 19 R388, R392 to R400, Table 19.3, 12 R257; 01 R11: each step of the bring-up has its effect once its turn has come: the root PLL's lock lets the compute die out of reset; the custody die boots and derives its roots; the Flume trains and its keys are derived; the sources judged good serve; units that failed are fenced, the first good engines of each Lateral serve and the rest are spares;
the Reservoir and the SRL are ready; the mode is the one that Table 18.2 gives and SERVICE_READY sets; the host link comes up. Out of its turn a step changes nothing. -/
def Obligations.BringUpSteps : Prop :=
  ∀ (s : State) (f : BootFind) (s0 s1 main fb : Bool) (engs : BitVec 144) (lius : BitVec 32) (digs : BitVec 8) (us bad : BitVec 32) (insts : BitVec 16) (copies : BitVec 2) (speed : BitVec 8) (width : Fin 17),
    let d := s.dev
    let b := d.boot
    let running : Prop := b.pwrgood = true ∧ b.resetN = true ∧ b.custodyReset = false
    let stopped : Prop := ∃ x, d.flt.fatal = some x ∧ x.stage ≠ 4
    let training : Prop := d.fl.trained = false ∧ b.cusReady = true ∧ b.custodyReset = false ∧ b.computeReset = false ∧ d.fl.training = true ∧ d.fl.trainSeen = true ∧ (s0 = true ∨ s1 = true)
    (running → b.computeReset = true → b.perstHold = false → Gives .rootPllLock s { d with
      boot := { b with computeReset := false, rootLock := true, cusClk := true, stepReached := max b.stepReached 3 }, fl := { d.fl with fallback := false, presentCompute := true } }) ∧
    (¬ running ∨ b.computeReset = false ∨ b.perstHold = true → Gives .rootPllLock s d) ∧
    (¬ running ∨ b.cusReady = true ∨ stopped → Gives (.custodyBooted f) s d) ∧
    (running → b.cusReady = false → ¬ stopped →
      (d.md.debugStrap = false ∨ d.md.owner = false →
        (f.puf = true → Does (.custodyBooted f) s (fun d' => d'.boot.cusReady = true ∧ d'.cis.durOk = true ∧ d'.cis.dur = deviceRoot ∧ d'.cis.kerOk = (d.md.owner && (d.cis.kerPresent && !d.lev.zaPending) && f.ker))) ∧
        (f.puf = false → Does (.custodyBooted f) s (fun d' => d'.boot.cusReady = true ∧ d'.cis.durOk = false ∧ d'.boot.fail = true ∧ d'.boot.failStep = 4))) ∧
      (d.md.debugStrap = true → d.md.owner = true → Does (.custodyBooted f) s (fun d' => d'.boot.cusReady = true ∧ d'.cis.durOk = d.cis.durOk ∧ d'.cis.kerOk = d.cis.kerOk))) ∧
    (training →
      Does (.flumeTrained s0 s1) s (fun d' => d'.fl.trained = true ∧ d'.boot.flumeUp = true ∧ d'.fl.sub0.up = s0 ∧ d'.fl.sub1.up = s1 ∧ d'.fl.lastBeat = d.time ∧ d'.fl.toCustody = [] ∧ d'.fl.seqCustody = 0 ∧
        d'.fl.key = kmac256 Config.pairKey (toBytes 8 d.fl.boot ++ Config.custodyDie ++ Config.computeDie) 32 (ascii "KQ FLUME KEY") ∧
        d'.fl.keyC2K = kdfKmac d'.fl.key (ascii "C2K") [] 32 ∧ d'.fl.keyK2C = kdfKmac d'.fl.key (ascii "K2C") [] 32 ∧
        (d.cis.durOk = false → d'.fl.toCompute = [] ∧ d'.fl.seqCompute = 0))) ∧
    (¬ training → Gives (.flumeTrained s0 s1) s d) ∧
    (¬ running ∨ b.entropyReady = true → Gives (.entropyReady main fb insts) s d) ∧
    (running → b.entropyReady = false → d.whd = {} →
      (main = true ∨ fb = true → insts ≠ 0xFFFF → Does (.entropyReady main fb insts) s (fun d' => d'.boot.entropyReady = true ∧ d'.whd.main.inService = main ∧ d'.whd.fb.inService = fb ∧ d'.whd.main.retired = !main ∧ d'.whd.fb.retired = !fb)) ∧
      Does (.entropyReady false false insts) s (fun d' => d'.boot.entropyReady = false ∧ d'.whd.noSource = true)) ∧
    (b.flumeUp = false ∨ b.unitsTested = true ∨ b.computeReset = true ∨ b.cusReady = false → Gives (.unitsTested engs lius digs) s d) ∧
    (b.flumeUp = true → b.unitsTested = false → b.computeReset = false → b.cusReady = true → (∀ c < 3, ∀ i < 144, (d.unit c i).fenced = false ∧ (d.unit c i).retired = false) →
      Does (.unitsTested engs lius digs) s (fun d' => d'.boot.cdReady = true ∧ d'.boot.unitsTested = true ∧ d'.flt.alive = true ∧ (∀ i : Fin 144, (d'.unit 0 i).fenced = engs.getLsbD i) ∧
        ∀ i : Fin 144, (d'.eng i).st = if engs.getLsbD i then .fenced
          else if ((List.range (i.val % 9)).filter (fun j => !engs.getLsbD (9 * (i.val / 9) + j))).length < exposed d.part then .idle else .spare)) ∧
    (b.flumeUp = true → b.rsvReady = false → b.computeReset = false → Does (.reservoirTrained us bad) s (fun d' => d'.boot.rsvReady = true ∧ d'.rsv.trained = true ∧ d'.rsv.mem = d.rsv.mem)) ∧
    (b.flumeUp = false ∨ b.rsvReady = true ∨ b.computeReset = true → Gives (.reservoirTrained us bad) s d) ∧
    (d.keysLoaded = false ∨ b.unitKeys = false ∨ 10 ≤ b.stepReached ∨ b.serviceReady = true → Gives (.srlLoaded copies) s d) ∧
    (d.keysLoaded = true → b.unitKeys = true → b.stepReached < 10 → b.serviceReady = false →
      ((∀ x ∈ b.srl.zipIdx, copies.getLsbD x.2 = true) → Does (.srlLoaded copies) s (fun d' => d'.boot = { b with stepReached := 10 })) ∧
      (∀ g v, b.srl = [(g, v)] → copies = 0 ∨ copies = 2 → Does (.srlLoaded copies) s (fun d' => d'.boot = { b with stepReached := 10, srlReady := true, srlVersion := v })) ∧
      (∀ g v h w, b.srl = [(g, v), (h, w)] → g < h → h < 2 ^ 64 →
        (copies = 0 ∨ copies = 1 → Does (.srlLoaded copies) s (fun d' => d'.boot = { b with stepReached := 10, srlReady := true, srlVersion := w })) ∧
        (copies = 2 → Does (.srlLoaded copies) s (fun d' => d'.boot = { b with stepReached := 10, srlReady := true, srlVersion := v })))) ∧
    (11 ≤ b.stepReached → b.serviceReady = false → b.unitsTested = true → b.fail = false → d.flt.fatal = none →
      Does .serviceReady s (fun d' => d'.boot.serviceReady = true ∧ d'.boot.doneUs = min ((d.time - b.began) / 1000) 0xFFFF_FFFF ∧
        d'.md.mode = (if d.cis.testRoot then .debug else if d.md.owner && !d.cis.kerOk then .quarantine else if d.md.owner && d.md.prof.isSome then d.serviceOrLow else .provisioning))) ∧
    (b.stepReached < 11 ∨ b.serviceReady = true ∨ b.unitsTested = false ∨ b.fail = true ∨ d.flt.fatal ≠ none → Gives .serviceReady s d) ∧
    (b.cusReady = true → b.perstN = true → b.pcieLink = false → b.computeReset = false → Does (.configReady speed width) s (fun d' => d'.boot = { b with
      configReady := true, pcieLink := true, pcieLock := true, linkState := speed.toNat + width.val * 256, vfEnable := b.vfEnable || !b.configReady, numVfs := if b.configReady then b.numVfs else 63 })) ∧
    (b.cusReady = false ∨ b.perstN = false ∨ b.pcieLink = true ∨ b.computeReset = true → Gives (.configReady speed width) s d)

/-- 16 R350, 20 R420 to R424, Tables 20.11, 20.12: while its rails and PWRGOOD hold, the board-management target answers each command of the table with its bytes, the packet error code after a whole block in the I²C form (its polynomial is SMBus's, assumption 79, PRESUMED), sends its Provisional ID in ENTDAA, takes and gives up its address, moves its event window, clears the alert causes as they are read, and does not acknowledge an unlisted command; without them it does nothing.
The boundary-scan TAP loads the instruction and IDCODE answers; an instruction at the debug TAP outside Debug mode acts as BYPASS and raises the Levee's source 17. -/
def Obligations.BoardInterfaces : Prop :=
  ∀ (s : State) (addr : BitVec 7) (static : Bool) (n4 : Fin 6) (n8 : Fin 10) (n12 : Fin 14) (n32 : Fin 34) (temps seq : BitVec 32) (hot code : BitVec 8) (wr : Bool) (bits : List Bool),
    let d := s.dev
    let block (c n : Nat) (bs : List Byte) : Output := .bmc (bs.take n ++ (if d.brd.i3cAddr = none ∧ bs.length < n then [BitVec.ofNat 8 (smbusPec c bs)] else []))
    let reads (i : Instr) (c n : Nat) (bs : List Byte) : Prop := Gives i s (d.emit (block c n bs))
    let addressed (d : Device) : Device := { d with brd := { d.brd with i3cAddr := some addr.toNat } }
    let load (c : Nat) : Device := { d with brd := { d.brd with tap := c } }
    (d.bmcRuns = true →
      Gives (.bmcDaa addr true) s (addressed d) ∧
      Gives (.bmcDaa addr false) s (addressed (d.emit (.bmc ((toBytes 6 (0x01A7 * 2 ^ 33 + partNumber d.part * 2 ^ 16 + Config.serial.toNat % 2 ^ 12)).reverse ++ [0x06, 0x00])))) ∧
      Gives .bmcRstdaa s { d with brd := { d.brd with i3cAddr := none } } ∧
      reads (.bmcIdentity n32) 1 n32 (toBytes 4 (0x1D7B + partNumber d.part * 2 ^ 16) ++ toBytes 4 (0xB1 + partEngines d.part * 2 ^ 8) ++ toBytes 8 Config.serial.toNat ++ toBytes 4 (idcode d.part) ++ zeros 12) ∧
      Gives (.bmcTemperature n8 temps hot) s ({ d with lev := { d.lev with temps := temps.toNat } }.emit (block 2 n8 (toBytes 4 temps.toNat ++ toBytes 1 (if d.stopped then 0x80 else hot.toNat) ++
        toBytes 1 (b2n d.flt.thermWarn + 2 * b2n d.flt.thermCrit) ++ zeros 2))) ∧
      reads (.bmcRails n4) 3 n4 (toBytes 4 (d.boot.rails + b2n d.boot.pwrgood * 2 ^ 9)) ∧ reads (.bmcMode n8) 4 n8 (toBytes 4 d.devMode ++ toBytes 4 d.devStatus) ∧
      reads (.bmcHealth n4) 5 n4 (toBytes 4 (b2n d.flt.alive + 2 * b2n d.holdN + 4 * b2n d.flt.fatal.isSome + 8 * b2n d.leveeHold + 16 * b2n d.flt.wedged)) ∧
      reads (.bmcLastFatal n32) 6 n32 (toBytes 32 d.flt.lastFatal.toNat) ∧
      reads (.bmcEvrStatus n12) 9 n12 (toBytes 4 (b2n d.evr.bmc.valid + 2 * b2n d.evr.bmc.atEnd + 4 * b2n d.evr.bmc.gap) ++ toBytes 4 d.evr.next ++ toBytes 4 d.evr.oldest) ∧
      Gives (.bmcEvrSeek seq) s { d with evr := { d.evr with bmc := cursorWrite d seenByBmc seq.toNat d.evr.bmc } } ∧
      Does (.bmcEvrRead n32) s (fun d' => d'.out = d.out ++ [block 8 n32 (toBytes 32 d.evr.bmc.data.toNat)] ∧ d'.evr.bmc = windowAdvance d seenByBmc d.evr.bmc ∧ d'.evr.ring = d.evr.ring) ∧
      Does (.bmcAlert n4) s (fun d' => d'.out = d.out ++ [block 10 n4 (toBytes 4 d.brd.alerts)] ∧ d'.brd = { d.brd with alerts := 0 }) ∧
      ((code = 0 ∨ 10 < code.toNat ∨ (wr = true ∧ code ≠ 7) ∨ (wr = false ∧ code = 7)) → Gives (.bmcUnknownCommand code wr) s (d.emit .nack))) ∧
    (d.bmcRuns = false → ∀ i ∈ [Instr.bmcDaa addr static, .bmcRstdaa, .bmcIdentity n32, .bmcTemperature n8 temps hot, .bmcRails n4, .bmcMode n8, .bmcHealth n4, .bmcLastFatal n32, .bmcEvrSeek seq, .bmcEvrRead n32,
      .bmcEvrStatus n12, .bmcAlert n4, .bmcUnknownCommand code wr], Gives i s d) ∧
    (code.toNat = 0 ∨ 5 < code.toNat → Gives (.tapBypass code) s (load code.toNat) ∧ (load code.toNat).tapActs = 0xFF) ∧
    Gives .tapIdcode s ((load 1).emit (.tap (idcode d.part))) ∧ Gives (.tapSamplePreload bits) s { d with brd := { d.brd with tap := 2, preload := bits } } ∧
    Gives .tapExtest s (load 3) ∧ Gives .tapClamp s (load 4) ∧ Gives .tapHighz s (load 5) ∧
    (∀ c, 3 ≤ c → c ≤ 5 → (load c).tapActs = if d.boot.resetN then 0xFF else c) ∧
    (let shift (c : Nat) : Device := { d with brd := { d.brd with debugTap := c } };
      Gives (.debugTapInstruction 1) s ((shift 1).emit (.tap (idcode d.part))) ∧ Gives (.debugTapInstruction 0xFF) s (shift 0xFF) ∧
      (code ≠ 1 → d.md.mode = .debug → Gives (.debugTapInstruction code) s (shift code.toNat)) ∧
      (code ≠ 1 → code ≠ 0xFF → d.md.mode ≠ .debug → d.levRuns 17 = true → Gives (.debugTapInstruction code) s (levEvent 17 true (shift 0xFF))))

/-! ## The Watershed (17) -/

/-- 17 R356 to R358, R365, Tables 17.4 to 17.6: a join goes from JOIN_INIT over JOIN_RESP and JOIN_FIN to JOIN_ACK, each step checked in the order of Table 17.6, the first failure rejected; after it the channel is up. A side that has answered answers again with the same message; the lower of two members that initiate at once
goes on, the higher gives way. An unanswered message is sent again after 20 ms, three tries in all, and a failed join waits for RETRY. -/
def Sys2Proof.Claims.Joins : Prop :=
  ∀ (s : State) (m : Fin 1024) (bs : List Byte),
    let d := s.dev
    let p := d.peer m
    let took (t : Nat) : Device := wsTook m t bs d
    let sent (t : Nat) (d' : Device) : Prop := ∃ f : WsMsg, (d'.peer m).hs.sent = some f ∧ f.typ = t ∧ (d'.peer m).joinTries = 1 ∧ (d'.peer m).joinAt = d.time ∧
      ∀ port t, d.portFor m = some (port, t) → (∀ x ∈ d'.clearFrames m f, (checkAll d 82 0 0 false none (linePieces (wsTxAt m) x.length)).1 = .permit) →
        d'.out = d.out ++ (d'.clearFrames m f).map (fun x => .frame port (t.frame x))
    let again (t : Nat) : Device := match p.hs.sent with
      | some f => sendClear m f (took t)
      | none => took t
    (∀ id cred pk sig kem free, d.joinRefusal m id cred pk sig kem free = none ↔
      id = d.wsOwnId ∧ word cred 8 8 = d.wsOwnId ∧ word cred 0 4 = 0x4D57_514B ∧ word cred 6 2 = 0 ∧ d.credSigned cred = true ∧ word cred 16 8 ≤ d.time ∧ d.time ≤ word cred 24 8 ∧ word cred 4 2 = m.val ∧
        p.en = true ∧ (sha3_256 pk).toNat = word cred 32 32 ∧ sig = true ∧ d.ws.revoked.contains m.val = false ∧ free = true ∧ d.wsActive = true ∧ kem = true) ∧
    (WsGets s m 0x01 bs → d.entropyAvailable = true →
      (p.join = 1 → d.wsMember < m.val → Gives (.joinInit m) s (took 1)) ∧
      (p.join = 2 → Gives (.joinInit m) s (again 1)) ∧
      (p.join ≠ 2 → ¬(p.join = 1 ∧ d.wsMember < m.val) →
        let x := if p.up = true then closeChannel m 0 (took 1) else (took 1).updPeer m (fun p => { p with join := 0 })
        let cred := (bs.drop 1256).take credLen
        let r (free : Bool) := x.joinRefusal m (word bs 0 8) cred (bs.drop 5947) true (kem768Ok ((bs.drop 40).take 1184) && x25519Ok ((bs.drop 1224).take 32)) free
        (freeChannel x = none → ∀ n, r false = some n → Gives (.joinInit m) s (refuseJoin m n x)) ∧
        (∀ y, freeChannel x = some y →
          (∀ n, r true = some n → Gives (.joinInit m) s (refuseJoin m n x)) ∧
          (r true = none → Gives (.joinInit m) s (answerJoin m bs (y.updPeer m (fun p => { p with notAfter := word cred 24 8 })))) ∧
          (r true = none → x.channelsTaken < 64 → Does (.joinInit m) s (fun d' => (d'.peer m).join = 2 ∧ (d'.peer m).st = 1 ∧ (d'.peer m).initiator = false ∧ (d'.peer m).notAfter = word cred 24 8 ∧ sent 0x02 d'))))) ∧
    (WsGets s m 0x02 bs → d.entropyAvailable = true →
      (p.join = 3 → Gives (.joinResp m) s (again 2)) ∧ (p.join = 0 ∨ p.join = 2 → Gives (.joinResp m) s (took 2)) ∧
      (p.join = 1 →
        let x := took 2
        let cred := (bs.drop 1152).take credLen
        let r := x.joinRefusal m d.wsOwnId cred ((bs.drop 5843).take 1952) (respSigned p.hs.init bs) (x25519Ok ((bs.drop 1120).take 32)) true
        (∀ n, r = some n → Gives (.joinResp m) s (refuseJoin m n x)) ∧
        (r = none → Gives (.joinResp m) s (finishJoin m bs (x.updPeer m (fun p => { p with notAfter := word cred 24 8 }))) ∧
          Does (.joinResp m) s (fun d' => (d'.peer m).join = 3 ∧ (d'.peer m).notAfter = word cred 24 8 ∧ sent 0x03 d')))) ∧
    (WsGets s m 0x03 bs →
      (p.join ≠ 2 → Gives (.joinFin m) s (took 3)) ∧
      (p.join = 2 → finSigned p.hs bs = false → Gives (.joinFin m) s (refuseJoin m 6 (took 3))) ∧
      (p.join = 2 → finSigned p.hs bs = true → Gives (.joinFin m) s (rehomeGo (channelUp m 1 (took 3))) ∧ Does (.joinFin m) s (fun d' => (d'.peer m).up = true ∧ (d'.peer m).st = 2 ∧ (d'.peer m).join = 0))) ∧
    (WsGets s m 0x04 bs → (p.join = 3 → Gives (.joinAck m) s (rehomeGo (channelUp m 0 (took 4))) ∧ Does (.joinAck m) s (fun d' => (d'.peer m).up = true ∧ (d'.peer m).st = 2 ∧ (d'.peer m).join = 0)) ∧ (p.join ≠ 3 → Gives (.joinAck m) s (took 4))) ∧
    (WsGets s m 0x05 bs → (p.join ≠ 0 → Gives (.joinReject m) s (rejectPeer m (word bs 0 1) 1 (took 5))) ∧ (p.join = 0 → Gives (.joinReject m) s (took 5))) ∧
    (p.join = 0 ∨ d.time < p.joinAt + 20_000_000 → Gives (.joinResend m) s d) ∧
    (p.join ≠ 0 → p.joinAt + 20_000_000 ≤ d.time →
      (p.joinTries < 3 → let x := d.updPeer m (fun p => { p with joinTries := p.joinTries + 1, joinAt := d.time });
        Gives (.joinResend m) s (match p.hs.sent with
          | some f => sendClear m f x
          | none => x) ∧
        Does (.joinResend m) s (fun d' => (d'.peer m).joinTries = p.joinTries + 1 ∧ (d'.peer m).joinAt = d.time ∧ (d'.peer m).join = p.join ∧ (d'.peer m).hs = p.hs)) ∧
      (3 ≤ p.joinTries → Gives (.joinResend m) s (d.updPeer m (fun p => { p with st := 0, join := 0, hs := {}, keys := [], retryAt := some (d.time + d.wsRetry) })))) ∧
    (∀ t, p.retryAt = some t → d.time < t → Gives (.joinRetry m) s d) ∧
    ((∀ t, p.retryAt = some t → t ≤ d.time) → let x := d.updPeer m (fun p => { p with retryAt := none });
      (p.waiting ≠ [] ∨ (∃ r ∈ d.ws.replicas, r.member = m.val ∧ (r.done = false ∨ r.destroying = true)) ∨ (∃ r, d.ws.rehoming = some r ∧ r.member = m.val) → Gives (.joinRetry m) s (startJoin m x)) ∧
      (p.waiting = [] → (∀ r ∈ d.ws.replicas, r.member = m.val → r.done = true ∧ r.destroying = false) → d.ws.rehoming = none → Gives (.joinRetry m) s x))

/-- 17 R356, R357, R365, R366, Table 17.12: WS_CREDENTIAL takes a credential for this device that is in date and signed, and no other; a revoked member's channel closes, a member taken back may join again; the Watershed commands are refused in Debug mode; once a second the dates of the credentials are looked at, and a channel whose credential has
run out closes. -/
def Sys2Proof.Claims.CredentialsAndRevocation : Prop :=
  ∀ (s : State) (m : Fin 1024) (data : List Byte) (o : Nat) (e : Entry),
    let d := s.dev
    let p := d.peer m
    let no (det : Nat) : Device := admDone 0 stRefused 0 det d
    let repl := wholeBytes 4 8 ++ [(9, 3)] ++ wholeBytes 12 15
    (d.md.mode = .debug →
      (AdminTurn s 0 0x0060 (wholeBytes 8 15) [(8, 64)] o e → Gives .wsIdentity s (no 0x64)) ∧
      (AdminTurn s 0 0x0061 (wholeBytes 8 19) [] o e → Gives (.wsCredential data) s (no 0x64)) ∧
      (AdminTurn s 0 0x0063 repl [] o e → Gives .wsReplicate s (no 0x64)) ∧
      (AdminTurn s 0 0x0064 repl [] o e → Gives .wsRehome s (no 0x64)) ∧
      (AdminTurn s 0 0x0065 [(4, 255), (5, 3), (6, 1)] [] o e → Gives .wsRevoke s (no 0x64)) ∧
      (AdminTurn s 0 0x0066 ([(4, 255), (5, 3)] ++ wholeBytes 8 15) [(8, 64)] o e → Gives .wsQuery s (no 0x64))) ∧
    (AdminTurn s 0 0x0061 (wholeBytes 8 19) [] o e → d.md.mode ≠ .debug →
      (bytesAt e 16 4 ≠ 4691 → Gives (.wsCredential data) s (no 0x62)) ∧
      (bytesAt e 16 4 = 4691 → (checkAll d 0 0 0 true none (pieces (bytesAt e 8 8) 4691)).1 = .permit →
        let c := exactly 4691 data
        let good := word c 0 4 = 0x4D57_514B ∧ word c 4 2 = d.wsMember ∧ word c 6 2 = 0 ∧ word c 8 8 = d.wsOwnId ∧ word c 16 8 ≤ d.time ∧ d.time ≤ word c 24 8 ∧ word c 32 32 = (sha3_256 d.identityKey).toNat ∧ d.credSigned c = true
        (¬good → Gives (.wsCredential data) s (no 0x62)) ∧
        (good → Gives (.wsCredential data) s (admDone 0 stOk 0 0 { d with ws := { d.ws with
          cred := true, credBytes := c, credOk := true, member := word c 4 2, wsId := word c 8 8, notBefore := word c 16 8, notAfter := word c 24 8 } })))) ∧
    (AdminTurn s 0 0x0065 [(4, 255), (5, 3), (6, 1)] [] o e → d.md.mode ≠ .debug → let n := bytesAt e 4 2;
      (bitOf (bytesAt e 6 1) 0 = true → Does .wsRevoke s (fun d' => d'.ws.revoked.contains n = true ∧ (d'.peer n).up = false ∧ (d'.peer n).st = 4)) ∧
      (bitOf (bytesAt e 6 1) 0 = false → Does .wsRevoke s (fun d' => d'.ws.revoked.contains n = false ∧ (d'.peer n).st ≠ 4))) ∧
    ((∀ x ∈ d.ws.peers, x.2.up = true → d.credDates = true ∧ d.time ≤ x.2.notAfter) → Gives .credentialCheck s { d with ws := { d.ws with credOk := d.credDates && !decide (d.md.mode = .debug) } }) ∧
    (p.up = true → d.credDates = false ∨ p.notAfter < d.time → Does .credentialCheck s (fun d' => (d'.peer m).up = false ∧ (d'.peer m).unacked = []))

/-- Joins and CredentialsAndRevocation, together. -/
def Obligations.JoiningTheWatershed : Prop := Joins ∧ CredentialsAndRevocation

/-- 17 R353 to R355, R359: a frame that fails its FCS, its size, the filter, the header checks or its tag is dropped and counted; one of a clear type is put together apart from the channel. On a channel a frame in order is delivered, an early one held, one delivered already dropped; a whole message enters the member's inbox. A link that comes up or goes
down is noted. -/
def Sys2Proof.Claims.FramesAndLinks : Prop :=
  ∀ (s : State) (m : Fin 1024) (port : Fin 2) (l : Fin 8) (frame : List Byte) (fcs : Bool),
    let d := s.dev
    let p := d.peer m
    let mode (q : Nat) : Nat := field (d.reg (0x000D_0100 + 0x40 * q)) 2 0
    let awake := d.boot.computeReset = false ∧ d.boot.cdReady = true ∧ d.asleep = false
    let fits := 60 ≤ frame.length ∧ frame.length ≤ 9212
    let drop := rxDrop port d
    (¬awake ∨ mode port = 0 → Gives (.wsFrameReceive port frame fcs) s d) ∧
    (awake → mode port ≠ 0 →
      (fcs = false ∨ ¬fits → Gives (.wsFrameReceive port frame fcs) s drop) ∧ (d.wsFilter frame = none → Gives (.wsFrameReceive port frame fcs) s drop) ∧
      (∀ x, d.wsFilter frame = some x → d.wsHeader frame x = none → Gives (.wsFrameReceive port frame fcs) s drop) ∧
      (fits → ∀ x h, d.wsFilter frame = some x → d.wsHeader frame x = some h → (checkAll d 82 0 1 false none (linePieces (wsRxAt port) (h.head ++ h.body).length)).1 = .permit →
        (wsClear h.typ = true → Gives (.wsFrameReceive port frame true) s (clearFrame port h d)) ∧
        (wsClear h.typ = true → h.first = true → h.last = true → wsLenOk h.typ h.body.length = true →
          Does (.wsFrameReceive port frame true) s (fun d' => (d'.peer h.src).inbox = (d.peer h.src).inbox ++ [(h.typ, h.body)] ∧ (d'.peer h.src).rxSeq = (d.peer h.src).rxSeq)) ∧
        (wsClear h.typ = false → d.wsOpened h = none → Gives (.wsFrameReceive port frame true) s drop) ∧
        (wsClear h.typ = false → ∀ body, d.wsOpened h = some body →
          Gives (.wsFrameReceive port frame true) s (channelFrame port h body d) ∧
          (h.src = m.val → p.unacked = [] →
            (p.early = [] → p.part = none → h.seq = p.rxSeq + 1 → h.first = true → h.last = true → wsLenOk h.typ body.length = true → body.length ≤ 65536 →
              Does (.wsFrameReceive port frame true) s (fun d' => (d'.peer m).inbox = p.inbox ++ [(h.typ, body)] ∧ (d'.peer m).rxSeq = p.rxSeq + 1 ∧ (d'.peer m).lastRx = d.time)) ∧
            (h.seq ≤ p.rxSeq → Does (.wsFrameReceive port frame true) s (fun d' => (d'.peer m).inbox = p.inbox ∧ (d'.peer m).rxSeq = p.rxSeq ∧ d'.cnt = d.cnt)) ∧
            (p.rxSeq + 1 < h.seq → h.seq ≤ p.rxSeq + 257 → p.early.length < 256 → (∀ y ∈ p.early, y.1 ≠ h.seq) →
              Does (.wsFrameReceive port frame true) s (fun d' => (d'.peer m).inbox = p.inbox ∧ (d'.peer m).rxSeq = p.rxSeq ∧
                (d'.peer m).early = p.early ++ [(h.seq, { typ := h.typ, first := h.first, last := h.last, body := body })])))))) ∧
    (Tbl.get false d.ws.linkUp l = false → awake → l.val % 4 < linksOf (mode (l.val / 4)) → (d.unit 5 (l.val / 4)).fenced = false →
      Does (.linkUp l) s (fun d' => Tbl.get false d'.ws.linkUp l = true ∧ ∀ q, q ≠ l.val → Tbl.get false d'.ws.linkUp q = Tbl.get false d.ws.linkUp q)) ∧
    (Tbl.get false d.ws.linkUp l = true ∨ ¬awake ∨ linksOf (mode (l.val / 4)) ≤ l.val % 4 → Gives (.linkUp l) s d) ∧
    (Tbl.get false d.ws.linkUp l = true → Does (.linkDown l) s (fun d' => Tbl.get false d'.ws.linkUp l = false ∧ ∀ q, q ≠ l.val → Tbl.get false d'.ws.linkUp q = Tbl.get false d.ws.linkUp q)) ∧
    (Tbl.get false d.ws.linkUp l = false → Gives (.linkDown l) s d)

/-- 17 R355, R357, R359, R365, R366: an idle direction sends KEEPALIVE under the next SEQ and the channel's key, an unacknowledged frame is sent again after 2 ms as it was, eight tries or 5 ms of silence lose the peer; CLOSE and 60 s without traffic close a channel, which keeps what it had not delivered for the next, and an old one is
joined afresh. WS_IDENTITY and WS_QUERY write their records, WS_TMPL_CTRL commits the staged template. -/
def Sys2Proof.Claims.ChannelCare : Prop :=
  ∀ (s : State) (m : Fin 1024) (bs : List Byte) (o : Nat) (e : Entry) (v : BitVec 32),
    let d := s.dev
    let p := d.peer m
    let late (w : WsFrame) : Bool := decide (w.sent + 2_000_000 ≤ d.time)
    (WsGets s m 0x10 bs → Gives (.keepalive m) s (wsTook m 0x10 bs d)) ∧
    (WsGets s m 0x11 bs → p.up = false → Gives (.close m) s (wsTook m 0x11 bs d)) ∧
    (p.up = true →
      (p.lastTx + 1_000_000 ≤ d.time → let q := p.txSeq + 1; let head := wsHead 0x10 d.wsMember m true true 0 q (p.rxSeq % 2 ^ 32);
        Does (.keepaliveSend m) s (fun d' => (d'.peer m).txSeq = q ∧ (d'.peer m).lastTraffic = p.lastTraffic ∧
          (d'.peer m).unacked = p.unacked ++ [{ seq := q, sealed := head ++ gcmSeal (p.keyOf p.dirTx) (wsNonce p.dirTx q) head [], msg := .keepalive, last := true, sent := d.time }])) ∧
      (d.time < p.lastTx + 1_000_000 → Gives (.keepaliveSend m) s d) ∧
      (WsGets s m 0x11 bs → Gives (.close m) s (closeChannel m 0 (wsTook m 0x11 bs d)) ∧
        Does (.close m) s (fun d' => (d'.peer m).up = false ∧ (d'.peer m).unacked = [] ∧ (d'.peer m).txSeq = 0 ∧ (d'.peer m).keys = [] ∧
          (d'.peer m).waiting = ((p.unacked.filter (fun f => f.last)).map (fun f => f.msg)).filter WsMsg.survives ++ p.waiting)) ∧
      (p.lastTraffic + 60_000_000_000 ≤ d.time → Gives (.channelIdleClose m) s (closeChannel m 0 (sendUp m .close d)) ∧ Does (.channelIdleClose m) s (fun d' => (d'.peer m).up = false)) ∧
      (d.time < p.lastTraffic + 60_000_000_000 → Gives (.channelIdleClose m) s d) ∧
      (2 ^ 32 ≤ p.txSeq ∨ 2 ^ 32 ≤ p.rxSeq ∨ p.since + 3_600_000_000_000 ≤ d.time → Gives (.channelRejoin m) s (startJoin m (closeChannel m 0 d))) ∧
      (p.txSeq < 2 ^ 32 → p.rxSeq < 2 ^ 32 → d.time < p.since + 3_600_000_000_000 → Gives (.channelRejoin m) s d) ∧
      ((∃ w ∈ p.unacked, late w = true ∧ 8 ≤ w.tries) → Gives (.peerLost m) s (losePeer m 0 d) ∧ Does (.peerLost m) s (fun d' => (d'.peer m).up = false)) ∧
      ((∀ w ∈ p.unacked, late w = true → w.tries < 8) → p.lastRx + 5_000_000 ≤ d.time → Gives (.peerLost m) s (losePeer m 1 d) ∧ Does (.peerLost m) s (fun d' => (d'.peer m).up = false)) ∧
      ((∀ w ∈ p.unacked, late w = true → w.tries < 8) → d.time < p.lastRx + 5_000_000 → Gives (.peerLost m) s d)) ∧
    (∀ w, firstWhere (fun x => late x && decide (x.tries < 8)) p.unacked = some w →
      Gives (.wsRetransmit m) s (wsOut m w.sealed (d.updPeer m (fun p => { p with unacked := mapWhere (fun x => x = w) (fun _ => { w with sent := d.time, tries := w.tries + 1 }) p.unacked }))) ∧
      Does (.wsRetransmit m) s (fun d' => (d'.peer m).unacked = p.unacked.map (fun x => if x = w then { w with sent := d.time, tries := w.tries + 1 } else x) ∧ (d'.peer m).up = p.up ∧
        ∀ port t, d.portFor m = some (port, t) → (checkAll d 82 0 0 false none (linePieces (wsTxAt m) w.sealed.length)).1 = .permit → d'.out = d.out ++ [.frame port (t.frame w.sealed)])) ∧
    ((∀ w ∈ p.unacked, late w = true → 8 ≤ w.tries) → Gives (.wsRetransmit m) s d) ∧
    (d.md.mode ≠ .debug → (d.allot 0).flr = none →
      (AdminTurn s 0 0x0060 (wholeBytes 8 15) [(8, 64)] o e → let r := d.identityKey ++ toBytes 32 Config.identity.toNat; (checkAll d 0 0 1 true none (pieces (bytesAt e 8 8) r.length)).1 = .permit →
        Gives .wsIdentity s (admDone 0 stOk 1984 0 (d.emit (.hostWrite 0 (bytesAt e 8 8) r)))) ∧
      (AdminTurn s 0 0x0066 ([(4, 255), (5, 3)] ++ wholeBytes 8 15) [(8, 64)] o e → gateCheck d 0 0 (bytesAt e 8 8) 64 1 true none = .permit →
        Gives .wsQuery s (admDone 0 stOk 64 0 (d.emit (.hostWrite 0 (bytesAt e 8 8) (d.peerRecord (bytesAt e 4 2))))))) ∧
    (BarTaken s 0x000D_0204 → let h := hostAccess 0 d;
      let t : Tmpl := { kind := field v.toNat 1 0, len := field v.toNat 8 2, link := field v.toNat 11 9, valid := bitOf v.toNat 16, bytes := h.ws.tmplStage };
      Gives (.wsTmplCtrlWrite v) s { h with ws := { h.ws with tmpls := Tbl.set {} h.ws.tmpls h.ws.tmplSel t } })

/-- FramesAndLinks and ChannelCare, together. -/
def Obligations.ChannelsAndFrames : Prop := FramesAndLinks ∧ ChannelCare

/-- 17 R360, R361, Tables 17.7 to 17.9, 04, Table 4.2: a context leaves when its member pulls it, or CTX_MIGRATE_OUT pushes it: it is MIGRATING while four STW_READs fetch it and the offer goes out, CLOSED with its secrets zero, before MIG_RELEASE goes out, once MIG_READY came; the destination holds the offer in a FREE context, and it is
usable only after MIG_RELEASE. A move that fails returns the context to the state that it had, at its source, and frees the pending one at its destination. -/
def Sys2Proof.Claims.MovesOfContexts : Prop :=
  ∀ (s : State) (m : Fin 1024) (a : Fin 64) (bs : List Byte) (o : Nat) (r32 : BitVec 32) (e : Entry) (x : Migration),
    let d := s.dev
    let took (t : Nat) : Device := wsTook m t bs d
    let now := (∀ y ∈ d.ws.migs, y.outcome = none) ∧ d.ws.migs.length < 256 ∧ d.wsActive = true
    (now → (d.peer m).inbox = [(0x20, bs)] →
      let f := pullFields bs
      let c := d.ctx f.2.1
      (c.st = .free ∨ c.allot ≠ f.2.2.1 ∨ c.label ≠ f.2.2.2 → Gives (.migPull m) s (sendWs m (.migAbort f.1 1) (took 0x20))) ∧
      (c.allot = f.2.2.1 → c.label = f.2.2.2 → (c.st = .migrating ∨ c.st ≠ .free ∧ d.ctxQuietFor f.2.2.1 f.2.1 d.order = false → Gives (.migPull m) s d) ∧ (d.ctxQuietFor f.2.2.1 f.2.1 d.order = true →
        (c.st = .closed → c.migratedOut = true → Gives (.migPull m) s (sendWs m (.migAbort f.1 1) (took 0x20))) ∧
        (c.st = .opened ∨ c.st = .closed ∧ c.migratedOut = false → Gives (.migPull m) s (sendWs m (.migAbort f.1 2) (took 0x20))) ∧
        (c.st = .active ∨ c.st = .held → Gives (.migPull m) s (beginMove m f.1 f.2.1 false (took 0x20)) ∧
          Does (.migPull m) s (fun d' => (d'.ctx f.2.1).st = .migrating ∧ (d'.ctx f.2.1).before = c.st ∧ (d'.ctx f.2.1).secret = c.secret ∧
            d'.ws.migs = d.ws.migs ++ [{ request := f.1, source := true, ctx := f.2.1, member := m, allot := c.allot, label := c.label, began := d.time, rid := d.migRid, reads := 4 }]))))) ∧
    (now → WsGets s m 0x22 bs → d.migAt true m (word bs 0 4) = some x → x.admin = false →
      Does (.migReady m) s (fun d' => (d'.ctx x.ctx).st = .closed ∧ (d'.ctx x.ctx).secret = [] ∧ (d'.ctx x.ctx).migratedOut = true ∧ d'.migAt true m (word bs 0 4) = some { x with st := 1, outcome := some (0, d.time) })) ∧
    (now → WsGets s m 0x22 bs → d.migAt true m (word bs 0 4) = none → Gives (.migReady m) s (sendWs m (.migAbort (word bs 0 4) 5) (took 0x22))) ∧
    (WsGets s m 0x25 bs → d.migAt true m (word bs 0 4) = some x →
      (x.outcome = some (0, d.time) → (∀ y ∈ d.ws.migs, y.outcome = some (0, d.time)) → Gives (.migQuery m) s (sendWs m (.migRelease x.request) (took 0x25))) ∧
      (now → Gives (.migQuery m) s (took 0x25))) ∧
    (now → WsGets s m 0x21 bs → let b := word bs 12 1 % 64; let q := word bs 0 4;
      (d.migAt false m q = none → (d.allot b).flr.isSome = true → Gives (.migOffer m) s (took 0x21)) ∧
      (d.migAt false m q = none → (d.allot b).flr = none → (d.allot b).ctxQuota ≤ d.ctxTaken b ∨ d.freeCtx = none → Gives (.migOffer m) s (sendWs m (.migAbort q 3) (took 0x21))) ∧
      (d.migAt false m q = none → (d.allot b).flr = none → ∀ k, d.ctxTaken b < (d.allot b).ctxQuota → d.freeCtx = some k →
        Does (.migOffer m) s (fun d' => d'.ctx k = { offeredCtx bs d.time with allot := b } ∧ (d'.ctx k).st = .free ∧ (d'.ctx k).pending = true ∧ ∃ y, d'.migAt false m q = some y ∧ y.st = 1 ∧ y.dest = k)) ∧
      (d.migAt false m q = some x → x.ctx = word bs 4 4 →
        (x.st = 1 → Gives (.migOffer m) s (sendWs m (.migAbort q 5) (took 0x21))) ∧
        (x.st ≠ 1 → (d.allot b).flr = none → ∀ k, d.ctxTaken b < (d.allot b).ctxQuota → d.freeCtx = some k →
          Does (.migOffer m) s (fun d' => d'.ctx k = { offeredCtx bs d.time with allot := b } ∧ d'.migAt false m q = some { x with st := 1, dest := k, began := d.time, lastQuery := d.time })))) ∧
    (WsGets s m 0x23 bs →
      (d.migAt false m (word bs 0 4) = none → Gives (.migRelease m) s (took 0x23)) ∧
      (d.migAt false m (word bs 0 4) = some x → x.st = 1 → x.outcome = none → x.admin = false → let c := d.ctx x.dest;
        Does (.migRelease m) s (fun d' => (d'.ctx x.dest).st = c.before ∧ (d'.ctx x.dest).pending = false ∧ (d'.ctx x.dest).migratedIn = true ∧ (d'.ctx x.dest).secret = c.secret ∧
          (d'.ctx x.dest).holdExpiry = (if c.before = .held then d.time + c.holdLeft else 0) ∧ x ∉ d'.ws.migs))) ∧
    (WsGets s m 0x24 bs →
      (d.migAt false m (word bs 0 4) = none → d.migAt true m (word bs 0 4) = none → Gives (.migAbort m) s (took 0x24)) ∧
      (d.migAt false m (word bs 0 4) = some x → x.outcome = none →
        (x.st = 1 → Gives (.migAbort m) s (migFailsThere x stRefused 0x60 (took 0x24))) ∧
        (x.st ≠ 1 → word bs 4 1 = 1 → Gives (.migAbort m) s (migFailsThere x stCtxAbsent 0 (took 0x24))) ∧
        (x.st ≠ 1 → word bs 4 1 = 2 → Gives (.migAbort m) s (migFailsThere x stCtxState (d.freeVal 3).toNat (took 0x24).tookFree)) ∧
        (x.st ≠ 1 → word bs 4 1 = 3 → Gives (.migAbort m) s (migFailsThere x stRefused 0x20 (took 0x24))) ∧
        (x.st ≠ 1 → 3 < word bs 4 1 → Gives (.migAbort m) s (migFailsThere x stRefused 0x60 (took 0x24))))) ∧
    (WsGets s m 0x24 bs → d.migAt false m (word bs 0 4) = none → d.migAt true m (word bs 0 4) = some x → x.outcome = none → x.admin = false → (d.ctx x.ctx).st = .migrating →
      Does (.migAbort m) s (fun d' => (d'.ctx x.ctx).st = (d.ctx x.ctx).before ∧ (d'.ctx x.ctx).secret = (d.ctx x.ctx).secret)) ∧
    (d.migAt false m r32.toNat = some x → x.st = 1 → x.outcome = none → x.lastQuery + 1_000_000 ≤ d.time →
      (d.time < x.began + d.migLimit → Gives (.migQuerySend m r32) s (sendWs m (.migQuery x.request) (setMig { x with lastQuery := d.time } d))) ∧
      (x.began + d.migLimit ≤ d.time → Gives (.migQuerySend m r32) s d)) ∧
    ((d.adm 0).waits = .none → x.outcome = none → x.began + d.migLimit ≤ d.time →
      (d.migAt true m r32.toNat = some x → Gives (.migTimeout true m r32) s (migFailsHere x 5 stRefused 0x60 d)) ∧
      (d.migAt false m r32.toNat = some x → x.st = 1 → Gives (.migTimeout false m r32) s (migFailsThere x stRefused 0x60 d))) ∧
    (AdminTurn s a 0x0026 (ctxParam ++ [(8, 255), (9, 3)]) [] o e → now → d.ctxQuietFor a (ctxOf e) o = true → let c := d.ctx (ctxOf e);
      c.allot = a → c.st ≠ .free →
      (c.st = .opened → Gives (.ctxMigrateOut a) s (admDone a stCtxState 0 c.st.code d)) ∧
      (c.st = .migrating → Gives (.ctxMigrateOut a) s d) ∧
      (c.st = .active ∨ c.st = .held → d.wsPeerOk (bytesAt e 8 2) = false → Gives (.ctxMigrateOut a) s (admDone a stRefused 0 0x61 d)) ∧
      (c.st = .active ∨ c.st = .held → d.wsPeerOk (bytesAt e 8 2) = true → Does (.ctxMigrateOut a) s (fun d' =>
        (d'.ctx (ctxOf e)).st = .migrating ∧ (d'.ctx (ctxOf e)).before = c.st ∧ (d'.adm a).waits = .migration d.ws.nextReq ∧
          d'.ws.migs = d.ws.migs ++ [{ request := d.ws.nextReq, source := true, ctx := ctxOf e, member := bytesAt e 8 2, allot := c.allot, label := c.label, began := d.time, admin := true, rid := d.migRid, reads := 4 }]))) ∧
    (AdminTurn s a 0x0027 ([(4, 255), (5, 3), (8, 255), (9, 255), (10, 3)] ++ wholeBytes 16 23) [] o e → now →
      (d.wsPeerOk (bytesAt e 4 2) = false → Gives (.ctxMigrateIn a) s (admDone a stRefused 0 0x61 d)) ∧
      (d.wsPeerOk (bytesAt e 4 2) = true → Does (.ctxMigrateIn a) s (fun d' => (d'.adm a).waits = .migration d.ws.nextReq ∧ d'.ctxs = d.ctxs ∧
        d'.ws.migs = d.ws.migs ++ [{ request := d.ws.nextReq, source := false, ctx := bytesAt e 8 4, member := bytesAt e 4 2, allot := a, label := bytesAt e 16 8, began := d.time, admin := true }])))

/-- 17 R362 to R364, R366: WS_REPLICATE sends a key to another member's empty target, which takes its material and becomes a replica; its destroy takes it away. A home device carves the leaves that it grants from its own counter, once each; a member signs with granted leaves only, and a refusal or GRANT_WAIT ms without a grant
ends the waiting signatures KEY_EXHAUSTED. WS_REHOME makes a member that holds a replica the home of the counter. -/
def Sys2Proof.Claims.ReplicasAndGrants : Prop :=
  ∀ (s : State) (m : Fin 1024) (bs : List Byte) (o : Nat) (e : Entry) (w : GrantWait) (g : GrantIn) (r : Replica) (key : KeyAttr) (h32 : BitVec 32),
    let d := s.dev
    let took (t : Nat) : Device := wsTook m t bs d
    let t := word bs 0 4
    let h := bytesAt e 4 4
    let n := bytesAt e 8 2
    let q := word bs 4 4
    (WsGets s m 0x30 bs → let no := sendWs m (.keyReplAck t 1) (took 0x30);
      (d.keyAttr t = none → Gives (.keyRepl m) s no) ∧
      (d.keyAttr t = some key → key.st ≠ 1 ∨ replParts ((d.peer m).keyOf 2) bs key = none → Gives (.keyRepl m) s no) ∧
      (∀ b mat, d.keyAttr t = some key → key.st = 1 → handleStore t = false → replParts ((d.peer m).keyOf 2) bs key = some (b, mat, []) → mat.length ≤ 64 → b.stateful = false →
        (b.persistent = true ∨ b.st = 3 → d.entropyAvailable = false → Gives (.keyRepl m) s d) ∧
        (d.entropyAvailable = true → Gives (.keyRepl m) s (sendWs m (.keyReplAck t 0) (becomesReplica m t (putSlot (handleSlot t) { d.slot (handleSlot t) with attr := b } mat (took 0x30)))) ∧
          Does (.keyRepl m) s (fun d' => (d'.slot (handleSlot t)).attr = b ∧ (b.persistent = false → d'.slotMaterial (handleSlot t) = mat) ∧ ∃ x, d'.homeOf t = some x ∧ x.member = m.val)))) ∧
    (WsGets s m 0x31 bs → d.ws.replicas = [r] → r.member = m.val → r.target = t → r.done = false →
      ((d.adm 0).waits = .none → word bs 4 1 = 0 → Does (.keyReplAck m) s (fun d' => d'.ws.replicas = [{ r with done := true }])) ∧
      ((d.adm 0).waits = .none → word bs 4 1 ≠ 0 → Does (.keyReplAck m) s (fun d' => d'.ws.replicas = [])) ∧
      ((d.adm 0).waits = .replicate m r.handle → word bs 4 1 = 0 → Gives (.keyReplAck m) s
        (admDone 0 stOk 0 0 (record 0x8022 0 false r.handle m t 0 (let x := took 0x31; { x with ws := { x.ws with replicas := [{ r with done := true }] } }))))) ∧
    (WsGets s m 0x32 bs → d.ssIdle = true →
      ((∀ x ∈ d.ws.homes, ¬(x.handle = t ∧ x.member = m.val)) → Gives (.keyReplDestroy m) s (took 0x32)) ∧
      ((∃ x ∈ d.ws.homes, x.handle = t ∧ x.member = m.val) → d.keyAttr t = some key → handleStore t = false → key.stateful = false →
        Gives (.keyReplDestroy m) s (revokeQuiet t (keyGone t (writeSlot (handleSlot t) {} (took 0x32)))))) ∧
    (WsGets s m 0x40 bs → d.entropyAvailable = true →
      (∀ x ∈ d.ws.grantsOut, ¬(x.handle = t ∧ x.member = m.val ∧ x.request = q)) →
      (d.keyAttr t = none → Gives (.grantReq m) s (sendWs m (.grantRefuse t q 1) (took 0x40))) ∧
      (d.keyAttr t = some key → handleStore t = false → key.stateful = true → d.homeOf t = none →
        ((∀ x ∈ d.ws.replicas, ¬(x.handle = t ∧ x.member = m.val ∧ x.destroying = false)) → Gives (.grantReq m) s (sendWs m (.grantRefuse t q 1) (took 0x40))) ∧
        ((∃ x ∈ d.ws.replicas, x.handle = t ∧ x.member = m.val ∧ x.destroying = false) →
          (leafLimit key ≤ key.nextLeaf ∨ word bs 8 4 = 0 → Gives (.grantReq m) s (sendWs m (.grantRefuse t q 0) (took 0x40))) ∧
          (key.nextLeaf < leafLimit key → 0 < word bs 8 4 → (d.slot (handleSlot t)).gen < 0xFFFF_FFFF → Does (.grantReq m) s (fun d' =>
            (d'.slot (handleSlot t)).attr = { key with nextLeaf := key.nextLeaf + min (word bs 8 4) (leafLimit key - key.nextLeaf) } ∧
            d'.ws.grantsOut = d.ws.grantsOut ++ [{ handle := t, member := m, request := q, first := key.nextLeaf, count := min (word bs 8 4) (leafLimit key - key.nextLeaf) }]))))) ∧
    (WsGets s m 0x40 bs → d.entropyAvailable = true → ∀ x, d.ws.grantsOut = [x] → x.handle = t → x.member = m.val → x.request = q → Gives (.grantReq m) s (sendWs m (.grant t q x.first x.count) (took 0x40))) ∧
    (WsGets s m 0x41 bs → d.entropyAvailable = true →
      (d.grantAsked m q = none → Gives (.grant m) s (took 0x41)) ∧
      (d.grantAsked m q = some g → 0 < word bs 16 4 → d.ws.grantWaits = [] →
        Does (.grant m) s (fun d' => d'.grantOf g.handle = { g with asked := none, ranges := g.ranges ++ [(word bs 8 8, word bs 16 4)] } ∧ d'.cis = d.cis))) ∧
    (WsGets s m 0x42 bs → (d.grantAsked m q = none → Gives (.grantRefuse m) s (took 0x42)) ∧ (d.grantAsked m q = some g →
      (word bs 8 1 = 0 → Gives (.grantRefuse m) s (retryGrants g.handle (setGrant { g with asked := none, spent := true } (took 0x42)))) ∧
      (word bs 8 1 = 1 → d.ws.grantWaits = [w] → w.req.handle = g.handle → Gives (.grantRefuse m) s
        (keyRefuse w.req stKeyExhausted 1 (let x := setGrant { g with asked := none } (took 0x42); { x with ws := { x.ws with grantWaits := [] } }))))) ∧
    (d.ws.grantWaits = [w] → w.req.handle = h32.toNat →
      (w.since + d.grantWaitNs ≤ d.time → Gives (.grantWaitExpire h32) s (keyRefuse w.req stKeyExhausted 1 { d with ws := { d.ws with grantWaits := [] } })) ∧
      (d.time < w.since + d.grantWaitNs → Gives (.grantWaitExpire h32) s d)) ∧
    (∀ x, WsGets s m 0x43 bs → d.entropyAvailable = true → d.homeOf q = some x → d.keyAttr q = some key →
      (x.member ≠ m.val ∨ key.stateful = false → Gives (.rehome m) s (took 0x43)) ∧
      (x.member = m.val → handleStore q = false → key.stateful = true → d.ws.grantWaits = [] →
        Does (.rehome m) s (fun d' => (d'.slot (handleSlot q)).attr = { key with nextLeaf := word bs 8 8 } ∧ d'.homeOf q = none ∧ ∀ y ∈ d'.ws.grantsIn, y.handle ≠ q))) ∧
    (AdminTurn s 0 0x0063 (wholeBytes 4 8 ++ [(9, 3)] ++ wholeBytes 12 15) [] o e → d.md.mode ≠ .debug →
      (d.wsActive = false ∨ d.wsPeerOk n = false → Gives .wsReplicate s (admDone 0 stRefused 0 0x61 d)) ∧
      (d.wsActive = true → d.wsPeerOk n = true → d.keyAttr h = some key → handleStore h = false → (d.slot (handleSlot h)).unreadable = false → key.st = 3 → d.homeOf h = none → d.ws.moved.contains h = false →
        (handleAllot (bytesAt e 12 4) ≠ handleAllot h → Gives .wsReplicate s (admDone 0 stRefused 0 0x63 d)) ∧
        (handleAllot (bytesAt e 12 4) = handleAllot h → Does .wsReplicate s (fun d' => (d'.adm 0).waits = .replicate n h ∧
          d'.ws.replicas = d.ws.replicas ++ [{ handle := h, member := n, target := bytesAt e 12 4, since := d.time }])))) ∧
    (AdminTurn s 0 0x0064 (wholeBytes 4 8 ++ [(9, 3)] ++ wholeBytes 12 15) [] o e → d.md.mode ≠ .debug →
      (d.wsActive = false ∨ d.wsPeerOk n = false → Gives .wsRehome s (admDone 0 stRefused 0 0x61 d)) ∧
      (d.wsActive = true → d.wsPeerOk n = true → d.keyAttr h = some key → handleStore h = false → (d.slot (handleSlot h)).unreadable = false → key.st = 3 → d.homeOf h = none → d.ws.moved.contains h = false →
        (key.stateful = false → Gives .wsRehome s (admDone 0 stRefused 0 0x63 d)) ∧
        (key.stateful = true → { handle := h, member := n, target := bytesAt e 12 4, done := true, since := r.since } ∈ d.ws.replicas →
          ((d.peer n).up = true → d.entropyAvailable = true → Does .wsRehome s (fun d' => (d'.adm 0).waits = .rehome ∧ (d'.slot (handleSlot h)).attr = { key with nextLeaf := leafLimit key } ∧ d'.ws.moved.contains h = true)) ∧
          ((d.peer n).up = false → Does .wsRehome s (fun d' => (d'.adm 0).waits = .rehome ∧ d'.ws.rehoming = some { handle := h, member := n, replica := bytesAt e 12 4, since := d.time } ∧ d'.cis = d.cis)))))

/-- MovesOfContexts and ReplicasAndGrants, together. -/
def Obligations.LeafGrantsAndMoves : Prop := MovesOfContexts ∧ ReplicasAndGrants


/-! ## The words of Furrow instructions (06, 07) -/

/-- 06 R127, Tables 6.1 to 6.12, 07 R157, Tables 7.4 to 7.17: the word of every Furrow instruction stands for that instruction, every operand at every value that its field admits. -/
def Obligations.FurrowRoundTrip : Prop :=
  ∀ (i : Instr) (e : Fin 144) (w : W32), furrowEncode i = some (e, w) → i.wellFormed = true → furrowDecode e w = some i

/-- Words put together field by field from Tables 6.1 to 6.12 and 7.4 to 7.17 stand for their instructions: MAJOR, then the fields in the order of the format. -/
def Obligations.FurrowWords : Prop :=
  ∀ e : Fin 144,
    furrowDecode e 0b000001_00011_00001_00010_00000000001#32 = some (.sub e 3 1 2) ∧
    furrowDecode e 0b000010_00101_00110_1111111111111111#32 = some (.addi e 5 6 0xFFFF) ∧
    furrowDecode e 0b001000_00001_00010_00000000_10_000111#32 = some (.sari e 1 2 7) ∧
    furrowDecode e 0b001001_00100_000_11_1010101111001101#32 = some (.hset e 4 0xABCD 3) ∧
    furrowDecode e 0b010000_00001_00010_100_0000000001000#32 = some (.ld e 1 2 4 8) ∧
    furrowDecode e 0b010011_00001_00010_00001111_0000000_1#32 = some (.rstU e 1 2 15) ∧
    furrowDecode e 0b010100_00111_01000_00000_00000000000#32 = some (.dma e 7 8) ∧
    furrowDecode e 0b011000_00001_00010_1111111111111111#32 = some (.brEq e 1 2 0xFFFF) ∧
    furrowDecode e 0b011110_00001_000000000000000000100#32 = some (.jl e 1 4) ∧
    furrowDecode e 0b100000_00001_00000_00000000_00001000#32 = some (.esr e 1 8) ∧
    furrowDecode e 0b100010_00001_00010_00011_0000110_0001#32 = some (.keyreq e 1 2 3 6) ∧
    furrowDecode e 0b100010_00000_00010_00011_0000000_0110#32 = some (.endR e 2 3 0) ∧
    furrowDecode e 0b110000_10011_00101_00010_0_000_00_00001#32 = some (.vcfgi e 19 5 2) ∧
    furrowDecode e 0b110001_00100_01000_01100_1_010_00_00000#32 = some (.vadd e 4 8 12 (some 2) 0) ∧
    furrowDecode e 0b110010_00001_00010_00011_0_000_00_00001#32 = some (.vmadd e 1 1 2 3 none 0) ∧
    furrowDecode e 0b111001_00001_00011_00000_0_000_00_00001#32 = some (.vst e 1 3 none 0) ∧
    furrowDecode e 0b111101_00100_00000_00000_0_000_10_00110#32 = some (.vrefreshB e 4 0 none 2) ∧
    furrowDecode e 0b000001_00011_00001_00010_00000010001#32 = none ∧
    furrowDecode e 0b000000_00000_00000_00000_00000000000#32 = none

/-! ## An invariant -/

/-- Every step keeps every table of the device in its canonical form, so that equal contents are equal data. -/
def Obligations.StepsKeepTablesCanonical : Prop := ∀ s t : State, Canonical s.dev → step s = .next t → Canonical t.dev
end

