-- ==== Sys2Proof/Laws/Table.lean ====
section
/-!
SUPPORT. Sys2Proof/Laws/Table.lean: what reading a table gives after it was written, and that writing keeps the canonical form.
-/
namespace Sys2Proof

variable {α : Type}

@[simp] theorem Tbl.get_nil (d : α) (k : Nat) : Tbl.get d [] k = d := rfl
@[simp] theorem Tbl.find_nil (k : Nat) : Tbl.find ([] : Tbl α) k = none := rfl
theorem Tbl.get_cons (d : α) (x : Nat × α) (t : Tbl α) (k : Nat) : Tbl.get d (x :: t) k = if x.1 = k then x.2 else Tbl.get d t k := rfl
theorem Tbl.find_cons (x : Nat × α) (t : Tbl α) (k : Nat) : Tbl.find (x :: t) k = if x.1 = k then some x.2 else Tbl.find t k := rfl
theorem Tbl.erase_cons (x : Nat × α) (t : Tbl α) (k : Nat) :
    Tbl.erase (x :: t) k = if x.1 = k then Tbl.erase t k else x :: Tbl.erase t k := rfl
theorem Tbl.insert_cons (x : Nat × α) (t : Tbl α) (k : Nat) (v : α) :
    Tbl.insert (x :: t) k v = if k < x.1 then (k, v) :: x :: t else x :: Tbl.insert t k v := rfl

@[simp] theorem Tbl.get_erase_same (d : α) (t : Tbl α) (k : Nat) : Tbl.get d (Tbl.erase t k) k = d := by
  induction t with
  | nil => rfl
  | cons x t ih =>
    rw [Tbl.erase_cons]
    split
    · exact ih
    · rw [Tbl.get_cons, if_neg ‹_›, ih]

theorem Tbl.get_erase_ne (d : α) (t : Tbl α) {k j : Nat} (h : j ≠ k) : Tbl.get d (Tbl.erase t k) j = Tbl.get d t j := by
  induction t with
  | nil => rfl
  | cons x t ih =>
    rw [Tbl.erase_cons, Tbl.get_cons]
    split
    · rw [if_neg (by omega), ih]
    · rw [Tbl.get_cons, ih]

theorem Tbl.get_insert_ne (d : α) (t : Tbl α) {k j : Nat} (v : α) (h : j ≠ k) : Tbl.get d (Tbl.insert t k v) j = Tbl.get d t j := by
  induction t with
  | nil => simp [Tbl.insert, Tbl.get_cons, Ne.symm h]
  | cons x t ih =>
    rw [Tbl.insert_cons]
    split
    · simp [Tbl.get_cons, Ne.symm h]
    · rw [Tbl.get_cons, Tbl.get_cons, ih]

theorem Tbl.get_insert_erase (d : α) (t : Tbl α) (k : Nat) (v : α) : Tbl.get d (Tbl.insert (Tbl.erase t k) k v) k = v := by
  induction t with
  | nil => simp [Tbl.erase, Tbl.insert, Tbl.get_cons]
  | cons x t ih =>
    rw [Tbl.erase_cons]
    split
    · exact ih
    · rw [Tbl.insert_cons]
      split
      · simp [Tbl.get_cons]
      · rw [Tbl.get_cons, if_neg ‹_›, ih]

@[simp] theorem Tbl.get_set_same [DecidableEq α] (d : α) (t : Tbl α) (k : Nat) (v : α) : Tbl.get d (Tbl.set d t k v) k = v := by
  unfold Tbl.set
  split
  · subst_vars; simp
  · exact Tbl.get_insert_erase d t k v

theorem Tbl.get_set_ne [DecidableEq α] (d : α) (t : Tbl α) {k j : Nat} (v : α) (h : j ≠ k) :
    Tbl.get d (Tbl.set d t k v) j = Tbl.get d t j := by
  unfold Tbl.set
  split
  · exact Tbl.get_erase_ne d t h
  · rw [Tbl.get_insert_ne d _ v h, Tbl.get_erase_ne d t h]

@[simp] theorem Tbl.get_upd_same [DecidableEq α] (d : α) (t : Tbl α) (k : Nat) (f : α → α) : Tbl.get d (Tbl.upd d t k f) k = f (Tbl.get d t k) := by
  simp [Tbl.upd]

theorem Tbl.get_upd_ne [DecidableEq α] (d : α) (t : Tbl α) {k j : Nat} (f : α → α) (h : j ≠ k) :
    Tbl.get d (Tbl.upd d t k f) j = Tbl.get d t j := by
  simp [Tbl.upd, Tbl.get_set_ne d t _ h]

@[simp] theorem Tbl.find_modify_same (t : Tbl α) (k : Nat) (f : α → α) : Tbl.find (Tbl.modify t k f) k = (Tbl.find t k).map f := by
  induction t with
  | nil => rfl
  | cons x t ih =>
    simp only [Tbl.modify, Tbl.find_cons]
    split
    · simp [Tbl.find_cons, *]
    · simp [Tbl.find_cons, *]

theorem Tbl.find_modify_ne (t : Tbl α) {k j : Nat} (f : α → α) (h : j ≠ k) : Tbl.find (Tbl.modify t k f) j = Tbl.find t j := by
  induction t with
  | nil => rfl
  | cons x t ih =>
    simp only [Tbl.modify, Tbl.find_cons]
    split
    · rename_i hx; simp [Tbl.find_cons, hx, Ne.symm h]
    · simp [Tbl.find_cons, ih]

theorem Tbl.find_erase_same (t : Tbl α) (k : Nat) : Tbl.find (Tbl.erase t k) k = none := by
  induction t with
  | nil => rfl
  | cons x t ih =>
    rw [Tbl.erase_cons]
    split
    · exact ih
    · rw [Tbl.find_cons, if_neg ‹_›, ih]

@[simp] theorem Tbl.find_put_same (t : Tbl α) (k : Nat) (v : α) : Tbl.find (Tbl.put t k v) k = some v := by
  unfold Tbl.put
  induction t with
  | nil => simp [Tbl.erase, Tbl.insert, Tbl.find_cons]
  | cons x t ih =>
    rw [Tbl.erase_cons]
    split
    · exact ih
    · rw [Tbl.insert_cons]
      split
      · simp [Tbl.find_cons]
      · rw [Tbl.find_cons, if_neg ‹_›, ih]

theorem Tbl.find_put_ne (t : Tbl α) {k j : Nat} (v : α) (h : j ≠ k) : Tbl.find (Tbl.put t k v) j = Tbl.find t j := by
  unfold Tbl.put
  induction t with
  | nil => simp [Tbl.erase, Tbl.insert, Tbl.find_cons, Ne.symm h]
  | cons x t ih =>
    rw [Tbl.erase_cons]
    split
    · rw [Tbl.find_cons, if_neg (by omega), ih]
    · rw [Tbl.insert_cons]
      split
      · rename_i hx _
        rw [Tbl.find_cons, if_neg (Ne.symm h), Tbl.find_cons, Tbl.find_cons]
        split
        · rfl
        · induction t with
          | nil => rfl
          | cons y t ih2 =>
            have e : Tbl.find (Tbl.erase (y :: t) k) j = Tbl.find (y :: t) j := by
              clear ih ih2
              induction (y :: t) with
              | nil => rfl
              | cons z u ih3 =>
                rw [Tbl.erase_cons, Tbl.find_cons]
                split
                · rw [if_neg (by omega), ih3]
                · rw [Tbl.find_cons, ih3]
            exact e
      · rw [Tbl.find_cons, Tbl.find_cons, ih]

/-! ## The canonical form -/

theorem Tbl.wfFrom_mono [DecidableEq α] (d : α) {lo lo' : Nat} (t : Tbl α) (h : lo' ≤ lo) (hw : Tbl.wfFrom d lo t = true) : Tbl.wfFrom d lo' t = true := by
  cases t with
  | nil => rfl
  | cons x t => simp [Tbl.wfFrom] at *; exact ⟨⟨by omega, hw.1.2⟩, hw.2⟩

theorem Tbl.wfFrom_erase [DecidableEq α] (d : α) (t : Tbl α) (k : Nat) : ∀ lo, Tbl.wfFrom d lo t = true → Tbl.wfFrom d lo (Tbl.erase t k) = true := by
  induction t with
  | nil => intro lo _; rfl
  | cons x t ih =>
    intro lo h
    simp only [Tbl.wfFrom, Bool.and_eq_true, decide_eq_true_eq] at h
    rw [Tbl.erase_cons]
    split
    · exact Tbl.wfFrom_mono d _ (by omega) (ih _ h.2)
    · simp [Tbl.wfFrom, h.1.1, ih _ h.2]; simpa using h.1.2

theorem Tbl.wfFrom_insert [DecidableEq α] (d : α) (t : Tbl α) (k : Nat) (v : α) (hv : v ≠ d) (hk : ∀ x ∈ t, x.1 ≠ k) :
    ∀ lo, lo ≤ k → Tbl.wfFrom d lo t = true → Tbl.wfFrom d lo (Tbl.insert t k v) = true := by
  induction t with
  | nil => intro lo h _; simp [Tbl.insert, Tbl.wfFrom, h, hv]
  | cons x t ih =>
    intro lo h hw
    simp only [Tbl.wfFrom, Bool.and_eq_true, decide_eq_true_eq] at hw
    rw [Tbl.insert_cons]
    split
    · simp [Tbl.wfFrom, h, hv, hw.2]; exact ⟨by omega, by simpa using hw.1.2⟩
    · have : x.1 ≠ k := hk x (by simp)
      simp [Tbl.wfFrom, hw.1.1]
      exact ⟨by simpa using hw.1.2, ih (fun y hy => hk y (by simp [hy])) _ (by omega) hw.2⟩

theorem Tbl.mem_erase_ne (t : Tbl α) (k : Nat) : ∀ x ∈ Tbl.erase t k, x.1 ≠ k := by
  induction t with
  | nil => simp [Tbl.erase]
  | cons y t ih =>
    rw [Tbl.erase_cons]
    split
    · exact ih
    · intro x hx
      rcases List.mem_cons.mp hx with rfl | hx
      · assumption
      · exact ih x hx

/-- Writing a key keeps the canonical form. -/
theorem Tbl.wf_set [DecidableEq α] (d : α) (t : Tbl α) (k : Nat) (v : α) (h : Tbl.wf d t = true) : Tbl.wf d (Tbl.set d t k v) = true := by
  unfold Tbl.set
  split
  · exact Tbl.wfFrom_erase d t k 0 h
  · exact Tbl.wfFrom_insert d _ k v ‹_› (Tbl.mem_erase_ne t k) 0 (by omega) (Tbl.wfFrom_erase d t k 0 h)

/-- So does changing one. -/
theorem Tbl.wf_upd [DecidableEq α] (d : α) (t : Tbl α) (k : Nat) (f : α → α) (h : Tbl.wf d t = true) : Tbl.wf d (Tbl.upd d t k f) = true :=
  Tbl.wf_set d t k _ h

/-- So does dropping listed keys. -/
theorem Tbl.wf_filter [DecidableEq α] (d : α) (p : Nat × α → Bool) (t : Tbl α) : ∀ lo, Tbl.wfFrom d lo t = true → Tbl.wfFrom d lo (t.filter p) = true := by
  induction t with
  | nil => intro lo _; rfl
  | cons x t ih =>
    intro lo h
    simp only [Tbl.wfFrom, Bool.and_eq_true, decide_eq_true_eq] at h
    rw [List.filter_cons]
    split
    · simp [Tbl.wfFrom, h.1.1, ih _ h.2]; simpa using h.1.2
    · exact Tbl.wfFrom_mono d _ (by omega) (ih _ h.2)

end Sys2Proof
end

