-- ==== Sys2Proof/Laws/Memory.lean ====
section
/-!
SUPPORT. Sys2Proof/Laws/Memory.lean: the laws of byte memories (the Reservoir, operand memory): every operation keeps the canonical form; a read gives
what was last written; other bytes stay; and numbers as bytes and back.
-/
namespace Sys2Proof.Machine
open Sys2Proof

/-! ## Reading after writing -/

theorem get_writeBytes_out (t : Tbl Byte) (bs : List Byte) : ∀ (a j : Nat), j < a ∨ a + bs.length ≤ j → Tbl.get 0 (writeBytes t a bs) j = Tbl.get 0 t j := by
  induction bs generalizing t with
  | nil => intro a j _; rfl
  | cons b bs ih =>
    intro a j h
    simp only [List.length_cons] at h
    rw [writeBytes, ih _ _ _ (by omega), Tbl.get_set_ne _ _ _ (by omega)]

theorem get_writeBytes_in (t : Tbl Byte) (bs : List Byte) : ∀ (a i : Nat), i < bs.length → Tbl.get 0 (writeBytes t a bs) (a + i) = bs.getD i 0 := by
  induction bs generalizing t with
  | nil => intro a i h; simp at h
  | cons b bs ih =>
    intro a i h
    cases i with
    | zero => rw [writeBytes, get_writeBytes_out _ _ _ _ (by omega)]; simp
    | succ i =>
      rw [writeBytes, show a + (i + 1) = (a + 1) + i by omega, ih _ _ _ (by simpa using h)]
      simp

@[simp] theorem length_readBytes (t : Tbl Byte) (a n : Nat) : (readBytes t a n).length = n := by simp [readBytes]

/-- A read of the bytes just written gives them. -/
theorem readBytes_writeBytes (t : Tbl Byte) (a : Nat) (bs : List Byte) : readBytes (writeBytes t a bs) a bs.length = bs := by
  apply List.ext_getElem
  · simp
  · intro i h1 h2
    simp only [readBytes, List.getElem_map, List.getElem_range]
    rw [get_writeBytes_in _ _ _ _ h2]
    simp [h2]

/-- A read that meets none of the bytes written gives what it gave. -/
theorem readBytes_writeBytes_out (t : Tbl Byte) (a b n : Nat) (bs : List Byte) (h : b + n ≤ a ∨ a + bs.length ≤ b) :
    readBytes (writeBytes t a bs) b n = readBytes t b n := by
  apply List.map_congr_left
  intro i hi
  have := List.mem_range.mp hi
  exact get_writeBytes_out _ _ _ _ (by omega)

theorem get_filter (p : Nat × Byte → Bool) (t : Tbl Byte) (j : Nat) (h : ∀ v, p (j, v) = true) : Tbl.get 0 (t.filter p) j = Tbl.get 0 t j := by
  induction t with
  | nil => rfl
  | cons x t ih =>
    rw [List.filter_cons]
    by_cases hx : x.1 = j
    · have : p x = true := by obtain ⟨k, v⟩ := x; subst hx; exact h v
      rw [if_pos this, Tbl.get_cons, Tbl.get_cons, if_pos hx, if_pos hx]
    · split
      · rw [Tbl.get_cons, Tbl.get_cons, if_neg hx, if_neg hx, ih]
      · rw [Tbl.get_cons, if_neg hx, ih]

theorem get_filter_none (p : Nat × Byte → Bool) (t : Tbl Byte) (j : Nat) (h : ∀ v, p (j, v) = false) : Tbl.get 0 (t.filter p) j = 0 := by
  induction t with
  | nil => rfl
  | cons x t ih =>
    rw [List.filter_cons]
    by_cases hx : x.1 = j
    · have : p x = false := by obtain ⟨k, v⟩ := x; subst hx; exact h v
      rw [if_neg (by simp [this]), ih]
    · split
      · rw [Tbl.get_cons, if_neg hx, ih]
      · exact ih

/-- A cleared range reads 0, and every other byte as before. -/
theorem get_clearRange (t : Tbl Byte) (a n j : Nat) : Tbl.get 0 (clearRange t a n) j = if a ≤ j ∧ j < a + n then 0 else Tbl.get 0 t j := by
  unfold clearRange
  split
  · exact get_filter_none _ _ _ (fun v => by simp; omega)
  · exact get_filter _ _ _ (fun v => by simp; omega)

/-! ## The canonical form -/

theorem Memory.wf_writeBytes (bs : List Byte) : ∀ (t : Tbl Byte) (a : Nat), Memory.wf t → Memory.wf (writeBytes t a bs) := by
  induction bs with
  | nil => intro t a h; exact h
  | cons b bs ih => intro t a h; exact ih _ _ (Tbl.wf_set 0 t a b h)

theorem Memory.wf_clearRange (t : Tbl Byte) (a n : Nat) (h : Memory.wf t) : Memory.wf (clearRange t a n) := Tbl.wf_filter 0 _ t 0 h

theorem Memory.wf_rsvWrite (d : Device) (a : Nat) (bs : List Byte) (h : Memory.wf d.rsv.mem) : Memory.wf (d.rsvWrite a bs).rsv.mem :=
  Memory.wf_writeBytes bs _ a h

theorem Memory.wf_rsvClear (d : Device) (a n : Nat) (h : Memory.wf d.rsv.mem) : Memory.wf (d.rsvClear a n).rsv.mem := Memory.wf_clearRange _ a n h

theorem Memory.wf_archWrite (t : EngArch) (a : Nat) (bs : List Byte) (h : Memory.wf t.opm) : Memory.wf (t.write a bs).opm := Memory.wf_writeBytes bs _ a h

/-- The Reservoir of the reset state, which lists nothing, is in canonical form. -/
theorem Memory.wf_reset : Memory.wf State.reset.dev.rsv.mem := rfl

/-- So is operand memory before its first dispatch. -/
theorem Memory.wf_opm_fresh : Memory.wf ({} : EngArch).opm := rfl

/-! ## What the writes of a byte memory leave -/

@[simp] theorem EngArch.write_opm (t : EngArch) (a : Nat) (bs : List Byte) : (t.write a bs).opm = writeBytes t.opm a bs := rfl
@[simp] theorem EngArch.write_x (t : EngArch) (a : Nat) (bs : List Byte) : (t.write a bs).x = t.x := rfl
@[simp] theorem EngArch.write_pc (t : EngArch) (a : Nat) (bs : List Byte) : (t.write a bs).pc = t.pc := rfl
@[simp] theorem EngArch.write_v (t : EngArch) (a : Nat) (bs : List Byte) : (t.write a bs).v = t.v := rfl
@[simp] theorem EngArch.write_p (t : EngArch) (a : Nat) (bs : List Byte) : (t.write a bs).p = t.p := rfl
@[simp] theorem EngArch.write_m (t : EngArch) (a : Nat) (bs : List Byte) : (t.write a bs).m = t.m := rfl
@[simp] theorem EngArch.write_keys (t : EngArch) (a : Nat) (bs : List Byte) : (t.write a bs).keys = t.keys := rfl
@[simp] theorem EngArch.write_jobs (t : EngArch) (a : Nat) (bs : List Byte) : (t.write a bs).jobs = t.jobs := rfl

/-! ## Numbers as bytes (00 R4) -/

@[simp] theorem length_toBytes (n x : Nat) : (toBytes n x).length = n := by
  induction n generalizing x with
  | zero => rfl
  | succ n ih => simp [toBytes, ih]

theorem ofBytes_toBytes (n : Nat) : ∀ x, ofBytes (toBytes n x) = x % 256 ^ n := by
  induction n with
  | zero => intro x; simp [toBytes, ofBytes, Nat.mod_one]
  | succ n ih =>
    intro x
    simp only [toBytes, ofBytes, ih, BitVec.toNat_ofNat]
    have h := Nat.mod_mul (x := x) (a := 256) (b := 256 ^ n)
    rw [show 256 ^ (n + 1) = 256 * 256 ^ n by rw [Nat.pow_succ, Nat.mul_comm], h]

theorem ofBytes_lt (bs : List Byte) : ofBytes bs < 256 ^ bs.length := by
  induction bs with
  | nil => simp [ofBytes]
  | cons b bs ih =>
    have := b.isLt
    simp only [ofBytes, List.length_cons, Nat.pow_succ]
    omega

theorem toBytes_ofBytes (bs : List Byte) : toBytes bs.length (ofBytes bs) = bs := by
  induction bs with
  | nil => rfl
  | cons b bs ih =>
    have := b.isLt
    simp only [List.length_cons, toBytes, ofBytes]
    rw [show (b.toNat + 256 * ofBytes bs) / 256 = ofBytes bs by omega, ih]
    congr 1
    apply BitVec.eq_of_toNat_eq
    simp
    omega

end Sys2Proof.Machine
end

