-- ==== Sys2Proof/Laws/State.lean ====
section
/-!
SUPPORT. Sys2Proof/Laws/State.lean: what each way of changing the device leaves of each of its fields, and what reading a table gives after it was
changed.
-/
namespace Sys2Proof.Machine

/-! ### updAllot -/

@[simp] theorem Device.updAllot_allot_same (d : Device) (n : Nat) (f : Allot → Allot) : (d.updAllot n f).allot n = f (d.allot n) := by simp [Device.allot, Device.updAllot]
theorem Device.updAllot_allot_ne (d : Device) (n : Nat) (f : Allot → Allot) {j : Nat} (h : j ≠ n) : (d.updAllot n f).allot j = d.allot j := by simp [Device.allot, Device.updAllot, Tbl.get_upd_ne _ _ _ h]
@[simp] theorem Device.updAllot_part (d : Device) (n : Nat) (f : Allot → Allot) : (d.updAllot n f).part = d.part := rfl
@[simp] theorem Device.updAllot_time (d : Device) (n : Nat) (f : Allot → Allot) : (d.updAllot n f).time = d.time := rfl
@[simp] theorem Device.updAllot_second (d : Device) (n : Nat) (f : Allot → Allot) : (d.updAllot n f).second = d.second := rfl
@[simp] theorem Device.updAllot_free (d : Device) (n : Nat) (f : Allot → Allot) : (d.updAllot n f).free = d.free := rfl
@[simp] theorem Device.updAllot_out (d : Device) (n : Nat) (f : Allot → Allot) : (d.updAllot n f).out = d.out := rfl
@[simp] theorem Device.updAllot_regs (d : Device) (n : Nat) (f : Allot → Allot) : (d.updAllot n f).regs = d.regs := rfl
@[simp] theorem Device.updAllot_cnt (d : Device) (n : Nat) (f : Allot → Allot) : (d.updAllot n f).cnt = d.cnt := rfl
@[simp] theorem Device.updAllot_sqs (d : Device) (n : Nat) (f : Allot → Allot) : (d.updAllot n f).sqs = d.sqs := rfl
@[simp] theorem Device.updAllot_cqs (d : Device) (n : Nat) (f : Allot → Allot) : (d.updAllot n f).cqs = d.cqs := rfl
@[simp] theorem Device.updAllot_cmds (d : Device) (n : Nat) (f : Allot → Allot) : (d.updAllot n f).cmds = d.cmds := rfl
@[simp] theorem Device.updAllot_order (d : Device) (n : Nat) (f : Allot → Allot) : (d.updAllot n f).order = d.order := rfl
@[simp] theorem Device.updAllot_nextBatch (d : Device) (n : Nat) (f : Allot → Allot) : (d.updAllot n f).nextBatch = d.nextBatch := rfl
@[simp] theorem Device.updAllot_routines (d : Device) (n : Nat) (f : Allot → Allot) : (d.updAllot n f).routines = d.routines := rfl
@[simp] theorem Device.updAllot_oldImages (d : Device) (n : Nat) (f : Allot → Allot) : (d.updAllot n f).oldImages = d.oldImages := rfl
@[simp] theorem Device.updAllot_ctxs (d : Device) (n : Nat) (f : Allot → Allot) : (d.updAllot n f).ctxs = d.ctxs := rfl
@[simp] theorem Device.updAllot_cache (d : Device) (n : Nat) (f : Allot → Allot) : (d.updAllot n f).cache = d.cache := rfl
@[simp] theorem Device.updAllot_cacheDirty (d : Device) (n : Nat) (f : Allot → Allot) : (d.updAllot n f).cacheDirty = d.cacheDirty := rfl
@[simp] theorem Device.updAllot_weirs (d : Device) (n : Nat) (f : Allot → Allot) : (d.updAllot n f).weirs = d.weirs := rfl
@[simp] theorem Device.updAllot_rsv (d : Device) (n : Nat) (f : Allot → Allot) : (d.updAllot n f).rsv = d.rsv := rfl
@[simp] theorem Device.updAllot_engs (d : Device) (n : Nat) (f : Allot → Allot) : (d.updAllot n f).engs = d.engs := rfl
@[simp] theorem Device.updAllot_lats (d : Device) (n : Nat) (f : Allot → Allot) : (d.updAllot n f).lats = d.lats := rfl
@[simp] theorem Device.updAllot_saveGen (d : Device) (n : Nat) (f : Allot → Allot) : (d.updAllot n f).saveGen = d.saveGen := rfl
@[simp] theorem Device.updAllot_lastSweep (d : Device) (n : Nat) (f : Allot → Allot) : (d.updAllot n f).lastSweep = d.lastSweep := rfl
@[simp] theorem Device.updAllot_lius (d : Device) (n : Nat) (f : Allot → Allot) : (d.updAllot n f).lius = d.lius := rfl
@[simp] theorem Device.updAllot_liuWait (d : Device) (n : Nat) (f : Allot → Allot) : (d.updAllot n f).liuWait = d.liuWait := rfl
@[simp] theorem Device.updAllot_liuHigh (d : Device) (n : Nat) (f : Allot → Allot) : (d.updAllot n f).liuHigh = d.liuHigh := rfl
@[simp] theorem Device.updAllot_digs (d : Device) (n : Nat) (f : Allot → Allot) : (d.updAllot n f).digs = d.digs := rfl
@[simp] theorem Device.updAllot_digArrive (d : Device) (n : Nat) (f : Allot → Allot) : (d.updAllot n f).digArrive = d.digArrive := rfl
@[simp] theorem Device.updAllot_digWait (d : Device) (n : Nat) (f : Allot → Allot) : (d.updAllot n f).digWait = d.digWait := rfl
@[simp] theorem Device.updAllot_digHigh (d : Device) (n : Nat) (f : Allot → Allot) : (d.updAllot n f).digHigh = d.digHigh := rfl
@[simp] theorem Device.updAllot_digSlotSel (d : Device) (n : Nat) (f : Allot → Allot) : (d.updAllot n f).digSlotSel = d.digSlotSel := rfl
@[simp] theorem Device.updAllot_whd (d : Device) (n : Nat) (f : Allot → Allot) : (d.updAllot n f).whd = d.whd := rfl
@[simp] theorem Device.updAllot_cis (d : Device) (n : Nat) (f : Allot → Allot) : (d.updAllot n f).cis = d.cis := rfl
@[simp] theorem Device.updAllot_ss (d : Device) (n : Nat) (f : Allot → Allot) : (d.updAllot n f).ss = d.ss := rfl
@[simp] theorem Device.updAllot_gates (d : Device) (n : Nat) (f : Allot → Allot) : (d.updAllot n f).gates = d.gates := rfl
@[simp] theorem Device.updAllot_dselGate (d : Device) (n : Nat) (f : Allot → Allot) : (d.updAllot n f).dselGate = d.dselGate := rfl
@[simp] theorem Device.updAllot_dselRegion (d : Device) (n : Nat) (f : Allot → Allot) : (d.updAllot n f).dselRegion = d.dselRegion := rfl
@[simp] theorem Device.updAllot_dselErr (d : Device) (n : Nat) (f : Allot → Allot) : (d.updAllot n f).dselErr = d.dselErr := rfl
@[simp] theorem Device.updAllot_dselCause (d : Device) (n : Nat) (f : Allot → Allot) : (d.updAllot n f).dselCause = d.dselCause := rfl
@[simp] theorem Device.updAllot_dstage (d : Device) (n : Nat) (f : Allot → Allot) : (d.updAllot n f).dstage = d.dstage := rfl
@[simp] theorem Device.updAllot_fl (d : Device) (n : Nat) (f : Allot → Allot) : (d.updAllot n f).fl = d.fl := rfl
@[simp] theorem Device.updAllot_flt (d : Device) (n : Nat) (f : Allot → Allot) : (d.updAllot n f).flt = d.flt := rfl
@[simp] theorem Device.updAllot_lev (d : Device) (n : Nat) (f : Allot → Allot) : (d.updAllot n f).lev = d.lev := rfl
@[simp] theorem Device.updAllot_evr (d : Device) (n : Nat) (f : Allot → Allot) : (d.updAllot n f).evr = d.evr := rfl
@[simp] theorem Device.updAllot_ws (d : Device) (n : Nat) (f : Allot → Allot) : (d.updAllot n f).ws = d.ws := rfl
@[simp] theorem Device.updAllot_md (d : Device) (n : Nat) (f : Allot → Allot) : (d.updAllot n f).md = d.md := rfl
@[simp] theorem Device.updAllot_boot (d : Device) (n : Nat) (f : Allot → Allot) : (d.updAllot n f).boot = d.boot := rfl
@[simp] theorem Device.updAllot_brd (d : Device) (n : Nat) (f : Allot → Allot) : (d.updAllot n f).brd = d.brd := rfl
@[simp] theorem Device.updAllot_at_sq (d : Device) (n : Nat) (f : Allot → Allot) (i j : Nat) : (d.updAllot n f).sq i j = d.sq i j := rfl
@[simp] theorem Device.updAllot_at_cq (d : Device) (n : Nat) (f : Allot → Allot) (i j : Nat) : (d.updAllot n f).cq i j = d.cq i j := rfl
@[simp] theorem Device.updAllot_at_cmd (d : Device) (n : Nat) (f : Allot → Allot) (i : Nat) : (d.updAllot n f).cmd i = d.cmd i := rfl
@[simp] theorem Device.updAllot_at_ctx (d : Device) (n : Nat) (f : Allot → Allot) (i : Nat) : (d.updAllot n f).ctx i = d.ctx i := rfl
@[simp] theorem Device.updAllot_at_weir (d : Device) (n : Nat) (f : Allot → Allot) (i : Nat) : (d.updAllot n f).weir i = d.weir i := rfl
@[simp] theorem Device.updAllot_at_eng (d : Device) (n : Nat) (f : Allot → Allot) (i : Nat) : (d.updAllot n f).eng i = d.eng i := rfl
@[simp] theorem Device.updAllot_at_lat (d : Device) (n : Nat) (f : Allot → Allot) (i : Nat) : (d.updAllot n f).lat i = d.lat i := rfl
@[simp] theorem Device.updAllot_at_liu (d : Device) (n : Nat) (f : Allot → Allot) (i : Nat) : (d.updAllot n f).liu i = d.liu i := rfl
@[simp] theorem Device.updAllot_at_dig (d : Device) (n : Nat) (f : Allot → Allot) (i : Nat) : (d.updAllot n f).dig i = d.dig i := rfl
@[simp] theorem Device.updAllot_at_gate (d : Device) (n : Nat) (f : Allot → Allot) (i : Nat) : (d.updAllot n f).gate i = d.gate i := rfl
@[simp] theorem Device.updAllot_at_drbg (d : Device) (n : Nat) (f : Allot → Allot) (i : Nat) : (d.updAllot n f).drbg i = d.drbg i := rfl
@[simp] theorem Device.updAllot_at_slot (d : Device) (n : Nat) (f : Allot → Allot) (i : Nat) : (d.updAllot n f).slot i = d.slot i := rfl
@[simp] theorem Device.updAllot_at_unit (d : Device) (n : Nat) (f : Allot → Allot) (i j : Nat) : (d.updAllot n f).unit i j = d.unit i j := rfl
@[simp] theorem Device.updAllot_at_levSrc (d : Device) (n : Nat) (f : Allot → Allot) (i : Nat) : (d.updAllot n f).levSrc i = d.levSrc i := rfl
@[simp] theorem Device.updAllot_at_peer (d : Device) (n : Nat) (f : Allot → Allot) (i : Nat) : (d.updAllot n f).peer i = d.peer i := rfl
@[simp] theorem Device.updAllot_at_reg (d : Device) (n : Nat) (f : Allot → Allot) (i : Nat) : (d.updAllot n f).reg i = d.reg i := rfl
@[simp] theorem Device.updAllot_at_count (d : Device) (n : Nat) (f : Allot → Allot) (i : Nat) : (d.updAllot n f).count i = d.count i := rfl

/-! ### updSq -/

@[simp] theorem Device.updSq_sq_same (d : Device) (a n : Nat) (f : SubQueue → SubQueue) : (d.updSq a n f).sq a n = f (d.sq a n) := by simp [Device.sq, Device.updSq]
@[simp] theorem Device.updSq_part (d : Device) (a n : Nat) (f : SubQueue → SubQueue) : (d.updSq a n f).part = d.part := rfl
@[simp] theorem Device.updSq_time (d : Device) (a n : Nat) (f : SubQueue → SubQueue) : (d.updSq a n f).time = d.time := rfl
@[simp] theorem Device.updSq_second (d : Device) (a n : Nat) (f : SubQueue → SubQueue) : (d.updSq a n f).second = d.second := rfl
@[simp] theorem Device.updSq_free (d : Device) (a n : Nat) (f : SubQueue → SubQueue) : (d.updSq a n f).free = d.free := rfl
@[simp] theorem Device.updSq_out (d : Device) (a n : Nat) (f : SubQueue → SubQueue) : (d.updSq a n f).out = d.out := rfl
@[simp] theorem Device.updSq_regs (d : Device) (a n : Nat) (f : SubQueue → SubQueue) : (d.updSq a n f).regs = d.regs := rfl
@[simp] theorem Device.updSq_cnt (d : Device) (a n : Nat) (f : SubQueue → SubQueue) : (d.updSq a n f).cnt = d.cnt := rfl
@[simp] theorem Device.updSq_allots (d : Device) (a n : Nat) (f : SubQueue → SubQueue) : (d.updSq a n f).allots = d.allots := rfl
@[simp] theorem Device.updSq_cqs (d : Device) (a n : Nat) (f : SubQueue → SubQueue) : (d.updSq a n f).cqs = d.cqs := rfl
@[simp] theorem Device.updSq_cmds (d : Device) (a n : Nat) (f : SubQueue → SubQueue) : (d.updSq a n f).cmds = d.cmds := rfl
@[simp] theorem Device.updSq_order (d : Device) (a n : Nat) (f : SubQueue → SubQueue) : (d.updSq a n f).order = d.order := rfl
@[simp] theorem Device.updSq_nextBatch (d : Device) (a n : Nat) (f : SubQueue → SubQueue) : (d.updSq a n f).nextBatch = d.nextBatch := rfl
@[simp] theorem Device.updSq_routines (d : Device) (a n : Nat) (f : SubQueue → SubQueue) : (d.updSq a n f).routines = d.routines := rfl
@[simp] theorem Device.updSq_oldImages (d : Device) (a n : Nat) (f : SubQueue → SubQueue) : (d.updSq a n f).oldImages = d.oldImages := rfl
@[simp] theorem Device.updSq_ctxs (d : Device) (a n : Nat) (f : SubQueue → SubQueue) : (d.updSq a n f).ctxs = d.ctxs := rfl
@[simp] theorem Device.updSq_cache (d : Device) (a n : Nat) (f : SubQueue → SubQueue) : (d.updSq a n f).cache = d.cache := rfl
@[simp] theorem Device.updSq_cacheDirty (d : Device) (a n : Nat) (f : SubQueue → SubQueue) : (d.updSq a n f).cacheDirty = d.cacheDirty := rfl
@[simp] theorem Device.updSq_weirs (d : Device) (a n : Nat) (f : SubQueue → SubQueue) : (d.updSq a n f).weirs = d.weirs := rfl
@[simp] theorem Device.updSq_rsv (d : Device) (a n : Nat) (f : SubQueue → SubQueue) : (d.updSq a n f).rsv = d.rsv := rfl
@[simp] theorem Device.updSq_engs (d : Device) (a n : Nat) (f : SubQueue → SubQueue) : (d.updSq a n f).engs = d.engs := rfl
@[simp] theorem Device.updSq_lats (d : Device) (a n : Nat) (f : SubQueue → SubQueue) : (d.updSq a n f).lats = d.lats := rfl
@[simp] theorem Device.updSq_saveGen (d : Device) (a n : Nat) (f : SubQueue → SubQueue) : (d.updSq a n f).saveGen = d.saveGen := rfl
@[simp] theorem Device.updSq_lastSweep (d : Device) (a n : Nat) (f : SubQueue → SubQueue) : (d.updSq a n f).lastSweep = d.lastSweep := rfl
@[simp] theorem Device.updSq_lius (d : Device) (a n : Nat) (f : SubQueue → SubQueue) : (d.updSq a n f).lius = d.lius := rfl
@[simp] theorem Device.updSq_liuWait (d : Device) (a n : Nat) (f : SubQueue → SubQueue) : (d.updSq a n f).liuWait = d.liuWait := rfl
@[simp] theorem Device.updSq_liuHigh (d : Device) (a n : Nat) (f : SubQueue → SubQueue) : (d.updSq a n f).liuHigh = d.liuHigh := rfl
@[simp] theorem Device.updSq_digs (d : Device) (a n : Nat) (f : SubQueue → SubQueue) : (d.updSq a n f).digs = d.digs := rfl
@[simp] theorem Device.updSq_digArrive (d : Device) (a n : Nat) (f : SubQueue → SubQueue) : (d.updSq a n f).digArrive = d.digArrive := rfl
@[simp] theorem Device.updSq_digWait (d : Device) (a n : Nat) (f : SubQueue → SubQueue) : (d.updSq a n f).digWait = d.digWait := rfl
@[simp] theorem Device.updSq_digHigh (d : Device) (a n : Nat) (f : SubQueue → SubQueue) : (d.updSq a n f).digHigh = d.digHigh := rfl
@[simp] theorem Device.updSq_digSlotSel (d : Device) (a n : Nat) (f : SubQueue → SubQueue) : (d.updSq a n f).digSlotSel = d.digSlotSel := rfl
@[simp] theorem Device.updSq_whd (d : Device) (a n : Nat) (f : SubQueue → SubQueue) : (d.updSq a n f).whd = d.whd := rfl
@[simp] theorem Device.updSq_cis (d : Device) (a n : Nat) (f : SubQueue → SubQueue) : (d.updSq a n f).cis = d.cis := rfl
@[simp] theorem Device.updSq_ss (d : Device) (a n : Nat) (f : SubQueue → SubQueue) : (d.updSq a n f).ss = d.ss := rfl
@[simp] theorem Device.updSq_gates (d : Device) (a n : Nat) (f : SubQueue → SubQueue) : (d.updSq a n f).gates = d.gates := rfl
@[simp] theorem Device.updSq_dselGate (d : Device) (a n : Nat) (f : SubQueue → SubQueue) : (d.updSq a n f).dselGate = d.dselGate := rfl
@[simp] theorem Device.updSq_dselRegion (d : Device) (a n : Nat) (f : SubQueue → SubQueue) : (d.updSq a n f).dselRegion = d.dselRegion := rfl
@[simp] theorem Device.updSq_dselErr (d : Device) (a n : Nat) (f : SubQueue → SubQueue) : (d.updSq a n f).dselErr = d.dselErr := rfl
@[simp] theorem Device.updSq_dselCause (d : Device) (a n : Nat) (f : SubQueue → SubQueue) : (d.updSq a n f).dselCause = d.dselCause := rfl
@[simp] theorem Device.updSq_dstage (d : Device) (a n : Nat) (f : SubQueue → SubQueue) : (d.updSq a n f).dstage = d.dstage := rfl
@[simp] theorem Device.updSq_fl (d : Device) (a n : Nat) (f : SubQueue → SubQueue) : (d.updSq a n f).fl = d.fl := rfl
@[simp] theorem Device.updSq_flt (d : Device) (a n : Nat) (f : SubQueue → SubQueue) : (d.updSq a n f).flt = d.flt := rfl
@[simp] theorem Device.updSq_lev (d : Device) (a n : Nat) (f : SubQueue → SubQueue) : (d.updSq a n f).lev = d.lev := rfl
@[simp] theorem Device.updSq_evr (d : Device) (a n : Nat) (f : SubQueue → SubQueue) : (d.updSq a n f).evr = d.evr := rfl
@[simp] theorem Device.updSq_ws (d : Device) (a n : Nat) (f : SubQueue → SubQueue) : (d.updSq a n f).ws = d.ws := rfl
@[simp] theorem Device.updSq_md (d : Device) (a n : Nat) (f : SubQueue → SubQueue) : (d.updSq a n f).md = d.md := rfl
@[simp] theorem Device.updSq_boot (d : Device) (a n : Nat) (f : SubQueue → SubQueue) : (d.updSq a n f).boot = d.boot := rfl
@[simp] theorem Device.updSq_brd (d : Device) (a n : Nat) (f : SubQueue → SubQueue) : (d.updSq a n f).brd = d.brd := rfl
@[simp] theorem Device.updSq_at_allot (d : Device) (a n : Nat) (f : SubQueue → SubQueue) (i : Nat) : (d.updSq a n f).allot i = d.allot i := rfl
@[simp] theorem Device.updSq_at_cq (d : Device) (a n : Nat) (f : SubQueue → SubQueue) (i j : Nat) : (d.updSq a n f).cq i j = d.cq i j := rfl
@[simp] theorem Device.updSq_at_adm (d : Device) (a n : Nat) (f : SubQueue → SubQueue) (i : Nat) : (d.updSq a n f).adm i = d.adm i := rfl
@[simp] theorem Device.updSq_at_cmd (d : Device) (a n : Nat) (f : SubQueue → SubQueue) (i : Nat) : (d.updSq a n f).cmd i = d.cmd i := rfl
@[simp] theorem Device.updSq_at_ctx (d : Device) (a n : Nat) (f : SubQueue → SubQueue) (i : Nat) : (d.updSq a n f).ctx i = d.ctx i := rfl
@[simp] theorem Device.updSq_at_weir (d : Device) (a n : Nat) (f : SubQueue → SubQueue) (i : Nat) : (d.updSq a n f).weir i = d.weir i := rfl
@[simp] theorem Device.updSq_at_eng (d : Device) (a n : Nat) (f : SubQueue → SubQueue) (i : Nat) : (d.updSq a n f).eng i = d.eng i := rfl
@[simp] theorem Device.updSq_at_lat (d : Device) (a n : Nat) (f : SubQueue → SubQueue) (i : Nat) : (d.updSq a n f).lat i = d.lat i := rfl
@[simp] theorem Device.updSq_at_liu (d : Device) (a n : Nat) (f : SubQueue → SubQueue) (i : Nat) : (d.updSq a n f).liu i = d.liu i := rfl
@[simp] theorem Device.updSq_at_dig (d : Device) (a n : Nat) (f : SubQueue → SubQueue) (i : Nat) : (d.updSq a n f).dig i = d.dig i := rfl
@[simp] theorem Device.updSq_at_gate (d : Device) (a n : Nat) (f : SubQueue → SubQueue) (i : Nat) : (d.updSq a n f).gate i = d.gate i := rfl
@[simp] theorem Device.updSq_at_drbg (d : Device) (a n : Nat) (f : SubQueue → SubQueue) (i : Nat) : (d.updSq a n f).drbg i = d.drbg i := rfl
@[simp] theorem Device.updSq_at_slot (d : Device) (a n : Nat) (f : SubQueue → SubQueue) (i : Nat) : (d.updSq a n f).slot i = d.slot i := rfl
@[simp] theorem Device.updSq_at_unit (d : Device) (a n : Nat) (f : SubQueue → SubQueue) (i j : Nat) : (d.updSq a n f).unit i j = d.unit i j := rfl
@[simp] theorem Device.updSq_at_levSrc (d : Device) (a n : Nat) (f : SubQueue → SubQueue) (i : Nat) : (d.updSq a n f).levSrc i = d.levSrc i := rfl
@[simp] theorem Device.updSq_at_peer (d : Device) (a n : Nat) (f : SubQueue → SubQueue) (i : Nat) : (d.updSq a n f).peer i = d.peer i := rfl
@[simp] theorem Device.updSq_at_reg (d : Device) (a n : Nat) (f : SubQueue → SubQueue) (i : Nat) : (d.updSq a n f).reg i = d.reg i := rfl
@[simp] theorem Device.updSq_at_count (d : Device) (a n : Nat) (f : SubQueue → SubQueue) (i : Nat) : (d.updSq a n f).count i = d.count i := rfl

/-! ### updCq -/

@[simp] theorem Device.updCq_cq_same (d : Device) (a n : Nat) (f : CompQueue → CompQueue) : (d.updCq a n f).cq a n = f (d.cq a n) := by simp [Device.cq, Device.updCq]
@[simp] theorem Device.updCq_part (d : Device) (a n : Nat) (f : CompQueue → CompQueue) : (d.updCq a n f).part = d.part := rfl
@[simp] theorem Device.updCq_time (d : Device) (a n : Nat) (f : CompQueue → CompQueue) : (d.updCq a n f).time = d.time := rfl
@[simp] theorem Device.updCq_second (d : Device) (a n : Nat) (f : CompQueue → CompQueue) : (d.updCq a n f).second = d.second := rfl
@[simp] theorem Device.updCq_free (d : Device) (a n : Nat) (f : CompQueue → CompQueue) : (d.updCq a n f).free = d.free := rfl
@[simp] theorem Device.updCq_out (d : Device) (a n : Nat) (f : CompQueue → CompQueue) : (d.updCq a n f).out = d.out := rfl
@[simp] theorem Device.updCq_regs (d : Device) (a n : Nat) (f : CompQueue → CompQueue) : (d.updCq a n f).regs = d.regs := rfl
@[simp] theorem Device.updCq_cnt (d : Device) (a n : Nat) (f : CompQueue → CompQueue) : (d.updCq a n f).cnt = d.cnt := rfl
@[simp] theorem Device.updCq_allots (d : Device) (a n : Nat) (f : CompQueue → CompQueue) : (d.updCq a n f).allots = d.allots := rfl
@[simp] theorem Device.updCq_sqs (d : Device) (a n : Nat) (f : CompQueue → CompQueue) : (d.updCq a n f).sqs = d.sqs := rfl
@[simp] theorem Device.updCq_cmds (d : Device) (a n : Nat) (f : CompQueue → CompQueue) : (d.updCq a n f).cmds = d.cmds := rfl
@[simp] theorem Device.updCq_order (d : Device) (a n : Nat) (f : CompQueue → CompQueue) : (d.updCq a n f).order = d.order := rfl
@[simp] theorem Device.updCq_nextBatch (d : Device) (a n : Nat) (f : CompQueue → CompQueue) : (d.updCq a n f).nextBatch = d.nextBatch := rfl
@[simp] theorem Device.updCq_routines (d : Device) (a n : Nat) (f : CompQueue → CompQueue) : (d.updCq a n f).routines = d.routines := rfl
@[simp] theorem Device.updCq_oldImages (d : Device) (a n : Nat) (f : CompQueue → CompQueue) : (d.updCq a n f).oldImages = d.oldImages := rfl
@[simp] theorem Device.updCq_ctxs (d : Device) (a n : Nat) (f : CompQueue → CompQueue) : (d.updCq a n f).ctxs = d.ctxs := rfl
@[simp] theorem Device.updCq_cache (d : Device) (a n : Nat) (f : CompQueue → CompQueue) : (d.updCq a n f).cache = d.cache := rfl
@[simp] theorem Device.updCq_cacheDirty (d : Device) (a n : Nat) (f : CompQueue → CompQueue) : (d.updCq a n f).cacheDirty = d.cacheDirty := rfl
@[simp] theorem Device.updCq_weirs (d : Device) (a n : Nat) (f : CompQueue → CompQueue) : (d.updCq a n f).weirs = d.weirs := rfl
@[simp] theorem Device.updCq_rsv (d : Device) (a n : Nat) (f : CompQueue → CompQueue) : (d.updCq a n f).rsv = d.rsv := rfl
@[simp] theorem Device.updCq_engs (d : Device) (a n : Nat) (f : CompQueue → CompQueue) : (d.updCq a n f).engs = d.engs := rfl
@[simp] theorem Device.updCq_lats (d : Device) (a n : Nat) (f : CompQueue → CompQueue) : (d.updCq a n f).lats = d.lats := rfl
@[simp] theorem Device.updCq_saveGen (d : Device) (a n : Nat) (f : CompQueue → CompQueue) : (d.updCq a n f).saveGen = d.saveGen := rfl
@[simp] theorem Device.updCq_lastSweep (d : Device) (a n : Nat) (f : CompQueue → CompQueue) : (d.updCq a n f).lastSweep = d.lastSweep := rfl
@[simp] theorem Device.updCq_lius (d : Device) (a n : Nat) (f : CompQueue → CompQueue) : (d.updCq a n f).lius = d.lius := rfl
@[simp] theorem Device.updCq_liuWait (d : Device) (a n : Nat) (f : CompQueue → CompQueue) : (d.updCq a n f).liuWait = d.liuWait := rfl
@[simp] theorem Device.updCq_liuHigh (d : Device) (a n : Nat) (f : CompQueue → CompQueue) : (d.updCq a n f).liuHigh = d.liuHigh := rfl
@[simp] theorem Device.updCq_digs (d : Device) (a n : Nat) (f : CompQueue → CompQueue) : (d.updCq a n f).digs = d.digs := rfl
@[simp] theorem Device.updCq_digArrive (d : Device) (a n : Nat) (f : CompQueue → CompQueue) : (d.updCq a n f).digArrive = d.digArrive := rfl
@[simp] theorem Device.updCq_digWait (d : Device) (a n : Nat) (f : CompQueue → CompQueue) : (d.updCq a n f).digWait = d.digWait := rfl
@[simp] theorem Device.updCq_digHigh (d : Device) (a n : Nat) (f : CompQueue → CompQueue) : (d.updCq a n f).digHigh = d.digHigh := rfl
@[simp] theorem Device.updCq_digSlotSel (d : Device) (a n : Nat) (f : CompQueue → CompQueue) : (d.updCq a n f).digSlotSel = d.digSlotSel := rfl
@[simp] theorem Device.updCq_whd (d : Device) (a n : Nat) (f : CompQueue → CompQueue) : (d.updCq a n f).whd = d.whd := rfl
@[simp] theorem Device.updCq_cis (d : Device) (a n : Nat) (f : CompQueue → CompQueue) : (d.updCq a n f).cis = d.cis := rfl
@[simp] theorem Device.updCq_ss (d : Device) (a n : Nat) (f : CompQueue → CompQueue) : (d.updCq a n f).ss = d.ss := rfl
@[simp] theorem Device.updCq_gates (d : Device) (a n : Nat) (f : CompQueue → CompQueue) : (d.updCq a n f).gates = d.gates := rfl
@[simp] theorem Device.updCq_dselGate (d : Device) (a n : Nat) (f : CompQueue → CompQueue) : (d.updCq a n f).dselGate = d.dselGate := rfl
@[simp] theorem Device.updCq_dselRegion (d : Device) (a n : Nat) (f : CompQueue → CompQueue) : (d.updCq a n f).dselRegion = d.dselRegion := rfl
@[simp] theorem Device.updCq_dselErr (d : Device) (a n : Nat) (f : CompQueue → CompQueue) : (d.updCq a n f).dselErr = d.dselErr := rfl
@[simp] theorem Device.updCq_dselCause (d : Device) (a n : Nat) (f : CompQueue → CompQueue) : (d.updCq a n f).dselCause = d.dselCause := rfl
@[simp] theorem Device.updCq_dstage (d : Device) (a n : Nat) (f : CompQueue → CompQueue) : (d.updCq a n f).dstage = d.dstage := rfl
@[simp] theorem Device.updCq_fl (d : Device) (a n : Nat) (f : CompQueue → CompQueue) : (d.updCq a n f).fl = d.fl := rfl
@[simp] theorem Device.updCq_flt (d : Device) (a n : Nat) (f : CompQueue → CompQueue) : (d.updCq a n f).flt = d.flt := rfl
@[simp] theorem Device.updCq_lev (d : Device) (a n : Nat) (f : CompQueue → CompQueue) : (d.updCq a n f).lev = d.lev := rfl
@[simp] theorem Device.updCq_evr (d : Device) (a n : Nat) (f : CompQueue → CompQueue) : (d.updCq a n f).evr = d.evr := rfl
@[simp] theorem Device.updCq_ws (d : Device) (a n : Nat) (f : CompQueue → CompQueue) : (d.updCq a n f).ws = d.ws := rfl
@[simp] theorem Device.updCq_md (d : Device) (a n : Nat) (f : CompQueue → CompQueue) : (d.updCq a n f).md = d.md := rfl
@[simp] theorem Device.updCq_boot (d : Device) (a n : Nat) (f : CompQueue → CompQueue) : (d.updCq a n f).boot = d.boot := rfl
@[simp] theorem Device.updCq_brd (d : Device) (a n : Nat) (f : CompQueue → CompQueue) : (d.updCq a n f).brd = d.brd := rfl
@[simp] theorem Device.updCq_at_allot (d : Device) (a n : Nat) (f : CompQueue → CompQueue) (i : Nat) : (d.updCq a n f).allot i = d.allot i := rfl
@[simp] theorem Device.updCq_at_sq (d : Device) (a n : Nat) (f : CompQueue → CompQueue) (i j : Nat) : (d.updCq a n f).sq i j = d.sq i j := rfl
@[simp] theorem Device.updCq_at_adm (d : Device) (a n : Nat) (f : CompQueue → CompQueue) (i : Nat) : (d.updCq a n f).adm i = d.adm i := rfl
@[simp] theorem Device.updCq_at_cmd (d : Device) (a n : Nat) (f : CompQueue → CompQueue) (i : Nat) : (d.updCq a n f).cmd i = d.cmd i := rfl
@[simp] theorem Device.updCq_at_ctx (d : Device) (a n : Nat) (f : CompQueue → CompQueue) (i : Nat) : (d.updCq a n f).ctx i = d.ctx i := rfl
@[simp] theorem Device.updCq_at_weir (d : Device) (a n : Nat) (f : CompQueue → CompQueue) (i : Nat) : (d.updCq a n f).weir i = d.weir i := rfl
@[simp] theorem Device.updCq_at_eng (d : Device) (a n : Nat) (f : CompQueue → CompQueue) (i : Nat) : (d.updCq a n f).eng i = d.eng i := rfl
@[simp] theorem Device.updCq_at_lat (d : Device) (a n : Nat) (f : CompQueue → CompQueue) (i : Nat) : (d.updCq a n f).lat i = d.lat i := rfl
@[simp] theorem Device.updCq_at_liu (d : Device) (a n : Nat) (f : CompQueue → CompQueue) (i : Nat) : (d.updCq a n f).liu i = d.liu i := rfl
@[simp] theorem Device.updCq_at_dig (d : Device) (a n : Nat) (f : CompQueue → CompQueue) (i : Nat) : (d.updCq a n f).dig i = d.dig i := rfl
@[simp] theorem Device.updCq_at_gate (d : Device) (a n : Nat) (f : CompQueue → CompQueue) (i : Nat) : (d.updCq a n f).gate i = d.gate i := rfl
@[simp] theorem Device.updCq_at_drbg (d : Device) (a n : Nat) (f : CompQueue → CompQueue) (i : Nat) : (d.updCq a n f).drbg i = d.drbg i := rfl
@[simp] theorem Device.updCq_at_slot (d : Device) (a n : Nat) (f : CompQueue → CompQueue) (i : Nat) : (d.updCq a n f).slot i = d.slot i := rfl
@[simp] theorem Device.updCq_at_unit (d : Device) (a n : Nat) (f : CompQueue → CompQueue) (i j : Nat) : (d.updCq a n f).unit i j = d.unit i j := rfl
@[simp] theorem Device.updCq_at_levSrc (d : Device) (a n : Nat) (f : CompQueue → CompQueue) (i : Nat) : (d.updCq a n f).levSrc i = d.levSrc i := rfl
@[simp] theorem Device.updCq_at_peer (d : Device) (a n : Nat) (f : CompQueue → CompQueue) (i : Nat) : (d.updCq a n f).peer i = d.peer i := rfl
@[simp] theorem Device.updCq_at_reg (d : Device) (a n : Nat) (f : CompQueue → CompQueue) (i : Nat) : (d.updCq a n f).reg i = d.reg i := rfl
@[simp] theorem Device.updCq_at_count (d : Device) (a n : Nat) (f : CompQueue → CompQueue) (i : Nat) : (d.updCq a n f).count i = d.count i := rfl

/-! ### updAdm -/

@[simp] theorem Device.updAdm_adm_same (d : Device) (a : Nat) (f : AdmQueue → AdmQueue) : (d.updAdm a f).adm a = f (d.adm a) := by simp [Device.adm, Device.updAdm, Device.allot, Device.updAllot]
theorem Device.updAdm_adm_ne (d : Device) (a : Nat) (f : AdmQueue → AdmQueue) {j : Nat} (h : j ≠ a) : (d.updAdm a f).adm j = d.adm j := by simp [Device.adm, Device.updAdm, Device.allot, Device.updAllot, Tbl.get_upd_ne _ _ _ h]
@[simp] theorem Device.updAdm_part (d : Device) (a : Nat) (f : AdmQueue → AdmQueue) : (d.updAdm a f).part = d.part := rfl
@[simp] theorem Device.updAdm_time (d : Device) (a : Nat) (f : AdmQueue → AdmQueue) : (d.updAdm a f).time = d.time := rfl
@[simp] theorem Device.updAdm_second (d : Device) (a : Nat) (f : AdmQueue → AdmQueue) : (d.updAdm a f).second = d.second := rfl
@[simp] theorem Device.updAdm_free (d : Device) (a : Nat) (f : AdmQueue → AdmQueue) : (d.updAdm a f).free = d.free := rfl
@[simp] theorem Device.updAdm_out (d : Device) (a : Nat) (f : AdmQueue → AdmQueue) : (d.updAdm a f).out = d.out := rfl
@[simp] theorem Device.updAdm_regs (d : Device) (a : Nat) (f : AdmQueue → AdmQueue) : (d.updAdm a f).regs = d.regs := rfl
@[simp] theorem Device.updAdm_cnt (d : Device) (a : Nat) (f : AdmQueue → AdmQueue) : (d.updAdm a f).cnt = d.cnt := rfl
@[simp] theorem Device.updAdm_sqs (d : Device) (a : Nat) (f : AdmQueue → AdmQueue) : (d.updAdm a f).sqs = d.sqs := rfl
@[simp] theorem Device.updAdm_cqs (d : Device) (a : Nat) (f : AdmQueue → AdmQueue) : (d.updAdm a f).cqs = d.cqs := rfl
@[simp] theorem Device.updAdm_cmds (d : Device) (a : Nat) (f : AdmQueue → AdmQueue) : (d.updAdm a f).cmds = d.cmds := rfl
@[simp] theorem Device.updAdm_order (d : Device) (a : Nat) (f : AdmQueue → AdmQueue) : (d.updAdm a f).order = d.order := rfl
@[simp] theorem Device.updAdm_nextBatch (d : Device) (a : Nat) (f : AdmQueue → AdmQueue) : (d.updAdm a f).nextBatch = d.nextBatch := rfl
@[simp] theorem Device.updAdm_routines (d : Device) (a : Nat) (f : AdmQueue → AdmQueue) : (d.updAdm a f).routines = d.routines := rfl
@[simp] theorem Device.updAdm_oldImages (d : Device) (a : Nat) (f : AdmQueue → AdmQueue) : (d.updAdm a f).oldImages = d.oldImages := rfl
@[simp] theorem Device.updAdm_ctxs (d : Device) (a : Nat) (f : AdmQueue → AdmQueue) : (d.updAdm a f).ctxs = d.ctxs := rfl
@[simp] theorem Device.updAdm_cache (d : Device) (a : Nat) (f : AdmQueue → AdmQueue) : (d.updAdm a f).cache = d.cache := rfl
@[simp] theorem Device.updAdm_cacheDirty (d : Device) (a : Nat) (f : AdmQueue → AdmQueue) : (d.updAdm a f).cacheDirty = d.cacheDirty := rfl
@[simp] theorem Device.updAdm_weirs (d : Device) (a : Nat) (f : AdmQueue → AdmQueue) : (d.updAdm a f).weirs = d.weirs := rfl
@[simp] theorem Device.updAdm_rsv (d : Device) (a : Nat) (f : AdmQueue → AdmQueue) : (d.updAdm a f).rsv = d.rsv := rfl
@[simp] theorem Device.updAdm_engs (d : Device) (a : Nat) (f : AdmQueue → AdmQueue) : (d.updAdm a f).engs = d.engs := rfl
@[simp] theorem Device.updAdm_lats (d : Device) (a : Nat) (f : AdmQueue → AdmQueue) : (d.updAdm a f).lats = d.lats := rfl
@[simp] theorem Device.updAdm_saveGen (d : Device) (a : Nat) (f : AdmQueue → AdmQueue) : (d.updAdm a f).saveGen = d.saveGen := rfl
@[simp] theorem Device.updAdm_lastSweep (d : Device) (a : Nat) (f : AdmQueue → AdmQueue) : (d.updAdm a f).lastSweep = d.lastSweep := rfl
@[simp] theorem Device.updAdm_lius (d : Device) (a : Nat) (f : AdmQueue → AdmQueue) : (d.updAdm a f).lius = d.lius := rfl
@[simp] theorem Device.updAdm_liuWait (d : Device) (a : Nat) (f : AdmQueue → AdmQueue) : (d.updAdm a f).liuWait = d.liuWait := rfl
@[simp] theorem Device.updAdm_liuHigh (d : Device) (a : Nat) (f : AdmQueue → AdmQueue) : (d.updAdm a f).liuHigh = d.liuHigh := rfl
@[simp] theorem Device.updAdm_digs (d : Device) (a : Nat) (f : AdmQueue → AdmQueue) : (d.updAdm a f).digs = d.digs := rfl
@[simp] theorem Device.updAdm_digArrive (d : Device) (a : Nat) (f : AdmQueue → AdmQueue) : (d.updAdm a f).digArrive = d.digArrive := rfl
@[simp] theorem Device.updAdm_digWait (d : Device) (a : Nat) (f : AdmQueue → AdmQueue) : (d.updAdm a f).digWait = d.digWait := rfl
@[simp] theorem Device.updAdm_digHigh (d : Device) (a : Nat) (f : AdmQueue → AdmQueue) : (d.updAdm a f).digHigh = d.digHigh := rfl
@[simp] theorem Device.updAdm_digSlotSel (d : Device) (a : Nat) (f : AdmQueue → AdmQueue) : (d.updAdm a f).digSlotSel = d.digSlotSel := rfl
@[simp] theorem Device.updAdm_whd (d : Device) (a : Nat) (f : AdmQueue → AdmQueue) : (d.updAdm a f).whd = d.whd := rfl
@[simp] theorem Device.updAdm_cis (d : Device) (a : Nat) (f : AdmQueue → AdmQueue) : (d.updAdm a f).cis = d.cis := rfl
@[simp] theorem Device.updAdm_ss (d : Device) (a : Nat) (f : AdmQueue → AdmQueue) : (d.updAdm a f).ss = d.ss := rfl
@[simp] theorem Device.updAdm_gates (d : Device) (a : Nat) (f : AdmQueue → AdmQueue) : (d.updAdm a f).gates = d.gates := rfl
@[simp] theorem Device.updAdm_dselGate (d : Device) (a : Nat) (f : AdmQueue → AdmQueue) : (d.updAdm a f).dselGate = d.dselGate := rfl
@[simp] theorem Device.updAdm_dselRegion (d : Device) (a : Nat) (f : AdmQueue → AdmQueue) : (d.updAdm a f).dselRegion = d.dselRegion := rfl
@[simp] theorem Device.updAdm_dselErr (d : Device) (a : Nat) (f : AdmQueue → AdmQueue) : (d.updAdm a f).dselErr = d.dselErr := rfl
@[simp] theorem Device.updAdm_dselCause (d : Device) (a : Nat) (f : AdmQueue → AdmQueue) : (d.updAdm a f).dselCause = d.dselCause := rfl
@[simp] theorem Device.updAdm_dstage (d : Device) (a : Nat) (f : AdmQueue → AdmQueue) : (d.updAdm a f).dstage = d.dstage := rfl
@[simp] theorem Device.updAdm_fl (d : Device) (a : Nat) (f : AdmQueue → AdmQueue) : (d.updAdm a f).fl = d.fl := rfl
@[simp] theorem Device.updAdm_flt (d : Device) (a : Nat) (f : AdmQueue → AdmQueue) : (d.updAdm a f).flt = d.flt := rfl
@[simp] theorem Device.updAdm_lev (d : Device) (a : Nat) (f : AdmQueue → AdmQueue) : (d.updAdm a f).lev = d.lev := rfl
@[simp] theorem Device.updAdm_evr (d : Device) (a : Nat) (f : AdmQueue → AdmQueue) : (d.updAdm a f).evr = d.evr := rfl
@[simp] theorem Device.updAdm_ws (d : Device) (a : Nat) (f : AdmQueue → AdmQueue) : (d.updAdm a f).ws = d.ws := rfl
@[simp] theorem Device.updAdm_md (d : Device) (a : Nat) (f : AdmQueue → AdmQueue) : (d.updAdm a f).md = d.md := rfl
@[simp] theorem Device.updAdm_boot (d : Device) (a : Nat) (f : AdmQueue → AdmQueue) : (d.updAdm a f).boot = d.boot := rfl
@[simp] theorem Device.updAdm_brd (d : Device) (a : Nat) (f : AdmQueue → AdmQueue) : (d.updAdm a f).brd = d.brd := rfl
@[simp] theorem Device.updAdm_at_sq (d : Device) (a : Nat) (f : AdmQueue → AdmQueue) (i j : Nat) : (d.updAdm a f).sq i j = d.sq i j := rfl
@[simp] theorem Device.updAdm_at_cq (d : Device) (a : Nat) (f : AdmQueue → AdmQueue) (i j : Nat) : (d.updAdm a f).cq i j = d.cq i j := rfl
@[simp] theorem Device.updAdm_at_cmd (d : Device) (a : Nat) (f : AdmQueue → AdmQueue) (i : Nat) : (d.updAdm a f).cmd i = d.cmd i := rfl
@[simp] theorem Device.updAdm_at_ctx (d : Device) (a : Nat) (f : AdmQueue → AdmQueue) (i : Nat) : (d.updAdm a f).ctx i = d.ctx i := rfl
@[simp] theorem Device.updAdm_at_weir (d : Device) (a : Nat) (f : AdmQueue → AdmQueue) (i : Nat) : (d.updAdm a f).weir i = d.weir i := rfl
@[simp] theorem Device.updAdm_at_eng (d : Device) (a : Nat) (f : AdmQueue → AdmQueue) (i : Nat) : (d.updAdm a f).eng i = d.eng i := rfl
@[simp] theorem Device.updAdm_at_lat (d : Device) (a : Nat) (f : AdmQueue → AdmQueue) (i : Nat) : (d.updAdm a f).lat i = d.lat i := rfl
@[simp] theorem Device.updAdm_at_liu (d : Device) (a : Nat) (f : AdmQueue → AdmQueue) (i : Nat) : (d.updAdm a f).liu i = d.liu i := rfl
@[simp] theorem Device.updAdm_at_dig (d : Device) (a : Nat) (f : AdmQueue → AdmQueue) (i : Nat) : (d.updAdm a f).dig i = d.dig i := rfl
@[simp] theorem Device.updAdm_at_gate (d : Device) (a : Nat) (f : AdmQueue → AdmQueue) (i : Nat) : (d.updAdm a f).gate i = d.gate i := rfl
@[simp] theorem Device.updAdm_at_drbg (d : Device) (a : Nat) (f : AdmQueue → AdmQueue) (i : Nat) : (d.updAdm a f).drbg i = d.drbg i := rfl
@[simp] theorem Device.updAdm_at_slot (d : Device) (a : Nat) (f : AdmQueue → AdmQueue) (i : Nat) : (d.updAdm a f).slot i = d.slot i := rfl
@[simp] theorem Device.updAdm_at_unit (d : Device) (a : Nat) (f : AdmQueue → AdmQueue) (i j : Nat) : (d.updAdm a f).unit i j = d.unit i j := rfl
@[simp] theorem Device.updAdm_at_levSrc (d : Device) (a : Nat) (f : AdmQueue → AdmQueue) (i : Nat) : (d.updAdm a f).levSrc i = d.levSrc i := rfl
@[simp] theorem Device.updAdm_at_peer (d : Device) (a : Nat) (f : AdmQueue → AdmQueue) (i : Nat) : (d.updAdm a f).peer i = d.peer i := rfl
@[simp] theorem Device.updAdm_at_reg (d : Device) (a : Nat) (f : AdmQueue → AdmQueue) (i : Nat) : (d.updAdm a f).reg i = d.reg i := rfl
@[simp] theorem Device.updAdm_at_count (d : Device) (a : Nat) (f : AdmQueue → AdmQueue) (i : Nat) : (d.updAdm a f).count i = d.count i := rfl

/-! ### updNtc -/

@[simp] theorem Device.updNtc_part (d : Device) (a : Nat) (f : NoticeRing → NoticeRing) : (d.updNtc a f).part = d.part := rfl
@[simp] theorem Device.updNtc_time (d : Device) (a : Nat) (f : NoticeRing → NoticeRing) : (d.updNtc a f).time = d.time := rfl
@[simp] theorem Device.updNtc_second (d : Device) (a : Nat) (f : NoticeRing → NoticeRing) : (d.updNtc a f).second = d.second := rfl
@[simp] theorem Device.updNtc_free (d : Device) (a : Nat) (f : NoticeRing → NoticeRing) : (d.updNtc a f).free = d.free := rfl
@[simp] theorem Device.updNtc_out (d : Device) (a : Nat) (f : NoticeRing → NoticeRing) : (d.updNtc a f).out = d.out := rfl
@[simp] theorem Device.updNtc_regs (d : Device) (a : Nat) (f : NoticeRing → NoticeRing) : (d.updNtc a f).regs = d.regs := rfl
@[simp] theorem Device.updNtc_cnt (d : Device) (a : Nat) (f : NoticeRing → NoticeRing) : (d.updNtc a f).cnt = d.cnt := rfl
@[simp] theorem Device.updNtc_sqs (d : Device) (a : Nat) (f : NoticeRing → NoticeRing) : (d.updNtc a f).sqs = d.sqs := rfl
@[simp] theorem Device.updNtc_cqs (d : Device) (a : Nat) (f : NoticeRing → NoticeRing) : (d.updNtc a f).cqs = d.cqs := rfl
@[simp] theorem Device.updNtc_cmds (d : Device) (a : Nat) (f : NoticeRing → NoticeRing) : (d.updNtc a f).cmds = d.cmds := rfl
@[simp] theorem Device.updNtc_order (d : Device) (a : Nat) (f : NoticeRing → NoticeRing) : (d.updNtc a f).order = d.order := rfl
@[simp] theorem Device.updNtc_nextBatch (d : Device) (a : Nat) (f : NoticeRing → NoticeRing) : (d.updNtc a f).nextBatch = d.nextBatch := rfl
@[simp] theorem Device.updNtc_routines (d : Device) (a : Nat) (f : NoticeRing → NoticeRing) : (d.updNtc a f).routines = d.routines := rfl
@[simp] theorem Device.updNtc_oldImages (d : Device) (a : Nat) (f : NoticeRing → NoticeRing) : (d.updNtc a f).oldImages = d.oldImages := rfl
@[simp] theorem Device.updNtc_ctxs (d : Device) (a : Nat) (f : NoticeRing → NoticeRing) : (d.updNtc a f).ctxs = d.ctxs := rfl
@[simp] theorem Device.updNtc_cache (d : Device) (a : Nat) (f : NoticeRing → NoticeRing) : (d.updNtc a f).cache = d.cache := rfl
@[simp] theorem Device.updNtc_cacheDirty (d : Device) (a : Nat) (f : NoticeRing → NoticeRing) : (d.updNtc a f).cacheDirty = d.cacheDirty := rfl
@[simp] theorem Device.updNtc_weirs (d : Device) (a : Nat) (f : NoticeRing → NoticeRing) : (d.updNtc a f).weirs = d.weirs := rfl
@[simp] theorem Device.updNtc_rsv (d : Device) (a : Nat) (f : NoticeRing → NoticeRing) : (d.updNtc a f).rsv = d.rsv := rfl
@[simp] theorem Device.updNtc_engs (d : Device) (a : Nat) (f : NoticeRing → NoticeRing) : (d.updNtc a f).engs = d.engs := rfl
@[simp] theorem Device.updNtc_lats (d : Device) (a : Nat) (f : NoticeRing → NoticeRing) : (d.updNtc a f).lats = d.lats := rfl
@[simp] theorem Device.updNtc_saveGen (d : Device) (a : Nat) (f : NoticeRing → NoticeRing) : (d.updNtc a f).saveGen = d.saveGen := rfl
@[simp] theorem Device.updNtc_lastSweep (d : Device) (a : Nat) (f : NoticeRing → NoticeRing) : (d.updNtc a f).lastSweep = d.lastSweep := rfl
@[simp] theorem Device.updNtc_lius (d : Device) (a : Nat) (f : NoticeRing → NoticeRing) : (d.updNtc a f).lius = d.lius := rfl
@[simp] theorem Device.updNtc_liuWait (d : Device) (a : Nat) (f : NoticeRing → NoticeRing) : (d.updNtc a f).liuWait = d.liuWait := rfl
@[simp] theorem Device.updNtc_liuHigh (d : Device) (a : Nat) (f : NoticeRing → NoticeRing) : (d.updNtc a f).liuHigh = d.liuHigh := rfl
@[simp] theorem Device.updNtc_digs (d : Device) (a : Nat) (f : NoticeRing → NoticeRing) : (d.updNtc a f).digs = d.digs := rfl
@[simp] theorem Device.updNtc_digArrive (d : Device) (a : Nat) (f : NoticeRing → NoticeRing) : (d.updNtc a f).digArrive = d.digArrive := rfl
@[simp] theorem Device.updNtc_digWait (d : Device) (a : Nat) (f : NoticeRing → NoticeRing) : (d.updNtc a f).digWait = d.digWait := rfl
@[simp] theorem Device.updNtc_digHigh (d : Device) (a : Nat) (f : NoticeRing → NoticeRing) : (d.updNtc a f).digHigh = d.digHigh := rfl
@[simp] theorem Device.updNtc_digSlotSel (d : Device) (a : Nat) (f : NoticeRing → NoticeRing) : (d.updNtc a f).digSlotSel = d.digSlotSel := rfl
@[simp] theorem Device.updNtc_whd (d : Device) (a : Nat) (f : NoticeRing → NoticeRing) : (d.updNtc a f).whd = d.whd := rfl
@[simp] theorem Device.updNtc_cis (d : Device) (a : Nat) (f : NoticeRing → NoticeRing) : (d.updNtc a f).cis = d.cis := rfl
@[simp] theorem Device.updNtc_ss (d : Device) (a : Nat) (f : NoticeRing → NoticeRing) : (d.updNtc a f).ss = d.ss := rfl
@[simp] theorem Device.updNtc_gates (d : Device) (a : Nat) (f : NoticeRing → NoticeRing) : (d.updNtc a f).gates = d.gates := rfl
@[simp] theorem Device.updNtc_dselGate (d : Device) (a : Nat) (f : NoticeRing → NoticeRing) : (d.updNtc a f).dselGate = d.dselGate := rfl
@[simp] theorem Device.updNtc_dselRegion (d : Device) (a : Nat) (f : NoticeRing → NoticeRing) : (d.updNtc a f).dselRegion = d.dselRegion := rfl
@[simp] theorem Device.updNtc_dselErr (d : Device) (a : Nat) (f : NoticeRing → NoticeRing) : (d.updNtc a f).dselErr = d.dselErr := rfl
@[simp] theorem Device.updNtc_dselCause (d : Device) (a : Nat) (f : NoticeRing → NoticeRing) : (d.updNtc a f).dselCause = d.dselCause := rfl
@[simp] theorem Device.updNtc_dstage (d : Device) (a : Nat) (f : NoticeRing → NoticeRing) : (d.updNtc a f).dstage = d.dstage := rfl
@[simp] theorem Device.updNtc_fl (d : Device) (a : Nat) (f : NoticeRing → NoticeRing) : (d.updNtc a f).fl = d.fl := rfl
@[simp] theorem Device.updNtc_flt (d : Device) (a : Nat) (f : NoticeRing → NoticeRing) : (d.updNtc a f).flt = d.flt := rfl
@[simp] theorem Device.updNtc_lev (d : Device) (a : Nat) (f : NoticeRing → NoticeRing) : (d.updNtc a f).lev = d.lev := rfl
@[simp] theorem Device.updNtc_evr (d : Device) (a : Nat) (f : NoticeRing → NoticeRing) : (d.updNtc a f).evr = d.evr := rfl
@[simp] theorem Device.updNtc_ws (d : Device) (a : Nat) (f : NoticeRing → NoticeRing) : (d.updNtc a f).ws = d.ws := rfl
@[simp] theorem Device.updNtc_md (d : Device) (a : Nat) (f : NoticeRing → NoticeRing) : (d.updNtc a f).md = d.md := rfl
@[simp] theorem Device.updNtc_boot (d : Device) (a : Nat) (f : NoticeRing → NoticeRing) : (d.updNtc a f).boot = d.boot := rfl
@[simp] theorem Device.updNtc_brd (d : Device) (a : Nat) (f : NoticeRing → NoticeRing) : (d.updNtc a f).brd = d.brd := rfl
@[simp] theorem Device.updNtc_at_sq (d : Device) (a : Nat) (f : NoticeRing → NoticeRing) (i j : Nat) : (d.updNtc a f).sq i j = d.sq i j := rfl
@[simp] theorem Device.updNtc_at_cq (d : Device) (a : Nat) (f : NoticeRing → NoticeRing) (i j : Nat) : (d.updNtc a f).cq i j = d.cq i j := rfl
@[simp] theorem Device.updNtc_at_cmd (d : Device) (a : Nat) (f : NoticeRing → NoticeRing) (i : Nat) : (d.updNtc a f).cmd i = d.cmd i := rfl
@[simp] theorem Device.updNtc_at_ctx (d : Device) (a : Nat) (f : NoticeRing → NoticeRing) (i : Nat) : (d.updNtc a f).ctx i = d.ctx i := rfl
@[simp] theorem Device.updNtc_at_weir (d : Device) (a : Nat) (f : NoticeRing → NoticeRing) (i : Nat) : (d.updNtc a f).weir i = d.weir i := rfl
@[simp] theorem Device.updNtc_at_eng (d : Device) (a : Nat) (f : NoticeRing → NoticeRing) (i : Nat) : (d.updNtc a f).eng i = d.eng i := rfl
@[simp] theorem Device.updNtc_at_lat (d : Device) (a : Nat) (f : NoticeRing → NoticeRing) (i : Nat) : (d.updNtc a f).lat i = d.lat i := rfl
@[simp] theorem Device.updNtc_at_liu (d : Device) (a : Nat) (f : NoticeRing → NoticeRing) (i : Nat) : (d.updNtc a f).liu i = d.liu i := rfl
@[simp] theorem Device.updNtc_at_dig (d : Device) (a : Nat) (f : NoticeRing → NoticeRing) (i : Nat) : (d.updNtc a f).dig i = d.dig i := rfl
@[simp] theorem Device.updNtc_at_gate (d : Device) (a : Nat) (f : NoticeRing → NoticeRing) (i : Nat) : (d.updNtc a f).gate i = d.gate i := rfl
@[simp] theorem Device.updNtc_at_drbg (d : Device) (a : Nat) (f : NoticeRing → NoticeRing) (i : Nat) : (d.updNtc a f).drbg i = d.drbg i := rfl
@[simp] theorem Device.updNtc_at_slot (d : Device) (a : Nat) (f : NoticeRing → NoticeRing) (i : Nat) : (d.updNtc a f).slot i = d.slot i := rfl
@[simp] theorem Device.updNtc_at_unit (d : Device) (a : Nat) (f : NoticeRing → NoticeRing) (i j : Nat) : (d.updNtc a f).unit i j = d.unit i j := rfl
@[simp] theorem Device.updNtc_at_levSrc (d : Device) (a : Nat) (f : NoticeRing → NoticeRing) (i : Nat) : (d.updNtc a f).levSrc i = d.levSrc i := rfl
@[simp] theorem Device.updNtc_at_peer (d : Device) (a : Nat) (f : NoticeRing → NoticeRing) (i : Nat) : (d.updNtc a f).peer i = d.peer i := rfl
@[simp] theorem Device.updNtc_at_reg (d : Device) (a : Nat) (f : NoticeRing → NoticeRing) (i : Nat) : (d.updNtc a f).reg i = d.reg i := rfl
@[simp] theorem Device.updNtc_at_count (d : Device) (a : Nat) (f : NoticeRing → NoticeRing) (i : Nat) : (d.updNtc a f).count i = d.count i := rfl

/-! ### updCmd -/

@[simp] theorem Device.updCmd_cmd_same (d : Device) (k : Nat) (f : Cmd → Cmd) : (d.updCmd k f).cmd k = (d.cmd k).map f := by
  simp [Device.cmd, Device.updCmd]
theorem Device.updCmd_cmd_ne (d : Device) (k : Nat) (f : Cmd → Cmd) {j : Nat} (h : j ≠ k) : (d.updCmd k f).cmd j = d.cmd j :=
  Tbl.find_modify_ne _ _ h
@[simp] theorem Device.updCmd_part (d : Device) (k : Nat) (f : Cmd → Cmd) : (d.updCmd k f).part = d.part := rfl
@[simp] theorem Device.updCmd_time (d : Device) (k : Nat) (f : Cmd → Cmd) : (d.updCmd k f).time = d.time := rfl
@[simp] theorem Device.updCmd_second (d : Device) (k : Nat) (f : Cmd → Cmd) : (d.updCmd k f).second = d.second := rfl
@[simp] theorem Device.updCmd_free (d : Device) (k : Nat) (f : Cmd → Cmd) : (d.updCmd k f).free = d.free := rfl
@[simp] theorem Device.updCmd_out (d : Device) (k : Nat) (f : Cmd → Cmd) : (d.updCmd k f).out = d.out := rfl
@[simp] theorem Device.updCmd_regs (d : Device) (k : Nat) (f : Cmd → Cmd) : (d.updCmd k f).regs = d.regs := rfl
@[simp] theorem Device.updCmd_cnt (d : Device) (k : Nat) (f : Cmd → Cmd) : (d.updCmd k f).cnt = d.cnt := rfl
@[simp] theorem Device.updCmd_allots (d : Device) (k : Nat) (f : Cmd → Cmd) : (d.updCmd k f).allots = d.allots := rfl
@[simp] theorem Device.updCmd_sqs (d : Device) (k : Nat) (f : Cmd → Cmd) : (d.updCmd k f).sqs = d.sqs := rfl
@[simp] theorem Device.updCmd_cqs (d : Device) (k : Nat) (f : Cmd → Cmd) : (d.updCmd k f).cqs = d.cqs := rfl
@[simp] theorem Device.updCmd_order (d : Device) (k : Nat) (f : Cmd → Cmd) : (d.updCmd k f).order = d.order := rfl
@[simp] theorem Device.updCmd_nextBatch (d : Device) (k : Nat) (f : Cmd → Cmd) : (d.updCmd k f).nextBatch = d.nextBatch := rfl
@[simp] theorem Device.updCmd_routines (d : Device) (k : Nat) (f : Cmd → Cmd) : (d.updCmd k f).routines = d.routines := rfl
@[simp] theorem Device.updCmd_oldImages (d : Device) (k : Nat) (f : Cmd → Cmd) : (d.updCmd k f).oldImages = d.oldImages := rfl
@[simp] theorem Device.updCmd_ctxs (d : Device) (k : Nat) (f : Cmd → Cmd) : (d.updCmd k f).ctxs = d.ctxs := rfl
@[simp] theorem Device.updCmd_cache (d : Device) (k : Nat) (f : Cmd → Cmd) : (d.updCmd k f).cache = d.cache := rfl
@[simp] theorem Device.updCmd_cacheDirty (d : Device) (k : Nat) (f : Cmd → Cmd) : (d.updCmd k f).cacheDirty = d.cacheDirty := rfl
@[simp] theorem Device.updCmd_weirs (d : Device) (k : Nat) (f : Cmd → Cmd) : (d.updCmd k f).weirs = d.weirs := rfl
@[simp] theorem Device.updCmd_rsv (d : Device) (k : Nat) (f : Cmd → Cmd) : (d.updCmd k f).rsv = d.rsv := rfl
@[simp] theorem Device.updCmd_engs (d : Device) (k : Nat) (f : Cmd → Cmd) : (d.updCmd k f).engs = d.engs := rfl
@[simp] theorem Device.updCmd_lats (d : Device) (k : Nat) (f : Cmd → Cmd) : (d.updCmd k f).lats = d.lats := rfl
@[simp] theorem Device.updCmd_saveGen (d : Device) (k : Nat) (f : Cmd → Cmd) : (d.updCmd k f).saveGen = d.saveGen := rfl
@[simp] theorem Device.updCmd_lastSweep (d : Device) (k : Nat) (f : Cmd → Cmd) : (d.updCmd k f).lastSweep = d.lastSweep := rfl
@[simp] theorem Device.updCmd_lius (d : Device) (k : Nat) (f : Cmd → Cmd) : (d.updCmd k f).lius = d.lius := rfl
@[simp] theorem Device.updCmd_liuWait (d : Device) (k : Nat) (f : Cmd → Cmd) : (d.updCmd k f).liuWait = d.liuWait := rfl
@[simp] theorem Device.updCmd_liuHigh (d : Device) (k : Nat) (f : Cmd → Cmd) : (d.updCmd k f).liuHigh = d.liuHigh := rfl
@[simp] theorem Device.updCmd_digs (d : Device) (k : Nat) (f : Cmd → Cmd) : (d.updCmd k f).digs = d.digs := rfl
@[simp] theorem Device.updCmd_digArrive (d : Device) (k : Nat) (f : Cmd → Cmd) : (d.updCmd k f).digArrive = d.digArrive := rfl
@[simp] theorem Device.updCmd_digWait (d : Device) (k : Nat) (f : Cmd → Cmd) : (d.updCmd k f).digWait = d.digWait := rfl
@[simp] theorem Device.updCmd_digHigh (d : Device) (k : Nat) (f : Cmd → Cmd) : (d.updCmd k f).digHigh = d.digHigh := rfl
@[simp] theorem Device.updCmd_digSlotSel (d : Device) (k : Nat) (f : Cmd → Cmd) : (d.updCmd k f).digSlotSel = d.digSlotSel := rfl
@[simp] theorem Device.updCmd_whd (d : Device) (k : Nat) (f : Cmd → Cmd) : (d.updCmd k f).whd = d.whd := rfl
@[simp] theorem Device.updCmd_cis (d : Device) (k : Nat) (f : Cmd → Cmd) : (d.updCmd k f).cis = d.cis := rfl
@[simp] theorem Device.updCmd_ss (d : Device) (k : Nat) (f : Cmd → Cmd) : (d.updCmd k f).ss = d.ss := rfl
@[simp] theorem Device.updCmd_gates (d : Device) (k : Nat) (f : Cmd → Cmd) : (d.updCmd k f).gates = d.gates := rfl
@[simp] theorem Device.updCmd_dselGate (d : Device) (k : Nat) (f : Cmd → Cmd) : (d.updCmd k f).dselGate = d.dselGate := rfl
@[simp] theorem Device.updCmd_dselRegion (d : Device) (k : Nat) (f : Cmd → Cmd) : (d.updCmd k f).dselRegion = d.dselRegion := rfl
@[simp] theorem Device.updCmd_dselErr (d : Device) (k : Nat) (f : Cmd → Cmd) : (d.updCmd k f).dselErr = d.dselErr := rfl
@[simp] theorem Device.updCmd_dselCause (d : Device) (k : Nat) (f : Cmd → Cmd) : (d.updCmd k f).dselCause = d.dselCause := rfl
@[simp] theorem Device.updCmd_dstage (d : Device) (k : Nat) (f : Cmd → Cmd) : (d.updCmd k f).dstage = d.dstage := rfl
@[simp] theorem Device.updCmd_fl (d : Device) (k : Nat) (f : Cmd → Cmd) : (d.updCmd k f).fl = d.fl := rfl
@[simp] theorem Device.updCmd_flt (d : Device) (k : Nat) (f : Cmd → Cmd) : (d.updCmd k f).flt = d.flt := rfl
@[simp] theorem Device.updCmd_lev (d : Device) (k : Nat) (f : Cmd → Cmd) : (d.updCmd k f).lev = d.lev := rfl
@[simp] theorem Device.updCmd_evr (d : Device) (k : Nat) (f : Cmd → Cmd) : (d.updCmd k f).evr = d.evr := rfl
@[simp] theorem Device.updCmd_ws (d : Device) (k : Nat) (f : Cmd → Cmd) : (d.updCmd k f).ws = d.ws := rfl
@[simp] theorem Device.updCmd_md (d : Device) (k : Nat) (f : Cmd → Cmd) : (d.updCmd k f).md = d.md := rfl
@[simp] theorem Device.updCmd_boot (d : Device) (k : Nat) (f : Cmd → Cmd) : (d.updCmd k f).boot = d.boot := rfl
@[simp] theorem Device.updCmd_brd (d : Device) (k : Nat) (f : Cmd → Cmd) : (d.updCmd k f).brd = d.brd := rfl
@[simp] theorem Device.updCmd_at_allot (d : Device) (k : Nat) (f : Cmd → Cmd) (i : Nat) : (d.updCmd k f).allot i = d.allot i := rfl
@[simp] theorem Device.updCmd_at_sq (d : Device) (k : Nat) (f : Cmd → Cmd) (i j : Nat) : (d.updCmd k f).sq i j = d.sq i j := rfl
@[simp] theorem Device.updCmd_at_cq (d : Device) (k : Nat) (f : Cmd → Cmd) (i j : Nat) : (d.updCmd k f).cq i j = d.cq i j := rfl
@[simp] theorem Device.updCmd_at_adm (d : Device) (k : Nat) (f : Cmd → Cmd) (i : Nat) : (d.updCmd k f).adm i = d.adm i := rfl
@[simp] theorem Device.updCmd_at_ctx (d : Device) (k : Nat) (f : Cmd → Cmd) (i : Nat) : (d.updCmd k f).ctx i = d.ctx i := rfl
@[simp] theorem Device.updCmd_at_weir (d : Device) (k : Nat) (f : Cmd → Cmd) (i : Nat) : (d.updCmd k f).weir i = d.weir i := rfl
@[simp] theorem Device.updCmd_at_eng (d : Device) (k : Nat) (f : Cmd → Cmd) (i : Nat) : (d.updCmd k f).eng i = d.eng i := rfl
@[simp] theorem Device.updCmd_at_lat (d : Device) (k : Nat) (f : Cmd → Cmd) (i : Nat) : (d.updCmd k f).lat i = d.lat i := rfl
@[simp] theorem Device.updCmd_at_liu (d : Device) (k : Nat) (f : Cmd → Cmd) (i : Nat) : (d.updCmd k f).liu i = d.liu i := rfl
@[simp] theorem Device.updCmd_at_dig (d : Device) (k : Nat) (f : Cmd → Cmd) (i : Nat) : (d.updCmd k f).dig i = d.dig i := rfl
@[simp] theorem Device.updCmd_at_gate (d : Device) (k : Nat) (f : Cmd → Cmd) (i : Nat) : (d.updCmd k f).gate i = d.gate i := rfl
@[simp] theorem Device.updCmd_at_drbg (d : Device) (k : Nat) (f : Cmd → Cmd) (i : Nat) : (d.updCmd k f).drbg i = d.drbg i := rfl
@[simp] theorem Device.updCmd_at_slot (d : Device) (k : Nat) (f : Cmd → Cmd) (i : Nat) : (d.updCmd k f).slot i = d.slot i := rfl
@[simp] theorem Device.updCmd_at_unit (d : Device) (k : Nat) (f : Cmd → Cmd) (i j : Nat) : (d.updCmd k f).unit i j = d.unit i j := rfl
@[simp] theorem Device.updCmd_at_levSrc (d : Device) (k : Nat) (f : Cmd → Cmd) (i : Nat) : (d.updCmd k f).levSrc i = d.levSrc i := rfl
@[simp] theorem Device.updCmd_at_peer (d : Device) (k : Nat) (f : Cmd → Cmd) (i : Nat) : (d.updCmd k f).peer i = d.peer i := rfl
@[simp] theorem Device.updCmd_at_reg (d : Device) (k : Nat) (f : Cmd → Cmd) (i : Nat) : (d.updCmd k f).reg i = d.reg i := rfl
@[simp] theorem Device.updCmd_at_count (d : Device) (k : Nat) (f : Cmd → Cmd) (i : Nat) : (d.updCmd k f).count i = d.count i := rfl

/-! ### updCtx -/

@[simp] theorem Device.updCtx_ctx_same (d : Device) (n : Nat) (f : Ctx → Ctx) : (d.updCtx n f).ctx n = f (d.ctx n) := by simp [Device.ctx, Device.updCtx]
theorem Device.updCtx_ctx_ne (d : Device) (n : Nat) (f : Ctx → Ctx) {j : Nat} (h : j ≠ n) : (d.updCtx n f).ctx j = d.ctx j := by simp [Device.ctx, Device.updCtx, Tbl.get_upd_ne _ _ _ h]
@[simp] theorem Device.updCtx_part (d : Device) (n : Nat) (f : Ctx → Ctx) : (d.updCtx n f).part = d.part := rfl
@[simp] theorem Device.updCtx_time (d : Device) (n : Nat) (f : Ctx → Ctx) : (d.updCtx n f).time = d.time := rfl
@[simp] theorem Device.updCtx_second (d : Device) (n : Nat) (f : Ctx → Ctx) : (d.updCtx n f).second = d.second := rfl
@[simp] theorem Device.updCtx_free (d : Device) (n : Nat) (f : Ctx → Ctx) : (d.updCtx n f).free = d.free := rfl
@[simp] theorem Device.updCtx_out (d : Device) (n : Nat) (f : Ctx → Ctx) : (d.updCtx n f).out = d.out := rfl
@[simp] theorem Device.updCtx_regs (d : Device) (n : Nat) (f : Ctx → Ctx) : (d.updCtx n f).regs = d.regs := rfl
@[simp] theorem Device.updCtx_cnt (d : Device) (n : Nat) (f : Ctx → Ctx) : (d.updCtx n f).cnt = d.cnt := rfl
@[simp] theorem Device.updCtx_allots (d : Device) (n : Nat) (f : Ctx → Ctx) : (d.updCtx n f).allots = d.allots := rfl
@[simp] theorem Device.updCtx_sqs (d : Device) (n : Nat) (f : Ctx → Ctx) : (d.updCtx n f).sqs = d.sqs := rfl
@[simp] theorem Device.updCtx_cqs (d : Device) (n : Nat) (f : Ctx → Ctx) : (d.updCtx n f).cqs = d.cqs := rfl
@[simp] theorem Device.updCtx_cmds (d : Device) (n : Nat) (f : Ctx → Ctx) : (d.updCtx n f).cmds = d.cmds := rfl
@[simp] theorem Device.updCtx_order (d : Device) (n : Nat) (f : Ctx → Ctx) : (d.updCtx n f).order = d.order := rfl
@[simp] theorem Device.updCtx_nextBatch (d : Device) (n : Nat) (f : Ctx → Ctx) : (d.updCtx n f).nextBatch = d.nextBatch := rfl
@[simp] theorem Device.updCtx_routines (d : Device) (n : Nat) (f : Ctx → Ctx) : (d.updCtx n f).routines = d.routines := rfl
@[simp] theorem Device.updCtx_oldImages (d : Device) (n : Nat) (f : Ctx → Ctx) : (d.updCtx n f).oldImages = d.oldImages := rfl
@[simp] theorem Device.updCtx_cache (d : Device) (n : Nat) (f : Ctx → Ctx) : (d.updCtx n f).cache = d.cache := rfl
@[simp] theorem Device.updCtx_weirs (d : Device) (n : Nat) (f : Ctx → Ctx) : (d.updCtx n f).weirs = d.weirs := rfl
@[simp] theorem Device.updCtx_rsv (d : Device) (n : Nat) (f : Ctx → Ctx) : (d.updCtx n f).rsv = d.rsv := rfl
@[simp] theorem Device.updCtx_engs (d : Device) (n : Nat) (f : Ctx → Ctx) : (d.updCtx n f).engs = d.engs := rfl
@[simp] theorem Device.updCtx_lats (d : Device) (n : Nat) (f : Ctx → Ctx) : (d.updCtx n f).lats = d.lats := rfl
@[simp] theorem Device.updCtx_saveGen (d : Device) (n : Nat) (f : Ctx → Ctx) : (d.updCtx n f).saveGen = d.saveGen := rfl
@[simp] theorem Device.updCtx_lastSweep (d : Device) (n : Nat) (f : Ctx → Ctx) : (d.updCtx n f).lastSweep = d.lastSweep := rfl
@[simp] theorem Device.updCtx_lius (d : Device) (n : Nat) (f : Ctx → Ctx) : (d.updCtx n f).lius = d.lius := rfl
@[simp] theorem Device.updCtx_liuWait (d : Device) (n : Nat) (f : Ctx → Ctx) : (d.updCtx n f).liuWait = d.liuWait := rfl
@[simp] theorem Device.updCtx_liuHigh (d : Device) (n : Nat) (f : Ctx → Ctx) : (d.updCtx n f).liuHigh = d.liuHigh := rfl
@[simp] theorem Device.updCtx_digs (d : Device) (n : Nat) (f : Ctx → Ctx) : (d.updCtx n f).digs = d.digs := rfl
@[simp] theorem Device.updCtx_digArrive (d : Device) (n : Nat) (f : Ctx → Ctx) : (d.updCtx n f).digArrive = d.digArrive := rfl
@[simp] theorem Device.updCtx_digWait (d : Device) (n : Nat) (f : Ctx → Ctx) : (d.updCtx n f).digWait = d.digWait := rfl
@[simp] theorem Device.updCtx_digHigh (d : Device) (n : Nat) (f : Ctx → Ctx) : (d.updCtx n f).digHigh = d.digHigh := rfl
@[simp] theorem Device.updCtx_digSlotSel (d : Device) (n : Nat) (f : Ctx → Ctx) : (d.updCtx n f).digSlotSel = d.digSlotSel := rfl
@[simp] theorem Device.updCtx_whd (d : Device) (n : Nat) (f : Ctx → Ctx) : (d.updCtx n f).whd = d.whd := rfl
@[simp] theorem Device.updCtx_cis (d : Device) (n : Nat) (f : Ctx → Ctx) : (d.updCtx n f).cis = d.cis := rfl
@[simp] theorem Device.updCtx_ss (d : Device) (n : Nat) (f : Ctx → Ctx) : (d.updCtx n f).ss = d.ss := rfl
@[simp] theorem Device.updCtx_gates (d : Device) (n : Nat) (f : Ctx → Ctx) : (d.updCtx n f).gates = d.gates := rfl
@[simp] theorem Device.updCtx_dselGate (d : Device) (n : Nat) (f : Ctx → Ctx) : (d.updCtx n f).dselGate = d.dselGate := rfl
@[simp] theorem Device.updCtx_dselRegion (d : Device) (n : Nat) (f : Ctx → Ctx) : (d.updCtx n f).dselRegion = d.dselRegion := rfl
@[simp] theorem Device.updCtx_dselErr (d : Device) (n : Nat) (f : Ctx → Ctx) : (d.updCtx n f).dselErr = d.dselErr := rfl
@[simp] theorem Device.updCtx_dselCause (d : Device) (n : Nat) (f : Ctx → Ctx) : (d.updCtx n f).dselCause = d.dselCause := rfl
@[simp] theorem Device.updCtx_dstage (d : Device) (n : Nat) (f : Ctx → Ctx) : (d.updCtx n f).dstage = d.dstage := rfl
@[simp] theorem Device.updCtx_fl (d : Device) (n : Nat) (f : Ctx → Ctx) : (d.updCtx n f).fl = d.fl := rfl
@[simp] theorem Device.updCtx_flt (d : Device) (n : Nat) (f : Ctx → Ctx) : (d.updCtx n f).flt = d.flt := rfl
@[simp] theorem Device.updCtx_lev (d : Device) (n : Nat) (f : Ctx → Ctx) : (d.updCtx n f).lev = d.lev := rfl
@[simp] theorem Device.updCtx_evr (d : Device) (n : Nat) (f : Ctx → Ctx) : (d.updCtx n f).evr = d.evr := rfl
@[simp] theorem Device.updCtx_ws (d : Device) (n : Nat) (f : Ctx → Ctx) : (d.updCtx n f).ws = d.ws := rfl
@[simp] theorem Device.updCtx_md (d : Device) (n : Nat) (f : Ctx → Ctx) : (d.updCtx n f).md = d.md := rfl
@[simp] theorem Device.updCtx_boot (d : Device) (n : Nat) (f : Ctx → Ctx) : (d.updCtx n f).boot = d.boot := rfl
@[simp] theorem Device.updCtx_brd (d : Device) (n : Nat) (f : Ctx → Ctx) : (d.updCtx n f).brd = d.brd := rfl
@[simp] theorem Device.updCtx_at_allot (d : Device) (n : Nat) (f : Ctx → Ctx) (i : Nat) : (d.updCtx n f).allot i = d.allot i := rfl
@[simp] theorem Device.updCtx_at_sq (d : Device) (n : Nat) (f : Ctx → Ctx) (i j : Nat) : (d.updCtx n f).sq i j = d.sq i j := rfl
@[simp] theorem Device.updCtx_at_cq (d : Device) (n : Nat) (f : Ctx → Ctx) (i j : Nat) : (d.updCtx n f).cq i j = d.cq i j := rfl
@[simp] theorem Device.updCtx_at_adm (d : Device) (n : Nat) (f : Ctx → Ctx) (i : Nat) : (d.updCtx n f).adm i = d.adm i := rfl
@[simp] theorem Device.updCtx_at_cmd (d : Device) (n : Nat) (f : Ctx → Ctx) (i : Nat) : (d.updCtx n f).cmd i = d.cmd i := rfl
@[simp] theorem Device.updCtx_at_weir (d : Device) (n : Nat) (f : Ctx → Ctx) (i : Nat) : (d.updCtx n f).weir i = d.weir i := rfl
@[simp] theorem Device.updCtx_at_eng (d : Device) (n : Nat) (f : Ctx → Ctx) (i : Nat) : (d.updCtx n f).eng i = d.eng i := rfl
@[simp] theorem Device.updCtx_at_lat (d : Device) (n : Nat) (f : Ctx → Ctx) (i : Nat) : (d.updCtx n f).lat i = d.lat i := rfl
@[simp] theorem Device.updCtx_at_liu (d : Device) (n : Nat) (f : Ctx → Ctx) (i : Nat) : (d.updCtx n f).liu i = d.liu i := rfl
@[simp] theorem Device.updCtx_at_dig (d : Device) (n : Nat) (f : Ctx → Ctx) (i : Nat) : (d.updCtx n f).dig i = d.dig i := rfl
@[simp] theorem Device.updCtx_at_gate (d : Device) (n : Nat) (f : Ctx → Ctx) (i : Nat) : (d.updCtx n f).gate i = d.gate i := rfl
@[simp] theorem Device.updCtx_at_drbg (d : Device) (n : Nat) (f : Ctx → Ctx) (i : Nat) : (d.updCtx n f).drbg i = d.drbg i := rfl
@[simp] theorem Device.updCtx_at_slot (d : Device) (n : Nat) (f : Ctx → Ctx) (i : Nat) : (d.updCtx n f).slot i = d.slot i := rfl
@[simp] theorem Device.updCtx_at_unit (d : Device) (n : Nat) (f : Ctx → Ctx) (i j : Nat) : (d.updCtx n f).unit i j = d.unit i j := rfl
@[simp] theorem Device.updCtx_at_levSrc (d : Device) (n : Nat) (f : Ctx → Ctx) (i : Nat) : (d.updCtx n f).levSrc i = d.levSrc i := rfl
@[simp] theorem Device.updCtx_at_peer (d : Device) (n : Nat) (f : Ctx → Ctx) (i : Nat) : (d.updCtx n f).peer i = d.peer i := rfl
@[simp] theorem Device.updCtx_at_reg (d : Device) (n : Nat) (f : Ctx → Ctx) (i : Nat) : (d.updCtx n f).reg i = d.reg i := rfl
@[simp] theorem Device.updCtx_at_count (d : Device) (n : Nat) (f : Ctx → Ctx) (i : Nat) : (d.updCtx n f).count i = d.count i := rfl

/-! ### updWeir -/

@[simp] theorem Device.updWeir_weir_same (d : Device) (n : Nat) (f : Weir → Weir) : (d.updWeir n f).weir n = f (d.weir n) := by simp [Device.weir, Device.updWeir]
theorem Device.updWeir_weir_ne (d : Device) (n : Nat) (f : Weir → Weir) {j : Nat} (h : j ≠ n) : (d.updWeir n f).weir j = d.weir j := by simp [Device.weir, Device.updWeir, Tbl.get_upd_ne _ _ _ h]
@[simp] theorem Device.updWeir_part (d : Device) (n : Nat) (f : Weir → Weir) : (d.updWeir n f).part = d.part := rfl
@[simp] theorem Device.updWeir_time (d : Device) (n : Nat) (f : Weir → Weir) : (d.updWeir n f).time = d.time := rfl
@[simp] theorem Device.updWeir_second (d : Device) (n : Nat) (f : Weir → Weir) : (d.updWeir n f).second = d.second := rfl
@[simp] theorem Device.updWeir_free (d : Device) (n : Nat) (f : Weir → Weir) : (d.updWeir n f).free = d.free := rfl
@[simp] theorem Device.updWeir_out (d : Device) (n : Nat) (f : Weir → Weir) : (d.updWeir n f).out = d.out := rfl
@[simp] theorem Device.updWeir_regs (d : Device) (n : Nat) (f : Weir → Weir) : (d.updWeir n f).regs = d.regs := rfl
@[simp] theorem Device.updWeir_cnt (d : Device) (n : Nat) (f : Weir → Weir) : (d.updWeir n f).cnt = d.cnt := rfl
@[simp] theorem Device.updWeir_allots (d : Device) (n : Nat) (f : Weir → Weir) : (d.updWeir n f).allots = d.allots := rfl
@[simp] theorem Device.updWeir_sqs (d : Device) (n : Nat) (f : Weir → Weir) : (d.updWeir n f).sqs = d.sqs := rfl
@[simp] theorem Device.updWeir_cqs (d : Device) (n : Nat) (f : Weir → Weir) : (d.updWeir n f).cqs = d.cqs := rfl
@[simp] theorem Device.updWeir_cmds (d : Device) (n : Nat) (f : Weir → Weir) : (d.updWeir n f).cmds = d.cmds := rfl
@[simp] theorem Device.updWeir_order (d : Device) (n : Nat) (f : Weir → Weir) : (d.updWeir n f).order = d.order := rfl
@[simp] theorem Device.updWeir_nextBatch (d : Device) (n : Nat) (f : Weir → Weir) : (d.updWeir n f).nextBatch = d.nextBatch := rfl
@[simp] theorem Device.updWeir_routines (d : Device) (n : Nat) (f : Weir → Weir) : (d.updWeir n f).routines = d.routines := rfl
@[simp] theorem Device.updWeir_oldImages (d : Device) (n : Nat) (f : Weir → Weir) : (d.updWeir n f).oldImages = d.oldImages := rfl
@[simp] theorem Device.updWeir_ctxs (d : Device) (n : Nat) (f : Weir → Weir) : (d.updWeir n f).ctxs = d.ctxs := rfl
@[simp] theorem Device.updWeir_cache (d : Device) (n : Nat) (f : Weir → Weir) : (d.updWeir n f).cache = d.cache := rfl
@[simp] theorem Device.updWeir_cacheDirty (d : Device) (n : Nat) (f : Weir → Weir) : (d.updWeir n f).cacheDirty = d.cacheDirty := rfl
@[simp] theorem Device.updWeir_rsv (d : Device) (n : Nat) (f : Weir → Weir) : (d.updWeir n f).rsv = d.rsv := rfl
@[simp] theorem Device.updWeir_engs (d : Device) (n : Nat) (f : Weir → Weir) : (d.updWeir n f).engs = d.engs := rfl
@[simp] theorem Device.updWeir_lats (d : Device) (n : Nat) (f : Weir → Weir) : (d.updWeir n f).lats = d.lats := rfl
@[simp] theorem Device.updWeir_saveGen (d : Device) (n : Nat) (f : Weir → Weir) : (d.updWeir n f).saveGen = d.saveGen := rfl
@[simp] theorem Device.updWeir_lastSweep (d : Device) (n : Nat) (f : Weir → Weir) : (d.updWeir n f).lastSweep = d.lastSweep := rfl
@[simp] theorem Device.updWeir_lius (d : Device) (n : Nat) (f : Weir → Weir) : (d.updWeir n f).lius = d.lius := rfl
@[simp] theorem Device.updWeir_liuWait (d : Device) (n : Nat) (f : Weir → Weir) : (d.updWeir n f).liuWait = d.liuWait := rfl
@[simp] theorem Device.updWeir_liuHigh (d : Device) (n : Nat) (f : Weir → Weir) : (d.updWeir n f).liuHigh = d.liuHigh := rfl
@[simp] theorem Device.updWeir_digs (d : Device) (n : Nat) (f : Weir → Weir) : (d.updWeir n f).digs = d.digs := rfl
@[simp] theorem Device.updWeir_digArrive (d : Device) (n : Nat) (f : Weir → Weir) : (d.updWeir n f).digArrive = d.digArrive := rfl
@[simp] theorem Device.updWeir_digWait (d : Device) (n : Nat) (f : Weir → Weir) : (d.updWeir n f).digWait = d.digWait := rfl
@[simp] theorem Device.updWeir_digHigh (d : Device) (n : Nat) (f : Weir → Weir) : (d.updWeir n f).digHigh = d.digHigh := rfl
@[simp] theorem Device.updWeir_digSlotSel (d : Device) (n : Nat) (f : Weir → Weir) : (d.updWeir n f).digSlotSel = d.digSlotSel := rfl
@[simp] theorem Device.updWeir_whd (d : Device) (n : Nat) (f : Weir → Weir) : (d.updWeir n f).whd = d.whd := rfl
@[simp] theorem Device.updWeir_cis (d : Device) (n : Nat) (f : Weir → Weir) : (d.updWeir n f).cis = d.cis := rfl
@[simp] theorem Device.updWeir_ss (d : Device) (n : Nat) (f : Weir → Weir) : (d.updWeir n f).ss = d.ss := rfl
@[simp] theorem Device.updWeir_gates (d : Device) (n : Nat) (f : Weir → Weir) : (d.updWeir n f).gates = d.gates := rfl
@[simp] theorem Device.updWeir_dselGate (d : Device) (n : Nat) (f : Weir → Weir) : (d.updWeir n f).dselGate = d.dselGate := rfl
@[simp] theorem Device.updWeir_dselRegion (d : Device) (n : Nat) (f : Weir → Weir) : (d.updWeir n f).dselRegion = d.dselRegion := rfl
@[simp] theorem Device.updWeir_dselErr (d : Device) (n : Nat) (f : Weir → Weir) : (d.updWeir n f).dselErr = d.dselErr := rfl
@[simp] theorem Device.updWeir_dselCause (d : Device) (n : Nat) (f : Weir → Weir) : (d.updWeir n f).dselCause = d.dselCause := rfl
@[simp] theorem Device.updWeir_dstage (d : Device) (n : Nat) (f : Weir → Weir) : (d.updWeir n f).dstage = d.dstage := rfl
@[simp] theorem Device.updWeir_fl (d : Device) (n : Nat) (f : Weir → Weir) : (d.updWeir n f).fl = d.fl := rfl
@[simp] theorem Device.updWeir_flt (d : Device) (n : Nat) (f : Weir → Weir) : (d.updWeir n f).flt = d.flt := rfl
@[simp] theorem Device.updWeir_lev (d : Device) (n : Nat) (f : Weir → Weir) : (d.updWeir n f).lev = d.lev := rfl
@[simp] theorem Device.updWeir_evr (d : Device) (n : Nat) (f : Weir → Weir) : (d.updWeir n f).evr = d.evr := rfl
@[simp] theorem Device.updWeir_ws (d : Device) (n : Nat) (f : Weir → Weir) : (d.updWeir n f).ws = d.ws := rfl
@[simp] theorem Device.updWeir_md (d : Device) (n : Nat) (f : Weir → Weir) : (d.updWeir n f).md = d.md := rfl
@[simp] theorem Device.updWeir_boot (d : Device) (n : Nat) (f : Weir → Weir) : (d.updWeir n f).boot = d.boot := rfl
@[simp] theorem Device.updWeir_brd (d : Device) (n : Nat) (f : Weir → Weir) : (d.updWeir n f).brd = d.brd := rfl
@[simp] theorem Device.updWeir_at_allot (d : Device) (n : Nat) (f : Weir → Weir) (i : Nat) : (d.updWeir n f).allot i = d.allot i := rfl
@[simp] theorem Device.updWeir_at_sq (d : Device) (n : Nat) (f : Weir → Weir) (i j : Nat) : (d.updWeir n f).sq i j = d.sq i j := rfl
@[simp] theorem Device.updWeir_at_cq (d : Device) (n : Nat) (f : Weir → Weir) (i j : Nat) : (d.updWeir n f).cq i j = d.cq i j := rfl
@[simp] theorem Device.updWeir_at_adm (d : Device) (n : Nat) (f : Weir → Weir) (i : Nat) : (d.updWeir n f).adm i = d.adm i := rfl
@[simp] theorem Device.updWeir_at_cmd (d : Device) (n : Nat) (f : Weir → Weir) (i : Nat) : (d.updWeir n f).cmd i = d.cmd i := rfl
@[simp] theorem Device.updWeir_at_ctx (d : Device) (n : Nat) (f : Weir → Weir) (i : Nat) : (d.updWeir n f).ctx i = d.ctx i := rfl
@[simp] theorem Device.updWeir_at_eng (d : Device) (n : Nat) (f : Weir → Weir) (i : Nat) : (d.updWeir n f).eng i = d.eng i := rfl
@[simp] theorem Device.updWeir_at_lat (d : Device) (n : Nat) (f : Weir → Weir) (i : Nat) : (d.updWeir n f).lat i = d.lat i := rfl
@[simp] theorem Device.updWeir_at_liu (d : Device) (n : Nat) (f : Weir → Weir) (i : Nat) : (d.updWeir n f).liu i = d.liu i := rfl
@[simp] theorem Device.updWeir_at_dig (d : Device) (n : Nat) (f : Weir → Weir) (i : Nat) : (d.updWeir n f).dig i = d.dig i := rfl
@[simp] theorem Device.updWeir_at_gate (d : Device) (n : Nat) (f : Weir → Weir) (i : Nat) : (d.updWeir n f).gate i = d.gate i := rfl
@[simp] theorem Device.updWeir_at_drbg (d : Device) (n : Nat) (f : Weir → Weir) (i : Nat) : (d.updWeir n f).drbg i = d.drbg i := rfl
@[simp] theorem Device.updWeir_at_slot (d : Device) (n : Nat) (f : Weir → Weir) (i : Nat) : (d.updWeir n f).slot i = d.slot i := rfl
@[simp] theorem Device.updWeir_at_unit (d : Device) (n : Nat) (f : Weir → Weir) (i j : Nat) : (d.updWeir n f).unit i j = d.unit i j := rfl
@[simp] theorem Device.updWeir_at_levSrc (d : Device) (n : Nat) (f : Weir → Weir) (i : Nat) : (d.updWeir n f).levSrc i = d.levSrc i := rfl
@[simp] theorem Device.updWeir_at_peer (d : Device) (n : Nat) (f : Weir → Weir) (i : Nat) : (d.updWeir n f).peer i = d.peer i := rfl
@[simp] theorem Device.updWeir_at_reg (d : Device) (n : Nat) (f : Weir → Weir) (i : Nat) : (d.updWeir n f).reg i = d.reg i := rfl
@[simp] theorem Device.updWeir_at_count (d : Device) (n : Nat) (f : Weir → Weir) (i : Nat) : (d.updWeir n f).count i = d.count i := rfl

/-! ### updEng -/

@[simp] theorem Device.updEng_eng_same (d : Device) (e : Nat) (f : Engine → Engine) : (d.updEng e f).eng e = f (d.eng e) := by simp [Device.eng, Device.updEng]
theorem Device.updEng_eng_ne (d : Device) (e : Nat) (f : Engine → Engine) {j : Nat} (h : j ≠ e) : (d.updEng e f).eng j = d.eng j := by simp [Device.eng, Device.updEng, Tbl.get_upd_ne _ _ _ h]
@[simp] theorem Device.updEng_part (d : Device) (e : Nat) (f : Engine → Engine) : (d.updEng e f).part = d.part := rfl
@[simp] theorem Device.updEng_time (d : Device) (e : Nat) (f : Engine → Engine) : (d.updEng e f).time = d.time := rfl
@[simp] theorem Device.updEng_second (d : Device) (e : Nat) (f : Engine → Engine) : (d.updEng e f).second = d.second := rfl
@[simp] theorem Device.updEng_free (d : Device) (e : Nat) (f : Engine → Engine) : (d.updEng e f).free = d.free := rfl
@[simp] theorem Device.updEng_out (d : Device) (e : Nat) (f : Engine → Engine) : (d.updEng e f).out = d.out := rfl
@[simp] theorem Device.updEng_regs (d : Device) (e : Nat) (f : Engine → Engine) : (d.updEng e f).regs = d.regs := rfl
@[simp] theorem Device.updEng_cnt (d : Device) (e : Nat) (f : Engine → Engine) : (d.updEng e f).cnt = d.cnt := rfl
@[simp] theorem Device.updEng_allots (d : Device) (e : Nat) (f : Engine → Engine) : (d.updEng e f).allots = d.allots := rfl
@[simp] theorem Device.updEng_sqs (d : Device) (e : Nat) (f : Engine → Engine) : (d.updEng e f).sqs = d.sqs := rfl
@[simp] theorem Device.updEng_cqs (d : Device) (e : Nat) (f : Engine → Engine) : (d.updEng e f).cqs = d.cqs := rfl
@[simp] theorem Device.updEng_cmds (d : Device) (e : Nat) (f : Engine → Engine) : (d.updEng e f).cmds = d.cmds := rfl
@[simp] theorem Device.updEng_order (d : Device) (e : Nat) (f : Engine → Engine) : (d.updEng e f).order = d.order := rfl
@[simp] theorem Device.updEng_nextBatch (d : Device) (e : Nat) (f : Engine → Engine) : (d.updEng e f).nextBatch = d.nextBatch := rfl
@[simp] theorem Device.updEng_routines (d : Device) (e : Nat) (f : Engine → Engine) : (d.updEng e f).routines = d.routines := rfl
@[simp] theorem Device.updEng_oldImages (d : Device) (e : Nat) (f : Engine → Engine) : (d.updEng e f).oldImages = d.oldImages := rfl
@[simp] theorem Device.updEng_ctxs (d : Device) (e : Nat) (f : Engine → Engine) : (d.updEng e f).ctxs = d.ctxs := rfl
@[simp] theorem Device.updEng_cache (d : Device) (e : Nat) (f : Engine → Engine) : (d.updEng e f).cache = d.cache := rfl
@[simp] theorem Device.updEng_cacheDirty (d : Device) (e : Nat) (f : Engine → Engine) : (d.updEng e f).cacheDirty = d.cacheDirty := rfl
@[simp] theorem Device.updEng_weirs (d : Device) (e : Nat) (f : Engine → Engine) : (d.updEng e f).weirs = d.weirs := rfl
@[simp] theorem Device.updEng_rsv (d : Device) (e : Nat) (f : Engine → Engine) : (d.updEng e f).rsv = d.rsv := rfl
@[simp] theorem Device.updEng_lats (d : Device) (e : Nat) (f : Engine → Engine) : (d.updEng e f).lats = d.lats := rfl
@[simp] theorem Device.updEng_saveGen (d : Device) (e : Nat) (f : Engine → Engine) : (d.updEng e f).saveGen = d.saveGen := rfl
@[simp] theorem Device.updEng_lastSweep (d : Device) (e : Nat) (f : Engine → Engine) : (d.updEng e f).lastSweep = d.lastSweep := rfl
@[simp] theorem Device.updEng_lius (d : Device) (e : Nat) (f : Engine → Engine) : (d.updEng e f).lius = d.lius := rfl
@[simp] theorem Device.updEng_liuWait (d : Device) (e : Nat) (f : Engine → Engine) : (d.updEng e f).liuWait = d.liuWait := rfl
@[simp] theorem Device.updEng_liuHigh (d : Device) (e : Nat) (f : Engine → Engine) : (d.updEng e f).liuHigh = d.liuHigh := rfl
@[simp] theorem Device.updEng_digs (d : Device) (e : Nat) (f : Engine → Engine) : (d.updEng e f).digs = d.digs := rfl
@[simp] theorem Device.updEng_digArrive (d : Device) (e : Nat) (f : Engine → Engine) : (d.updEng e f).digArrive = d.digArrive := rfl
@[simp] theorem Device.updEng_digWait (d : Device) (e : Nat) (f : Engine → Engine) : (d.updEng e f).digWait = d.digWait := rfl
@[simp] theorem Device.updEng_digHigh (d : Device) (e : Nat) (f : Engine → Engine) : (d.updEng e f).digHigh = d.digHigh := rfl
@[simp] theorem Device.updEng_digSlotSel (d : Device) (e : Nat) (f : Engine → Engine) : (d.updEng e f).digSlotSel = d.digSlotSel := rfl
@[simp] theorem Device.updEng_whd (d : Device) (e : Nat) (f : Engine → Engine) : (d.updEng e f).whd = d.whd := rfl
@[simp] theorem Device.updEng_cis (d : Device) (e : Nat) (f : Engine → Engine) : (d.updEng e f).cis = d.cis := rfl
@[simp] theorem Device.updEng_ss (d : Device) (e : Nat) (f : Engine → Engine) : (d.updEng e f).ss = d.ss := rfl
@[simp] theorem Device.updEng_gates (d : Device) (e : Nat) (f : Engine → Engine) : (d.updEng e f).gates = d.gates := rfl
@[simp] theorem Device.updEng_dselGate (d : Device) (e : Nat) (f : Engine → Engine) : (d.updEng e f).dselGate = d.dselGate := rfl
@[simp] theorem Device.updEng_dselRegion (d : Device) (e : Nat) (f : Engine → Engine) : (d.updEng e f).dselRegion = d.dselRegion := rfl
@[simp] theorem Device.updEng_dselErr (d : Device) (e : Nat) (f : Engine → Engine) : (d.updEng e f).dselErr = d.dselErr := rfl
@[simp] theorem Device.updEng_dselCause (d : Device) (e : Nat) (f : Engine → Engine) : (d.updEng e f).dselCause = d.dselCause := rfl
@[simp] theorem Device.updEng_dstage (d : Device) (e : Nat) (f : Engine → Engine) : (d.updEng e f).dstage = d.dstage := rfl
@[simp] theorem Device.updEng_fl (d : Device) (e : Nat) (f : Engine → Engine) : (d.updEng e f).fl = d.fl := rfl
@[simp] theorem Device.updEng_flt (d : Device) (e : Nat) (f : Engine → Engine) : (d.updEng e f).flt = d.flt := rfl
@[simp] theorem Device.updEng_lev (d : Device) (e : Nat) (f : Engine → Engine) : (d.updEng e f).lev = d.lev := rfl
@[simp] theorem Device.updEng_evr (d : Device) (e : Nat) (f : Engine → Engine) : (d.updEng e f).evr = d.evr := rfl
@[simp] theorem Device.updEng_ws (d : Device) (e : Nat) (f : Engine → Engine) : (d.updEng e f).ws = d.ws := rfl
@[simp] theorem Device.updEng_md (d : Device) (e : Nat) (f : Engine → Engine) : (d.updEng e f).md = d.md := rfl
@[simp] theorem Device.updEng_boot (d : Device) (e : Nat) (f : Engine → Engine) : (d.updEng e f).boot = d.boot := rfl
@[simp] theorem Device.updEng_brd (d : Device) (e : Nat) (f : Engine → Engine) : (d.updEng e f).brd = d.brd := rfl
@[simp] theorem Device.updEng_at_allot (d : Device) (e : Nat) (f : Engine → Engine) (i : Nat) : (d.updEng e f).allot i = d.allot i := rfl
@[simp] theorem Device.updEng_at_sq (d : Device) (e : Nat) (f : Engine → Engine) (i j : Nat) : (d.updEng e f).sq i j = d.sq i j := rfl
@[simp] theorem Device.updEng_at_cq (d : Device) (e : Nat) (f : Engine → Engine) (i j : Nat) : (d.updEng e f).cq i j = d.cq i j := rfl
@[simp] theorem Device.updEng_at_adm (d : Device) (e : Nat) (f : Engine → Engine) (i : Nat) : (d.updEng e f).adm i = d.adm i := rfl
@[simp] theorem Device.updEng_at_cmd (d : Device) (e : Nat) (f : Engine → Engine) (i : Nat) : (d.updEng e f).cmd i = d.cmd i := rfl
@[simp] theorem Device.updEng_at_ctx (d : Device) (e : Nat) (f : Engine → Engine) (i : Nat) : (d.updEng e f).ctx i = d.ctx i := rfl
@[simp] theorem Device.updEng_at_weir (d : Device) (e : Nat) (f : Engine → Engine) (i : Nat) : (d.updEng e f).weir i = d.weir i := rfl
@[simp] theorem Device.updEng_at_lat (d : Device) (e : Nat) (f : Engine → Engine) (i : Nat) : (d.updEng e f).lat i = d.lat i := rfl
@[simp] theorem Device.updEng_at_liu (d : Device) (e : Nat) (f : Engine → Engine) (i : Nat) : (d.updEng e f).liu i = d.liu i := rfl
@[simp] theorem Device.updEng_at_dig (d : Device) (e : Nat) (f : Engine → Engine) (i : Nat) : (d.updEng e f).dig i = d.dig i := rfl
@[simp] theorem Device.updEng_at_gate (d : Device) (e : Nat) (f : Engine → Engine) (i : Nat) : (d.updEng e f).gate i = d.gate i := rfl
@[simp] theorem Device.updEng_at_drbg (d : Device) (e : Nat) (f : Engine → Engine) (i : Nat) : (d.updEng e f).drbg i = d.drbg i := rfl
@[simp] theorem Device.updEng_at_slot (d : Device) (e : Nat) (f : Engine → Engine) (i : Nat) : (d.updEng e f).slot i = d.slot i := rfl
@[simp] theorem Device.updEng_at_unit (d : Device) (e : Nat) (f : Engine → Engine) (i j : Nat) : (d.updEng e f).unit i j = d.unit i j := rfl
@[simp] theorem Device.updEng_at_levSrc (d : Device) (e : Nat) (f : Engine → Engine) (i : Nat) : (d.updEng e f).levSrc i = d.levSrc i := rfl
@[simp] theorem Device.updEng_at_peer (d : Device) (e : Nat) (f : Engine → Engine) (i : Nat) : (d.updEng e f).peer i = d.peer i := rfl
@[simp] theorem Device.updEng_at_reg (d : Device) (e : Nat) (f : Engine → Engine) (i : Nat) : (d.updEng e f).reg i = d.reg i := rfl
@[simp] theorem Device.updEng_at_count (d : Device) (e : Nat) (f : Engine → Engine) (i : Nat) : (d.updEng e f).count i = d.count i := rfl

/-! ### updArch -/

@[simp] theorem Device.updArch_arch_same (d : Device) (e : Nat) (f : EngArch → EngArch) : ((d.updArch e f).eng e).arch = f (d.eng e).arch := by
  simp [Device.updArch]
theorem Device.updArch_eng_ne (d : Device) (e : Nat) (f : EngArch → EngArch) {j : Nat} (h : j ≠ e) : (d.updArch e f).eng j = d.eng j :=
  Device.updEng_eng_ne d e _ h
@[simp] theorem Device.updArch_part (d : Device) (e : Nat) (f : EngArch → EngArch) : (d.updArch e f).part = d.part := rfl
@[simp] theorem Device.updArch_time (d : Device) (e : Nat) (f : EngArch → EngArch) : (d.updArch e f).time = d.time := rfl
@[simp] theorem Device.updArch_second (d : Device) (e : Nat) (f : EngArch → EngArch) : (d.updArch e f).second = d.second := rfl
@[simp] theorem Device.updArch_free (d : Device) (e : Nat) (f : EngArch → EngArch) : (d.updArch e f).free = d.free := rfl
@[simp] theorem Device.updArch_out (d : Device) (e : Nat) (f : EngArch → EngArch) : (d.updArch e f).out = d.out := rfl
@[simp] theorem Device.updArch_regs (d : Device) (e : Nat) (f : EngArch → EngArch) : (d.updArch e f).regs = d.regs := rfl
@[simp] theorem Device.updArch_cnt (d : Device) (e : Nat) (f : EngArch → EngArch) : (d.updArch e f).cnt = d.cnt := rfl
@[simp] theorem Device.updArch_allots (d : Device) (e : Nat) (f : EngArch → EngArch) : (d.updArch e f).allots = d.allots := rfl
@[simp] theorem Device.updArch_sqs (d : Device) (e : Nat) (f : EngArch → EngArch) : (d.updArch e f).sqs = d.sqs := rfl
@[simp] theorem Device.updArch_cqs (d : Device) (e : Nat) (f : EngArch → EngArch) : (d.updArch e f).cqs = d.cqs := rfl
@[simp] theorem Device.updArch_cmds (d : Device) (e : Nat) (f : EngArch → EngArch) : (d.updArch e f).cmds = d.cmds := rfl
@[simp] theorem Device.updArch_order (d : Device) (e : Nat) (f : EngArch → EngArch) : (d.updArch e f).order = d.order := rfl
@[simp] theorem Device.updArch_nextBatch (d : Device) (e : Nat) (f : EngArch → EngArch) : (d.updArch e f).nextBatch = d.nextBatch := rfl
@[simp] theorem Device.updArch_routines (d : Device) (e : Nat) (f : EngArch → EngArch) : (d.updArch e f).routines = d.routines := rfl
@[simp] theorem Device.updArch_oldImages (d : Device) (e : Nat) (f : EngArch → EngArch) : (d.updArch e f).oldImages = d.oldImages := rfl
@[simp] theorem Device.updArch_ctxs (d : Device) (e : Nat) (f : EngArch → EngArch) : (d.updArch e f).ctxs = d.ctxs := rfl
@[simp] theorem Device.updArch_cache (d : Device) (e : Nat) (f : EngArch → EngArch) : (d.updArch e f).cache = d.cache := rfl
@[simp] theorem Device.updArch_cacheDirty (d : Device) (e : Nat) (f : EngArch → EngArch) : (d.updArch e f).cacheDirty = d.cacheDirty := rfl
@[simp] theorem Device.updArch_weirs (d : Device) (e : Nat) (f : EngArch → EngArch) : (d.updArch e f).weirs = d.weirs := rfl
@[simp] theorem Device.updArch_rsv (d : Device) (e : Nat) (f : EngArch → EngArch) : (d.updArch e f).rsv = d.rsv := rfl
@[simp] theorem Device.updArch_lats (d : Device) (e : Nat) (f : EngArch → EngArch) : (d.updArch e f).lats = d.lats := rfl
@[simp] theorem Device.updArch_saveGen (d : Device) (e : Nat) (f : EngArch → EngArch) : (d.updArch e f).saveGen = d.saveGen := rfl
@[simp] theorem Device.updArch_lastSweep (d : Device) (e : Nat) (f : EngArch → EngArch) : (d.updArch e f).lastSweep = d.lastSweep := rfl
@[simp] theorem Device.updArch_lius (d : Device) (e : Nat) (f : EngArch → EngArch) : (d.updArch e f).lius = d.lius := rfl
@[simp] theorem Device.updArch_liuWait (d : Device) (e : Nat) (f : EngArch → EngArch) : (d.updArch e f).liuWait = d.liuWait := rfl
@[simp] theorem Device.updArch_liuHigh (d : Device) (e : Nat) (f : EngArch → EngArch) : (d.updArch e f).liuHigh = d.liuHigh := rfl
@[simp] theorem Device.updArch_digs (d : Device) (e : Nat) (f : EngArch → EngArch) : (d.updArch e f).digs = d.digs := rfl
@[simp] theorem Device.updArch_digArrive (d : Device) (e : Nat) (f : EngArch → EngArch) : (d.updArch e f).digArrive = d.digArrive := rfl
@[simp] theorem Device.updArch_digWait (d : Device) (e : Nat) (f : EngArch → EngArch) : (d.updArch e f).digWait = d.digWait := rfl
@[simp] theorem Device.updArch_digHigh (d : Device) (e : Nat) (f : EngArch → EngArch) : (d.updArch e f).digHigh = d.digHigh := rfl
@[simp] theorem Device.updArch_digSlotSel (d : Device) (e : Nat) (f : EngArch → EngArch) : (d.updArch e f).digSlotSel = d.digSlotSel := rfl
@[simp] theorem Device.updArch_whd (d : Device) (e : Nat) (f : EngArch → EngArch) : (d.updArch e f).whd = d.whd := rfl
@[simp] theorem Device.updArch_cis (d : Device) (e : Nat) (f : EngArch → EngArch) : (d.updArch e f).cis = d.cis := rfl
@[simp] theorem Device.updArch_ss (d : Device) (e : Nat) (f : EngArch → EngArch) : (d.updArch e f).ss = d.ss := rfl
@[simp] theorem Device.updArch_gates (d : Device) (e : Nat) (f : EngArch → EngArch) : (d.updArch e f).gates = d.gates := rfl
@[simp] theorem Device.updArch_dselGate (d : Device) (e : Nat) (f : EngArch → EngArch) : (d.updArch e f).dselGate = d.dselGate := rfl
@[simp] theorem Device.updArch_dselRegion (d : Device) (e : Nat) (f : EngArch → EngArch) : (d.updArch e f).dselRegion = d.dselRegion := rfl
@[simp] theorem Device.updArch_dselErr (d : Device) (e : Nat) (f : EngArch → EngArch) : (d.updArch e f).dselErr = d.dselErr := rfl
@[simp] theorem Device.updArch_dselCause (d : Device) (e : Nat) (f : EngArch → EngArch) : (d.updArch e f).dselCause = d.dselCause := rfl
@[simp] theorem Device.updArch_dstage (d : Device) (e : Nat) (f : EngArch → EngArch) : (d.updArch e f).dstage = d.dstage := rfl
@[simp] theorem Device.updArch_fl (d : Device) (e : Nat) (f : EngArch → EngArch) : (d.updArch e f).fl = d.fl := rfl
@[simp] theorem Device.updArch_flt (d : Device) (e : Nat) (f : EngArch → EngArch) : (d.updArch e f).flt = d.flt := rfl
@[simp] theorem Device.updArch_lev (d : Device) (e : Nat) (f : EngArch → EngArch) : (d.updArch e f).lev = d.lev := rfl
@[simp] theorem Device.updArch_evr (d : Device) (e : Nat) (f : EngArch → EngArch) : (d.updArch e f).evr = d.evr := rfl
@[simp] theorem Device.updArch_ws (d : Device) (e : Nat) (f : EngArch → EngArch) : (d.updArch e f).ws = d.ws := rfl
@[simp] theorem Device.updArch_md (d : Device) (e : Nat) (f : EngArch → EngArch) : (d.updArch e f).md = d.md := rfl
@[simp] theorem Device.updArch_boot (d : Device) (e : Nat) (f : EngArch → EngArch) : (d.updArch e f).boot = d.boot := rfl
@[simp] theorem Device.updArch_brd (d : Device) (e : Nat) (f : EngArch → EngArch) : (d.updArch e f).brd = d.brd := rfl
@[simp] theorem Device.updArch_at_allot (d : Device) (e : Nat) (f : EngArch → EngArch) (i : Nat) : (d.updArch e f).allot i = d.allot i := rfl
@[simp] theorem Device.updArch_at_sq (d : Device) (e : Nat) (f : EngArch → EngArch) (i j : Nat) : (d.updArch e f).sq i j = d.sq i j := rfl
@[simp] theorem Device.updArch_at_cq (d : Device) (e : Nat) (f : EngArch → EngArch) (i j : Nat) : (d.updArch e f).cq i j = d.cq i j := rfl
@[simp] theorem Device.updArch_at_adm (d : Device) (e : Nat) (f : EngArch → EngArch) (i : Nat) : (d.updArch e f).adm i = d.adm i := rfl
@[simp] theorem Device.updArch_at_cmd (d : Device) (e : Nat) (f : EngArch → EngArch) (i : Nat) : (d.updArch e f).cmd i = d.cmd i := rfl
@[simp] theorem Device.updArch_at_ctx (d : Device) (e : Nat) (f : EngArch → EngArch) (i : Nat) : (d.updArch e f).ctx i = d.ctx i := rfl
@[simp] theorem Device.updArch_at_weir (d : Device) (e : Nat) (f : EngArch → EngArch) (i : Nat) : (d.updArch e f).weir i = d.weir i := rfl
@[simp] theorem Device.updArch_at_lat (d : Device) (e : Nat) (f : EngArch → EngArch) (i : Nat) : (d.updArch e f).lat i = d.lat i := rfl
@[simp] theorem Device.updArch_at_liu (d : Device) (e : Nat) (f : EngArch → EngArch) (i : Nat) : (d.updArch e f).liu i = d.liu i := rfl
@[simp] theorem Device.updArch_at_dig (d : Device) (e : Nat) (f : EngArch → EngArch) (i : Nat) : (d.updArch e f).dig i = d.dig i := rfl
@[simp] theorem Device.updArch_at_gate (d : Device) (e : Nat) (f : EngArch → EngArch) (i : Nat) : (d.updArch e f).gate i = d.gate i := rfl
@[simp] theorem Device.updArch_at_drbg (d : Device) (e : Nat) (f : EngArch → EngArch) (i : Nat) : (d.updArch e f).drbg i = d.drbg i := rfl
@[simp] theorem Device.updArch_at_slot (d : Device) (e : Nat) (f : EngArch → EngArch) (i : Nat) : (d.updArch e f).slot i = d.slot i := rfl
@[simp] theorem Device.updArch_at_unit (d : Device) (e : Nat) (f : EngArch → EngArch) (i j : Nat) : (d.updArch e f).unit i j = d.unit i j := rfl
@[simp] theorem Device.updArch_at_levSrc (d : Device) (e : Nat) (f : EngArch → EngArch) (i : Nat) : (d.updArch e f).levSrc i = d.levSrc i := rfl
@[simp] theorem Device.updArch_at_peer (d : Device) (e : Nat) (f : EngArch → EngArch) (i : Nat) : (d.updArch e f).peer i = d.peer i := rfl
@[simp] theorem Device.updArch_at_reg (d : Device) (e : Nat) (f : EngArch → EngArch) (i : Nat) : (d.updArch e f).reg i = d.reg i := rfl
@[simp] theorem Device.updArch_at_count (d : Device) (e : Nat) (f : EngArch → EngArch) (i : Nat) : (d.updArch e f).count i = d.count i := rfl

/-! ### updLat -/

@[simp] theorem Device.updLat_lat_same (d : Device) (l : Nat) (f : Lateral → Lateral) : (d.updLat l f).lat l = f (d.lat l) := by simp [Device.lat, Device.updLat]
theorem Device.updLat_lat_ne (d : Device) (l : Nat) (f : Lateral → Lateral) {j : Nat} (h : j ≠ l) : (d.updLat l f).lat j = d.lat j := by simp [Device.lat, Device.updLat, Tbl.get_upd_ne _ _ _ h]
@[simp] theorem Device.updLat_part (d : Device) (l : Nat) (f : Lateral → Lateral) : (d.updLat l f).part = d.part := rfl
@[simp] theorem Device.updLat_time (d : Device) (l : Nat) (f : Lateral → Lateral) : (d.updLat l f).time = d.time := rfl
@[simp] theorem Device.updLat_second (d : Device) (l : Nat) (f : Lateral → Lateral) : (d.updLat l f).second = d.second := rfl
@[simp] theorem Device.updLat_free (d : Device) (l : Nat) (f : Lateral → Lateral) : (d.updLat l f).free = d.free := rfl
@[simp] theorem Device.updLat_out (d : Device) (l : Nat) (f : Lateral → Lateral) : (d.updLat l f).out = d.out := rfl
@[simp] theorem Device.updLat_regs (d : Device) (l : Nat) (f : Lateral → Lateral) : (d.updLat l f).regs = d.regs := rfl
@[simp] theorem Device.updLat_cnt (d : Device) (l : Nat) (f : Lateral → Lateral) : (d.updLat l f).cnt = d.cnt := rfl
@[simp] theorem Device.updLat_allots (d : Device) (l : Nat) (f : Lateral → Lateral) : (d.updLat l f).allots = d.allots := rfl
@[simp] theorem Device.updLat_sqs (d : Device) (l : Nat) (f : Lateral → Lateral) : (d.updLat l f).sqs = d.sqs := rfl
@[simp] theorem Device.updLat_cqs (d : Device) (l : Nat) (f : Lateral → Lateral) : (d.updLat l f).cqs = d.cqs := rfl
@[simp] theorem Device.updLat_cmds (d : Device) (l : Nat) (f : Lateral → Lateral) : (d.updLat l f).cmds = d.cmds := rfl
@[simp] theorem Device.updLat_order (d : Device) (l : Nat) (f : Lateral → Lateral) : (d.updLat l f).order = d.order := rfl
@[simp] theorem Device.updLat_nextBatch (d : Device) (l : Nat) (f : Lateral → Lateral) : (d.updLat l f).nextBatch = d.nextBatch := rfl
@[simp] theorem Device.updLat_routines (d : Device) (l : Nat) (f : Lateral → Lateral) : (d.updLat l f).routines = d.routines := rfl
@[simp] theorem Device.updLat_oldImages (d : Device) (l : Nat) (f : Lateral → Lateral) : (d.updLat l f).oldImages = d.oldImages := rfl
@[simp] theorem Device.updLat_ctxs (d : Device) (l : Nat) (f : Lateral → Lateral) : (d.updLat l f).ctxs = d.ctxs := rfl
@[simp] theorem Device.updLat_cache (d : Device) (l : Nat) (f : Lateral → Lateral) : (d.updLat l f).cache = d.cache := rfl
@[simp] theorem Device.updLat_cacheDirty (d : Device) (l : Nat) (f : Lateral → Lateral) : (d.updLat l f).cacheDirty = d.cacheDirty := rfl
@[simp] theorem Device.updLat_weirs (d : Device) (l : Nat) (f : Lateral → Lateral) : (d.updLat l f).weirs = d.weirs := rfl
@[simp] theorem Device.updLat_rsv (d : Device) (l : Nat) (f : Lateral → Lateral) : (d.updLat l f).rsv = d.rsv := rfl
@[simp] theorem Device.updLat_engs (d : Device) (l : Nat) (f : Lateral → Lateral) : (d.updLat l f).engs = d.engs := rfl
@[simp] theorem Device.updLat_saveGen (d : Device) (l : Nat) (f : Lateral → Lateral) : (d.updLat l f).saveGen = d.saveGen := rfl
@[simp] theorem Device.updLat_lastSweep (d : Device) (l : Nat) (f : Lateral → Lateral) : (d.updLat l f).lastSweep = d.lastSweep := rfl
@[simp] theorem Device.updLat_lius (d : Device) (l : Nat) (f : Lateral → Lateral) : (d.updLat l f).lius = d.lius := rfl
@[simp] theorem Device.updLat_liuWait (d : Device) (l : Nat) (f : Lateral → Lateral) : (d.updLat l f).liuWait = d.liuWait := rfl
@[simp] theorem Device.updLat_liuHigh (d : Device) (l : Nat) (f : Lateral → Lateral) : (d.updLat l f).liuHigh = d.liuHigh := rfl
@[simp] theorem Device.updLat_digs (d : Device) (l : Nat) (f : Lateral → Lateral) : (d.updLat l f).digs = d.digs := rfl
@[simp] theorem Device.updLat_digArrive (d : Device) (l : Nat) (f : Lateral → Lateral) : (d.updLat l f).digArrive = d.digArrive := rfl
@[simp] theorem Device.updLat_digWait (d : Device) (l : Nat) (f : Lateral → Lateral) : (d.updLat l f).digWait = d.digWait := rfl
@[simp] theorem Device.updLat_digHigh (d : Device) (l : Nat) (f : Lateral → Lateral) : (d.updLat l f).digHigh = d.digHigh := rfl
@[simp] theorem Device.updLat_digSlotSel (d : Device) (l : Nat) (f : Lateral → Lateral) : (d.updLat l f).digSlotSel = d.digSlotSel := rfl
@[simp] theorem Device.updLat_whd (d : Device) (l : Nat) (f : Lateral → Lateral) : (d.updLat l f).whd = d.whd := rfl
@[simp] theorem Device.updLat_cis (d : Device) (l : Nat) (f : Lateral → Lateral) : (d.updLat l f).cis = d.cis := rfl
@[simp] theorem Device.updLat_ss (d : Device) (l : Nat) (f : Lateral → Lateral) : (d.updLat l f).ss = d.ss := rfl
@[simp] theorem Device.updLat_gates (d : Device) (l : Nat) (f : Lateral → Lateral) : (d.updLat l f).gates = d.gates := rfl
@[simp] theorem Device.updLat_dselGate (d : Device) (l : Nat) (f : Lateral → Lateral) : (d.updLat l f).dselGate = d.dselGate := rfl
@[simp] theorem Device.updLat_dselRegion (d : Device) (l : Nat) (f : Lateral → Lateral) : (d.updLat l f).dselRegion = d.dselRegion := rfl
@[simp] theorem Device.updLat_dselErr (d : Device) (l : Nat) (f : Lateral → Lateral) : (d.updLat l f).dselErr = d.dselErr := rfl
@[simp] theorem Device.updLat_dselCause (d : Device) (l : Nat) (f : Lateral → Lateral) : (d.updLat l f).dselCause = d.dselCause := rfl
@[simp] theorem Device.updLat_dstage (d : Device) (l : Nat) (f : Lateral → Lateral) : (d.updLat l f).dstage = d.dstage := rfl
@[simp] theorem Device.updLat_fl (d : Device) (l : Nat) (f : Lateral → Lateral) : (d.updLat l f).fl = d.fl := rfl
@[simp] theorem Device.updLat_flt (d : Device) (l : Nat) (f : Lateral → Lateral) : (d.updLat l f).flt = d.flt := rfl
@[simp] theorem Device.updLat_lev (d : Device) (l : Nat) (f : Lateral → Lateral) : (d.updLat l f).lev = d.lev := rfl
@[simp] theorem Device.updLat_evr (d : Device) (l : Nat) (f : Lateral → Lateral) : (d.updLat l f).evr = d.evr := rfl
@[simp] theorem Device.updLat_ws (d : Device) (l : Nat) (f : Lateral → Lateral) : (d.updLat l f).ws = d.ws := rfl
@[simp] theorem Device.updLat_md (d : Device) (l : Nat) (f : Lateral → Lateral) : (d.updLat l f).md = d.md := rfl
@[simp] theorem Device.updLat_boot (d : Device) (l : Nat) (f : Lateral → Lateral) : (d.updLat l f).boot = d.boot := rfl
@[simp] theorem Device.updLat_brd (d : Device) (l : Nat) (f : Lateral → Lateral) : (d.updLat l f).brd = d.brd := rfl
@[simp] theorem Device.updLat_at_allot (d : Device) (l : Nat) (f : Lateral → Lateral) (i : Nat) : (d.updLat l f).allot i = d.allot i := rfl
@[simp] theorem Device.updLat_at_sq (d : Device) (l : Nat) (f : Lateral → Lateral) (i j : Nat) : (d.updLat l f).sq i j = d.sq i j := rfl
@[simp] theorem Device.updLat_at_cq (d : Device) (l : Nat) (f : Lateral → Lateral) (i j : Nat) : (d.updLat l f).cq i j = d.cq i j := rfl
@[simp] theorem Device.updLat_at_adm (d : Device) (l : Nat) (f : Lateral → Lateral) (i : Nat) : (d.updLat l f).adm i = d.adm i := rfl
@[simp] theorem Device.updLat_at_cmd (d : Device) (l : Nat) (f : Lateral → Lateral) (i : Nat) : (d.updLat l f).cmd i = d.cmd i := rfl
@[simp] theorem Device.updLat_at_ctx (d : Device) (l : Nat) (f : Lateral → Lateral) (i : Nat) : (d.updLat l f).ctx i = d.ctx i := rfl
@[simp] theorem Device.updLat_at_weir (d : Device) (l : Nat) (f : Lateral → Lateral) (i : Nat) : (d.updLat l f).weir i = d.weir i := rfl
@[simp] theorem Device.updLat_at_eng (d : Device) (l : Nat) (f : Lateral → Lateral) (i : Nat) : (d.updLat l f).eng i = d.eng i := rfl
@[simp] theorem Device.updLat_at_liu (d : Device) (l : Nat) (f : Lateral → Lateral) (i : Nat) : (d.updLat l f).liu i = d.liu i := rfl
@[simp] theorem Device.updLat_at_dig (d : Device) (l : Nat) (f : Lateral → Lateral) (i : Nat) : (d.updLat l f).dig i = d.dig i := rfl
@[simp] theorem Device.updLat_at_gate (d : Device) (l : Nat) (f : Lateral → Lateral) (i : Nat) : (d.updLat l f).gate i = d.gate i := rfl
@[simp] theorem Device.updLat_at_drbg (d : Device) (l : Nat) (f : Lateral → Lateral) (i : Nat) : (d.updLat l f).drbg i = d.drbg i := rfl
@[simp] theorem Device.updLat_at_slot (d : Device) (l : Nat) (f : Lateral → Lateral) (i : Nat) : (d.updLat l f).slot i = d.slot i := rfl
@[simp] theorem Device.updLat_at_unit (d : Device) (l : Nat) (f : Lateral → Lateral) (i j : Nat) : (d.updLat l f).unit i j = d.unit i j := rfl
@[simp] theorem Device.updLat_at_levSrc (d : Device) (l : Nat) (f : Lateral → Lateral) (i : Nat) : (d.updLat l f).levSrc i = d.levSrc i := rfl
@[simp] theorem Device.updLat_at_peer (d : Device) (l : Nat) (f : Lateral → Lateral) (i : Nat) : (d.updLat l f).peer i = d.peer i := rfl
@[simp] theorem Device.updLat_at_reg (d : Device) (l : Nat) (f : Lateral → Lateral) (i : Nat) : (d.updLat l f).reg i = d.reg i := rfl
@[simp] theorem Device.updLat_at_count (d : Device) (l : Nat) (f : Lateral → Lateral) (i : Nat) : (d.updLat l f).count i = d.count i := rfl

/-! ### updLiu -/

@[simp] theorem Device.updLiu_liu_same (d : Device) (k : Nat) (f : Liu → Liu) : (d.updLiu k f).liu k = f (d.liu k) := by simp [Device.liu, Device.updLiu]
theorem Device.updLiu_liu_ne (d : Device) (k : Nat) (f : Liu → Liu) {j : Nat} (h : j ≠ k) : (d.updLiu k f).liu j = d.liu j := by simp [Device.liu, Device.updLiu, Tbl.get_upd_ne _ _ _ h]
@[simp] theorem Device.updLiu_part (d : Device) (k : Nat) (f : Liu → Liu) : (d.updLiu k f).part = d.part := rfl
@[simp] theorem Device.updLiu_time (d : Device) (k : Nat) (f : Liu → Liu) : (d.updLiu k f).time = d.time := rfl
@[simp] theorem Device.updLiu_second (d : Device) (k : Nat) (f : Liu → Liu) : (d.updLiu k f).second = d.second := rfl
@[simp] theorem Device.updLiu_free (d : Device) (k : Nat) (f : Liu → Liu) : (d.updLiu k f).free = d.free := rfl
@[simp] theorem Device.updLiu_out (d : Device) (k : Nat) (f : Liu → Liu) : (d.updLiu k f).out = d.out := rfl
@[simp] theorem Device.updLiu_regs (d : Device) (k : Nat) (f : Liu → Liu) : (d.updLiu k f).regs = d.regs := rfl
@[simp] theorem Device.updLiu_cnt (d : Device) (k : Nat) (f : Liu → Liu) : (d.updLiu k f).cnt = d.cnt := rfl
@[simp] theorem Device.updLiu_allots (d : Device) (k : Nat) (f : Liu → Liu) : (d.updLiu k f).allots = d.allots := rfl
@[simp] theorem Device.updLiu_sqs (d : Device) (k : Nat) (f : Liu → Liu) : (d.updLiu k f).sqs = d.sqs := rfl
@[simp] theorem Device.updLiu_cqs (d : Device) (k : Nat) (f : Liu → Liu) : (d.updLiu k f).cqs = d.cqs := rfl
@[simp] theorem Device.updLiu_cmds (d : Device) (k : Nat) (f : Liu → Liu) : (d.updLiu k f).cmds = d.cmds := rfl
@[simp] theorem Device.updLiu_order (d : Device) (k : Nat) (f : Liu → Liu) : (d.updLiu k f).order = d.order := rfl
@[simp] theorem Device.updLiu_nextBatch (d : Device) (k : Nat) (f : Liu → Liu) : (d.updLiu k f).nextBatch = d.nextBatch := rfl
@[simp] theorem Device.updLiu_routines (d : Device) (k : Nat) (f : Liu → Liu) : (d.updLiu k f).routines = d.routines := rfl
@[simp] theorem Device.updLiu_oldImages (d : Device) (k : Nat) (f : Liu → Liu) : (d.updLiu k f).oldImages = d.oldImages := rfl
@[simp] theorem Device.updLiu_ctxs (d : Device) (k : Nat) (f : Liu → Liu) : (d.updLiu k f).ctxs = d.ctxs := rfl
@[simp] theorem Device.updLiu_cache (d : Device) (k : Nat) (f : Liu → Liu) : (d.updLiu k f).cache = d.cache := rfl
@[simp] theorem Device.updLiu_cacheDirty (d : Device) (k : Nat) (f : Liu → Liu) : (d.updLiu k f).cacheDirty = d.cacheDirty := rfl
@[simp] theorem Device.updLiu_weirs (d : Device) (k : Nat) (f : Liu → Liu) : (d.updLiu k f).weirs = d.weirs := rfl
@[simp] theorem Device.updLiu_rsv (d : Device) (k : Nat) (f : Liu → Liu) : (d.updLiu k f).rsv = d.rsv := rfl
@[simp] theorem Device.updLiu_engs (d : Device) (k : Nat) (f : Liu → Liu) : (d.updLiu k f).engs = d.engs := rfl
@[simp] theorem Device.updLiu_lats (d : Device) (k : Nat) (f : Liu → Liu) : (d.updLiu k f).lats = d.lats := rfl
@[simp] theorem Device.updLiu_saveGen (d : Device) (k : Nat) (f : Liu → Liu) : (d.updLiu k f).saveGen = d.saveGen := rfl
@[simp] theorem Device.updLiu_lastSweep (d : Device) (k : Nat) (f : Liu → Liu) : (d.updLiu k f).lastSweep = d.lastSweep := rfl
@[simp] theorem Device.updLiu_liuWait (d : Device) (k : Nat) (f : Liu → Liu) : (d.updLiu k f).liuWait = d.liuWait := rfl
@[simp] theorem Device.updLiu_liuHigh (d : Device) (k : Nat) (f : Liu → Liu) : (d.updLiu k f).liuHigh = d.liuHigh := rfl
@[simp] theorem Device.updLiu_digs (d : Device) (k : Nat) (f : Liu → Liu) : (d.updLiu k f).digs = d.digs := rfl
@[simp] theorem Device.updLiu_digArrive (d : Device) (k : Nat) (f : Liu → Liu) : (d.updLiu k f).digArrive = d.digArrive := rfl
@[simp] theorem Device.updLiu_digWait (d : Device) (k : Nat) (f : Liu → Liu) : (d.updLiu k f).digWait = d.digWait := rfl
@[simp] theorem Device.updLiu_digHigh (d : Device) (k : Nat) (f : Liu → Liu) : (d.updLiu k f).digHigh = d.digHigh := rfl
@[simp] theorem Device.updLiu_digSlotSel (d : Device) (k : Nat) (f : Liu → Liu) : (d.updLiu k f).digSlotSel = d.digSlotSel := rfl
@[simp] theorem Device.updLiu_whd (d : Device) (k : Nat) (f : Liu → Liu) : (d.updLiu k f).whd = d.whd := rfl
@[simp] theorem Device.updLiu_cis (d : Device) (k : Nat) (f : Liu → Liu) : (d.updLiu k f).cis = d.cis := rfl
@[simp] theorem Device.updLiu_ss (d : Device) (k : Nat) (f : Liu → Liu) : (d.updLiu k f).ss = d.ss := rfl
@[simp] theorem Device.updLiu_gates (d : Device) (k : Nat) (f : Liu → Liu) : (d.updLiu k f).gates = d.gates := rfl
@[simp] theorem Device.updLiu_dselGate (d : Device) (k : Nat) (f : Liu → Liu) : (d.updLiu k f).dselGate = d.dselGate := rfl
@[simp] theorem Device.updLiu_dselRegion (d : Device) (k : Nat) (f : Liu → Liu) : (d.updLiu k f).dselRegion = d.dselRegion := rfl
@[simp] theorem Device.updLiu_dselErr (d : Device) (k : Nat) (f : Liu → Liu) : (d.updLiu k f).dselErr = d.dselErr := rfl
@[simp] theorem Device.updLiu_dselCause (d : Device) (k : Nat) (f : Liu → Liu) : (d.updLiu k f).dselCause = d.dselCause := rfl
@[simp] theorem Device.updLiu_dstage (d : Device) (k : Nat) (f : Liu → Liu) : (d.updLiu k f).dstage = d.dstage := rfl
@[simp] theorem Device.updLiu_fl (d : Device) (k : Nat) (f : Liu → Liu) : (d.updLiu k f).fl = d.fl := rfl
@[simp] theorem Device.updLiu_flt (d : Device) (k : Nat) (f : Liu → Liu) : (d.updLiu k f).flt = d.flt := rfl
@[simp] theorem Device.updLiu_lev (d : Device) (k : Nat) (f : Liu → Liu) : (d.updLiu k f).lev = d.lev := rfl
@[simp] theorem Device.updLiu_evr (d : Device) (k : Nat) (f : Liu → Liu) : (d.updLiu k f).evr = d.evr := rfl
@[simp] theorem Device.updLiu_ws (d : Device) (k : Nat) (f : Liu → Liu) : (d.updLiu k f).ws = d.ws := rfl
@[simp] theorem Device.updLiu_md (d : Device) (k : Nat) (f : Liu → Liu) : (d.updLiu k f).md = d.md := rfl
@[simp] theorem Device.updLiu_boot (d : Device) (k : Nat) (f : Liu → Liu) : (d.updLiu k f).boot = d.boot := rfl
@[simp] theorem Device.updLiu_brd (d : Device) (k : Nat) (f : Liu → Liu) : (d.updLiu k f).brd = d.brd := rfl
@[simp] theorem Device.updLiu_at_allot (d : Device) (k : Nat) (f : Liu → Liu) (i : Nat) : (d.updLiu k f).allot i = d.allot i := rfl
@[simp] theorem Device.updLiu_at_sq (d : Device) (k : Nat) (f : Liu → Liu) (i j : Nat) : (d.updLiu k f).sq i j = d.sq i j := rfl
@[simp] theorem Device.updLiu_at_cq (d : Device) (k : Nat) (f : Liu → Liu) (i j : Nat) : (d.updLiu k f).cq i j = d.cq i j := rfl
@[simp] theorem Device.updLiu_at_adm (d : Device) (k : Nat) (f : Liu → Liu) (i : Nat) : (d.updLiu k f).adm i = d.adm i := rfl
@[simp] theorem Device.updLiu_at_cmd (d : Device) (k : Nat) (f : Liu → Liu) (i : Nat) : (d.updLiu k f).cmd i = d.cmd i := rfl
@[simp] theorem Device.updLiu_at_ctx (d : Device) (k : Nat) (f : Liu → Liu) (i : Nat) : (d.updLiu k f).ctx i = d.ctx i := rfl
@[simp] theorem Device.updLiu_at_weir (d : Device) (k : Nat) (f : Liu → Liu) (i : Nat) : (d.updLiu k f).weir i = d.weir i := rfl
@[simp] theorem Device.updLiu_at_eng (d : Device) (k : Nat) (f : Liu → Liu) (i : Nat) : (d.updLiu k f).eng i = d.eng i := rfl
@[simp] theorem Device.updLiu_at_lat (d : Device) (k : Nat) (f : Liu → Liu) (i : Nat) : (d.updLiu k f).lat i = d.lat i := rfl
@[simp] theorem Device.updLiu_at_dig (d : Device) (k : Nat) (f : Liu → Liu) (i : Nat) : (d.updLiu k f).dig i = d.dig i := rfl
@[simp] theorem Device.updLiu_at_gate (d : Device) (k : Nat) (f : Liu → Liu) (i : Nat) : (d.updLiu k f).gate i = d.gate i := rfl
@[simp] theorem Device.updLiu_at_drbg (d : Device) (k : Nat) (f : Liu → Liu) (i : Nat) : (d.updLiu k f).drbg i = d.drbg i := rfl
@[simp] theorem Device.updLiu_at_slot (d : Device) (k : Nat) (f : Liu → Liu) (i : Nat) : (d.updLiu k f).slot i = d.slot i := rfl
@[simp] theorem Device.updLiu_at_unit (d : Device) (k : Nat) (f : Liu → Liu) (i j : Nat) : (d.updLiu k f).unit i j = d.unit i j := rfl
@[simp] theorem Device.updLiu_at_levSrc (d : Device) (k : Nat) (f : Liu → Liu) (i : Nat) : (d.updLiu k f).levSrc i = d.levSrc i := rfl
@[simp] theorem Device.updLiu_at_peer (d : Device) (k : Nat) (f : Liu → Liu) (i : Nat) : (d.updLiu k f).peer i = d.peer i := rfl
@[simp] theorem Device.updLiu_at_reg (d : Device) (k : Nat) (f : Liu → Liu) (i : Nat) : (d.updLiu k f).reg i = d.reg i := rfl
@[simp] theorem Device.updLiu_at_count (d : Device) (k : Nat) (f : Liu → Liu) (i : Nat) : (d.updLiu k f).count i = d.count i := rfl

/-! ### updDig -/

@[simp] theorem Device.updDig_dig_same (d : Device) (k : Nat) (f : Dig → Dig) : (d.updDig k f).dig k = f (d.dig k) := by simp [Device.dig, Device.updDig]
theorem Device.updDig_dig_ne (d : Device) (k : Nat) (f : Dig → Dig) {j : Nat} (h : j ≠ k) : (d.updDig k f).dig j = d.dig j := by simp [Device.dig, Device.updDig, Tbl.get_upd_ne _ _ _ h]
@[simp] theorem Device.updDig_part (d : Device) (k : Nat) (f : Dig → Dig) : (d.updDig k f).part = d.part := rfl
@[simp] theorem Device.updDig_time (d : Device) (k : Nat) (f : Dig → Dig) : (d.updDig k f).time = d.time := rfl
@[simp] theorem Device.updDig_second (d : Device) (k : Nat) (f : Dig → Dig) : (d.updDig k f).second = d.second := rfl
@[simp] theorem Device.updDig_free (d : Device) (k : Nat) (f : Dig → Dig) : (d.updDig k f).free = d.free := rfl
@[simp] theorem Device.updDig_out (d : Device) (k : Nat) (f : Dig → Dig) : (d.updDig k f).out = d.out := rfl
@[simp] theorem Device.updDig_regs (d : Device) (k : Nat) (f : Dig → Dig) : (d.updDig k f).regs = d.regs := rfl
@[simp] theorem Device.updDig_cnt (d : Device) (k : Nat) (f : Dig → Dig) : (d.updDig k f).cnt = d.cnt := rfl
@[simp] theorem Device.updDig_allots (d : Device) (k : Nat) (f : Dig → Dig) : (d.updDig k f).allots = d.allots := rfl
@[simp] theorem Device.updDig_sqs (d : Device) (k : Nat) (f : Dig → Dig) : (d.updDig k f).sqs = d.sqs := rfl
@[simp] theorem Device.updDig_cqs (d : Device) (k : Nat) (f : Dig → Dig) : (d.updDig k f).cqs = d.cqs := rfl
@[simp] theorem Device.updDig_cmds (d : Device) (k : Nat) (f : Dig → Dig) : (d.updDig k f).cmds = d.cmds := rfl
@[simp] theorem Device.updDig_order (d : Device) (k : Nat) (f : Dig → Dig) : (d.updDig k f).order = d.order := rfl
@[simp] theorem Device.updDig_nextBatch (d : Device) (k : Nat) (f : Dig → Dig) : (d.updDig k f).nextBatch = d.nextBatch := rfl
@[simp] theorem Device.updDig_routines (d : Device) (k : Nat) (f : Dig → Dig) : (d.updDig k f).routines = d.routines := rfl
@[simp] theorem Device.updDig_oldImages (d : Device) (k : Nat) (f : Dig → Dig) : (d.updDig k f).oldImages = d.oldImages := rfl
@[simp] theorem Device.updDig_ctxs (d : Device) (k : Nat) (f : Dig → Dig) : (d.updDig k f).ctxs = d.ctxs := rfl
@[simp] theorem Device.updDig_cache (d : Device) (k : Nat) (f : Dig → Dig) : (d.updDig k f).cache = d.cache := rfl
@[simp] theorem Device.updDig_cacheDirty (d : Device) (k : Nat) (f : Dig → Dig) : (d.updDig k f).cacheDirty = d.cacheDirty := rfl
@[simp] theorem Device.updDig_weirs (d : Device) (k : Nat) (f : Dig → Dig) : (d.updDig k f).weirs = d.weirs := rfl
@[simp] theorem Device.updDig_rsv (d : Device) (k : Nat) (f : Dig → Dig) : (d.updDig k f).rsv = d.rsv := rfl
@[simp] theorem Device.updDig_engs (d : Device) (k : Nat) (f : Dig → Dig) : (d.updDig k f).engs = d.engs := rfl
@[simp] theorem Device.updDig_lats (d : Device) (k : Nat) (f : Dig → Dig) : (d.updDig k f).lats = d.lats := rfl
@[simp] theorem Device.updDig_saveGen (d : Device) (k : Nat) (f : Dig → Dig) : (d.updDig k f).saveGen = d.saveGen := rfl
@[simp] theorem Device.updDig_lastSweep (d : Device) (k : Nat) (f : Dig → Dig) : (d.updDig k f).lastSweep = d.lastSweep := rfl
@[simp] theorem Device.updDig_lius (d : Device) (k : Nat) (f : Dig → Dig) : (d.updDig k f).lius = d.lius := rfl
@[simp] theorem Device.updDig_liuWait (d : Device) (k : Nat) (f : Dig → Dig) : (d.updDig k f).liuWait = d.liuWait := rfl
@[simp] theorem Device.updDig_liuHigh (d : Device) (k : Nat) (f : Dig → Dig) : (d.updDig k f).liuHigh = d.liuHigh := rfl
@[simp] theorem Device.updDig_digArrive (d : Device) (k : Nat) (f : Dig → Dig) : (d.updDig k f).digArrive = d.digArrive := rfl
@[simp] theorem Device.updDig_digWait (d : Device) (k : Nat) (f : Dig → Dig) : (d.updDig k f).digWait = d.digWait := rfl
@[simp] theorem Device.updDig_digHigh (d : Device) (k : Nat) (f : Dig → Dig) : (d.updDig k f).digHigh = d.digHigh := rfl
@[simp] theorem Device.updDig_digSlotSel (d : Device) (k : Nat) (f : Dig → Dig) : (d.updDig k f).digSlotSel = d.digSlotSel := rfl
@[simp] theorem Device.updDig_whd (d : Device) (k : Nat) (f : Dig → Dig) : (d.updDig k f).whd = d.whd := rfl
@[simp] theorem Device.updDig_cis (d : Device) (k : Nat) (f : Dig → Dig) : (d.updDig k f).cis = d.cis := rfl
@[simp] theorem Device.updDig_ss (d : Device) (k : Nat) (f : Dig → Dig) : (d.updDig k f).ss = d.ss := rfl
@[simp] theorem Device.updDig_gates (d : Device) (k : Nat) (f : Dig → Dig) : (d.updDig k f).gates = d.gates := rfl
@[simp] theorem Device.updDig_dselGate (d : Device) (k : Nat) (f : Dig → Dig) : (d.updDig k f).dselGate = d.dselGate := rfl
@[simp] theorem Device.updDig_dselRegion (d : Device) (k : Nat) (f : Dig → Dig) : (d.updDig k f).dselRegion = d.dselRegion := rfl
@[simp] theorem Device.updDig_dselErr (d : Device) (k : Nat) (f : Dig → Dig) : (d.updDig k f).dselErr = d.dselErr := rfl
@[simp] theorem Device.updDig_dselCause (d : Device) (k : Nat) (f : Dig → Dig) : (d.updDig k f).dselCause = d.dselCause := rfl
@[simp] theorem Device.updDig_dstage (d : Device) (k : Nat) (f : Dig → Dig) : (d.updDig k f).dstage = d.dstage := rfl
@[simp] theorem Device.updDig_fl (d : Device) (k : Nat) (f : Dig → Dig) : (d.updDig k f).fl = d.fl := rfl
@[simp] theorem Device.updDig_flt (d : Device) (k : Nat) (f : Dig → Dig) : (d.updDig k f).flt = d.flt := rfl
@[simp] theorem Device.updDig_lev (d : Device) (k : Nat) (f : Dig → Dig) : (d.updDig k f).lev = d.lev := rfl
@[simp] theorem Device.updDig_evr (d : Device) (k : Nat) (f : Dig → Dig) : (d.updDig k f).evr = d.evr := rfl
@[simp] theorem Device.updDig_ws (d : Device) (k : Nat) (f : Dig → Dig) : (d.updDig k f).ws = d.ws := rfl
@[simp] theorem Device.updDig_md (d : Device) (k : Nat) (f : Dig → Dig) : (d.updDig k f).md = d.md := rfl
@[simp] theorem Device.updDig_boot (d : Device) (k : Nat) (f : Dig → Dig) : (d.updDig k f).boot = d.boot := rfl
@[simp] theorem Device.updDig_brd (d : Device) (k : Nat) (f : Dig → Dig) : (d.updDig k f).brd = d.brd := rfl
@[simp] theorem Device.updDig_at_allot (d : Device) (k : Nat) (f : Dig → Dig) (i : Nat) : (d.updDig k f).allot i = d.allot i := rfl
@[simp] theorem Device.updDig_at_sq (d : Device) (k : Nat) (f : Dig → Dig) (i j : Nat) : (d.updDig k f).sq i j = d.sq i j := rfl
@[simp] theorem Device.updDig_at_cq (d : Device) (k : Nat) (f : Dig → Dig) (i j : Nat) : (d.updDig k f).cq i j = d.cq i j := rfl
@[simp] theorem Device.updDig_at_adm (d : Device) (k : Nat) (f : Dig → Dig) (i : Nat) : (d.updDig k f).adm i = d.adm i := rfl
@[simp] theorem Device.updDig_at_cmd (d : Device) (k : Nat) (f : Dig → Dig) (i : Nat) : (d.updDig k f).cmd i = d.cmd i := rfl
@[simp] theorem Device.updDig_at_ctx (d : Device) (k : Nat) (f : Dig → Dig) (i : Nat) : (d.updDig k f).ctx i = d.ctx i := rfl
@[simp] theorem Device.updDig_at_weir (d : Device) (k : Nat) (f : Dig → Dig) (i : Nat) : (d.updDig k f).weir i = d.weir i := rfl
@[simp] theorem Device.updDig_at_eng (d : Device) (k : Nat) (f : Dig → Dig) (i : Nat) : (d.updDig k f).eng i = d.eng i := rfl
@[simp] theorem Device.updDig_at_lat (d : Device) (k : Nat) (f : Dig → Dig) (i : Nat) : (d.updDig k f).lat i = d.lat i := rfl
@[simp] theorem Device.updDig_at_liu (d : Device) (k : Nat) (f : Dig → Dig) (i : Nat) : (d.updDig k f).liu i = d.liu i := rfl
@[simp] theorem Device.updDig_at_gate (d : Device) (k : Nat) (f : Dig → Dig) (i : Nat) : (d.updDig k f).gate i = d.gate i := rfl
@[simp] theorem Device.updDig_at_drbg (d : Device) (k : Nat) (f : Dig → Dig) (i : Nat) : (d.updDig k f).drbg i = d.drbg i := rfl
@[simp] theorem Device.updDig_at_slot (d : Device) (k : Nat) (f : Dig → Dig) (i : Nat) : (d.updDig k f).slot i = d.slot i := rfl
@[simp] theorem Device.updDig_at_unit (d : Device) (k : Nat) (f : Dig → Dig) (i j : Nat) : (d.updDig k f).unit i j = d.unit i j := rfl
@[simp] theorem Device.updDig_at_levSrc (d : Device) (k : Nat) (f : Dig → Dig) (i : Nat) : (d.updDig k f).levSrc i = d.levSrc i := rfl
@[simp] theorem Device.updDig_at_peer (d : Device) (k : Nat) (f : Dig → Dig) (i : Nat) : (d.updDig k f).peer i = d.peer i := rfl
@[simp] theorem Device.updDig_at_reg (d : Device) (k : Nat) (f : Dig → Dig) (i : Nat) : (d.updDig k f).reg i = d.reg i := rfl
@[simp] theorem Device.updDig_at_count (d : Device) (k : Nat) (f : Dig → Dig) (i : Nat) : (d.updDig k f).count i = d.count i := rfl

/-! ### updGate -/

@[simp] theorem Device.updGate_gate_same (d : Device) (g : Nat) (f : Gate → Gate) : (d.updGate g f).gate g = f (d.gate g) := by simp [Device.gate, Device.updGate]
theorem Device.updGate_gate_ne (d : Device) (g : Nat) (f : Gate → Gate) {j : Nat} (h : j ≠ g) : (d.updGate g f).gate j = d.gate j := by simp [Device.gate, Device.updGate, Tbl.get_upd_ne _ _ _ h]
@[simp] theorem Device.updGate_part (d : Device) (g : Nat) (f : Gate → Gate) : (d.updGate g f).part = d.part := rfl
@[simp] theorem Device.updGate_time (d : Device) (g : Nat) (f : Gate → Gate) : (d.updGate g f).time = d.time := rfl
@[simp] theorem Device.updGate_second (d : Device) (g : Nat) (f : Gate → Gate) : (d.updGate g f).second = d.second := rfl
@[simp] theorem Device.updGate_free (d : Device) (g : Nat) (f : Gate → Gate) : (d.updGate g f).free = d.free := rfl
@[simp] theorem Device.updGate_out (d : Device) (g : Nat) (f : Gate → Gate) : (d.updGate g f).out = d.out := rfl
@[simp] theorem Device.updGate_regs (d : Device) (g : Nat) (f : Gate → Gate) : (d.updGate g f).regs = d.regs := rfl
@[simp] theorem Device.updGate_cnt (d : Device) (g : Nat) (f : Gate → Gate) : (d.updGate g f).cnt = d.cnt := rfl
@[simp] theorem Device.updGate_allots (d : Device) (g : Nat) (f : Gate → Gate) : (d.updGate g f).allots = d.allots := rfl
@[simp] theorem Device.updGate_sqs (d : Device) (g : Nat) (f : Gate → Gate) : (d.updGate g f).sqs = d.sqs := rfl
@[simp] theorem Device.updGate_cqs (d : Device) (g : Nat) (f : Gate → Gate) : (d.updGate g f).cqs = d.cqs := rfl
@[simp] theorem Device.updGate_cmds (d : Device) (g : Nat) (f : Gate → Gate) : (d.updGate g f).cmds = d.cmds := rfl
@[simp] theorem Device.updGate_order (d : Device) (g : Nat) (f : Gate → Gate) : (d.updGate g f).order = d.order := rfl
@[simp] theorem Device.updGate_nextBatch (d : Device) (g : Nat) (f : Gate → Gate) : (d.updGate g f).nextBatch = d.nextBatch := rfl
@[simp] theorem Device.updGate_routines (d : Device) (g : Nat) (f : Gate → Gate) : (d.updGate g f).routines = d.routines := rfl
@[simp] theorem Device.updGate_oldImages (d : Device) (g : Nat) (f : Gate → Gate) : (d.updGate g f).oldImages = d.oldImages := rfl
@[simp] theorem Device.updGate_ctxs (d : Device) (g : Nat) (f : Gate → Gate) : (d.updGate g f).ctxs = d.ctxs := rfl
@[simp] theorem Device.updGate_cache (d : Device) (g : Nat) (f : Gate → Gate) : (d.updGate g f).cache = d.cache := rfl
@[simp] theorem Device.updGate_cacheDirty (d : Device) (g : Nat) (f : Gate → Gate) : (d.updGate g f).cacheDirty = d.cacheDirty := rfl
@[simp] theorem Device.updGate_weirs (d : Device) (g : Nat) (f : Gate → Gate) : (d.updGate g f).weirs = d.weirs := rfl
@[simp] theorem Device.updGate_rsv (d : Device) (g : Nat) (f : Gate → Gate) : (d.updGate g f).rsv = d.rsv := rfl
@[simp] theorem Device.updGate_engs (d : Device) (g : Nat) (f : Gate → Gate) : (d.updGate g f).engs = d.engs := rfl
@[simp] theorem Device.updGate_lats (d : Device) (g : Nat) (f : Gate → Gate) : (d.updGate g f).lats = d.lats := rfl
@[simp] theorem Device.updGate_saveGen (d : Device) (g : Nat) (f : Gate → Gate) : (d.updGate g f).saveGen = d.saveGen := rfl
@[simp] theorem Device.updGate_lastSweep (d : Device) (g : Nat) (f : Gate → Gate) : (d.updGate g f).lastSweep = d.lastSweep := rfl
@[simp] theorem Device.updGate_lius (d : Device) (g : Nat) (f : Gate → Gate) : (d.updGate g f).lius = d.lius := rfl
@[simp] theorem Device.updGate_liuWait (d : Device) (g : Nat) (f : Gate → Gate) : (d.updGate g f).liuWait = d.liuWait := rfl
@[simp] theorem Device.updGate_liuHigh (d : Device) (g : Nat) (f : Gate → Gate) : (d.updGate g f).liuHigh = d.liuHigh := rfl
@[simp] theorem Device.updGate_digs (d : Device) (g : Nat) (f : Gate → Gate) : (d.updGate g f).digs = d.digs := rfl
@[simp] theorem Device.updGate_digArrive (d : Device) (g : Nat) (f : Gate → Gate) : (d.updGate g f).digArrive = d.digArrive := rfl
@[simp] theorem Device.updGate_digWait (d : Device) (g : Nat) (f : Gate → Gate) : (d.updGate g f).digWait = d.digWait := rfl
@[simp] theorem Device.updGate_digHigh (d : Device) (g : Nat) (f : Gate → Gate) : (d.updGate g f).digHigh = d.digHigh := rfl
@[simp] theorem Device.updGate_digSlotSel (d : Device) (g : Nat) (f : Gate → Gate) : (d.updGate g f).digSlotSel = d.digSlotSel := rfl
@[simp] theorem Device.updGate_whd (d : Device) (g : Nat) (f : Gate → Gate) : (d.updGate g f).whd = d.whd := rfl
@[simp] theorem Device.updGate_cis (d : Device) (g : Nat) (f : Gate → Gate) : (d.updGate g f).cis = d.cis := rfl
@[simp] theorem Device.updGate_ss (d : Device) (g : Nat) (f : Gate → Gate) : (d.updGate g f).ss = d.ss := rfl
@[simp] theorem Device.updGate_dselGate (d : Device) (g : Nat) (f : Gate → Gate) : (d.updGate g f).dselGate = d.dselGate := rfl
@[simp] theorem Device.updGate_dselRegion (d : Device) (g : Nat) (f : Gate → Gate) : (d.updGate g f).dselRegion = d.dselRegion := rfl
@[simp] theorem Device.updGate_dselErr (d : Device) (g : Nat) (f : Gate → Gate) : (d.updGate g f).dselErr = d.dselErr := rfl
@[simp] theorem Device.updGate_dselCause (d : Device) (g : Nat) (f : Gate → Gate) : (d.updGate g f).dselCause = d.dselCause := rfl
@[simp] theorem Device.updGate_dstage (d : Device) (g : Nat) (f : Gate → Gate) : (d.updGate g f).dstage = d.dstage := rfl
@[simp] theorem Device.updGate_fl (d : Device) (g : Nat) (f : Gate → Gate) : (d.updGate g f).fl = d.fl := rfl
@[simp] theorem Device.updGate_flt (d : Device) (g : Nat) (f : Gate → Gate) : (d.updGate g f).flt = d.flt := rfl
@[simp] theorem Device.updGate_lev (d : Device) (g : Nat) (f : Gate → Gate) : (d.updGate g f).lev = d.lev := rfl
@[simp] theorem Device.updGate_evr (d : Device) (g : Nat) (f : Gate → Gate) : (d.updGate g f).evr = d.evr := rfl
@[simp] theorem Device.updGate_ws (d : Device) (g : Nat) (f : Gate → Gate) : (d.updGate g f).ws = d.ws := rfl
@[simp] theorem Device.updGate_md (d : Device) (g : Nat) (f : Gate → Gate) : (d.updGate g f).md = d.md := rfl
@[simp] theorem Device.updGate_boot (d : Device) (g : Nat) (f : Gate → Gate) : (d.updGate g f).boot = d.boot := rfl
@[simp] theorem Device.updGate_brd (d : Device) (g : Nat) (f : Gate → Gate) : (d.updGate g f).brd = d.brd := rfl
@[simp] theorem Device.updGate_at_allot (d : Device) (g : Nat) (f : Gate → Gate) (i : Nat) : (d.updGate g f).allot i = d.allot i := rfl
@[simp] theorem Device.updGate_at_sq (d : Device) (g : Nat) (f : Gate → Gate) (i j : Nat) : (d.updGate g f).sq i j = d.sq i j := rfl
@[simp] theorem Device.updGate_at_cq (d : Device) (g : Nat) (f : Gate → Gate) (i j : Nat) : (d.updGate g f).cq i j = d.cq i j := rfl
@[simp] theorem Device.updGate_at_adm (d : Device) (g : Nat) (f : Gate → Gate) (i : Nat) : (d.updGate g f).adm i = d.adm i := rfl
@[simp] theorem Device.updGate_at_cmd (d : Device) (g : Nat) (f : Gate → Gate) (i : Nat) : (d.updGate g f).cmd i = d.cmd i := rfl
@[simp] theorem Device.updGate_at_ctx (d : Device) (g : Nat) (f : Gate → Gate) (i : Nat) : (d.updGate g f).ctx i = d.ctx i := rfl
@[simp] theorem Device.updGate_at_weir (d : Device) (g : Nat) (f : Gate → Gate) (i : Nat) : (d.updGate g f).weir i = d.weir i := rfl
@[simp] theorem Device.updGate_at_eng (d : Device) (g : Nat) (f : Gate → Gate) (i : Nat) : (d.updGate g f).eng i = d.eng i := rfl
@[simp] theorem Device.updGate_at_lat (d : Device) (g : Nat) (f : Gate → Gate) (i : Nat) : (d.updGate g f).lat i = d.lat i := rfl
@[simp] theorem Device.updGate_at_liu (d : Device) (g : Nat) (f : Gate → Gate) (i : Nat) : (d.updGate g f).liu i = d.liu i := rfl
@[simp] theorem Device.updGate_at_dig (d : Device) (g : Nat) (f : Gate → Gate) (i : Nat) : (d.updGate g f).dig i = d.dig i := rfl
@[simp] theorem Device.updGate_at_drbg (d : Device) (g : Nat) (f : Gate → Gate) (i : Nat) : (d.updGate g f).drbg i = d.drbg i := rfl
@[simp] theorem Device.updGate_at_slot (d : Device) (g : Nat) (f : Gate → Gate) (i : Nat) : (d.updGate g f).slot i = d.slot i := rfl
@[simp] theorem Device.updGate_at_unit (d : Device) (g : Nat) (f : Gate → Gate) (i j : Nat) : (d.updGate g f).unit i j = d.unit i j := rfl
@[simp] theorem Device.updGate_at_levSrc (d : Device) (g : Nat) (f : Gate → Gate) (i : Nat) : (d.updGate g f).levSrc i = d.levSrc i := rfl
@[simp] theorem Device.updGate_at_peer (d : Device) (g : Nat) (f : Gate → Gate) (i : Nat) : (d.updGate g f).peer i = d.peer i := rfl
@[simp] theorem Device.updGate_at_reg (d : Device) (g : Nat) (f : Gate → Gate) (i : Nat) : (d.updGate g f).reg i = d.reg i := rfl
@[simp] theorem Device.updGate_at_count (d : Device) (g : Nat) (f : Gate → Gate) (i : Nat) : (d.updGate g f).count i = d.count i := rfl

/-! ### updDrbg -/

@[simp] theorem Device.updDrbg_drbg_same (d : Device) (n : Nat) (f : Drbg → Drbg) : (d.updDrbg n f).drbg n = f (d.drbg n) := by simp [Device.drbg, Device.updDrbg]
theorem Device.updDrbg_drbg_ne (d : Device) (n : Nat) (f : Drbg → Drbg) {j : Nat} (h : j ≠ n) : (d.updDrbg n f).drbg j = d.drbg j := by simp [Device.drbg, Device.updDrbg, Tbl.get_upd_ne _ _ _ h]
@[simp] theorem Device.updDrbg_part (d : Device) (n : Nat) (f : Drbg → Drbg) : (d.updDrbg n f).part = d.part := rfl
@[simp] theorem Device.updDrbg_time (d : Device) (n : Nat) (f : Drbg → Drbg) : (d.updDrbg n f).time = d.time := rfl
@[simp] theorem Device.updDrbg_second (d : Device) (n : Nat) (f : Drbg → Drbg) : (d.updDrbg n f).second = d.second := rfl
@[simp] theorem Device.updDrbg_free (d : Device) (n : Nat) (f : Drbg → Drbg) : (d.updDrbg n f).free = d.free := rfl
@[simp] theorem Device.updDrbg_out (d : Device) (n : Nat) (f : Drbg → Drbg) : (d.updDrbg n f).out = d.out := rfl
@[simp] theorem Device.updDrbg_regs (d : Device) (n : Nat) (f : Drbg → Drbg) : (d.updDrbg n f).regs = d.regs := rfl
@[simp] theorem Device.updDrbg_cnt (d : Device) (n : Nat) (f : Drbg → Drbg) : (d.updDrbg n f).cnt = d.cnt := rfl
@[simp] theorem Device.updDrbg_allots (d : Device) (n : Nat) (f : Drbg → Drbg) : (d.updDrbg n f).allots = d.allots := rfl
@[simp] theorem Device.updDrbg_sqs (d : Device) (n : Nat) (f : Drbg → Drbg) : (d.updDrbg n f).sqs = d.sqs := rfl
@[simp] theorem Device.updDrbg_cqs (d : Device) (n : Nat) (f : Drbg → Drbg) : (d.updDrbg n f).cqs = d.cqs := rfl
@[simp] theorem Device.updDrbg_cmds (d : Device) (n : Nat) (f : Drbg → Drbg) : (d.updDrbg n f).cmds = d.cmds := rfl
@[simp] theorem Device.updDrbg_order (d : Device) (n : Nat) (f : Drbg → Drbg) : (d.updDrbg n f).order = d.order := rfl
@[simp] theorem Device.updDrbg_nextBatch (d : Device) (n : Nat) (f : Drbg → Drbg) : (d.updDrbg n f).nextBatch = d.nextBatch := rfl
@[simp] theorem Device.updDrbg_routines (d : Device) (n : Nat) (f : Drbg → Drbg) : (d.updDrbg n f).routines = d.routines := rfl
@[simp] theorem Device.updDrbg_oldImages (d : Device) (n : Nat) (f : Drbg → Drbg) : (d.updDrbg n f).oldImages = d.oldImages := rfl
@[simp] theorem Device.updDrbg_ctxs (d : Device) (n : Nat) (f : Drbg → Drbg) : (d.updDrbg n f).ctxs = d.ctxs := rfl
@[simp] theorem Device.updDrbg_cache (d : Device) (n : Nat) (f : Drbg → Drbg) : (d.updDrbg n f).cache = d.cache := rfl
@[simp] theorem Device.updDrbg_cacheDirty (d : Device) (n : Nat) (f : Drbg → Drbg) : (d.updDrbg n f).cacheDirty = d.cacheDirty := rfl
@[simp] theorem Device.updDrbg_weirs (d : Device) (n : Nat) (f : Drbg → Drbg) : (d.updDrbg n f).weirs = d.weirs := rfl
@[simp] theorem Device.updDrbg_rsv (d : Device) (n : Nat) (f : Drbg → Drbg) : (d.updDrbg n f).rsv = d.rsv := rfl
@[simp] theorem Device.updDrbg_engs (d : Device) (n : Nat) (f : Drbg → Drbg) : (d.updDrbg n f).engs = d.engs := rfl
@[simp] theorem Device.updDrbg_lats (d : Device) (n : Nat) (f : Drbg → Drbg) : (d.updDrbg n f).lats = d.lats := rfl
@[simp] theorem Device.updDrbg_saveGen (d : Device) (n : Nat) (f : Drbg → Drbg) : (d.updDrbg n f).saveGen = d.saveGen := rfl
@[simp] theorem Device.updDrbg_lastSweep (d : Device) (n : Nat) (f : Drbg → Drbg) : (d.updDrbg n f).lastSweep = d.lastSweep := rfl
@[simp] theorem Device.updDrbg_lius (d : Device) (n : Nat) (f : Drbg → Drbg) : (d.updDrbg n f).lius = d.lius := rfl
@[simp] theorem Device.updDrbg_liuWait (d : Device) (n : Nat) (f : Drbg → Drbg) : (d.updDrbg n f).liuWait = d.liuWait := rfl
@[simp] theorem Device.updDrbg_liuHigh (d : Device) (n : Nat) (f : Drbg → Drbg) : (d.updDrbg n f).liuHigh = d.liuHigh := rfl
@[simp] theorem Device.updDrbg_digs (d : Device) (n : Nat) (f : Drbg → Drbg) : (d.updDrbg n f).digs = d.digs := rfl
@[simp] theorem Device.updDrbg_digArrive (d : Device) (n : Nat) (f : Drbg → Drbg) : (d.updDrbg n f).digArrive = d.digArrive := rfl
@[simp] theorem Device.updDrbg_digWait (d : Device) (n : Nat) (f : Drbg → Drbg) : (d.updDrbg n f).digWait = d.digWait := rfl
@[simp] theorem Device.updDrbg_digHigh (d : Device) (n : Nat) (f : Drbg → Drbg) : (d.updDrbg n f).digHigh = d.digHigh := rfl
@[simp] theorem Device.updDrbg_digSlotSel (d : Device) (n : Nat) (f : Drbg → Drbg) : (d.updDrbg n f).digSlotSel = d.digSlotSel := rfl
@[simp] theorem Device.updDrbg_cis (d : Device) (n : Nat) (f : Drbg → Drbg) : (d.updDrbg n f).cis = d.cis := rfl
@[simp] theorem Device.updDrbg_ss (d : Device) (n : Nat) (f : Drbg → Drbg) : (d.updDrbg n f).ss = d.ss := rfl
@[simp] theorem Device.updDrbg_gates (d : Device) (n : Nat) (f : Drbg → Drbg) : (d.updDrbg n f).gates = d.gates := rfl
@[simp] theorem Device.updDrbg_dselGate (d : Device) (n : Nat) (f : Drbg → Drbg) : (d.updDrbg n f).dselGate = d.dselGate := rfl
@[simp] theorem Device.updDrbg_dselRegion (d : Device) (n : Nat) (f : Drbg → Drbg) : (d.updDrbg n f).dselRegion = d.dselRegion := rfl
@[simp] theorem Device.updDrbg_dselErr (d : Device) (n : Nat) (f : Drbg → Drbg) : (d.updDrbg n f).dselErr = d.dselErr := rfl
@[simp] theorem Device.updDrbg_dselCause (d : Device) (n : Nat) (f : Drbg → Drbg) : (d.updDrbg n f).dselCause = d.dselCause := rfl
@[simp] theorem Device.updDrbg_dstage (d : Device) (n : Nat) (f : Drbg → Drbg) : (d.updDrbg n f).dstage = d.dstage := rfl
@[simp] theorem Device.updDrbg_fl (d : Device) (n : Nat) (f : Drbg → Drbg) : (d.updDrbg n f).fl = d.fl := rfl
@[simp] theorem Device.updDrbg_flt (d : Device) (n : Nat) (f : Drbg → Drbg) : (d.updDrbg n f).flt = d.flt := rfl
@[simp] theorem Device.updDrbg_lev (d : Device) (n : Nat) (f : Drbg → Drbg) : (d.updDrbg n f).lev = d.lev := rfl
@[simp] theorem Device.updDrbg_evr (d : Device) (n : Nat) (f : Drbg → Drbg) : (d.updDrbg n f).evr = d.evr := rfl
@[simp] theorem Device.updDrbg_ws (d : Device) (n : Nat) (f : Drbg → Drbg) : (d.updDrbg n f).ws = d.ws := rfl
@[simp] theorem Device.updDrbg_md (d : Device) (n : Nat) (f : Drbg → Drbg) : (d.updDrbg n f).md = d.md := rfl
@[simp] theorem Device.updDrbg_boot (d : Device) (n : Nat) (f : Drbg → Drbg) : (d.updDrbg n f).boot = d.boot := rfl
@[simp] theorem Device.updDrbg_brd (d : Device) (n : Nat) (f : Drbg → Drbg) : (d.updDrbg n f).brd = d.brd := rfl
@[simp] theorem Device.updDrbg_at_allot (d : Device) (n : Nat) (f : Drbg → Drbg) (i : Nat) : (d.updDrbg n f).allot i = d.allot i := rfl
@[simp] theorem Device.updDrbg_at_sq (d : Device) (n : Nat) (f : Drbg → Drbg) (i j : Nat) : (d.updDrbg n f).sq i j = d.sq i j := rfl
@[simp] theorem Device.updDrbg_at_cq (d : Device) (n : Nat) (f : Drbg → Drbg) (i j : Nat) : (d.updDrbg n f).cq i j = d.cq i j := rfl
@[simp] theorem Device.updDrbg_at_adm (d : Device) (n : Nat) (f : Drbg → Drbg) (i : Nat) : (d.updDrbg n f).adm i = d.adm i := rfl
@[simp] theorem Device.updDrbg_at_cmd (d : Device) (n : Nat) (f : Drbg → Drbg) (i : Nat) : (d.updDrbg n f).cmd i = d.cmd i := rfl
@[simp] theorem Device.updDrbg_at_ctx (d : Device) (n : Nat) (f : Drbg → Drbg) (i : Nat) : (d.updDrbg n f).ctx i = d.ctx i := rfl
@[simp] theorem Device.updDrbg_at_weir (d : Device) (n : Nat) (f : Drbg → Drbg) (i : Nat) : (d.updDrbg n f).weir i = d.weir i := rfl
@[simp] theorem Device.updDrbg_at_eng (d : Device) (n : Nat) (f : Drbg → Drbg) (i : Nat) : (d.updDrbg n f).eng i = d.eng i := rfl
@[simp] theorem Device.updDrbg_at_lat (d : Device) (n : Nat) (f : Drbg → Drbg) (i : Nat) : (d.updDrbg n f).lat i = d.lat i := rfl
@[simp] theorem Device.updDrbg_at_liu (d : Device) (n : Nat) (f : Drbg → Drbg) (i : Nat) : (d.updDrbg n f).liu i = d.liu i := rfl
@[simp] theorem Device.updDrbg_at_dig (d : Device) (n : Nat) (f : Drbg → Drbg) (i : Nat) : (d.updDrbg n f).dig i = d.dig i := rfl
@[simp] theorem Device.updDrbg_at_gate (d : Device) (n : Nat) (f : Drbg → Drbg) (i : Nat) : (d.updDrbg n f).gate i = d.gate i := rfl
@[simp] theorem Device.updDrbg_at_slot (d : Device) (n : Nat) (f : Drbg → Drbg) (i : Nat) : (d.updDrbg n f).slot i = d.slot i := rfl
@[simp] theorem Device.updDrbg_at_unit (d : Device) (n : Nat) (f : Drbg → Drbg) (i j : Nat) : (d.updDrbg n f).unit i j = d.unit i j := rfl
@[simp] theorem Device.updDrbg_at_levSrc (d : Device) (n : Nat) (f : Drbg → Drbg) (i : Nat) : (d.updDrbg n f).levSrc i = d.levSrc i := rfl
@[simp] theorem Device.updDrbg_at_peer (d : Device) (n : Nat) (f : Drbg → Drbg) (i : Nat) : (d.updDrbg n f).peer i = d.peer i := rfl
@[simp] theorem Device.updDrbg_at_reg (d : Device) (n : Nat) (f : Drbg → Drbg) (i : Nat) : (d.updDrbg n f).reg i = d.reg i := rfl
@[simp] theorem Device.updDrbg_at_count (d : Device) (n : Nat) (f : Drbg → Drbg) (i : Nat) : (d.updDrbg n f).count i = d.count i := rfl

/-! ### updSlot -/

@[simp] theorem Device.updSlot_slot_same (d : Device) (n : Nat) (f : CisSlot → CisSlot) : (d.updSlot n f).slot n = f (d.slot n) := by simp [Device.slot, Device.updSlot]
theorem Device.updSlot_slot_ne (d : Device) (n : Nat) (f : CisSlot → CisSlot) {j : Nat} (h : j ≠ n) : (d.updSlot n f).slot j = d.slot j := by simp [Device.slot, Device.updSlot, Tbl.get_upd_ne _ _ _ h]
@[simp] theorem Device.updSlot_part (d : Device) (n : Nat) (f : CisSlot → CisSlot) : (d.updSlot n f).part = d.part := rfl
@[simp] theorem Device.updSlot_time (d : Device) (n : Nat) (f : CisSlot → CisSlot) : (d.updSlot n f).time = d.time := rfl
@[simp] theorem Device.updSlot_second (d : Device) (n : Nat) (f : CisSlot → CisSlot) : (d.updSlot n f).second = d.second := rfl
@[simp] theorem Device.updSlot_free (d : Device) (n : Nat) (f : CisSlot → CisSlot) : (d.updSlot n f).free = d.free := rfl
@[simp] theorem Device.updSlot_out (d : Device) (n : Nat) (f : CisSlot → CisSlot) : (d.updSlot n f).out = d.out := rfl
@[simp] theorem Device.updSlot_regs (d : Device) (n : Nat) (f : CisSlot → CisSlot) : (d.updSlot n f).regs = d.regs := rfl
@[simp] theorem Device.updSlot_cnt (d : Device) (n : Nat) (f : CisSlot → CisSlot) : (d.updSlot n f).cnt = d.cnt := rfl
@[simp] theorem Device.updSlot_allots (d : Device) (n : Nat) (f : CisSlot → CisSlot) : (d.updSlot n f).allots = d.allots := rfl
@[simp] theorem Device.updSlot_sqs (d : Device) (n : Nat) (f : CisSlot → CisSlot) : (d.updSlot n f).sqs = d.sqs := rfl
@[simp] theorem Device.updSlot_cqs (d : Device) (n : Nat) (f : CisSlot → CisSlot) : (d.updSlot n f).cqs = d.cqs := rfl
@[simp] theorem Device.updSlot_cmds (d : Device) (n : Nat) (f : CisSlot → CisSlot) : (d.updSlot n f).cmds = d.cmds := rfl
@[simp] theorem Device.updSlot_order (d : Device) (n : Nat) (f : CisSlot → CisSlot) : (d.updSlot n f).order = d.order := rfl
@[simp] theorem Device.updSlot_nextBatch (d : Device) (n : Nat) (f : CisSlot → CisSlot) : (d.updSlot n f).nextBatch = d.nextBatch := rfl
@[simp] theorem Device.updSlot_routines (d : Device) (n : Nat) (f : CisSlot → CisSlot) : (d.updSlot n f).routines = d.routines := rfl
@[simp] theorem Device.updSlot_oldImages (d : Device) (n : Nat) (f : CisSlot → CisSlot) : (d.updSlot n f).oldImages = d.oldImages := rfl
@[simp] theorem Device.updSlot_ctxs (d : Device) (n : Nat) (f : CisSlot → CisSlot) : (d.updSlot n f).ctxs = d.ctxs := rfl
@[simp] theorem Device.updSlot_cache (d : Device) (n : Nat) (f : CisSlot → CisSlot) : (d.updSlot n f).cache = d.cache := rfl
@[simp] theorem Device.updSlot_cacheDirty (d : Device) (n : Nat) (f : CisSlot → CisSlot) : (d.updSlot n f).cacheDirty = d.cacheDirty := rfl
@[simp] theorem Device.updSlot_weirs (d : Device) (n : Nat) (f : CisSlot → CisSlot) : (d.updSlot n f).weirs = d.weirs := rfl
@[simp] theorem Device.updSlot_rsv (d : Device) (n : Nat) (f : CisSlot → CisSlot) : (d.updSlot n f).rsv = d.rsv := rfl
@[simp] theorem Device.updSlot_engs (d : Device) (n : Nat) (f : CisSlot → CisSlot) : (d.updSlot n f).engs = d.engs := rfl
@[simp] theorem Device.updSlot_lats (d : Device) (n : Nat) (f : CisSlot → CisSlot) : (d.updSlot n f).lats = d.lats := rfl
@[simp] theorem Device.updSlot_saveGen (d : Device) (n : Nat) (f : CisSlot → CisSlot) : (d.updSlot n f).saveGen = d.saveGen := rfl
@[simp] theorem Device.updSlot_lastSweep (d : Device) (n : Nat) (f : CisSlot → CisSlot) : (d.updSlot n f).lastSweep = d.lastSweep := rfl
@[simp] theorem Device.updSlot_lius (d : Device) (n : Nat) (f : CisSlot → CisSlot) : (d.updSlot n f).lius = d.lius := rfl
@[simp] theorem Device.updSlot_liuWait (d : Device) (n : Nat) (f : CisSlot → CisSlot) : (d.updSlot n f).liuWait = d.liuWait := rfl
@[simp] theorem Device.updSlot_liuHigh (d : Device) (n : Nat) (f : CisSlot → CisSlot) : (d.updSlot n f).liuHigh = d.liuHigh := rfl
@[simp] theorem Device.updSlot_digs (d : Device) (n : Nat) (f : CisSlot → CisSlot) : (d.updSlot n f).digs = d.digs := rfl
@[simp] theorem Device.updSlot_digArrive (d : Device) (n : Nat) (f : CisSlot → CisSlot) : (d.updSlot n f).digArrive = d.digArrive := rfl
@[simp] theorem Device.updSlot_digWait (d : Device) (n : Nat) (f : CisSlot → CisSlot) : (d.updSlot n f).digWait = d.digWait := rfl
@[simp] theorem Device.updSlot_digHigh (d : Device) (n : Nat) (f : CisSlot → CisSlot) : (d.updSlot n f).digHigh = d.digHigh := rfl
@[simp] theorem Device.updSlot_digSlotSel (d : Device) (n : Nat) (f : CisSlot → CisSlot) : (d.updSlot n f).digSlotSel = d.digSlotSel := rfl
@[simp] theorem Device.updSlot_whd (d : Device) (n : Nat) (f : CisSlot → CisSlot) : (d.updSlot n f).whd = d.whd := rfl
@[simp] theorem Device.updSlot_ss (d : Device) (n : Nat) (f : CisSlot → CisSlot) : (d.updSlot n f).ss = d.ss := rfl
@[simp] theorem Device.updSlot_gates (d : Device) (n : Nat) (f : CisSlot → CisSlot) : (d.updSlot n f).gates = d.gates := rfl
@[simp] theorem Device.updSlot_dselGate (d : Device) (n : Nat) (f : CisSlot → CisSlot) : (d.updSlot n f).dselGate = d.dselGate := rfl
@[simp] theorem Device.updSlot_dselRegion (d : Device) (n : Nat) (f : CisSlot → CisSlot) : (d.updSlot n f).dselRegion = d.dselRegion := rfl
@[simp] theorem Device.updSlot_dselErr (d : Device) (n : Nat) (f : CisSlot → CisSlot) : (d.updSlot n f).dselErr = d.dselErr := rfl
@[simp] theorem Device.updSlot_dselCause (d : Device) (n : Nat) (f : CisSlot → CisSlot) : (d.updSlot n f).dselCause = d.dselCause := rfl
@[simp] theorem Device.updSlot_dstage (d : Device) (n : Nat) (f : CisSlot → CisSlot) : (d.updSlot n f).dstage = d.dstage := rfl
@[simp] theorem Device.updSlot_fl (d : Device) (n : Nat) (f : CisSlot → CisSlot) : (d.updSlot n f).fl = d.fl := rfl
@[simp] theorem Device.updSlot_flt (d : Device) (n : Nat) (f : CisSlot → CisSlot) : (d.updSlot n f).flt = d.flt := rfl
@[simp] theorem Device.updSlot_lev (d : Device) (n : Nat) (f : CisSlot → CisSlot) : (d.updSlot n f).lev = d.lev := rfl
@[simp] theorem Device.updSlot_evr (d : Device) (n : Nat) (f : CisSlot → CisSlot) : (d.updSlot n f).evr = d.evr := rfl
@[simp] theorem Device.updSlot_ws (d : Device) (n : Nat) (f : CisSlot → CisSlot) : (d.updSlot n f).ws = d.ws := rfl
@[simp] theorem Device.updSlot_md (d : Device) (n : Nat) (f : CisSlot → CisSlot) : (d.updSlot n f).md = d.md := rfl
@[simp] theorem Device.updSlot_boot (d : Device) (n : Nat) (f : CisSlot → CisSlot) : (d.updSlot n f).boot = d.boot := rfl
@[simp] theorem Device.updSlot_brd (d : Device) (n : Nat) (f : CisSlot → CisSlot) : (d.updSlot n f).brd = d.brd := rfl
@[simp] theorem Device.updSlot_at_allot (d : Device) (n : Nat) (f : CisSlot → CisSlot) (i : Nat) : (d.updSlot n f).allot i = d.allot i := rfl
@[simp] theorem Device.updSlot_at_sq (d : Device) (n : Nat) (f : CisSlot → CisSlot) (i j : Nat) : (d.updSlot n f).sq i j = d.sq i j := rfl
@[simp] theorem Device.updSlot_at_cq (d : Device) (n : Nat) (f : CisSlot → CisSlot) (i j : Nat) : (d.updSlot n f).cq i j = d.cq i j := rfl
@[simp] theorem Device.updSlot_at_adm (d : Device) (n : Nat) (f : CisSlot → CisSlot) (i : Nat) : (d.updSlot n f).adm i = d.adm i := rfl
@[simp] theorem Device.updSlot_at_cmd (d : Device) (n : Nat) (f : CisSlot → CisSlot) (i : Nat) : (d.updSlot n f).cmd i = d.cmd i := rfl
@[simp] theorem Device.updSlot_at_ctx (d : Device) (n : Nat) (f : CisSlot → CisSlot) (i : Nat) : (d.updSlot n f).ctx i = d.ctx i := rfl
@[simp] theorem Device.updSlot_at_weir (d : Device) (n : Nat) (f : CisSlot → CisSlot) (i : Nat) : (d.updSlot n f).weir i = d.weir i := rfl
@[simp] theorem Device.updSlot_at_eng (d : Device) (n : Nat) (f : CisSlot → CisSlot) (i : Nat) : (d.updSlot n f).eng i = d.eng i := rfl
@[simp] theorem Device.updSlot_at_lat (d : Device) (n : Nat) (f : CisSlot → CisSlot) (i : Nat) : (d.updSlot n f).lat i = d.lat i := rfl
@[simp] theorem Device.updSlot_at_liu (d : Device) (n : Nat) (f : CisSlot → CisSlot) (i : Nat) : (d.updSlot n f).liu i = d.liu i := rfl
@[simp] theorem Device.updSlot_at_dig (d : Device) (n : Nat) (f : CisSlot → CisSlot) (i : Nat) : (d.updSlot n f).dig i = d.dig i := rfl
@[simp] theorem Device.updSlot_at_gate (d : Device) (n : Nat) (f : CisSlot → CisSlot) (i : Nat) : (d.updSlot n f).gate i = d.gate i := rfl
@[simp] theorem Device.updSlot_at_drbg (d : Device) (n : Nat) (f : CisSlot → CisSlot) (i : Nat) : (d.updSlot n f).drbg i = d.drbg i := rfl
@[simp] theorem Device.updSlot_at_unit (d : Device) (n : Nat) (f : CisSlot → CisSlot) (i j : Nat) : (d.updSlot n f).unit i j = d.unit i j := rfl
@[simp] theorem Device.updSlot_at_levSrc (d : Device) (n : Nat) (f : CisSlot → CisSlot) (i : Nat) : (d.updSlot n f).levSrc i = d.levSrc i := rfl
@[simp] theorem Device.updSlot_at_peer (d : Device) (n : Nat) (f : CisSlot → CisSlot) (i : Nat) : (d.updSlot n f).peer i = d.peer i := rfl
@[simp] theorem Device.updSlot_at_reg (d : Device) (n : Nat) (f : CisSlot → CisSlot) (i : Nat) : (d.updSlot n f).reg i = d.reg i := rfl
@[simp] theorem Device.updSlot_at_count (d : Device) (n : Nat) (f : CisSlot → CisSlot) (i : Nat) : (d.updSlot n f).count i = d.count i := rfl

/-! ### updUnit -/

@[simp] theorem Device.updUnit_unit_same (d : Device) (c i : Nat) (f : UnitRec → UnitRec) : (d.updUnit c i f).unit c i = f (d.unit c i) := by simp [Device.unit, Device.updUnit]
@[simp] theorem Device.updUnit_part (d : Device) (c i : Nat) (f : UnitRec → UnitRec) : (d.updUnit c i f).part = d.part := rfl
@[simp] theorem Device.updUnit_time (d : Device) (c i : Nat) (f : UnitRec → UnitRec) : (d.updUnit c i f).time = d.time := rfl
@[simp] theorem Device.updUnit_second (d : Device) (c i : Nat) (f : UnitRec → UnitRec) : (d.updUnit c i f).second = d.second := rfl
@[simp] theorem Device.updUnit_free (d : Device) (c i : Nat) (f : UnitRec → UnitRec) : (d.updUnit c i f).free = d.free := rfl
@[simp] theorem Device.updUnit_out (d : Device) (c i : Nat) (f : UnitRec → UnitRec) : (d.updUnit c i f).out = d.out := rfl
@[simp] theorem Device.updUnit_regs (d : Device) (c i : Nat) (f : UnitRec → UnitRec) : (d.updUnit c i f).regs = d.regs := rfl
@[simp] theorem Device.updUnit_cnt (d : Device) (c i : Nat) (f : UnitRec → UnitRec) : (d.updUnit c i f).cnt = d.cnt := rfl
@[simp] theorem Device.updUnit_allots (d : Device) (c i : Nat) (f : UnitRec → UnitRec) : (d.updUnit c i f).allots = d.allots := rfl
@[simp] theorem Device.updUnit_sqs (d : Device) (c i : Nat) (f : UnitRec → UnitRec) : (d.updUnit c i f).sqs = d.sqs := rfl
@[simp] theorem Device.updUnit_cqs (d : Device) (c i : Nat) (f : UnitRec → UnitRec) : (d.updUnit c i f).cqs = d.cqs := rfl
@[simp] theorem Device.updUnit_cmds (d : Device) (c i : Nat) (f : UnitRec → UnitRec) : (d.updUnit c i f).cmds = d.cmds := rfl
@[simp] theorem Device.updUnit_order (d : Device) (c i : Nat) (f : UnitRec → UnitRec) : (d.updUnit c i f).order = d.order := rfl
@[simp] theorem Device.updUnit_nextBatch (d : Device) (c i : Nat) (f : UnitRec → UnitRec) : (d.updUnit c i f).nextBatch = d.nextBatch := rfl
@[simp] theorem Device.updUnit_routines (d : Device) (c i : Nat) (f : UnitRec → UnitRec) : (d.updUnit c i f).routines = d.routines := rfl
@[simp] theorem Device.updUnit_oldImages (d : Device) (c i : Nat) (f : UnitRec → UnitRec) : (d.updUnit c i f).oldImages = d.oldImages := rfl
@[simp] theorem Device.updUnit_ctxs (d : Device) (c i : Nat) (f : UnitRec → UnitRec) : (d.updUnit c i f).ctxs = d.ctxs := rfl
@[simp] theorem Device.updUnit_cache (d : Device) (c i : Nat) (f : UnitRec → UnitRec) : (d.updUnit c i f).cache = d.cache := rfl
@[simp] theorem Device.updUnit_cacheDirty (d : Device) (c i : Nat) (f : UnitRec → UnitRec) : (d.updUnit c i f).cacheDirty = d.cacheDirty := rfl
@[simp] theorem Device.updUnit_weirs (d : Device) (c i : Nat) (f : UnitRec → UnitRec) : (d.updUnit c i f).weirs = d.weirs := rfl
@[simp] theorem Device.updUnit_rsv (d : Device) (c i : Nat) (f : UnitRec → UnitRec) : (d.updUnit c i f).rsv = d.rsv := rfl
@[simp] theorem Device.updUnit_engs (d : Device) (c i : Nat) (f : UnitRec → UnitRec) : (d.updUnit c i f).engs = d.engs := rfl
@[simp] theorem Device.updUnit_lats (d : Device) (c i : Nat) (f : UnitRec → UnitRec) : (d.updUnit c i f).lats = d.lats := rfl
@[simp] theorem Device.updUnit_saveGen (d : Device) (c i : Nat) (f : UnitRec → UnitRec) : (d.updUnit c i f).saveGen = d.saveGen := rfl
@[simp] theorem Device.updUnit_lastSweep (d : Device) (c i : Nat) (f : UnitRec → UnitRec) : (d.updUnit c i f).lastSweep = d.lastSweep := rfl
@[simp] theorem Device.updUnit_lius (d : Device) (c i : Nat) (f : UnitRec → UnitRec) : (d.updUnit c i f).lius = d.lius := rfl
@[simp] theorem Device.updUnit_liuWait (d : Device) (c i : Nat) (f : UnitRec → UnitRec) : (d.updUnit c i f).liuWait = d.liuWait := rfl
@[simp] theorem Device.updUnit_liuHigh (d : Device) (c i : Nat) (f : UnitRec → UnitRec) : (d.updUnit c i f).liuHigh = d.liuHigh := rfl
@[simp] theorem Device.updUnit_digs (d : Device) (c i : Nat) (f : UnitRec → UnitRec) : (d.updUnit c i f).digs = d.digs := rfl
@[simp] theorem Device.updUnit_digArrive (d : Device) (c i : Nat) (f : UnitRec → UnitRec) : (d.updUnit c i f).digArrive = d.digArrive := rfl
@[simp] theorem Device.updUnit_digWait (d : Device) (c i : Nat) (f : UnitRec → UnitRec) : (d.updUnit c i f).digWait = d.digWait := rfl
@[simp] theorem Device.updUnit_digHigh (d : Device) (c i : Nat) (f : UnitRec → UnitRec) : (d.updUnit c i f).digHigh = d.digHigh := rfl
@[simp] theorem Device.updUnit_digSlotSel (d : Device) (c i : Nat) (f : UnitRec → UnitRec) : (d.updUnit c i f).digSlotSel = d.digSlotSel := rfl
@[simp] theorem Device.updUnit_whd (d : Device) (c i : Nat) (f : UnitRec → UnitRec) : (d.updUnit c i f).whd = d.whd := rfl
@[simp] theorem Device.updUnit_cis (d : Device) (c i : Nat) (f : UnitRec → UnitRec) : (d.updUnit c i f).cis = d.cis := rfl
@[simp] theorem Device.updUnit_ss (d : Device) (c i : Nat) (f : UnitRec → UnitRec) : (d.updUnit c i f).ss = d.ss := rfl
@[simp] theorem Device.updUnit_gates (d : Device) (c i : Nat) (f : UnitRec → UnitRec) : (d.updUnit c i f).gates = d.gates := rfl
@[simp] theorem Device.updUnit_dselGate (d : Device) (c i : Nat) (f : UnitRec → UnitRec) : (d.updUnit c i f).dselGate = d.dselGate := rfl
@[simp] theorem Device.updUnit_dselRegion (d : Device) (c i : Nat) (f : UnitRec → UnitRec) : (d.updUnit c i f).dselRegion = d.dselRegion := rfl
@[simp] theorem Device.updUnit_dselErr (d : Device) (c i : Nat) (f : UnitRec → UnitRec) : (d.updUnit c i f).dselErr = d.dselErr := rfl
@[simp] theorem Device.updUnit_dselCause (d : Device) (c i : Nat) (f : UnitRec → UnitRec) : (d.updUnit c i f).dselCause = d.dselCause := rfl
@[simp] theorem Device.updUnit_dstage (d : Device) (c i : Nat) (f : UnitRec → UnitRec) : (d.updUnit c i f).dstage = d.dstage := rfl
@[simp] theorem Device.updUnit_fl (d : Device) (c i : Nat) (f : UnitRec → UnitRec) : (d.updUnit c i f).fl = d.fl := rfl
@[simp] theorem Device.updUnit_lev (d : Device) (c i : Nat) (f : UnitRec → UnitRec) : (d.updUnit c i f).lev = d.lev := rfl
@[simp] theorem Device.updUnit_evr (d : Device) (c i : Nat) (f : UnitRec → UnitRec) : (d.updUnit c i f).evr = d.evr := rfl
@[simp] theorem Device.updUnit_ws (d : Device) (c i : Nat) (f : UnitRec → UnitRec) : (d.updUnit c i f).ws = d.ws := rfl
@[simp] theorem Device.updUnit_md (d : Device) (c i : Nat) (f : UnitRec → UnitRec) : (d.updUnit c i f).md = d.md := rfl
@[simp] theorem Device.updUnit_boot (d : Device) (c i : Nat) (f : UnitRec → UnitRec) : (d.updUnit c i f).boot = d.boot := rfl
@[simp] theorem Device.updUnit_brd (d : Device) (c i : Nat) (f : UnitRec → UnitRec) : (d.updUnit c i f).brd = d.brd := rfl
@[simp] theorem Device.updUnit_at_allot (d : Device) (c i : Nat) (f : UnitRec → UnitRec) (x : Nat) : (d.updUnit c i f).allot x = d.allot x := rfl
@[simp] theorem Device.updUnit_at_sq (d : Device) (c i : Nat) (f : UnitRec → UnitRec) (x y : Nat) : (d.updUnit c i f).sq x y = d.sq x y := rfl
@[simp] theorem Device.updUnit_at_cq (d : Device) (c i : Nat) (f : UnitRec → UnitRec) (x y : Nat) : (d.updUnit c i f).cq x y = d.cq x y := rfl
@[simp] theorem Device.updUnit_at_adm (d : Device) (c i : Nat) (f : UnitRec → UnitRec) (x : Nat) : (d.updUnit c i f).adm x = d.adm x := rfl
@[simp] theorem Device.updUnit_at_cmd (d : Device) (c i : Nat) (f : UnitRec → UnitRec) (x : Nat) : (d.updUnit c i f).cmd x = d.cmd x := rfl
@[simp] theorem Device.updUnit_at_ctx (d : Device) (c i : Nat) (f : UnitRec → UnitRec) (x : Nat) : (d.updUnit c i f).ctx x = d.ctx x := rfl
@[simp] theorem Device.updUnit_at_weir (d : Device) (c i : Nat) (f : UnitRec → UnitRec) (x : Nat) : (d.updUnit c i f).weir x = d.weir x := rfl
@[simp] theorem Device.updUnit_at_eng (d : Device) (c i : Nat) (f : UnitRec → UnitRec) (x : Nat) : (d.updUnit c i f).eng x = d.eng x := rfl
@[simp] theorem Device.updUnit_at_lat (d : Device) (c i : Nat) (f : UnitRec → UnitRec) (x : Nat) : (d.updUnit c i f).lat x = d.lat x := rfl
@[simp] theorem Device.updUnit_at_liu (d : Device) (c i : Nat) (f : UnitRec → UnitRec) (x : Nat) : (d.updUnit c i f).liu x = d.liu x := rfl
@[simp] theorem Device.updUnit_at_dig (d : Device) (c i : Nat) (f : UnitRec → UnitRec) (x : Nat) : (d.updUnit c i f).dig x = d.dig x := rfl
@[simp] theorem Device.updUnit_at_gate (d : Device) (c i : Nat) (f : UnitRec → UnitRec) (x : Nat) : (d.updUnit c i f).gate x = d.gate x := rfl
@[simp] theorem Device.updUnit_at_drbg (d : Device) (c i : Nat) (f : UnitRec → UnitRec) (x : Nat) : (d.updUnit c i f).drbg x = d.drbg x := rfl
@[simp] theorem Device.updUnit_at_slot (d : Device) (c i : Nat) (f : UnitRec → UnitRec) (x : Nat) : (d.updUnit c i f).slot x = d.slot x := rfl
@[simp] theorem Device.updUnit_at_levSrc (d : Device) (c i : Nat) (f : UnitRec → UnitRec) (x : Nat) : (d.updUnit c i f).levSrc x = d.levSrc x := rfl
@[simp] theorem Device.updUnit_at_peer (d : Device) (c i : Nat) (f : UnitRec → UnitRec) (x : Nat) : (d.updUnit c i f).peer x = d.peer x := rfl
@[simp] theorem Device.updUnit_at_reg (d : Device) (c i : Nat) (f : UnitRec → UnitRec) (x : Nat) : (d.updUnit c i f).reg x = d.reg x := rfl
@[simp] theorem Device.updUnit_at_count (d : Device) (c i : Nat) (f : UnitRec → UnitRec) (x : Nat) : (d.updUnit c i f).count x = d.count x := rfl

/-! ### updLevSrc -/

@[simp] theorem Device.updLevSrc_levSrc_same (d : Device) (n : Nat) (f : LevSource → LevSource) : (d.updLevSrc n f).levSrc n = f (d.levSrc n) := by simp [Device.levSrc, Device.updLevSrc]
theorem Device.updLevSrc_levSrc_ne (d : Device) (n : Nat) (f : LevSource → LevSource) {j : Nat} (h : j ≠ n) : (d.updLevSrc n f).levSrc j = d.levSrc j := by simp [Device.levSrc, Device.updLevSrc, Tbl.get_upd_ne _ _ _ h]
@[simp] theorem Device.updLevSrc_part (d : Device) (n : Nat) (f : LevSource → LevSource) : (d.updLevSrc n f).part = d.part := rfl
@[simp] theorem Device.updLevSrc_time (d : Device) (n : Nat) (f : LevSource → LevSource) : (d.updLevSrc n f).time = d.time := rfl
@[simp] theorem Device.updLevSrc_second (d : Device) (n : Nat) (f : LevSource → LevSource) : (d.updLevSrc n f).second = d.second := rfl
@[simp] theorem Device.updLevSrc_free (d : Device) (n : Nat) (f : LevSource → LevSource) : (d.updLevSrc n f).free = d.free := rfl
@[simp] theorem Device.updLevSrc_out (d : Device) (n : Nat) (f : LevSource → LevSource) : (d.updLevSrc n f).out = d.out := rfl
@[simp] theorem Device.updLevSrc_regs (d : Device) (n : Nat) (f : LevSource → LevSource) : (d.updLevSrc n f).regs = d.regs := rfl
@[simp] theorem Device.updLevSrc_cnt (d : Device) (n : Nat) (f : LevSource → LevSource) : (d.updLevSrc n f).cnt = d.cnt := rfl
@[simp] theorem Device.updLevSrc_allots (d : Device) (n : Nat) (f : LevSource → LevSource) : (d.updLevSrc n f).allots = d.allots := rfl
@[simp] theorem Device.updLevSrc_sqs (d : Device) (n : Nat) (f : LevSource → LevSource) : (d.updLevSrc n f).sqs = d.sqs := rfl
@[simp] theorem Device.updLevSrc_cqs (d : Device) (n : Nat) (f : LevSource → LevSource) : (d.updLevSrc n f).cqs = d.cqs := rfl
@[simp] theorem Device.updLevSrc_cmds (d : Device) (n : Nat) (f : LevSource → LevSource) : (d.updLevSrc n f).cmds = d.cmds := rfl
@[simp] theorem Device.updLevSrc_order (d : Device) (n : Nat) (f : LevSource → LevSource) : (d.updLevSrc n f).order = d.order := rfl
@[simp] theorem Device.updLevSrc_nextBatch (d : Device) (n : Nat) (f : LevSource → LevSource) : (d.updLevSrc n f).nextBatch = d.nextBatch := rfl
@[simp] theorem Device.updLevSrc_routines (d : Device) (n : Nat) (f : LevSource → LevSource) : (d.updLevSrc n f).routines = d.routines := rfl
@[simp] theorem Device.updLevSrc_oldImages (d : Device) (n : Nat) (f : LevSource → LevSource) : (d.updLevSrc n f).oldImages = d.oldImages := rfl
@[simp] theorem Device.updLevSrc_ctxs (d : Device) (n : Nat) (f : LevSource → LevSource) : (d.updLevSrc n f).ctxs = d.ctxs := rfl
@[simp] theorem Device.updLevSrc_cache (d : Device) (n : Nat) (f : LevSource → LevSource) : (d.updLevSrc n f).cache = d.cache := rfl
@[simp] theorem Device.updLevSrc_cacheDirty (d : Device) (n : Nat) (f : LevSource → LevSource) : (d.updLevSrc n f).cacheDirty = d.cacheDirty := rfl
@[simp] theorem Device.updLevSrc_weirs (d : Device) (n : Nat) (f : LevSource → LevSource) : (d.updLevSrc n f).weirs = d.weirs := rfl
@[simp] theorem Device.updLevSrc_rsv (d : Device) (n : Nat) (f : LevSource → LevSource) : (d.updLevSrc n f).rsv = d.rsv := rfl
@[simp] theorem Device.updLevSrc_engs (d : Device) (n : Nat) (f : LevSource → LevSource) : (d.updLevSrc n f).engs = d.engs := rfl
@[simp] theorem Device.updLevSrc_lats (d : Device) (n : Nat) (f : LevSource → LevSource) : (d.updLevSrc n f).lats = d.lats := rfl
@[simp] theorem Device.updLevSrc_saveGen (d : Device) (n : Nat) (f : LevSource → LevSource) : (d.updLevSrc n f).saveGen = d.saveGen := rfl
@[simp] theorem Device.updLevSrc_lastSweep (d : Device) (n : Nat) (f : LevSource → LevSource) : (d.updLevSrc n f).lastSweep = d.lastSweep := rfl
@[simp] theorem Device.updLevSrc_lius (d : Device) (n : Nat) (f : LevSource → LevSource) : (d.updLevSrc n f).lius = d.lius := rfl
@[simp] theorem Device.updLevSrc_liuWait (d : Device) (n : Nat) (f : LevSource → LevSource) : (d.updLevSrc n f).liuWait = d.liuWait := rfl
@[simp] theorem Device.updLevSrc_liuHigh (d : Device) (n : Nat) (f : LevSource → LevSource) : (d.updLevSrc n f).liuHigh = d.liuHigh := rfl
@[simp] theorem Device.updLevSrc_digs (d : Device) (n : Nat) (f : LevSource → LevSource) : (d.updLevSrc n f).digs = d.digs := rfl
@[simp] theorem Device.updLevSrc_digArrive (d : Device) (n : Nat) (f : LevSource → LevSource) : (d.updLevSrc n f).digArrive = d.digArrive := rfl
@[simp] theorem Device.updLevSrc_digWait (d : Device) (n : Nat) (f : LevSource → LevSource) : (d.updLevSrc n f).digWait = d.digWait := rfl
@[simp] theorem Device.updLevSrc_digHigh (d : Device) (n : Nat) (f : LevSource → LevSource) : (d.updLevSrc n f).digHigh = d.digHigh := rfl
@[simp] theorem Device.updLevSrc_digSlotSel (d : Device) (n : Nat) (f : LevSource → LevSource) : (d.updLevSrc n f).digSlotSel = d.digSlotSel := rfl
@[simp] theorem Device.updLevSrc_whd (d : Device) (n : Nat) (f : LevSource → LevSource) : (d.updLevSrc n f).whd = d.whd := rfl
@[simp] theorem Device.updLevSrc_cis (d : Device) (n : Nat) (f : LevSource → LevSource) : (d.updLevSrc n f).cis = d.cis := rfl
@[simp] theorem Device.updLevSrc_ss (d : Device) (n : Nat) (f : LevSource → LevSource) : (d.updLevSrc n f).ss = d.ss := rfl
@[simp] theorem Device.updLevSrc_gates (d : Device) (n : Nat) (f : LevSource → LevSource) : (d.updLevSrc n f).gates = d.gates := rfl
@[simp] theorem Device.updLevSrc_dselGate (d : Device) (n : Nat) (f : LevSource → LevSource) : (d.updLevSrc n f).dselGate = d.dselGate := rfl
@[simp] theorem Device.updLevSrc_dselRegion (d : Device) (n : Nat) (f : LevSource → LevSource) : (d.updLevSrc n f).dselRegion = d.dselRegion := rfl
@[simp] theorem Device.updLevSrc_dselErr (d : Device) (n : Nat) (f : LevSource → LevSource) : (d.updLevSrc n f).dselErr = d.dselErr := rfl
@[simp] theorem Device.updLevSrc_dselCause (d : Device) (n : Nat) (f : LevSource → LevSource) : (d.updLevSrc n f).dselCause = d.dselCause := rfl
@[simp] theorem Device.updLevSrc_dstage (d : Device) (n : Nat) (f : LevSource → LevSource) : (d.updLevSrc n f).dstage = d.dstage := rfl
@[simp] theorem Device.updLevSrc_fl (d : Device) (n : Nat) (f : LevSource → LevSource) : (d.updLevSrc n f).fl = d.fl := rfl
@[simp] theorem Device.updLevSrc_flt (d : Device) (n : Nat) (f : LevSource → LevSource) : (d.updLevSrc n f).flt = d.flt := rfl
@[simp] theorem Device.updLevSrc_evr (d : Device) (n : Nat) (f : LevSource → LevSource) : (d.updLevSrc n f).evr = d.evr := rfl
@[simp] theorem Device.updLevSrc_ws (d : Device) (n : Nat) (f : LevSource → LevSource) : (d.updLevSrc n f).ws = d.ws := rfl
@[simp] theorem Device.updLevSrc_md (d : Device) (n : Nat) (f : LevSource → LevSource) : (d.updLevSrc n f).md = d.md := rfl
@[simp] theorem Device.updLevSrc_boot (d : Device) (n : Nat) (f : LevSource → LevSource) : (d.updLevSrc n f).boot = d.boot := rfl
@[simp] theorem Device.updLevSrc_brd (d : Device) (n : Nat) (f : LevSource → LevSource) : (d.updLevSrc n f).brd = d.brd := rfl
@[simp] theorem Device.updLevSrc_at_allot (d : Device) (n : Nat) (f : LevSource → LevSource) (i : Nat) : (d.updLevSrc n f).allot i = d.allot i := rfl
@[simp] theorem Device.updLevSrc_at_sq (d : Device) (n : Nat) (f : LevSource → LevSource) (i j : Nat) : (d.updLevSrc n f).sq i j = d.sq i j := rfl
@[simp] theorem Device.updLevSrc_at_cq (d : Device) (n : Nat) (f : LevSource → LevSource) (i j : Nat) : (d.updLevSrc n f).cq i j = d.cq i j := rfl
@[simp] theorem Device.updLevSrc_at_adm (d : Device) (n : Nat) (f : LevSource → LevSource) (i : Nat) : (d.updLevSrc n f).adm i = d.adm i := rfl
@[simp] theorem Device.updLevSrc_at_cmd (d : Device) (n : Nat) (f : LevSource → LevSource) (i : Nat) : (d.updLevSrc n f).cmd i = d.cmd i := rfl
@[simp] theorem Device.updLevSrc_at_ctx (d : Device) (n : Nat) (f : LevSource → LevSource) (i : Nat) : (d.updLevSrc n f).ctx i = d.ctx i := rfl
@[simp] theorem Device.updLevSrc_at_weir (d : Device) (n : Nat) (f : LevSource → LevSource) (i : Nat) : (d.updLevSrc n f).weir i = d.weir i := rfl
@[simp] theorem Device.updLevSrc_at_eng (d : Device) (n : Nat) (f : LevSource → LevSource) (i : Nat) : (d.updLevSrc n f).eng i = d.eng i := rfl
@[simp] theorem Device.updLevSrc_at_lat (d : Device) (n : Nat) (f : LevSource → LevSource) (i : Nat) : (d.updLevSrc n f).lat i = d.lat i := rfl
@[simp] theorem Device.updLevSrc_at_liu (d : Device) (n : Nat) (f : LevSource → LevSource) (i : Nat) : (d.updLevSrc n f).liu i = d.liu i := rfl
@[simp] theorem Device.updLevSrc_at_dig (d : Device) (n : Nat) (f : LevSource → LevSource) (i : Nat) : (d.updLevSrc n f).dig i = d.dig i := rfl
@[simp] theorem Device.updLevSrc_at_gate (d : Device) (n : Nat) (f : LevSource → LevSource) (i : Nat) : (d.updLevSrc n f).gate i = d.gate i := rfl
@[simp] theorem Device.updLevSrc_at_drbg (d : Device) (n : Nat) (f : LevSource → LevSource) (i : Nat) : (d.updLevSrc n f).drbg i = d.drbg i := rfl
@[simp] theorem Device.updLevSrc_at_slot (d : Device) (n : Nat) (f : LevSource → LevSource) (i : Nat) : (d.updLevSrc n f).slot i = d.slot i := rfl
@[simp] theorem Device.updLevSrc_at_unit (d : Device) (n : Nat) (f : LevSource → LevSource) (i j : Nat) : (d.updLevSrc n f).unit i j = d.unit i j := rfl
@[simp] theorem Device.updLevSrc_at_peer (d : Device) (n : Nat) (f : LevSource → LevSource) (i : Nat) : (d.updLevSrc n f).peer i = d.peer i := rfl
@[simp] theorem Device.updLevSrc_at_reg (d : Device) (n : Nat) (f : LevSource → LevSource) (i : Nat) : (d.updLevSrc n f).reg i = d.reg i := rfl
@[simp] theorem Device.updLevSrc_at_count (d : Device) (n : Nat) (f : LevSource → LevSource) (i : Nat) : (d.updLevSrc n f).count i = d.count i := rfl

/-! ### updPeer -/

@[simp] theorem Device.updPeer_peer_same (d : Device) (m : Nat) (f : Peer → Peer) : (d.updPeer m f).peer m = f (d.peer m) := by simp [Device.peer, Device.updPeer]
theorem Device.updPeer_peer_ne (d : Device) (m : Nat) (f : Peer → Peer) {j : Nat} (h : j ≠ m) : (d.updPeer m f).peer j = d.peer j := by simp [Device.peer, Device.updPeer, Tbl.get_upd_ne _ _ _ h]
@[simp] theorem Device.updPeer_part (d : Device) (m : Nat) (f : Peer → Peer) : (d.updPeer m f).part = d.part := rfl
@[simp] theorem Device.updPeer_time (d : Device) (m : Nat) (f : Peer → Peer) : (d.updPeer m f).time = d.time := rfl
@[simp] theorem Device.updPeer_second (d : Device) (m : Nat) (f : Peer → Peer) : (d.updPeer m f).second = d.second := rfl
@[simp] theorem Device.updPeer_free (d : Device) (m : Nat) (f : Peer → Peer) : (d.updPeer m f).free = d.free := rfl
@[simp] theorem Device.updPeer_out (d : Device) (m : Nat) (f : Peer → Peer) : (d.updPeer m f).out = d.out := rfl
@[simp] theorem Device.updPeer_regs (d : Device) (m : Nat) (f : Peer → Peer) : (d.updPeer m f).regs = d.regs := rfl
@[simp] theorem Device.updPeer_cnt (d : Device) (m : Nat) (f : Peer → Peer) : (d.updPeer m f).cnt = d.cnt := rfl
@[simp] theorem Device.updPeer_allots (d : Device) (m : Nat) (f : Peer → Peer) : (d.updPeer m f).allots = d.allots := rfl
@[simp] theorem Device.updPeer_sqs (d : Device) (m : Nat) (f : Peer → Peer) : (d.updPeer m f).sqs = d.sqs := rfl
@[simp] theorem Device.updPeer_cqs (d : Device) (m : Nat) (f : Peer → Peer) : (d.updPeer m f).cqs = d.cqs := rfl
@[simp] theorem Device.updPeer_cmds (d : Device) (m : Nat) (f : Peer → Peer) : (d.updPeer m f).cmds = d.cmds := rfl
@[simp] theorem Device.updPeer_order (d : Device) (m : Nat) (f : Peer → Peer) : (d.updPeer m f).order = d.order := rfl
@[simp] theorem Device.updPeer_nextBatch (d : Device) (m : Nat) (f : Peer → Peer) : (d.updPeer m f).nextBatch = d.nextBatch := rfl
@[simp] theorem Device.updPeer_routines (d : Device) (m : Nat) (f : Peer → Peer) : (d.updPeer m f).routines = d.routines := rfl
@[simp] theorem Device.updPeer_oldImages (d : Device) (m : Nat) (f : Peer → Peer) : (d.updPeer m f).oldImages = d.oldImages := rfl
@[simp] theorem Device.updPeer_ctxs (d : Device) (m : Nat) (f : Peer → Peer) : (d.updPeer m f).ctxs = d.ctxs := rfl
@[simp] theorem Device.updPeer_cache (d : Device) (m : Nat) (f : Peer → Peer) : (d.updPeer m f).cache = d.cache := rfl
@[simp] theorem Device.updPeer_cacheDirty (d : Device) (m : Nat) (f : Peer → Peer) : (d.updPeer m f).cacheDirty = d.cacheDirty := rfl
@[simp] theorem Device.updPeer_weirs (d : Device) (m : Nat) (f : Peer → Peer) : (d.updPeer m f).weirs = d.weirs := rfl
@[simp] theorem Device.updPeer_rsv (d : Device) (m : Nat) (f : Peer → Peer) : (d.updPeer m f).rsv = d.rsv := rfl
@[simp] theorem Device.updPeer_engs (d : Device) (m : Nat) (f : Peer → Peer) : (d.updPeer m f).engs = d.engs := rfl
@[simp] theorem Device.updPeer_lats (d : Device) (m : Nat) (f : Peer → Peer) : (d.updPeer m f).lats = d.lats := rfl
@[simp] theorem Device.updPeer_saveGen (d : Device) (m : Nat) (f : Peer → Peer) : (d.updPeer m f).saveGen = d.saveGen := rfl
@[simp] theorem Device.updPeer_lastSweep (d : Device) (m : Nat) (f : Peer → Peer) : (d.updPeer m f).lastSweep = d.lastSweep := rfl
@[simp] theorem Device.updPeer_lius (d : Device) (m : Nat) (f : Peer → Peer) : (d.updPeer m f).lius = d.lius := rfl
@[simp] theorem Device.updPeer_liuWait (d : Device) (m : Nat) (f : Peer → Peer) : (d.updPeer m f).liuWait = d.liuWait := rfl
@[simp] theorem Device.updPeer_liuHigh (d : Device) (m : Nat) (f : Peer → Peer) : (d.updPeer m f).liuHigh = d.liuHigh := rfl
@[simp] theorem Device.updPeer_digs (d : Device) (m : Nat) (f : Peer → Peer) : (d.updPeer m f).digs = d.digs := rfl
@[simp] theorem Device.updPeer_digArrive (d : Device) (m : Nat) (f : Peer → Peer) : (d.updPeer m f).digArrive = d.digArrive := rfl
@[simp] theorem Device.updPeer_digWait (d : Device) (m : Nat) (f : Peer → Peer) : (d.updPeer m f).digWait = d.digWait := rfl
@[simp] theorem Device.updPeer_digHigh (d : Device) (m : Nat) (f : Peer → Peer) : (d.updPeer m f).digHigh = d.digHigh := rfl
@[simp] theorem Device.updPeer_digSlotSel (d : Device) (m : Nat) (f : Peer → Peer) : (d.updPeer m f).digSlotSel = d.digSlotSel := rfl
@[simp] theorem Device.updPeer_whd (d : Device) (m : Nat) (f : Peer → Peer) : (d.updPeer m f).whd = d.whd := rfl
@[simp] theorem Device.updPeer_cis (d : Device) (m : Nat) (f : Peer → Peer) : (d.updPeer m f).cis = d.cis := rfl
@[simp] theorem Device.updPeer_ss (d : Device) (m : Nat) (f : Peer → Peer) : (d.updPeer m f).ss = d.ss := rfl
@[simp] theorem Device.updPeer_gates (d : Device) (m : Nat) (f : Peer → Peer) : (d.updPeer m f).gates = d.gates := rfl
@[simp] theorem Device.updPeer_dselGate (d : Device) (m : Nat) (f : Peer → Peer) : (d.updPeer m f).dselGate = d.dselGate := rfl
@[simp] theorem Device.updPeer_dselRegion (d : Device) (m : Nat) (f : Peer → Peer) : (d.updPeer m f).dselRegion = d.dselRegion := rfl
@[simp] theorem Device.updPeer_dselErr (d : Device) (m : Nat) (f : Peer → Peer) : (d.updPeer m f).dselErr = d.dselErr := rfl
@[simp] theorem Device.updPeer_dselCause (d : Device) (m : Nat) (f : Peer → Peer) : (d.updPeer m f).dselCause = d.dselCause := rfl
@[simp] theorem Device.updPeer_dstage (d : Device) (m : Nat) (f : Peer → Peer) : (d.updPeer m f).dstage = d.dstage := rfl
@[simp] theorem Device.updPeer_fl (d : Device) (m : Nat) (f : Peer → Peer) : (d.updPeer m f).fl = d.fl := rfl
@[simp] theorem Device.updPeer_flt (d : Device) (m : Nat) (f : Peer → Peer) : (d.updPeer m f).flt = d.flt := rfl
@[simp] theorem Device.updPeer_lev (d : Device) (m : Nat) (f : Peer → Peer) : (d.updPeer m f).lev = d.lev := rfl
@[simp] theorem Device.updPeer_evr (d : Device) (m : Nat) (f : Peer → Peer) : (d.updPeer m f).evr = d.evr := rfl
@[simp] theorem Device.updPeer_md (d : Device) (m : Nat) (f : Peer → Peer) : (d.updPeer m f).md = d.md := rfl
@[simp] theorem Device.updPeer_boot (d : Device) (m : Nat) (f : Peer → Peer) : (d.updPeer m f).boot = d.boot := rfl
@[simp] theorem Device.updPeer_brd (d : Device) (m : Nat) (f : Peer → Peer) : (d.updPeer m f).brd = d.brd := rfl
@[simp] theorem Device.updPeer_at_allot (d : Device) (m : Nat) (f : Peer → Peer) (i : Nat) : (d.updPeer m f).allot i = d.allot i := rfl
@[simp] theorem Device.updPeer_at_sq (d : Device) (m : Nat) (f : Peer → Peer) (i j : Nat) : (d.updPeer m f).sq i j = d.sq i j := rfl
@[simp] theorem Device.updPeer_at_cq (d : Device) (m : Nat) (f : Peer → Peer) (i j : Nat) : (d.updPeer m f).cq i j = d.cq i j := rfl
@[simp] theorem Device.updPeer_at_adm (d : Device) (m : Nat) (f : Peer → Peer) (i : Nat) : (d.updPeer m f).adm i = d.adm i := rfl
@[simp] theorem Device.updPeer_at_cmd (d : Device) (m : Nat) (f : Peer → Peer) (i : Nat) : (d.updPeer m f).cmd i = d.cmd i := rfl
@[simp] theorem Device.updPeer_at_ctx (d : Device) (m : Nat) (f : Peer → Peer) (i : Nat) : (d.updPeer m f).ctx i = d.ctx i := rfl
@[simp] theorem Device.updPeer_at_weir (d : Device) (m : Nat) (f : Peer → Peer) (i : Nat) : (d.updPeer m f).weir i = d.weir i := rfl
@[simp] theorem Device.updPeer_at_eng (d : Device) (m : Nat) (f : Peer → Peer) (i : Nat) : (d.updPeer m f).eng i = d.eng i := rfl
@[simp] theorem Device.updPeer_at_lat (d : Device) (m : Nat) (f : Peer → Peer) (i : Nat) : (d.updPeer m f).lat i = d.lat i := rfl
@[simp] theorem Device.updPeer_at_liu (d : Device) (m : Nat) (f : Peer → Peer) (i : Nat) : (d.updPeer m f).liu i = d.liu i := rfl
@[simp] theorem Device.updPeer_at_dig (d : Device) (m : Nat) (f : Peer → Peer) (i : Nat) : (d.updPeer m f).dig i = d.dig i := rfl
@[simp] theorem Device.updPeer_at_gate (d : Device) (m : Nat) (f : Peer → Peer) (i : Nat) : (d.updPeer m f).gate i = d.gate i := rfl
@[simp] theorem Device.updPeer_at_drbg (d : Device) (m : Nat) (f : Peer → Peer) (i : Nat) : (d.updPeer m f).drbg i = d.drbg i := rfl
@[simp] theorem Device.updPeer_at_slot (d : Device) (m : Nat) (f : Peer → Peer) (i : Nat) : (d.updPeer m f).slot i = d.slot i := rfl
@[simp] theorem Device.updPeer_at_unit (d : Device) (m : Nat) (f : Peer → Peer) (i j : Nat) : (d.updPeer m f).unit i j = d.unit i j := rfl
@[simp] theorem Device.updPeer_at_levSrc (d : Device) (m : Nat) (f : Peer → Peer) (i : Nat) : (d.updPeer m f).levSrc i = d.levSrc i := rfl
@[simp] theorem Device.updPeer_at_reg (d : Device) (m : Nat) (f : Peer → Peer) (i : Nat) : (d.updPeer m f).reg i = d.reg i := rfl
@[simp] theorem Device.updPeer_at_count (d : Device) (m : Nat) (f : Peer → Peer) (i : Nat) : (d.updPeer m f).count i = d.count i := rfl

/-! ### setReg -/

@[simp] theorem Device.setReg_reg_same (d : Device) (o v : Nat) : (d.setReg o v).reg o = v := by simp [Device.reg, Device.setReg]
theorem Device.setReg_reg_ne (d : Device) (o v : Nat) {j : Nat} (h : j ≠ o) : (d.setReg o v).reg j = d.reg j :=
  Tbl.get_set_ne _ _ _ h
@[simp] theorem Device.setReg_part (d : Device) (o v : Nat) : (d.setReg o v).part = d.part := rfl
@[simp] theorem Device.setReg_time (d : Device) (o v : Nat) : (d.setReg o v).time = d.time := rfl
@[simp] theorem Device.setReg_second (d : Device) (o v : Nat) : (d.setReg o v).second = d.second := rfl
@[simp] theorem Device.setReg_free (d : Device) (o v : Nat) : (d.setReg o v).free = d.free := rfl
@[simp] theorem Device.setReg_out (d : Device) (o v : Nat) : (d.setReg o v).out = d.out := rfl
@[simp] theorem Device.setReg_cnt (d : Device) (o v : Nat) : (d.setReg o v).cnt = d.cnt := rfl
@[simp] theorem Device.setReg_allots (d : Device) (o v : Nat) : (d.setReg o v).allots = d.allots := rfl
@[simp] theorem Device.setReg_sqs (d : Device) (o v : Nat) : (d.setReg o v).sqs = d.sqs := rfl
@[simp] theorem Device.setReg_cqs (d : Device) (o v : Nat) : (d.setReg o v).cqs = d.cqs := rfl
@[simp] theorem Device.setReg_cmds (d : Device) (o v : Nat) : (d.setReg o v).cmds = d.cmds := rfl
@[simp] theorem Device.setReg_order (d : Device) (o v : Nat) : (d.setReg o v).order = d.order := rfl
@[simp] theorem Device.setReg_nextBatch (d : Device) (o v : Nat) : (d.setReg o v).nextBatch = d.nextBatch := rfl
@[simp] theorem Device.setReg_routines (d : Device) (o v : Nat) : (d.setReg o v).routines = d.routines := rfl
@[simp] theorem Device.setReg_oldImages (d : Device) (o v : Nat) : (d.setReg o v).oldImages = d.oldImages := rfl
@[simp] theorem Device.setReg_ctxs (d : Device) (o v : Nat) : (d.setReg o v).ctxs = d.ctxs := rfl
@[simp] theorem Device.setReg_cache (d : Device) (o v : Nat) : (d.setReg o v).cache = d.cache := rfl
@[simp] theorem Device.setReg_cacheDirty (d : Device) (o v : Nat) : (d.setReg o v).cacheDirty = d.cacheDirty := rfl
@[simp] theorem Device.setReg_weirs (d : Device) (o v : Nat) : (d.setReg o v).weirs = d.weirs := rfl
@[simp] theorem Device.setReg_rsv (d : Device) (o v : Nat) : (d.setReg o v).rsv = d.rsv := rfl
@[simp] theorem Device.setReg_engs (d : Device) (o v : Nat) : (d.setReg o v).engs = d.engs := rfl
@[simp] theorem Device.setReg_lats (d : Device) (o v : Nat) : (d.setReg o v).lats = d.lats := rfl
@[simp] theorem Device.setReg_saveGen (d : Device) (o v : Nat) : (d.setReg o v).saveGen = d.saveGen := rfl
@[simp] theorem Device.setReg_lastSweep (d : Device) (o v : Nat) : (d.setReg o v).lastSweep = d.lastSweep := rfl
@[simp] theorem Device.setReg_lius (d : Device) (o v : Nat) : (d.setReg o v).lius = d.lius := rfl
@[simp] theorem Device.setReg_liuWait (d : Device) (o v : Nat) : (d.setReg o v).liuWait = d.liuWait := rfl
@[simp] theorem Device.setReg_liuHigh (d : Device) (o v : Nat) : (d.setReg o v).liuHigh = d.liuHigh := rfl
@[simp] theorem Device.setReg_digs (d : Device) (o v : Nat) : (d.setReg o v).digs = d.digs := rfl
@[simp] theorem Device.setReg_digArrive (d : Device) (o v : Nat) : (d.setReg o v).digArrive = d.digArrive := rfl
@[simp] theorem Device.setReg_digWait (d : Device) (o v : Nat) : (d.setReg o v).digWait = d.digWait := rfl
@[simp] theorem Device.setReg_digHigh (d : Device) (o v : Nat) : (d.setReg o v).digHigh = d.digHigh := rfl
@[simp] theorem Device.setReg_digSlotSel (d : Device) (o v : Nat) : (d.setReg o v).digSlotSel = d.digSlotSel := rfl
@[simp] theorem Device.setReg_whd (d : Device) (o v : Nat) : (d.setReg o v).whd = d.whd := rfl
@[simp] theorem Device.setReg_cis (d : Device) (o v : Nat) : (d.setReg o v).cis = d.cis := rfl
@[simp] theorem Device.setReg_ss (d : Device) (o v : Nat) : (d.setReg o v).ss = d.ss := rfl
@[simp] theorem Device.setReg_gates (d : Device) (o v : Nat) : (d.setReg o v).gates = d.gates := rfl
@[simp] theorem Device.setReg_dselGate (d : Device) (o v : Nat) : (d.setReg o v).dselGate = d.dselGate := rfl
@[simp] theorem Device.setReg_dselRegion (d : Device) (o v : Nat) : (d.setReg o v).dselRegion = d.dselRegion := rfl
@[simp] theorem Device.setReg_dselErr (d : Device) (o v : Nat) : (d.setReg o v).dselErr = d.dselErr := rfl
@[simp] theorem Device.setReg_dselCause (d : Device) (o v : Nat) : (d.setReg o v).dselCause = d.dselCause := rfl
@[simp] theorem Device.setReg_dstage (d : Device) (o v : Nat) : (d.setReg o v).dstage = d.dstage := rfl
@[simp] theorem Device.setReg_fl (d : Device) (o v : Nat) : (d.setReg o v).fl = d.fl := rfl
@[simp] theorem Device.setReg_flt (d : Device) (o v : Nat) : (d.setReg o v).flt = d.flt := rfl
@[simp] theorem Device.setReg_lev (d : Device) (o v : Nat) : (d.setReg o v).lev = d.lev := rfl
@[simp] theorem Device.setReg_evr (d : Device) (o v : Nat) : (d.setReg o v).evr = d.evr := rfl
@[simp] theorem Device.setReg_ws (d : Device) (o v : Nat) : (d.setReg o v).ws = d.ws := rfl
@[simp] theorem Device.setReg_md (d : Device) (o v : Nat) : (d.setReg o v).md = d.md := rfl
@[simp] theorem Device.setReg_boot (d : Device) (o v : Nat) : (d.setReg o v).boot = d.boot := rfl
@[simp] theorem Device.setReg_brd (d : Device) (o v : Nat) : (d.setReg o v).brd = d.brd := rfl
@[simp] theorem Device.setReg_at_allot (d : Device) (o v : Nat) (i : Nat) : (d.setReg o v).allot i = d.allot i := rfl
@[simp] theorem Device.setReg_at_sq (d : Device) (o v : Nat) (i j : Nat) : (d.setReg o v).sq i j = d.sq i j := rfl
@[simp] theorem Device.setReg_at_cq (d : Device) (o v : Nat) (i j : Nat) : (d.setReg o v).cq i j = d.cq i j := rfl
@[simp] theorem Device.setReg_at_adm (d : Device) (o v : Nat) (i : Nat) : (d.setReg o v).adm i = d.adm i := rfl
@[simp] theorem Device.setReg_at_cmd (d : Device) (o v : Nat) (i : Nat) : (d.setReg o v).cmd i = d.cmd i := rfl
@[simp] theorem Device.setReg_at_ctx (d : Device) (o v : Nat) (i : Nat) : (d.setReg o v).ctx i = d.ctx i := rfl
@[simp] theorem Device.setReg_at_weir (d : Device) (o v : Nat) (i : Nat) : (d.setReg o v).weir i = d.weir i := rfl
@[simp] theorem Device.setReg_at_eng (d : Device) (o v : Nat) (i : Nat) : (d.setReg o v).eng i = d.eng i := rfl
@[simp] theorem Device.setReg_at_lat (d : Device) (o v : Nat) (i : Nat) : (d.setReg o v).lat i = d.lat i := rfl
@[simp] theorem Device.setReg_at_liu (d : Device) (o v : Nat) (i : Nat) : (d.setReg o v).liu i = d.liu i := rfl
@[simp] theorem Device.setReg_at_dig (d : Device) (o v : Nat) (i : Nat) : (d.setReg o v).dig i = d.dig i := rfl
@[simp] theorem Device.setReg_at_gate (d : Device) (o v : Nat) (i : Nat) : (d.setReg o v).gate i = d.gate i := rfl
@[simp] theorem Device.setReg_at_drbg (d : Device) (o v : Nat) (i : Nat) : (d.setReg o v).drbg i = d.drbg i := rfl
@[simp] theorem Device.setReg_at_slot (d : Device) (o v : Nat) (i : Nat) : (d.setReg o v).slot i = d.slot i := rfl
@[simp] theorem Device.setReg_at_unit (d : Device) (o v : Nat) (i j : Nat) : (d.setReg o v).unit i j = d.unit i j := rfl
@[simp] theorem Device.setReg_at_levSrc (d : Device) (o v : Nat) (i : Nat) : (d.setReg o v).levSrc i = d.levSrc i := rfl
@[simp] theorem Device.setReg_at_peer (d : Device) (o v : Nat) (i : Nat) : (d.setReg o v).peer i = d.peer i := rfl
@[simp] theorem Device.setReg_at_count (d : Device) (o v : Nat) (i : Nat) : (d.setReg o v).count i = d.count i := rfl

/-! ### bump -/

@[simp] theorem Device.bump_count_same (d : Device) (o m n : Nat) : (d.bump o m n).count o = satAdd m (d.count o) n := by
  simp [Device.count, Device.bump]
@[simp] theorem Device.bump_part (d : Device) (o m n : Nat) : (d.bump o m n).part = d.part := rfl
@[simp] theorem Device.bump_time (d : Device) (o m n : Nat) : (d.bump o m n).time = d.time := rfl
@[simp] theorem Device.bump_second (d : Device) (o m n : Nat) : (d.bump o m n).second = d.second := rfl
@[simp] theorem Device.bump_free (d : Device) (o m n : Nat) : (d.bump o m n).free = d.free := rfl
@[simp] theorem Device.bump_out (d : Device) (o m n : Nat) : (d.bump o m n).out = d.out := rfl
@[simp] theorem Device.bump_regs (d : Device) (o m n : Nat) : (d.bump o m n).regs = d.regs := rfl
@[simp] theorem Device.bump_allots (d : Device) (o m n : Nat) : (d.bump o m n).allots = d.allots := rfl
@[simp] theorem Device.bump_sqs (d : Device) (o m n : Nat) : (d.bump o m n).sqs = d.sqs := rfl
@[simp] theorem Device.bump_cqs (d : Device) (o m n : Nat) : (d.bump o m n).cqs = d.cqs := rfl
@[simp] theorem Device.bump_cmds (d : Device) (o m n : Nat) : (d.bump o m n).cmds = d.cmds := rfl
@[simp] theorem Device.bump_order (d : Device) (o m n : Nat) : (d.bump o m n).order = d.order := rfl
@[simp] theorem Device.bump_nextBatch (d : Device) (o m n : Nat) : (d.bump o m n).nextBatch = d.nextBatch := rfl
@[simp] theorem Device.bump_routines (d : Device) (o m n : Nat) : (d.bump o m n).routines = d.routines := rfl
@[simp] theorem Device.bump_oldImages (d : Device) (o m n : Nat) : (d.bump o m n).oldImages = d.oldImages := rfl
@[simp] theorem Device.bump_ctxs (d : Device) (o m n : Nat) : (d.bump o m n).ctxs = d.ctxs := rfl
@[simp] theorem Device.bump_cache (d : Device) (o m n : Nat) : (d.bump o m n).cache = d.cache := rfl
@[simp] theorem Device.bump_cacheDirty (d : Device) (o m n : Nat) : (d.bump o m n).cacheDirty = d.cacheDirty := rfl
@[simp] theorem Device.bump_weirs (d : Device) (o m n : Nat) : (d.bump o m n).weirs = d.weirs := rfl
@[simp] theorem Device.bump_rsv (d : Device) (o m n : Nat) : (d.bump o m n).rsv = d.rsv := rfl
@[simp] theorem Device.bump_engs (d : Device) (o m n : Nat) : (d.bump o m n).engs = d.engs := rfl
@[simp] theorem Device.bump_lats (d : Device) (o m n : Nat) : (d.bump o m n).lats = d.lats := rfl
@[simp] theorem Device.bump_saveGen (d : Device) (o m n : Nat) : (d.bump o m n).saveGen = d.saveGen := rfl
@[simp] theorem Device.bump_lastSweep (d : Device) (o m n : Nat) : (d.bump o m n).lastSweep = d.lastSweep := rfl
@[simp] theorem Device.bump_lius (d : Device) (o m n : Nat) : (d.bump o m n).lius = d.lius := rfl
@[simp] theorem Device.bump_liuWait (d : Device) (o m n : Nat) : (d.bump o m n).liuWait = d.liuWait := rfl
@[simp] theorem Device.bump_liuHigh (d : Device) (o m n : Nat) : (d.bump o m n).liuHigh = d.liuHigh := rfl
@[simp] theorem Device.bump_digs (d : Device) (o m n : Nat) : (d.bump o m n).digs = d.digs := rfl
@[simp] theorem Device.bump_digArrive (d : Device) (o m n : Nat) : (d.bump o m n).digArrive = d.digArrive := rfl
@[simp] theorem Device.bump_digWait (d : Device) (o m n : Nat) : (d.bump o m n).digWait = d.digWait := rfl
@[simp] theorem Device.bump_digHigh (d : Device) (o m n : Nat) : (d.bump o m n).digHigh = d.digHigh := rfl
@[simp] theorem Device.bump_digSlotSel (d : Device) (o m n : Nat) : (d.bump o m n).digSlotSel = d.digSlotSel := rfl
@[simp] theorem Device.bump_whd (d : Device) (o m n : Nat) : (d.bump o m n).whd = d.whd := rfl
@[simp] theorem Device.bump_cis (d : Device) (o m n : Nat) : (d.bump o m n).cis = d.cis := rfl
@[simp] theorem Device.bump_ss (d : Device) (o m n : Nat) : (d.bump o m n).ss = d.ss := rfl
@[simp] theorem Device.bump_gates (d : Device) (o m n : Nat) : (d.bump o m n).gates = d.gates := rfl
@[simp] theorem Device.bump_dselGate (d : Device) (o m n : Nat) : (d.bump o m n).dselGate = d.dselGate := rfl
@[simp] theorem Device.bump_dselRegion (d : Device) (o m n : Nat) : (d.bump o m n).dselRegion = d.dselRegion := rfl
@[simp] theorem Device.bump_dselErr (d : Device) (o m n : Nat) : (d.bump o m n).dselErr = d.dselErr := rfl
@[simp] theorem Device.bump_dselCause (d : Device) (o m n : Nat) : (d.bump o m n).dselCause = d.dselCause := rfl
@[simp] theorem Device.bump_dstage (d : Device) (o m n : Nat) : (d.bump o m n).dstage = d.dstage := rfl
@[simp] theorem Device.bump_fl (d : Device) (o m n : Nat) : (d.bump o m n).fl = d.fl := rfl
@[simp] theorem Device.bump_flt (d : Device) (o m n : Nat) : (d.bump o m n).flt = d.flt := rfl
@[simp] theorem Device.bump_lev (d : Device) (o m n : Nat) : (d.bump o m n).lev = d.lev := rfl
@[simp] theorem Device.bump_evr (d : Device) (o m n : Nat) : (d.bump o m n).evr = d.evr := rfl
@[simp] theorem Device.bump_ws (d : Device) (o m n : Nat) : (d.bump o m n).ws = d.ws := rfl
@[simp] theorem Device.bump_md (d : Device) (o m n : Nat) : (d.bump o m n).md = d.md := rfl
@[simp] theorem Device.bump_boot (d : Device) (o m n : Nat) : (d.bump o m n).boot = d.boot := rfl
@[simp] theorem Device.bump_brd (d : Device) (o m n : Nat) : (d.bump o m n).brd = d.brd := rfl
@[simp] theorem Device.bump_at_allot (d : Device) (o m n : Nat) (i : Nat) : (d.bump o m n).allot i = d.allot i := rfl
@[simp] theorem Device.bump_at_sq (d : Device) (o m n : Nat) (i j : Nat) : (d.bump o m n).sq i j = d.sq i j := rfl
@[simp] theorem Device.bump_at_cq (d : Device) (o m n : Nat) (i j : Nat) : (d.bump o m n).cq i j = d.cq i j := rfl
@[simp] theorem Device.bump_at_adm (d : Device) (o m n : Nat) (i : Nat) : (d.bump o m n).adm i = d.adm i := rfl
@[simp] theorem Device.bump_at_cmd (d : Device) (o m n : Nat) (i : Nat) : (d.bump o m n).cmd i = d.cmd i := rfl
@[simp] theorem Device.bump_at_ctx (d : Device) (o m n : Nat) (i : Nat) : (d.bump o m n).ctx i = d.ctx i := rfl
@[simp] theorem Device.bump_at_weir (d : Device) (o m n : Nat) (i : Nat) : (d.bump o m n).weir i = d.weir i := rfl
@[simp] theorem Device.bump_at_eng (d : Device) (o m n : Nat) (i : Nat) : (d.bump o m n).eng i = d.eng i := rfl
@[simp] theorem Device.bump_at_lat (d : Device) (o m n : Nat) (i : Nat) : (d.bump o m n).lat i = d.lat i := rfl
@[simp] theorem Device.bump_at_liu (d : Device) (o m n : Nat) (i : Nat) : (d.bump o m n).liu i = d.liu i := rfl
@[simp] theorem Device.bump_at_dig (d : Device) (o m n : Nat) (i : Nat) : (d.bump o m n).dig i = d.dig i := rfl
@[simp] theorem Device.bump_at_gate (d : Device) (o m n : Nat) (i : Nat) : (d.bump o m n).gate i = d.gate i := rfl
@[simp] theorem Device.bump_at_drbg (d : Device) (o m n : Nat) (i : Nat) : (d.bump o m n).drbg i = d.drbg i := rfl
@[simp] theorem Device.bump_at_slot (d : Device) (o m n : Nat) (i : Nat) : (d.bump o m n).slot i = d.slot i := rfl
@[simp] theorem Device.bump_at_unit (d : Device) (o m n : Nat) (i j : Nat) : (d.bump o m n).unit i j = d.unit i j := rfl
@[simp] theorem Device.bump_at_levSrc (d : Device) (o m n : Nat) (i : Nat) : (d.bump o m n).levSrc i = d.levSrc i := rfl
@[simp] theorem Device.bump_at_peer (d : Device) (o m n : Nat) (i : Nat) : (d.bump o m n).peer i = d.peer i := rfl
@[simp] theorem Device.bump_at_reg (d : Device) (o m n : Nat) (i : Nat) : (d.bump o m n).reg i = d.reg i := rfl

/-! ### clearCount -/

@[simp] theorem Device.clearCount_count_same (d : Device) (o : Nat) : (d.clearCount o).count o = 0 := by
  simp [Device.count, Device.clearCount]
@[simp] theorem Device.clearCount_part (d : Device) (o : Nat) : (d.clearCount o).part = d.part := rfl
@[simp] theorem Device.clearCount_time (d : Device) (o : Nat) : (d.clearCount o).time = d.time := rfl
@[simp] theorem Device.clearCount_second (d : Device) (o : Nat) : (d.clearCount o).second = d.second := rfl
@[simp] theorem Device.clearCount_free (d : Device) (o : Nat) : (d.clearCount o).free = d.free := rfl
@[simp] theorem Device.clearCount_out (d : Device) (o : Nat) : (d.clearCount o).out = d.out := rfl
@[simp] theorem Device.clearCount_regs (d : Device) (o : Nat) : (d.clearCount o).regs = d.regs := rfl
@[simp] theorem Device.clearCount_allots (d : Device) (o : Nat) : (d.clearCount o).allots = d.allots := rfl
@[simp] theorem Device.clearCount_sqs (d : Device) (o : Nat) : (d.clearCount o).sqs = d.sqs := rfl
@[simp] theorem Device.clearCount_cqs (d : Device) (o : Nat) : (d.clearCount o).cqs = d.cqs := rfl
@[simp] theorem Device.clearCount_cmds (d : Device) (o : Nat) : (d.clearCount o).cmds = d.cmds := rfl
@[simp] theorem Device.clearCount_order (d : Device) (o : Nat) : (d.clearCount o).order = d.order := rfl
@[simp] theorem Device.clearCount_nextBatch (d : Device) (o : Nat) : (d.clearCount o).nextBatch = d.nextBatch := rfl
@[simp] theorem Device.clearCount_routines (d : Device) (o : Nat) : (d.clearCount o).routines = d.routines := rfl
@[simp] theorem Device.clearCount_oldImages (d : Device) (o : Nat) : (d.clearCount o).oldImages = d.oldImages := rfl
@[simp] theorem Device.clearCount_ctxs (d : Device) (o : Nat) : (d.clearCount o).ctxs = d.ctxs := rfl
@[simp] theorem Device.clearCount_cache (d : Device) (o : Nat) : (d.clearCount o).cache = d.cache := rfl
@[simp] theorem Device.clearCount_cacheDirty (d : Device) (o : Nat) : (d.clearCount o).cacheDirty = d.cacheDirty := rfl
@[simp] theorem Device.clearCount_weirs (d : Device) (o : Nat) : (d.clearCount o).weirs = d.weirs := rfl
@[simp] theorem Device.clearCount_rsv (d : Device) (o : Nat) : (d.clearCount o).rsv = d.rsv := rfl
@[simp] theorem Device.clearCount_engs (d : Device) (o : Nat) : (d.clearCount o).engs = d.engs := rfl
@[simp] theorem Device.clearCount_lats (d : Device) (o : Nat) : (d.clearCount o).lats = d.lats := rfl
@[simp] theorem Device.clearCount_saveGen (d : Device) (o : Nat) : (d.clearCount o).saveGen = d.saveGen := rfl
@[simp] theorem Device.clearCount_lastSweep (d : Device) (o : Nat) : (d.clearCount o).lastSweep = d.lastSweep := rfl
@[simp] theorem Device.clearCount_lius (d : Device) (o : Nat) : (d.clearCount o).lius = d.lius := rfl
@[simp] theorem Device.clearCount_liuWait (d : Device) (o : Nat) : (d.clearCount o).liuWait = d.liuWait := rfl
@[simp] theorem Device.clearCount_liuHigh (d : Device) (o : Nat) : (d.clearCount o).liuHigh = d.liuHigh := rfl
@[simp] theorem Device.clearCount_digs (d : Device) (o : Nat) : (d.clearCount o).digs = d.digs := rfl
@[simp] theorem Device.clearCount_digArrive (d : Device) (o : Nat) : (d.clearCount o).digArrive = d.digArrive := rfl
@[simp] theorem Device.clearCount_digWait (d : Device) (o : Nat) : (d.clearCount o).digWait = d.digWait := rfl
@[simp] theorem Device.clearCount_digHigh (d : Device) (o : Nat) : (d.clearCount o).digHigh = d.digHigh := rfl
@[simp] theorem Device.clearCount_digSlotSel (d : Device) (o : Nat) : (d.clearCount o).digSlotSel = d.digSlotSel := rfl
@[simp] theorem Device.clearCount_whd (d : Device) (o : Nat) : (d.clearCount o).whd = d.whd := rfl
@[simp] theorem Device.clearCount_cis (d : Device) (o : Nat) : (d.clearCount o).cis = d.cis := rfl
@[simp] theorem Device.clearCount_ss (d : Device) (o : Nat) : (d.clearCount o).ss = d.ss := rfl
@[simp] theorem Device.clearCount_gates (d : Device) (o : Nat) : (d.clearCount o).gates = d.gates := rfl
@[simp] theorem Device.clearCount_dselGate (d : Device) (o : Nat) : (d.clearCount o).dselGate = d.dselGate := rfl
@[simp] theorem Device.clearCount_dselRegion (d : Device) (o : Nat) : (d.clearCount o).dselRegion = d.dselRegion := rfl
@[simp] theorem Device.clearCount_dselErr (d : Device) (o : Nat) : (d.clearCount o).dselErr = d.dselErr := rfl
@[simp] theorem Device.clearCount_dselCause (d : Device) (o : Nat) : (d.clearCount o).dselCause = d.dselCause := rfl
@[simp] theorem Device.clearCount_dstage (d : Device) (o : Nat) : (d.clearCount o).dstage = d.dstage := rfl
@[simp] theorem Device.clearCount_fl (d : Device) (o : Nat) : (d.clearCount o).fl = d.fl := rfl
@[simp] theorem Device.clearCount_flt (d : Device) (o : Nat) : (d.clearCount o).flt = d.flt := rfl
@[simp] theorem Device.clearCount_lev (d : Device) (o : Nat) : (d.clearCount o).lev = d.lev := rfl
@[simp] theorem Device.clearCount_evr (d : Device) (o : Nat) : (d.clearCount o).evr = d.evr := rfl
@[simp] theorem Device.clearCount_ws (d : Device) (o : Nat) : (d.clearCount o).ws = d.ws := rfl
@[simp] theorem Device.clearCount_md (d : Device) (o : Nat) : (d.clearCount o).md = d.md := rfl
@[simp] theorem Device.clearCount_boot (d : Device) (o : Nat) : (d.clearCount o).boot = d.boot := rfl
@[simp] theorem Device.clearCount_brd (d : Device) (o : Nat) : (d.clearCount o).brd = d.brd := rfl
@[simp] theorem Device.clearCount_at_allot (d : Device) (o : Nat) (i : Nat) : (d.clearCount o).allot i = d.allot i := rfl
@[simp] theorem Device.clearCount_at_sq (d : Device) (o : Nat) (i j : Nat) : (d.clearCount o).sq i j = d.sq i j := rfl
@[simp] theorem Device.clearCount_at_cq (d : Device) (o : Nat) (i j : Nat) : (d.clearCount o).cq i j = d.cq i j := rfl
@[simp] theorem Device.clearCount_at_adm (d : Device) (o : Nat) (i : Nat) : (d.clearCount o).adm i = d.adm i := rfl
@[simp] theorem Device.clearCount_at_cmd (d : Device) (o : Nat) (i : Nat) : (d.clearCount o).cmd i = d.cmd i := rfl
@[simp] theorem Device.clearCount_at_ctx (d : Device) (o : Nat) (i : Nat) : (d.clearCount o).ctx i = d.ctx i := rfl
@[simp] theorem Device.clearCount_at_weir (d : Device) (o : Nat) (i : Nat) : (d.clearCount o).weir i = d.weir i := rfl
@[simp] theorem Device.clearCount_at_eng (d : Device) (o : Nat) (i : Nat) : (d.clearCount o).eng i = d.eng i := rfl
@[simp] theorem Device.clearCount_at_lat (d : Device) (o : Nat) (i : Nat) : (d.clearCount o).lat i = d.lat i := rfl
@[simp] theorem Device.clearCount_at_liu (d : Device) (o : Nat) (i : Nat) : (d.clearCount o).liu i = d.liu i := rfl
@[simp] theorem Device.clearCount_at_dig (d : Device) (o : Nat) (i : Nat) : (d.clearCount o).dig i = d.dig i := rfl
@[simp] theorem Device.clearCount_at_gate (d : Device) (o : Nat) (i : Nat) : (d.clearCount o).gate i = d.gate i := rfl
@[simp] theorem Device.clearCount_at_drbg (d : Device) (o : Nat) (i : Nat) : (d.clearCount o).drbg i = d.drbg i := rfl
@[simp] theorem Device.clearCount_at_slot (d : Device) (o : Nat) (i : Nat) : (d.clearCount o).slot i = d.slot i := rfl
@[simp] theorem Device.clearCount_at_unit (d : Device) (o : Nat) (i j : Nat) : (d.clearCount o).unit i j = d.unit i j := rfl
@[simp] theorem Device.clearCount_at_levSrc (d : Device) (o : Nat) (i : Nat) : (d.clearCount o).levSrc i = d.levSrc i := rfl
@[simp] theorem Device.clearCount_at_peer (d : Device) (o : Nat) (i : Nat) : (d.clearCount o).peer i = d.peer i := rfl
@[simp] theorem Device.clearCount_at_reg (d : Device) (o : Nat) (i : Nat) : (d.clearCount o).reg i = d.reg i := rfl

/-! ### emit -/

@[simp] theorem Device.emit_part (d : Device) (o : Output) : (d.emit o).part = d.part := rfl
@[simp] theorem Device.emit_time (d : Device) (o : Output) : (d.emit o).time = d.time := rfl
@[simp] theorem Device.emit_second (d : Device) (o : Output) : (d.emit o).second = d.second := rfl
@[simp] theorem Device.emit_free (d : Device) (o : Output) : (d.emit o).free = d.free := rfl
@[simp] theorem Device.emit_regs (d : Device) (o : Output) : (d.emit o).regs = d.regs := rfl
@[simp] theorem Device.emit_cnt (d : Device) (o : Output) : (d.emit o).cnt = d.cnt := rfl
@[simp] theorem Device.emit_allots (d : Device) (o : Output) : (d.emit o).allots = d.allots := rfl
@[simp] theorem Device.emit_sqs (d : Device) (o : Output) : (d.emit o).sqs = d.sqs := rfl
@[simp] theorem Device.emit_cqs (d : Device) (o : Output) : (d.emit o).cqs = d.cqs := rfl
@[simp] theorem Device.emit_cmds (d : Device) (o : Output) : (d.emit o).cmds = d.cmds := rfl
@[simp] theorem Device.emit_order (d : Device) (o : Output) : (d.emit o).order = d.order := rfl
@[simp] theorem Device.emit_nextBatch (d : Device) (o : Output) : (d.emit o).nextBatch = d.nextBatch := rfl
@[simp] theorem Device.emit_routines (d : Device) (o : Output) : (d.emit o).routines = d.routines := rfl
@[simp] theorem Device.emit_oldImages (d : Device) (o : Output) : (d.emit o).oldImages = d.oldImages := rfl
@[simp] theorem Device.emit_ctxs (d : Device) (o : Output) : (d.emit o).ctxs = d.ctxs := rfl
@[simp] theorem Device.emit_cache (d : Device) (o : Output) : (d.emit o).cache = d.cache := rfl
@[simp] theorem Device.emit_cacheDirty (d : Device) (o : Output) : (d.emit o).cacheDirty = d.cacheDirty := rfl
@[simp] theorem Device.emit_weirs (d : Device) (o : Output) : (d.emit o).weirs = d.weirs := rfl
@[simp] theorem Device.emit_rsv (d : Device) (o : Output) : (d.emit o).rsv = d.rsv := rfl
@[simp] theorem Device.emit_engs (d : Device) (o : Output) : (d.emit o).engs = d.engs := rfl
@[simp] theorem Device.emit_lats (d : Device) (o : Output) : (d.emit o).lats = d.lats := rfl
@[simp] theorem Device.emit_saveGen (d : Device) (o : Output) : (d.emit o).saveGen = d.saveGen := rfl
@[simp] theorem Device.emit_lastSweep (d : Device) (o : Output) : (d.emit o).lastSweep = d.lastSweep := rfl
@[simp] theorem Device.emit_lius (d : Device) (o : Output) : (d.emit o).lius = d.lius := rfl
@[simp] theorem Device.emit_liuWait (d : Device) (o : Output) : (d.emit o).liuWait = d.liuWait := rfl
@[simp] theorem Device.emit_liuHigh (d : Device) (o : Output) : (d.emit o).liuHigh = d.liuHigh := rfl
@[simp] theorem Device.emit_digs (d : Device) (o : Output) : (d.emit o).digs = d.digs := rfl
@[simp] theorem Device.emit_digArrive (d : Device) (o : Output) : (d.emit o).digArrive = d.digArrive := rfl
@[simp] theorem Device.emit_digWait (d : Device) (o : Output) : (d.emit o).digWait = d.digWait := rfl
@[simp] theorem Device.emit_digHigh (d : Device) (o : Output) : (d.emit o).digHigh = d.digHigh := rfl
@[simp] theorem Device.emit_digSlotSel (d : Device) (o : Output) : (d.emit o).digSlotSel = d.digSlotSel := rfl
@[simp] theorem Device.emit_whd (d : Device) (o : Output) : (d.emit o).whd = d.whd := rfl
@[simp] theorem Device.emit_cis (d : Device) (o : Output) : (d.emit o).cis = d.cis := rfl
@[simp] theorem Device.emit_ss (d : Device) (o : Output) : (d.emit o).ss = d.ss := rfl
@[simp] theorem Device.emit_gates (d : Device) (o : Output) : (d.emit o).gates = d.gates := rfl
@[simp] theorem Device.emit_dselGate (d : Device) (o : Output) : (d.emit o).dselGate = d.dselGate := rfl
@[simp] theorem Device.emit_dselRegion (d : Device) (o : Output) : (d.emit o).dselRegion = d.dselRegion := rfl
@[simp] theorem Device.emit_dselErr (d : Device) (o : Output) : (d.emit o).dselErr = d.dselErr := rfl
@[simp] theorem Device.emit_dselCause (d : Device) (o : Output) : (d.emit o).dselCause = d.dselCause := rfl
@[simp] theorem Device.emit_dstage (d : Device) (o : Output) : (d.emit o).dstage = d.dstage := rfl
@[simp] theorem Device.emit_fl (d : Device) (o : Output) : (d.emit o).fl = d.fl := rfl
@[simp] theorem Device.emit_flt (d : Device) (o : Output) : (d.emit o).flt = d.flt := rfl
@[simp] theorem Device.emit_lev (d : Device) (o : Output) : (d.emit o).lev = d.lev := rfl
@[simp] theorem Device.emit_evr (d : Device) (o : Output) : (d.emit o).evr = d.evr := rfl
@[simp] theorem Device.emit_ws (d : Device) (o : Output) : (d.emit o).ws = d.ws := rfl
@[simp] theorem Device.emit_md (d : Device) (o : Output) : (d.emit o).md = d.md := rfl
@[simp] theorem Device.emit_boot (d : Device) (o : Output) : (d.emit o).boot = d.boot := rfl
@[simp] theorem Device.emit_brd (d : Device) (o : Output) : (d.emit o).brd = d.brd := rfl
@[simp] theorem Device.emit_at_allot (d : Device) (o : Output) (i : Nat) : (d.emit o).allot i = d.allot i := rfl
@[simp] theorem Device.emit_at_sq (d : Device) (o : Output) (i j : Nat) : (d.emit o).sq i j = d.sq i j := rfl
@[simp] theorem Device.emit_at_cq (d : Device) (o : Output) (i j : Nat) : (d.emit o).cq i j = d.cq i j := rfl
@[simp] theorem Device.emit_at_adm (d : Device) (o : Output) (i : Nat) : (d.emit o).adm i = d.adm i := rfl
@[simp] theorem Device.emit_at_cmd (d : Device) (o : Output) (i : Nat) : (d.emit o).cmd i = d.cmd i := rfl
@[simp] theorem Device.emit_at_ctx (d : Device) (o : Output) (i : Nat) : (d.emit o).ctx i = d.ctx i := rfl
@[simp] theorem Device.emit_at_weir (d : Device) (o : Output) (i : Nat) : (d.emit o).weir i = d.weir i := rfl
@[simp] theorem Device.emit_at_eng (d : Device) (o : Output) (i : Nat) : (d.emit o).eng i = d.eng i := rfl
@[simp] theorem Device.emit_at_lat (d : Device) (o : Output) (i : Nat) : (d.emit o).lat i = d.lat i := rfl
@[simp] theorem Device.emit_at_liu (d : Device) (o : Output) (i : Nat) : (d.emit o).liu i = d.liu i := rfl
@[simp] theorem Device.emit_at_dig (d : Device) (o : Output) (i : Nat) : (d.emit o).dig i = d.dig i := rfl
@[simp] theorem Device.emit_at_gate (d : Device) (o : Output) (i : Nat) : (d.emit o).gate i = d.gate i := rfl
@[simp] theorem Device.emit_at_drbg (d : Device) (o : Output) (i : Nat) : (d.emit o).drbg i = d.drbg i := rfl
@[simp] theorem Device.emit_at_slot (d : Device) (o : Output) (i : Nat) : (d.emit o).slot i = d.slot i := rfl
@[simp] theorem Device.emit_at_unit (d : Device) (o : Output) (i j : Nat) : (d.emit o).unit i j = d.unit i j := rfl
@[simp] theorem Device.emit_at_levSrc (d : Device) (o : Output) (i : Nat) : (d.emit o).levSrc i = d.levSrc i := rfl
@[simp] theorem Device.emit_at_peer (d : Device) (o : Output) (i : Nat) : (d.emit o).peer i = d.peer i := rfl
@[simp] theorem Device.emit_at_reg (d : Device) (o : Output) (i : Nat) : (d.emit o).reg i = d.reg i := rfl
@[simp] theorem Device.emit_at_count (d : Device) (o : Output) (i : Nat) : (d.emit o).count i = d.count i := rfl

/-! ### tookFree -/

@[simp] theorem Device.tookFree_part (d : Device) (n : Nat) : (d.tookFree n).part = d.part := rfl
@[simp] theorem Device.tookFree_time (d : Device) (n : Nat) : (d.tookFree n).time = d.time := rfl
@[simp] theorem Device.tookFree_second (d : Device) (n : Nat) : (d.tookFree n).second = d.second := rfl
@[simp] theorem Device.tookFree_out (d : Device) (n : Nat) : (d.tookFree n).out = d.out := rfl
@[simp] theorem Device.tookFree_regs (d : Device) (n : Nat) : (d.tookFree n).regs = d.regs := rfl
@[simp] theorem Device.tookFree_cnt (d : Device) (n : Nat) : (d.tookFree n).cnt = d.cnt := rfl
@[simp] theorem Device.tookFree_allots (d : Device) (n : Nat) : (d.tookFree n).allots = d.allots := rfl
@[simp] theorem Device.tookFree_sqs (d : Device) (n : Nat) : (d.tookFree n).sqs = d.sqs := rfl
@[simp] theorem Device.tookFree_cqs (d : Device) (n : Nat) : (d.tookFree n).cqs = d.cqs := rfl
@[simp] theorem Device.tookFree_cmds (d : Device) (n : Nat) : (d.tookFree n).cmds = d.cmds := rfl
@[simp] theorem Device.tookFree_order (d : Device) (n : Nat) : (d.tookFree n).order = d.order := rfl
@[simp] theorem Device.tookFree_nextBatch (d : Device) (n : Nat) : (d.tookFree n).nextBatch = d.nextBatch := rfl
@[simp] theorem Device.tookFree_routines (d : Device) (n : Nat) : (d.tookFree n).routines = d.routines := rfl
@[simp] theorem Device.tookFree_oldImages (d : Device) (n : Nat) : (d.tookFree n).oldImages = d.oldImages := rfl
@[simp] theorem Device.tookFree_ctxs (d : Device) (n : Nat) : (d.tookFree n).ctxs = d.ctxs := rfl
@[simp] theorem Device.tookFree_cache (d : Device) (n : Nat) : (d.tookFree n).cache = d.cache := rfl
@[simp] theorem Device.tookFree_cacheDirty (d : Device) (n : Nat) : (d.tookFree n).cacheDirty = d.cacheDirty := rfl
@[simp] theorem Device.tookFree_weirs (d : Device) (n : Nat) : (d.tookFree n).weirs = d.weirs := rfl
@[simp] theorem Device.tookFree_rsv (d : Device) (n : Nat) : (d.tookFree n).rsv = d.rsv := rfl
@[simp] theorem Device.tookFree_engs (d : Device) (n : Nat) : (d.tookFree n).engs = d.engs := rfl
@[simp] theorem Device.tookFree_lats (d : Device) (n : Nat) : (d.tookFree n).lats = d.lats := rfl
@[simp] theorem Device.tookFree_saveGen (d : Device) (n : Nat) : (d.tookFree n).saveGen = d.saveGen := rfl
@[simp] theorem Device.tookFree_lastSweep (d : Device) (n : Nat) : (d.tookFree n).lastSweep = d.lastSweep := rfl
@[simp] theorem Device.tookFree_lius (d : Device) (n : Nat) : (d.tookFree n).lius = d.lius := rfl
@[simp] theorem Device.tookFree_liuWait (d : Device) (n : Nat) : (d.tookFree n).liuWait = d.liuWait := rfl
@[simp] theorem Device.tookFree_liuHigh (d : Device) (n : Nat) : (d.tookFree n).liuHigh = d.liuHigh := rfl
@[simp] theorem Device.tookFree_digs (d : Device) (n : Nat) : (d.tookFree n).digs = d.digs := rfl
@[simp] theorem Device.tookFree_digArrive (d : Device) (n : Nat) : (d.tookFree n).digArrive = d.digArrive := rfl
@[simp] theorem Device.tookFree_digWait (d : Device) (n : Nat) : (d.tookFree n).digWait = d.digWait := rfl
@[simp] theorem Device.tookFree_digHigh (d : Device) (n : Nat) : (d.tookFree n).digHigh = d.digHigh := rfl
@[simp] theorem Device.tookFree_digSlotSel (d : Device) (n : Nat) : (d.tookFree n).digSlotSel = d.digSlotSel := rfl
@[simp] theorem Device.tookFree_whd (d : Device) (n : Nat) : (d.tookFree n).whd = d.whd := rfl
@[simp] theorem Device.tookFree_cis (d : Device) (n : Nat) : (d.tookFree n).cis = d.cis := rfl
@[simp] theorem Device.tookFree_ss (d : Device) (n : Nat) : (d.tookFree n).ss = d.ss := rfl
@[simp] theorem Device.tookFree_gates (d : Device) (n : Nat) : (d.tookFree n).gates = d.gates := rfl
@[simp] theorem Device.tookFree_dselGate (d : Device) (n : Nat) : (d.tookFree n).dselGate = d.dselGate := rfl
@[simp] theorem Device.tookFree_dselRegion (d : Device) (n : Nat) : (d.tookFree n).dselRegion = d.dselRegion := rfl
@[simp] theorem Device.tookFree_dselErr (d : Device) (n : Nat) : (d.tookFree n).dselErr = d.dselErr := rfl
@[simp] theorem Device.tookFree_dselCause (d : Device) (n : Nat) : (d.tookFree n).dselCause = d.dselCause := rfl
@[simp] theorem Device.tookFree_dstage (d : Device) (n : Nat) : (d.tookFree n).dstage = d.dstage := rfl
@[simp] theorem Device.tookFree_fl (d : Device) (n : Nat) : (d.tookFree n).fl = d.fl := rfl
@[simp] theorem Device.tookFree_flt (d : Device) (n : Nat) : (d.tookFree n).flt = d.flt := rfl
@[simp] theorem Device.tookFree_lev (d : Device) (n : Nat) : (d.tookFree n).lev = d.lev := rfl
@[simp] theorem Device.tookFree_evr (d : Device) (n : Nat) : (d.tookFree n).evr = d.evr := rfl
@[simp] theorem Device.tookFree_ws (d : Device) (n : Nat) : (d.tookFree n).ws = d.ws := rfl
@[simp] theorem Device.tookFree_md (d : Device) (n : Nat) : (d.tookFree n).md = d.md := rfl
@[simp] theorem Device.tookFree_boot (d : Device) (n : Nat) : (d.tookFree n).boot = d.boot := rfl
@[simp] theorem Device.tookFree_brd (d : Device) (n : Nat) : (d.tookFree n).brd = d.brd := rfl
@[simp] theorem Device.tookFree_at_allot (d : Device) (n : Nat) (i : Nat) : (d.tookFree n).allot i = d.allot i := rfl
@[simp] theorem Device.tookFree_at_sq (d : Device) (n : Nat) (i j : Nat) : (d.tookFree n).sq i j = d.sq i j := rfl
@[simp] theorem Device.tookFree_at_cq (d : Device) (n : Nat) (i j : Nat) : (d.tookFree n).cq i j = d.cq i j := rfl
@[simp] theorem Device.tookFree_at_adm (d : Device) (n : Nat) (i : Nat) : (d.tookFree n).adm i = d.adm i := rfl
@[simp] theorem Device.tookFree_at_cmd (d : Device) (n : Nat) (i : Nat) : (d.tookFree n).cmd i = d.cmd i := rfl
@[simp] theorem Device.tookFree_at_ctx (d : Device) (n : Nat) (i : Nat) : (d.tookFree n).ctx i = d.ctx i := rfl
@[simp] theorem Device.tookFree_at_weir (d : Device) (n : Nat) (i : Nat) : (d.tookFree n).weir i = d.weir i := rfl
@[simp] theorem Device.tookFree_at_eng (d : Device) (n : Nat) (i : Nat) : (d.tookFree n).eng i = d.eng i := rfl
@[simp] theorem Device.tookFree_at_lat (d : Device) (n : Nat) (i : Nat) : (d.tookFree n).lat i = d.lat i := rfl
@[simp] theorem Device.tookFree_at_liu (d : Device) (n : Nat) (i : Nat) : (d.tookFree n).liu i = d.liu i := rfl
@[simp] theorem Device.tookFree_at_dig (d : Device) (n : Nat) (i : Nat) : (d.tookFree n).dig i = d.dig i := rfl
@[simp] theorem Device.tookFree_at_gate (d : Device) (n : Nat) (i : Nat) : (d.tookFree n).gate i = d.gate i := rfl
@[simp] theorem Device.tookFree_at_drbg (d : Device) (n : Nat) (i : Nat) : (d.tookFree n).drbg i = d.drbg i := rfl
@[simp] theorem Device.tookFree_at_slot (d : Device) (n : Nat) (i : Nat) : (d.tookFree n).slot i = d.slot i := rfl
@[simp] theorem Device.tookFree_at_unit (d : Device) (n : Nat) (i j : Nat) : (d.tookFree n).unit i j = d.unit i j := rfl
@[simp] theorem Device.tookFree_at_levSrc (d : Device) (n : Nat) (i : Nat) : (d.tookFree n).levSrc i = d.levSrc i := rfl
@[simp] theorem Device.tookFree_at_peer (d : Device) (n : Nat) (i : Nat) : (d.tookFree n).peer i = d.peer i := rfl
@[simp] theorem Device.tookFree_at_reg (d : Device) (n : Nat) (i : Nat) : (d.tookFree n).reg i = d.reg i := rfl
@[simp] theorem Device.tookFree_at_count (d : Device) (n : Nat) (i : Nat) : (d.tookFree n).count i = d.count i := rfl

/-! ### rsvWrite -/

@[simp] theorem Device.rsvWrite_part (d : Device) (a : Nat) (bs : List Byte) : (d.rsvWrite a bs).part = d.part := rfl
@[simp] theorem Device.rsvWrite_time (d : Device) (a : Nat) (bs : List Byte) : (d.rsvWrite a bs).time = d.time := rfl
@[simp] theorem Device.rsvWrite_second (d : Device) (a : Nat) (bs : List Byte) : (d.rsvWrite a bs).second = d.second := rfl
@[simp] theorem Device.rsvWrite_free (d : Device) (a : Nat) (bs : List Byte) : (d.rsvWrite a bs).free = d.free := rfl
@[simp] theorem Device.rsvWrite_out (d : Device) (a : Nat) (bs : List Byte) : (d.rsvWrite a bs).out = d.out := rfl
@[simp] theorem Device.rsvWrite_regs (d : Device) (a : Nat) (bs : List Byte) : (d.rsvWrite a bs).regs = d.regs := rfl
@[simp] theorem Device.rsvWrite_cnt (d : Device) (a : Nat) (bs : List Byte) : (d.rsvWrite a bs).cnt = d.cnt := rfl
@[simp] theorem Device.rsvWrite_allots (d : Device) (a : Nat) (bs : List Byte) : (d.rsvWrite a bs).allots = d.allots := rfl
@[simp] theorem Device.rsvWrite_sqs (d : Device) (a : Nat) (bs : List Byte) : (d.rsvWrite a bs).sqs = d.sqs := rfl
@[simp] theorem Device.rsvWrite_cqs (d : Device) (a : Nat) (bs : List Byte) : (d.rsvWrite a bs).cqs = d.cqs := rfl
@[simp] theorem Device.rsvWrite_cmds (d : Device) (a : Nat) (bs : List Byte) : (d.rsvWrite a bs).cmds = d.cmds := rfl
@[simp] theorem Device.rsvWrite_order (d : Device) (a : Nat) (bs : List Byte) : (d.rsvWrite a bs).order = d.order := rfl
@[simp] theorem Device.rsvWrite_nextBatch (d : Device) (a : Nat) (bs : List Byte) : (d.rsvWrite a bs).nextBatch = d.nextBatch := rfl
@[simp] theorem Device.rsvWrite_routines (d : Device) (a : Nat) (bs : List Byte) : (d.rsvWrite a bs).routines = d.routines := rfl
@[simp] theorem Device.rsvWrite_oldImages (d : Device) (a : Nat) (bs : List Byte) : (d.rsvWrite a bs).oldImages = d.oldImages := rfl
@[simp] theorem Device.rsvWrite_ctxs (d : Device) (a : Nat) (bs : List Byte) : (d.rsvWrite a bs).ctxs = d.ctxs := rfl
@[simp] theorem Device.rsvWrite_cache (d : Device) (a : Nat) (bs : List Byte) : (d.rsvWrite a bs).cache = d.cache := rfl
@[simp] theorem Device.rsvWrite_cacheDirty (d : Device) (a : Nat) (bs : List Byte) : (d.rsvWrite a bs).cacheDirty = d.cacheDirty := rfl
@[simp] theorem Device.rsvWrite_weirs (d : Device) (a : Nat) (bs : List Byte) : (d.rsvWrite a bs).weirs = d.weirs := rfl
@[simp] theorem Device.rsvWrite_engs (d : Device) (a : Nat) (bs : List Byte) : (d.rsvWrite a bs).engs = d.engs := rfl
@[simp] theorem Device.rsvWrite_lats (d : Device) (a : Nat) (bs : List Byte) : (d.rsvWrite a bs).lats = d.lats := rfl
@[simp] theorem Device.rsvWrite_saveGen (d : Device) (a : Nat) (bs : List Byte) : (d.rsvWrite a bs).saveGen = d.saveGen := rfl
@[simp] theorem Device.rsvWrite_lastSweep (d : Device) (a : Nat) (bs : List Byte) : (d.rsvWrite a bs).lastSweep = d.lastSweep := rfl
@[simp] theorem Device.rsvWrite_lius (d : Device) (a : Nat) (bs : List Byte) : (d.rsvWrite a bs).lius = d.lius := rfl
@[simp] theorem Device.rsvWrite_liuWait (d : Device) (a : Nat) (bs : List Byte) : (d.rsvWrite a bs).liuWait = d.liuWait := rfl
@[simp] theorem Device.rsvWrite_liuHigh (d : Device) (a : Nat) (bs : List Byte) : (d.rsvWrite a bs).liuHigh = d.liuHigh := rfl
@[simp] theorem Device.rsvWrite_digs (d : Device) (a : Nat) (bs : List Byte) : (d.rsvWrite a bs).digs = d.digs := rfl
@[simp] theorem Device.rsvWrite_digArrive (d : Device) (a : Nat) (bs : List Byte) : (d.rsvWrite a bs).digArrive = d.digArrive := rfl
@[simp] theorem Device.rsvWrite_digWait (d : Device) (a : Nat) (bs : List Byte) : (d.rsvWrite a bs).digWait = d.digWait := rfl
@[simp] theorem Device.rsvWrite_digHigh (d : Device) (a : Nat) (bs : List Byte) : (d.rsvWrite a bs).digHigh = d.digHigh := rfl
@[simp] theorem Device.rsvWrite_digSlotSel (d : Device) (a : Nat) (bs : List Byte) : (d.rsvWrite a bs).digSlotSel = d.digSlotSel := rfl
@[simp] theorem Device.rsvWrite_whd (d : Device) (a : Nat) (bs : List Byte) : (d.rsvWrite a bs).whd = d.whd := rfl
@[simp] theorem Device.rsvWrite_cis (d : Device) (a : Nat) (bs : List Byte) : (d.rsvWrite a bs).cis = d.cis := rfl
@[simp] theorem Device.rsvWrite_ss (d : Device) (a : Nat) (bs : List Byte) : (d.rsvWrite a bs).ss = d.ss := rfl
@[simp] theorem Device.rsvWrite_gates (d : Device) (a : Nat) (bs : List Byte) : (d.rsvWrite a bs).gates = d.gates := rfl
@[simp] theorem Device.rsvWrite_dselGate (d : Device) (a : Nat) (bs : List Byte) : (d.rsvWrite a bs).dselGate = d.dselGate := rfl
@[simp] theorem Device.rsvWrite_dselRegion (d : Device) (a : Nat) (bs : List Byte) : (d.rsvWrite a bs).dselRegion = d.dselRegion := rfl
@[simp] theorem Device.rsvWrite_dselErr (d : Device) (a : Nat) (bs : List Byte) : (d.rsvWrite a bs).dselErr = d.dselErr := rfl
@[simp] theorem Device.rsvWrite_dselCause (d : Device) (a : Nat) (bs : List Byte) : (d.rsvWrite a bs).dselCause = d.dselCause := rfl
@[simp] theorem Device.rsvWrite_dstage (d : Device) (a : Nat) (bs : List Byte) : (d.rsvWrite a bs).dstage = d.dstage := rfl
@[simp] theorem Device.rsvWrite_fl (d : Device) (a : Nat) (bs : List Byte) : (d.rsvWrite a bs).fl = d.fl := rfl
@[simp] theorem Device.rsvWrite_flt (d : Device) (a : Nat) (bs : List Byte) : (d.rsvWrite a bs).flt = d.flt := rfl
@[simp] theorem Device.rsvWrite_lev (d : Device) (a : Nat) (bs : List Byte) : (d.rsvWrite a bs).lev = d.lev := rfl
@[simp] theorem Device.rsvWrite_evr (d : Device) (a : Nat) (bs : List Byte) : (d.rsvWrite a bs).evr = d.evr := rfl
@[simp] theorem Device.rsvWrite_ws (d : Device) (a : Nat) (bs : List Byte) : (d.rsvWrite a bs).ws = d.ws := rfl
@[simp] theorem Device.rsvWrite_md (d : Device) (a : Nat) (bs : List Byte) : (d.rsvWrite a bs).md = d.md := rfl
@[simp] theorem Device.rsvWrite_boot (d : Device) (a : Nat) (bs : List Byte) : (d.rsvWrite a bs).boot = d.boot := rfl
@[simp] theorem Device.rsvWrite_brd (d : Device) (a : Nat) (bs : List Byte) : (d.rsvWrite a bs).brd = d.brd := rfl
@[simp] theorem Device.rsvWrite_at_allot (d : Device) (a : Nat) (bs : List Byte) (i : Nat) : (d.rsvWrite a bs).allot i = d.allot i := rfl
@[simp] theorem Device.rsvWrite_at_sq (d : Device) (a : Nat) (bs : List Byte) (i j : Nat) : (d.rsvWrite a bs).sq i j = d.sq i j := rfl
@[simp] theorem Device.rsvWrite_at_cq (d : Device) (a : Nat) (bs : List Byte) (i j : Nat) : (d.rsvWrite a bs).cq i j = d.cq i j := rfl
@[simp] theorem Device.rsvWrite_at_adm (d : Device) (a : Nat) (bs : List Byte) (i : Nat) : (d.rsvWrite a bs).adm i = d.adm i := rfl
@[simp] theorem Device.rsvWrite_at_cmd (d : Device) (a : Nat) (bs : List Byte) (i : Nat) : (d.rsvWrite a bs).cmd i = d.cmd i := rfl
@[simp] theorem Device.rsvWrite_at_ctx (d : Device) (a : Nat) (bs : List Byte) (i : Nat) : (d.rsvWrite a bs).ctx i = d.ctx i := rfl
@[simp] theorem Device.rsvWrite_at_weir (d : Device) (a : Nat) (bs : List Byte) (i : Nat) : (d.rsvWrite a bs).weir i = d.weir i := rfl
@[simp] theorem Device.rsvWrite_at_eng (d : Device) (a : Nat) (bs : List Byte) (i : Nat) : (d.rsvWrite a bs).eng i = d.eng i := rfl
@[simp] theorem Device.rsvWrite_at_lat (d : Device) (a : Nat) (bs : List Byte) (i : Nat) : (d.rsvWrite a bs).lat i = d.lat i := rfl
@[simp] theorem Device.rsvWrite_at_liu (d : Device) (a : Nat) (bs : List Byte) (i : Nat) : (d.rsvWrite a bs).liu i = d.liu i := rfl
@[simp] theorem Device.rsvWrite_at_dig (d : Device) (a : Nat) (bs : List Byte) (i : Nat) : (d.rsvWrite a bs).dig i = d.dig i := rfl
@[simp] theorem Device.rsvWrite_at_gate (d : Device) (a : Nat) (bs : List Byte) (i : Nat) : (d.rsvWrite a bs).gate i = d.gate i := rfl
@[simp] theorem Device.rsvWrite_at_drbg (d : Device) (a : Nat) (bs : List Byte) (i : Nat) : (d.rsvWrite a bs).drbg i = d.drbg i := rfl
@[simp] theorem Device.rsvWrite_at_slot (d : Device) (a : Nat) (bs : List Byte) (i : Nat) : (d.rsvWrite a bs).slot i = d.slot i := rfl
@[simp] theorem Device.rsvWrite_at_unit (d : Device) (a : Nat) (bs : List Byte) (i j : Nat) : (d.rsvWrite a bs).unit i j = d.unit i j := rfl
@[simp] theorem Device.rsvWrite_at_levSrc (d : Device) (a : Nat) (bs : List Byte) (i : Nat) : (d.rsvWrite a bs).levSrc i = d.levSrc i := rfl
@[simp] theorem Device.rsvWrite_at_peer (d : Device) (a : Nat) (bs : List Byte) (i : Nat) : (d.rsvWrite a bs).peer i = d.peer i := rfl
@[simp] theorem Device.rsvWrite_at_reg (d : Device) (a : Nat) (bs : List Byte) (i : Nat) : (d.rsvWrite a bs).reg i = d.reg i := rfl
@[simp] theorem Device.rsvWrite_at_count (d : Device) (a : Nat) (bs : List Byte) (i : Nat) : (d.rsvWrite a bs).count i = d.count i := rfl

/-! ### rsvClear -/

@[simp] theorem Device.rsvClear_part (d : Device) (a n : Nat) : (d.rsvClear a n).part = d.part := rfl
@[simp] theorem Device.rsvClear_time (d : Device) (a n : Nat) : (d.rsvClear a n).time = d.time := rfl
@[simp] theorem Device.rsvClear_second (d : Device) (a n : Nat) : (d.rsvClear a n).second = d.second := rfl
@[simp] theorem Device.rsvClear_free (d : Device) (a n : Nat) : (d.rsvClear a n).free = d.free := rfl
@[simp] theorem Device.rsvClear_out (d : Device) (a n : Nat) : (d.rsvClear a n).out = d.out := rfl
@[simp] theorem Device.rsvClear_regs (d : Device) (a n : Nat) : (d.rsvClear a n).regs = d.regs := rfl
@[simp] theorem Device.rsvClear_cnt (d : Device) (a n : Nat) : (d.rsvClear a n).cnt = d.cnt := rfl
@[simp] theorem Device.rsvClear_allots (d : Device) (a n : Nat) : (d.rsvClear a n).allots = d.allots := rfl
@[simp] theorem Device.rsvClear_sqs (d : Device) (a n : Nat) : (d.rsvClear a n).sqs = d.sqs := rfl
@[simp] theorem Device.rsvClear_cqs (d : Device) (a n : Nat) : (d.rsvClear a n).cqs = d.cqs := rfl
@[simp] theorem Device.rsvClear_cmds (d : Device) (a n : Nat) : (d.rsvClear a n).cmds = d.cmds := rfl
@[simp] theorem Device.rsvClear_order (d : Device) (a n : Nat) : (d.rsvClear a n).order = d.order := rfl
@[simp] theorem Device.rsvClear_nextBatch (d : Device) (a n : Nat) : (d.rsvClear a n).nextBatch = d.nextBatch := rfl
@[simp] theorem Device.rsvClear_routines (d : Device) (a n : Nat) : (d.rsvClear a n).routines = d.routines := rfl
@[simp] theorem Device.rsvClear_oldImages (d : Device) (a n : Nat) : (d.rsvClear a n).oldImages = d.oldImages := rfl
@[simp] theorem Device.rsvClear_ctxs (d : Device) (a n : Nat) : (d.rsvClear a n).ctxs = d.ctxs := rfl
@[simp] theorem Device.rsvClear_cache (d : Device) (a n : Nat) : (d.rsvClear a n).cache = d.cache := rfl
@[simp] theorem Device.rsvClear_cacheDirty (d : Device) (a n : Nat) : (d.rsvClear a n).cacheDirty = d.cacheDirty := rfl
@[simp] theorem Device.rsvClear_weirs (d : Device) (a n : Nat) : (d.rsvClear a n).weirs = d.weirs := rfl
@[simp] theorem Device.rsvClear_engs (d : Device) (a n : Nat) : (d.rsvClear a n).engs = d.engs := rfl
@[simp] theorem Device.rsvClear_lats (d : Device) (a n : Nat) : (d.rsvClear a n).lats = d.lats := rfl
@[simp] theorem Device.rsvClear_saveGen (d : Device) (a n : Nat) : (d.rsvClear a n).saveGen = d.saveGen := rfl
@[simp] theorem Device.rsvClear_lastSweep (d : Device) (a n : Nat) : (d.rsvClear a n).lastSweep = d.lastSweep := rfl
@[simp] theorem Device.rsvClear_lius (d : Device) (a n : Nat) : (d.rsvClear a n).lius = d.lius := rfl
@[simp] theorem Device.rsvClear_liuWait (d : Device) (a n : Nat) : (d.rsvClear a n).liuWait = d.liuWait := rfl
@[simp] theorem Device.rsvClear_liuHigh (d : Device) (a n : Nat) : (d.rsvClear a n).liuHigh = d.liuHigh := rfl
@[simp] theorem Device.rsvClear_digs (d : Device) (a n : Nat) : (d.rsvClear a n).digs = d.digs := rfl
@[simp] theorem Device.rsvClear_digArrive (d : Device) (a n : Nat) : (d.rsvClear a n).digArrive = d.digArrive := rfl
@[simp] theorem Device.rsvClear_digWait (d : Device) (a n : Nat) : (d.rsvClear a n).digWait = d.digWait := rfl
@[simp] theorem Device.rsvClear_digHigh (d : Device) (a n : Nat) : (d.rsvClear a n).digHigh = d.digHigh := rfl
@[simp] theorem Device.rsvClear_digSlotSel (d : Device) (a n : Nat) : (d.rsvClear a n).digSlotSel = d.digSlotSel := rfl
@[simp] theorem Device.rsvClear_whd (d : Device) (a n : Nat) : (d.rsvClear a n).whd = d.whd := rfl
@[simp] theorem Device.rsvClear_cis (d : Device) (a n : Nat) : (d.rsvClear a n).cis = d.cis := rfl
@[simp] theorem Device.rsvClear_ss (d : Device) (a n : Nat) : (d.rsvClear a n).ss = d.ss := rfl
@[simp] theorem Device.rsvClear_gates (d : Device) (a n : Nat) : (d.rsvClear a n).gates = d.gates := rfl
@[simp] theorem Device.rsvClear_dselGate (d : Device) (a n : Nat) : (d.rsvClear a n).dselGate = d.dselGate := rfl
@[simp] theorem Device.rsvClear_dselRegion (d : Device) (a n : Nat) : (d.rsvClear a n).dselRegion = d.dselRegion := rfl
@[simp] theorem Device.rsvClear_dselErr (d : Device) (a n : Nat) : (d.rsvClear a n).dselErr = d.dselErr := rfl
@[simp] theorem Device.rsvClear_dselCause (d : Device) (a n : Nat) : (d.rsvClear a n).dselCause = d.dselCause := rfl
@[simp] theorem Device.rsvClear_dstage (d : Device) (a n : Nat) : (d.rsvClear a n).dstage = d.dstage := rfl
@[simp] theorem Device.rsvClear_fl (d : Device) (a n : Nat) : (d.rsvClear a n).fl = d.fl := rfl
@[simp] theorem Device.rsvClear_flt (d : Device) (a n : Nat) : (d.rsvClear a n).flt = d.flt := rfl
@[simp] theorem Device.rsvClear_lev (d : Device) (a n : Nat) : (d.rsvClear a n).lev = d.lev := rfl
@[simp] theorem Device.rsvClear_evr (d : Device) (a n : Nat) : (d.rsvClear a n).evr = d.evr := rfl
@[simp] theorem Device.rsvClear_ws (d : Device) (a n : Nat) : (d.rsvClear a n).ws = d.ws := rfl
@[simp] theorem Device.rsvClear_md (d : Device) (a n : Nat) : (d.rsvClear a n).md = d.md := rfl
@[simp] theorem Device.rsvClear_boot (d : Device) (a n : Nat) : (d.rsvClear a n).boot = d.boot := rfl
@[simp] theorem Device.rsvClear_brd (d : Device) (a n : Nat) : (d.rsvClear a n).brd = d.brd := rfl
@[simp] theorem Device.rsvClear_at_allot (d : Device) (a n : Nat) (i : Nat) : (d.rsvClear a n).allot i = d.allot i := rfl
@[simp] theorem Device.rsvClear_at_sq (d : Device) (a n : Nat) (i j : Nat) : (d.rsvClear a n).sq i j = d.sq i j := rfl
@[simp] theorem Device.rsvClear_at_cq (d : Device) (a n : Nat) (i j : Nat) : (d.rsvClear a n).cq i j = d.cq i j := rfl
@[simp] theorem Device.rsvClear_at_adm (d : Device) (a n : Nat) (i : Nat) : (d.rsvClear a n).adm i = d.adm i := rfl
@[simp] theorem Device.rsvClear_at_cmd (d : Device) (a n : Nat) (i : Nat) : (d.rsvClear a n).cmd i = d.cmd i := rfl
@[simp] theorem Device.rsvClear_at_ctx (d : Device) (a n : Nat) (i : Nat) : (d.rsvClear a n).ctx i = d.ctx i := rfl
@[simp] theorem Device.rsvClear_at_weir (d : Device) (a n : Nat) (i : Nat) : (d.rsvClear a n).weir i = d.weir i := rfl
@[simp] theorem Device.rsvClear_at_eng (d : Device) (a n : Nat) (i : Nat) : (d.rsvClear a n).eng i = d.eng i := rfl
@[simp] theorem Device.rsvClear_at_lat (d : Device) (a n : Nat) (i : Nat) : (d.rsvClear a n).lat i = d.lat i := rfl
@[simp] theorem Device.rsvClear_at_liu (d : Device) (a n : Nat) (i : Nat) : (d.rsvClear a n).liu i = d.liu i := rfl
@[simp] theorem Device.rsvClear_at_dig (d : Device) (a n : Nat) (i : Nat) : (d.rsvClear a n).dig i = d.dig i := rfl
@[simp] theorem Device.rsvClear_at_gate (d : Device) (a n : Nat) (i : Nat) : (d.rsvClear a n).gate i = d.gate i := rfl
@[simp] theorem Device.rsvClear_at_drbg (d : Device) (a n : Nat) (i : Nat) : (d.rsvClear a n).drbg i = d.drbg i := rfl
@[simp] theorem Device.rsvClear_at_slot (d : Device) (a n : Nat) (i : Nat) : (d.rsvClear a n).slot i = d.slot i := rfl
@[simp] theorem Device.rsvClear_at_unit (d : Device) (a n : Nat) (i j : Nat) : (d.rsvClear a n).unit i j = d.unit i j := rfl
@[simp] theorem Device.rsvClear_at_levSrc (d : Device) (a n : Nat) (i : Nat) : (d.rsvClear a n).levSrc i = d.levSrc i := rfl
@[simp] theorem Device.rsvClear_at_peer (d : Device) (a n : Nat) (i : Nat) : (d.rsvClear a n).peer i = d.peer i := rfl
@[simp] theorem Device.rsvClear_at_reg (d : Device) (a n : Nat) (i : Nat) : (d.rsvClear a n).reg i = d.reg i := rfl
@[simp] theorem Device.rsvClear_at_count (d : Device) (a n : Nat) (i : Nat) : (d.rsvClear a n).count i = d.count i := rfl

/-! ### Scalar registers -/

@[simp] theorem State.on_eq (s : State) (f : Device → Device) : s.on f = .next { s with dev := f s.dev } := rfl

end Sys2Proof.Machine
end

