-- ==== Sys2Proof/Laws/Exec.lean ====
section
/-!
SUPPORT. Sys2Proof/Laws/Exec.lean: what the operations that every family shares can do, said once each: a step, the issue and the end of an instruction, registers,
traps, host accesses, messages, and admin commands.
-/
namespace Sys2Proof.Machine
open Sys2Proof

/-! ## A step -/

theorem step_front (s : State) (c : Instr) : step { s with pending := c :: s.pending } = exec c s := rfl

theorem step_empty (s : State) (h : s.pending = []) : step s = .next { s with dev := tick s.dev } := by simp [step, h]

theorem step_cons (s : State) (c : Instr) (rest : List Instr) (h : s.pending = c :: rest) : step s = exec c { s with pending := rest } := by simp [step, h]

/-! ## Issue of an instruction -/

/-- An engine with no command to run does nothing. -/
theorem engRun_idle {e : Nat} {d : Device} (h : d.issuer e = none) (f : Nat → EngArch → Device → EngRes) : engRun e f d = d := by simp [engRun, h]

/-- Below the run limit and within the text an instruction is carried out. -/
theorem engRun_issues {e k : Nat} {d : Device} (h : d.issuer e = some k) (h1 : (d.eng e).arch.cycles < runLimit (d.cmdOr k)) (h2 : (d.eng e).arch.pc < (d.eng e).arch.textLen)
    (f : Nat → EngArch → Device → EngRes) : engRun e f d = retire e k (f k (d.eng e).arch d) d := by
  simp [engRun, h, Nat.not_le.mpr h1, Nat.not_le.mpr h2]

/-- At the run limit the watchdog traps first. -/
theorem engRun_watchdog {e k : Nat} {d : Device} (h : d.issuer e = some k) (h1 : runLimit (d.cmdOr k) ≤ (d.eng e).arch.cycles) (f : Nat → EngArch → Device → EngRes) :
    engRun e f d = takeTrap e k 0x09 (d.eng e).arch.cycles d := by
  simp [engRun, h, h1]

/-- Past the text the fetch traps. -/
theorem engRun_pastText {e k : Nat} {d : Device} (h : d.issuer e = some k) (h1 : (d.eng e).arch.cycles < runLimit (d.cmdOr k)) (h2 : (d.eng e).arch.textLen ≤ (d.eng e).arch.pc)
    (f : Nat → EngArch → Device → EngRes) : engRun e f d = takeTrap e k 0x02 (d.eng e).arch.pc d := by
  simp [engRun, h, Nat.not_le.mpr h1, h2]

theorem engOp_issues {e k : Nat} {d : Device} (h : d.issuer e = some k) (h1 : (d.eng e).arch.cycles < runLimit (d.cmdOr k)) (h2 : (d.eng e).arch.pc < (d.eng e).arch.textLen)
    (f : EngArch → EngRes) : engOp e f d = retire e k (f (d.eng e).arch) d := engRun_issues h h1 h2 _

theorem engX_issues {e k : Nat} {d : Device} (h : d.issuer e = some k) (h1 : (d.eng e).arch.cycles < runLimit (d.cmdOr k)) (h2 : (d.eng e).arch.pc < (d.eng e).arch.textLen)
    (rd : BitVec 5) (f : EngArch → W64) :
    engX e rd f d = d.updArch e (fun o => { (d.eng e).arch.setX rd (f (d.eng e).arch) with pc := o.pc + 4, paused := 0 }) := engOp_issues h h1 h2 _

/-! ## The end of an instruction -/

@[simp] theorem retire_ok (e k : Nat) (t : EngArch) (d : Device) : retire e k (.ok t) d = d.updArch e (fun o => { t with pc := o.pc + 4, paused := 0 }) := rfl
@[simp] theorem retire_jump (e k p : Nat) (t : EngArch) (d : Device) : retire e k (.jump p t) d = d.updArch e (fun _ => { t with pc := p, paused := 0 }) := rfl
@[simp] theorem retire_next (e k : Nat) (d' d : Device) : retire e k (.next d') d = d'.updArch e (fun t => { t with pc := t.pc + 4, paused := 0 }) := rfl
@[simp] theorem retire_trap (e k c v : Nat) (d : Device) : retire e k (.trap c v) d = takeTrap e k c v d := rfl
@[simp] theorem retire_part (e k c v : Nat) (t : EngArch) (d : Device) : retire e k (.part t c v) d = takeTrap e k c v (d.updArch e (fun _ => t)) := rfl
@[simp] theorem retire_stall (e k w : Nat) (d : Device) : retire e k (.stall w) d = d.updArch e (fun t => { t with paused := w }) := rfl
@[simp] theorem retire_wait (e k w : Nat) (d' d : Device) : retire e k (.wait w d') d = d'.updArch e (fun t => { t with paused := w }) := rfl
@[simp] theorem retire_over (e k : Nat) (d' d : Device) : retire e k (.over d') d = d' := rfl

/-! ## Scalar registers (06 R128) -/

@[simp] theorem EngArch.getX_zero (t : EngArch) : t.getX 0 = 0 := rfl
@[simp] theorem EngArch.setX_zero (t : EngArch) (v : W64) : t.setX 0 v = t := rfl
theorem EngArch.getX_setX_same (t : EngArch) (r : BitVec 5) (v : W64) (h : r ≠ 0) : (t.setX r v).getX r = v := by
  unfold EngArch.getX EngArch.setX
  rw [if_neg h, if_neg h]
  exact Tbl.get_set_same 0 t.x r.toNat v
@[simp] theorem EngArch.setX_opm (t : EngArch) (r : BitVec 5) (v : W64) : (t.setX r v).opm = t.opm := by unfold EngArch.setX; split <;> rfl
@[simp] theorem EngArch.setX_pc (t : EngArch) (r : BitVec 5) (v : W64) : (t.setX r v).pc = t.pc := by unfold EngArch.setX; split <;> rfl
@[simp] theorem EngArch.setX_v (t : EngArch) (r : BitVec 5) (v : W64) : (t.setX r v).v = t.v := by unfold EngArch.setX; split <;> rfl
@[simp] theorem EngArch.setX_p (t : EngArch) (r : BitVec 5) (v : W64) : (t.setX r v).p = t.p := by unfold EngArch.setX; split <;> rfl
@[simp] theorem EngArch.setX_m (t : EngArch) (r : BitVec 5) (v : W64) : (t.setX r v).m = t.m := by unfold EngArch.setX; split <;> rfl
@[simp] theorem EngArch.setX_keys (t : EngArch) (r : BitVec 5) (v : W64) : (t.setX r v).keys = t.keys := by unfold EngArch.setX; split <;> rfl
@[simp] theorem EngArch.setX_jobs (t : EngArch) (r : BitVec 5) (v : W64) : (t.setX r v).jobs = t.jobs := by unfold EngArch.setX; split <;> rfl

/-! ## Traps (06 R146) -/

/-- A handler takes a cause that a routine may handle, outside a handler and with one set. -/
theorem takeTrap_handled (e k c v : Nat) (d : Device) (hc : handledCause c = true) (hi : (d.eng e).arch.intrap = false) (ht : (d.eng e).arch.tvec ≠ 0) :
    takeTrap e k c v d = d.updArch e (fun t => { t with epc := t.pc, cause := c, tval := v, intrap := true, pc := t.tvec }) := by
  have h9 : c ≠ 0x09 := by intro h; subst h; simp [handledCause] at hc
  simp [takeTrap, hc, hi, ht, h9]

/-- Any other trap but the watchdog ends the command. -/
theorem takeTrap_ends (e k c v : Nat) (d : Device) (h9 : c ≠ 0x09) (h : (d.eng e).arch.intrap = true ∨ handledCause c = false ∨ (d.eng e).arch.tvec = 0) :
    takeTrap e k c v d = trapEnd e k (if (d.eng e).arch.intrap then 0x0A else c) d := by
  unfold takeTrap
  rcases Bool.eq_false_or_eq_true (d.eng e).arch.intrap with hi | hi
  · simp [h9, hi]
  · have hx : handledCause c = false ∨ (d.eng e).arch.tvec = 0 := by simpa [hi] using h
    have hy : (!handledCause c) = true ∨ (d.eng e).arch.tvec = 0 := hx.imp (fun a => by simp [a]) id
    simp only [h9, hi, if_false, if_pos hy, Bool.false_eq_true]

/-! ## Host accesses -/

theorem pageWrite_taken (a off v : Nat) (d : Device) (f : Device → Device) (h1 : d.barLive = true) (h2 : d.asleep = false) (h3 : (d.allot a).flr = none)
    (h4 : proxied (0x1_0000_0000 + off) = false) (h5 : (hostAccess a d).proxyBusy a = false) : pageWrite a off v d f = f (hostAccess a d) := by
  simp [pageWrite, h1, h2, h3, h4, h5]

/-- A write to a custody register, or behind a proxied write of its function, is the proxy's (21 R432). -/
theorem pageWrite_proxied (a off v : Nat) (d : Device) (f : Device → Device) (h1 : d.barLive = true) (h2 : d.asleep = false) (h3 : (d.allot a).flr = none)
    (h4 : proxied (0x1_0000_0000 + off) = true ∨ (hostAccess a d).proxyBusy a = true) :
    pageWrite a off v d f = proxyAccess a (0x1_0000_0000 + off) true v (hostAccess a d) := by
  rcases h4 with h4 | h4 <;> simp [pageWrite, h1, h2, h3, h4]

theorem pageRead_taken (a o : Nat) (d : Device) (f : Device → Device) (h1 : d.barLive = true) (h2 : d.asleep = false) (h3 : (d.allot a).flr = none)
    (h4 : proxied (0x1_0000_0000 + o) = false) (h5 : (hostAccess a d).proxyBusy a = false) : pageRead a o d f = f (hostAccess a d) := by
  simp [pageRead, h1, h2, h3, h4, h5]

theorem barWrite_taken (o v : Nat) (rwl : Bool) (d : Device) (f : Device → Device) (h1 : d.blockLive o = true) (h2 : d.asleep = false) (h3 : proxied o = false)
    (h4 : (hostAccess 0 d).proxyBusy 0 = false) (h5 : (rwl && (hostAccess 0 d).isLocked o) = false) : barWrite o v rwl d f = f (hostAccess 0 d) := by
  simp [barWrite, h1, h2, h3, h4, h5]

theorem barWrite_proxied (o v : Nat) (rwl : Bool) (d : Device) (f : Device → Device) (h1 : d.blockLive o = true) (h2 : d.asleep = false)
    (h3 : proxied o = true ∨ (hostAccess 0 d).proxyBusy 0 = true) : barWrite o v rwl d f = proxyAccess 0 o true v (hostAccess 0 d) := by
  rcases h3 with h3 | h3 <;> simp [barWrite, h1, h2, h3]

/-- A write of a locked register is counted and ignored (18 R381). -/
theorem barWrite_locked (o v : Nat) (d : Device) (f : Device → Device) (h1 : d.blockLive o = true) (h2 : d.asleep = false) (h3 : proxied o = false)
    (h4 : (hostAccess 0 d).proxyBusy 0 = false) (h5 : (hostAccess 0 d).isLocked o = true) : barWrite o v true d f = lockedWrite o (hostAccess 0 d) := by
  simp [barWrite, h1, h2, h3, h4, h5]

theorem barRead_taken (o : Nat) (d : Device) (f : Device → Device) (h1 : d.blockLive o = true) (h2 : d.asleep = false) (h3 : proxied o = false)
    (h4 : (hostAccess 0 d).proxyBusy 0 = false) : barRead o d f = f (hostAccess 0 d) := by
  have h : d.barLive = true := by simp [Device.blockLive] at h1; exact h1.1
  simp [barRead, h, h1, h2, h3, h4]

/-! ## Messages (01 R12) -/

theorem takeCustody_gets {α : Type} (want : Msg → Option α) (d : Device) (k : α → Device → Device) (m : Msg) (x : α)
    (h1 : d.flumeRuns = true) (h2 : nextMsg d.fl.toCustody = some m) (h3 : want m = some x) : takeCustody want d k = k x (tookCustody d) := by
  simp [takeCustody, h1, h2, h3]

theorem takeCompute_gets {α : Type} (want : Msg → Option α) (d : Device) (k : α → Device → Device) (m : Msg) (x : α)
    (h1 : d.flumeRuns = true) (h2 : nextMsg d.fl.toCompute = some m) (h3 : want m = some x) : takeCompute want d k = k x (tookCompute d) := by
  simp [takeCompute, h1, h2, h3]

/-- A message that the command does not take, with none that arrives early, leaves everything as it is. -/
theorem takeCustody_other {α : Type} (want : Msg → Option α) (d : Device) (k : α → Device → Device) (h : (nextMsg d.fl.toCustody).bind want = none)
    (he : earlyArrival want d.fl.toCustody = none) : takeCustody want d k = d := by simp [takeCustody, h, he]

theorem takeCompute_other {α : Type} (want : Msg → Option α) (d : Device) (k : α → Device → Device) (h : (nextMsg d.fl.toCompute).bind want = none)
    (he : earlyArrival want d.fl.toCompute = none) : takeCompute want d k = d := by simp [takeCompute, h, he]

/-- A message that comes before its turn is held in the reorder window. -/
theorem takeCustody_early {α : Type} (want : Msg → Option α) (d : Device) (k : α → Device → Device) (f : Flight) (h1 : d.flumeRuns = true)
    (h : (nextMsg d.fl.toCustody).bind want = none) (he : earlyArrival want d.fl.toCustody = some f) :
    takeCustody want d k = heard f.sub true { d with fl := { d.fl with toCustody := holdEarly f.seq d.fl.toCustody } } := by
  simp [takeCustody, h, he, h1]

theorem takeCompute_early {α : Type} (want : Msg → Option α) (d : Device) (k : α → Device → Device) (f : Flight) (h1 : d.flumeRuns = true)
    (h : (nextMsg d.fl.toCompute).bind want = none) (he : earlyArrival want d.fl.toCompute = some f) :
    takeCompute want d k = heard f.sub false { d with fl := { d.fl with toCompute := holdEarly f.seq d.fl.toCompute } } := by
  simp [takeCompute, h, he, h1]

/-! ## Admin commands (02 R36, R37) -/

/-- An admin command that passes the checks is carried out. -/
theorem admin_turn (a op : Nat) (own : Bool) (listed align : List (Nat × Nat)) (d : Device) (k : Entry → Nat → Device → Device) (o : Nat) (e : Entry)
    (h1 : admFront a d = some (o, e)) (h2 : bytesAt e 2 2 = op) (h3 : d.stopped = false) (h4 : d.md.mode ≠ .retention) (h5 : paramsClean e listed = true)
    (h6 : ∀ x ∈ align, bytesAt e x.1 8 % x.2 = 0) (h7 : d.admAccepts a op = true) (h8 : d.leveeHold = true → op ≤ 6) (h9 : own = true → a = 0) :
    admin a op own listed align d k = k e o d := by
  have hal : align.any (fun x => bytesAt e x.1 8 % x.2 != 0) = false := by
    rw [List.any_eq_false]; intro x hx; simp [h6 x hx]
  have how : (own && a != 0) = false := by cases own <;> simp_all
  have hh : (d.leveeHold && decide (6 < op)) = false := by
    cases hl : d.leveeHold
    · rfl
    · have := h8 hl; simp; omega
  simp [admin, h1, h2, h3, h4, h5, hal, h7, how, hh]

/-- Nothing happens when no admin command of that opcode is at the front. -/
theorem admin_none (a op : Nat) (own : Bool) (listed align : List (Nat × Nat)) (d : Device) (k : Entry → Nat → Device → Device)
    (h : ∀ x, admFront a d = some x → bytesAt x.2 2 2 ≠ op) : admin a op own listed align d k = d := by
  unfold admin
  split
  · rfl
  · rename_i o e he
    rw [if_pos (h _ he)]

/-! ## Iteration -/

@[simp] theorem foldOver_nil {α σ : Type} (f : α → σ → σ) (s : σ) : foldOver f [] s = s := rfl
@[simp] theorem foldOver_cons {α σ : Type} (f : α → σ → σ) (x : α) (l : List α) (s : σ) : foldOver f (x :: l) s = foldOver f l (f x s) := rfl

/-- What each turn keeps the whole iteration keeps. -/
theorem foldOver_keeps {α σ : Type} (p : σ → Prop) (f : α → σ → σ) (l : List α) (hf : ∀ x ∈ l, ∀ s, p s → p (f x s)) : ∀ s, p s → p (foldOver f l s) := by
  induction l with
  | nil => intro s h; exact h
  | cons x l ih =>
    intro s h
    exact ih (fun y hy => hf y (by simp [hy])) _ (hf x (by simp) s h)

end Sys2Proof.Machine
end

