-- ==== Sys2Proof/Laws/Gf.lean ====
section
/-!
SUPPORT. Sys2Proof/Laws/Gf.lean: the S-box table is the affine map of the inverse in GF(2^8) (FIPS 197).
-/
namespace Sys2Proof.Laws

/-- Product in GF(2^8) modulo x^8 + x^4 + x^3 + x + 1. -/
def gf8 (a b : Nat) : Nat := gfMul 8 0x1B a b

/-- Rotation left of a byte. -/
def rotl8 (x n : Nat) : Nat := ((x <<< n) ||| (x >>> (8 - n))) % 256

/-- y inverts x in the field, zero itself; the S-box of x is the affine map of y. -/
def SboxOf (x y : Nat) : Prop :=
  (x = 0 ∧ y = 0 ∨ gf8 x y = 1) ∧ sbox x = y ^^^ rotl8 y 1 ^^^ rotl8 y 2 ^^^ rotl8 y 3 ^^^ rotl8 y 4 ^^^ 0x63

/-- The inverse of a byte as its S-box value gives it: the inverse of the affine map. -/
def sboxInverse (x : Nat) : Nat := rotl8 (sbox x) 1 ^^^ rotl8 (sbox x) 3 ^^^ rotl8 (sbox x) 6 ^^^ 0x05

/-- The same as a test of one byte. -/
def sboxTest (x : Nat) : Bool :=
  let y := sboxInverse x
  ((x == 0 && y == 0) || gf8 x y == 1) && sbox x == y ^^^ rotl8 y 1 ^^^ rotl8 y 2 ^^^ rotl8 y 3 ^^^ rotl8 y 4 ^^^ 0x63 && invSbox (sbox x) == x

set_option maxRecDepth 20000 in
theorem sboxTest_all : (List.range 256).all sboxTest = true := by decide

theorem sbox_table (x : Nat) (h : x < 256) : SboxOf x (sboxInverse x) := by
  have := List.all_eq_true.mp sboxTest_all x (List.mem_range.mpr h)
  simp only [sboxTest, Bool.and_eq_true, Bool.or_eq_true, beq_iff_eq] at this
  exact ⟨this.1.1, this.1.2⟩

theorem invSbox_sbox (x : Nat) (h : x < 256) : invSbox (sbox x) = x := by
  have := List.all_eq_true.mp sboxTest_all x (List.mem_range.mpr h)
  simp only [sboxTest, Bool.and_eq_true, beq_iff_eq] at this
  exact this.2

end Sys2Proof.Laws
end

