-- ==== Sys2Proof/Laws/Ops.lean ====
section
/-!
SUPPORT. Sys2Proof/Laws/Ops.lean: which fields of the device each of the operations of Machine/Ops.lean can change; every other field stays.
-/
namespace Sys2Proof.Machine
open Sys2Proof

/-- d' differs from d in allotment pages, output, Headgates and the Flume at most: what a notice or a ring write can touch. -/
def RingOnly (d d' : Device) : Prop := ∃ al out ga fl, d' = { d with allots := al, out := out, gates := ga, fl := fl }

theorem RingOnly.refl (d : Device) : RingOnly d d := ⟨d.allots, d.out, d.gates, d.fl, rfl⟩

theorem RingOnly.trans {a b c : Device} (h : RingOnly a b) (h' : RingOnly b c) : RingOnly a c := by
  obtain ⟨_, _, _, _, rfl⟩ := h
  obtain ⟨w, x, y, z, rfl⟩ := h'
  exact ⟨w, x, y, z, rfl⟩

theorem RingOnly.updAllot (d : Device) (n : Nat) (f : Allot → Allot) : RingOnly d (d.updAllot n f) := ⟨_, _, _, _, rfl⟩
theorem RingOnly.updNtc (d : Device) (n : Nat) (f : NoticeRing → NoticeRing) : RingOnly d (d.updNtc n f) := ⟨_, _, _, _, rfl⟩
theorem RingOnly.updGate (d : Device) (n : Nat) (f : Gate → Gate) : RingOnly d (d.updGate n f) := ⟨_, _, _, _, rfl⟩
theorem RingOnly.emit (d : Device) (o : Output) : RingOnly d (d.emit o) := ⟨_, _, _, _, rfl⟩
theorem RingOnly.toCustody (m : Msg) (d : Device) : RingOnly d (toCustody m d) := ⟨_, _, _, _, rfl⟩
theorem RingOnly.recordCompute (c a : Nat) (p : Bool) (p0 p1 p2 p3 : Nat) (d : Device) : RingOnly d (recordCompute c a p p0 p1 p2 p3 d) := ⟨_, _, _, _, rfl⟩

/-- A record of the custody die changes the event recorder alone. -/
theorem record_only (code allot : Nat) (pub : Bool) (p0 p1 p2 p3 : Nat) (d : Device) : ∃ x, record code allot pub p0 p1 p2 p3 d = { d with evr := x } := ⟨_, rfl⟩
theorem recordAs_only (code source allot : Nat) (pub : Bool) (time p0 p1 p2 p3 : Nat) (d : Device) :
    ∃ x, recordAs code source allot pub time p0 p1 p2 p3 d = { d with evr := x } := ⟨_, rfl⟩

/-- A message changes the Flume alone. -/
theorem toCustody_only (m : Msg) (d : Device) : ∃ x, toCustody m d = { d with fl := x } := ⟨_, rfl⟩
theorem toCompute_only (m : Msg) (d : Device) : ∃ x, toCompute m d = { d with fl := x } := ⟨_, rfl⟩
theorem heard_only (u : Nat) (c : Bool) (d : Device) : ∃ x, heard u c d = { d with fl := x } := by
  unfold heard
  dsimp only
  split <;> exact ⟨_, rfl⟩
theorem tookCustody_only (d : Device) : ∃ x, tookCustody d = { d with fl := x } := by
  unfold tookCustody
  dsimp only
  split
  · obtain ⟨x, h⟩ := heard_only ‹_› true d
    rw [h]
    exact ⟨_, rfl⟩
  · exact ⟨_, rfl⟩
theorem tookCompute_only (d : Device) : ∃ x, tookCompute d = { d with fl := x } := by
  unfold tookCompute
  dsimp only
  split
  · obtain ⟨x, h⟩ := heard_only ‹_› false d
    rw [h]
    exact ⟨_, rfl⟩
  · exact ⟨_, rfl⟩

theorem signal_ringOnly (a v : Nat) (d : Device) : RingOnly d (signal a v d) := by
  unfold signal
  dsimp only
  split
  · exact .refl d
  · split
    · exact .updAllot d _ _
    · exact .emit d _

theorem hostWrite_ringOnly (a addr : Nat) (bs : List Byte) (d : Device) : RingOnly d (hostWrite a addr bs d) := by
  unfold hostWrite
  split
  · exact .refl d
  · exact .emit d _

theorem gateWait_ringOnly (g : Nat) (who : AccessOf) (a len kind : Nat) (d : Device) : RingOnly d (gateWait g who a len kind d) := by
  unfold gateWait
  split
  · exact .refl d
  · exact .updGate d _ _

theorem reportRefusal_ringOnly (g n a len kind master cause region : Nat) (st pr : Bool) (d : Device) :
    RingOnly d (reportRefusal g n a len kind master cause region st pr d) := by
  unfold reportRefusal
  dsimp only
  split
  · split
    · exact (RingOnly.updGate d _ _).trans (.recordCompute _ _ _ _ _ _ _ _)
    · exact (RingOnly.updGate d _ _).trans (.recordCompute _ _ _ _ _ _ _ _)
  · exact .updGate d _ _

theorem writeNotice_ringOnly (a : Nat) (rec : Rec32) (d : Device) : RingOnly d (writeNotice a rec d).2 := by
  unfold writeNotice
  dsimp only
  split
  · have h := (hostWrite_ringOnly a (d.allot a).ntc.slotAddr (toBytes 32 rec.toNat) d).trans (.updNtc _ a (fun r => { r with tail := (r.tail + 1) % 65536 }))
    split
    · exact h.trans (signal_ringOnly _ _ _)
    · exact h
  · exact gateWait_ringOnly _ _ _ _ _ d
  · exact (reportRefusal_ringOnly _ _ _ _ _ _ _ _ _ _ d).trans ((RingOnly.updNtc _ _ _).trans (.recordCompute _ _ _ _ _ _ _ _))

/-- A notice touches its ring, the interrupt of the ring, the gate and the violation report, and nothing else (02 R54, R55). -/
theorem noticeAt_ringOnly (a code sev time p0 p1 p2 p3 : Nat) (d : Device) : RingOnly d (noticeAt a code sev time p0 p1 p2 p3 d) := by
  unfold noticeAt
  split
  · exact .refl d
  · dsimp only
    have hold : ∀ (n : Rec32) (x : Device), RingOnly x
        (if ((x.allot a).ntc.held.length) < 64 then x.updNtc a (fun r => { r with held := r.held ++ [n] })
          else x.updNtc a (fun r => { r with lost := satAdd 0xFFFF_FFFF r.lost 1, dropped := r.dropped + 1 })) := by
      intro n x; split <;> exact .updNtc x _ _
    split
    · split
      · rename_i d' h
        have := writeNotice_ringOnly a (mkNotice code sev a time p0 p1 p2 p3 (d.allot a).ntc.seq) (d.updNtc a (fun r => { r with seq := (r.seq + 1) % 2 ^ 32 }))
        rw [h] at this
        exact (RingOnly.updNtc d _ _).trans this
      · rename_i d' h
        have := writeNotice_ringOnly a (mkNotice code sev a time p0 p1 p2 p3 (d.allot a).ntc.seq) (d.updNtc a (fun r => { r with seq := (r.seq + 1) % 2 ^ 32 }))
        rw [h] at this
        exact ((RingOnly.updNtc d _ _).trans this).trans (hold _ _)
    · exact (RingOnly.updNtc d _ _).trans (hold _ _)

theorem notice_ringOnly (a code sev p0 p1 p2 p3 : Nat) (d : Device) : RingOnly d (notice a code sev p0 p1 p2 p3 d) := noticeAt_ringOnly a code sev d.stamp p0 p1 p2 p3 d

end Sys2Proof.Machine
end

