-- ==== Sys2Proof/Tests/Slice0.lean ====
section
/-!
SUPPORT. Sys2Proof/Tests/Slice0.lean: the model's own tests: a term that each check of WellFormed refuses, words of instructions, small single steps
whose results come from the spec, and for each statement small states and operands that meet its hypotheses, each clause of it.
-/
namespace Sys2Proof.Tests
open Sys2Proof Sys2Proof.Machine Sys2Proof.Claims
set_option maxRecDepth 100000
set_option exponentiation.threshold 10000
set_option synthInstance.maxSize 100000

/-! ## Helpers -/

/-- A state with device d and an empty queue. -/
def st (d : Device) : State := { dev := d, pending := [] }

/-- The device after one command. -/
def after (c : Instr) (d : Device) : Device := match exec c (st d) with
  | .next t => t.dev
  | _ => d

/-- A device in service: both dies out of reset, the Flume trained, the host link up. -/
def up : Device :=
  let boot : Boot := { computeReset := false, custodyReset := false, pwrgood := true, perstN := true, cusReady := true, flumeUp := true, entropyReady := true, cdReady := true, rsvReady := true, srlReady := true, profile := true, configReady := true, serviceReady := true };
  let fl : Flume := { trained := true, sub0 := { up := true }, sub1 := { up := true } };
  { boot := boot, fl := fl, md := { mode := .service, owner := true } }

/-- Command 0 of allotment 0, which runs. -/
def cmd0 : Cmd := { entry := 0, allot := 0, sq := 0, order := 1, phase := .running, engine := some 0 }

/-- Engine 0 runs command 0 with engine state t. -/
def runs (t : EngArch) (c : Cmd := cmd0) : State := st { up with engs := [(0, { st := .running, slot := some 0, arch := t })], cmds := [(0, c)] }

/-! ## WellFormed refuses -/

theorem test_wf_ld : (Instr.ld 0 1 2 7 0).wellFormed = false := by decide
theorem test_wf_st : (Instr.st 0 1 2 4 0).wellFormed = false := by decide
theorem test_wf_vntt : (Instr.vntt 0 2 0 0 0 none 0).wellFormed = false ∧ (Instr.vntt 0 3 0 0 0 none 0).wellFormed = false := by decide
theorem test_wf_vintt : (Instr.vintt 0 2 0 0 0 none 0).wellFormed = false ∧ (Instr.vintt 0 3 0 0 0 none 0).wellFormed = false := by decide
theorem test_wf_vnttmul : (Instr.vnttmul 0 2 0 0 0 none 0).wellFormed = false ∧ (Instr.vnttmul 0 3 0 0 0 none 0).wellFormed = false := by decide
theorem test_wf_vsplitB : (Instr.vsplitB 0 0 0 none 0).wellFormed = false := by decide
theorem test_wf_vsplitA : (Instr.vsplitA 0 0 0 0 none 0).wellFormed = false := by decide
theorem test_wf_vjoinB : (Instr.vjoinB 0 0 0 none 0).wellFormed = false := by decide
theorem test_wf_vjoinA : (Instr.vjoinA 0 0 0 0 none 0).wellFormed = false := by decide
theorem test_wf_va2b : (Instr.va2b 0 0 0 0 none 0).wellFormed = false := by decide
theorem test_wf_vb2a : (Instr.vb2a 0 0 0 0 none 0).wellFormed = false := by decide
theorem test_wf_vrefreshB : (Instr.vrefreshB 0 0 0 none 0).wellFormed = false := by decide
theorem test_wf_vrefreshA : (Instr.vrefreshA 0 0 0 0 none 0).wellFormed = false := by decide
theorem test_wf_vmcmp : (Instr.vmcmp 0 0 0 0 0).wellFormed = false := by decide
theorem test_wf_vmsel : (Instr.vmsel 0 0 0 0 none 0).wellFormed = false := by decide
theorem test_wf_burst : (Instr.burstDataArrive 0 none [0, 0, 0, 0, 0, 0, 0, 0, 0] false).wellFormed = false ∧ (Instr.burstDataArrive 0 none [0, 0, 0, 0, 0, 0, 0, 0] true).wellFormed = true := by decide

theorem test_wf_debugToken : (Instr.debugToken [0]).wellFormed = false := by decide
theorem test_wf_provision : (Instr.provision [0]).wellFormed = false := by decide
theorem test_wf_profile : (Instr.profileLoad (List.replicate 196609 0)).wellFormed = false := by
  simp only [Instr.wellFormed, List.length_replicate]; decide
theorem test_wf_registerWrite : (Instr.registerWrite 0 false 4 0 0).wellFormed = false ∧ (Instr.registerWrite 0 true 4 4 0).wellFormed = true := by decide
theorem test_wf_read64 : (Instr.read64bitLowWord 0 false 4 0).wellFormed = false := by decide

/-! ## Words of instructions -/

/-- 06, Table 6.20: words of the routine 0x1010. -/
theorem test_words_of_routine : furrowDecode 0 0x2440FC00 = some (.hset 0 2 0xFC00 0) ∧ furrowDecode 0 0x28410003 = some (.hins 0 2 3 1) ∧
    furrowDecode 0 0x78200002 = some (.jl 0 1 2) ∧ furrowDecode 0 0x880007F8 = some (.brk 0 0x7F) ∧ furrowDecode 0 0x80600013 = some (.esr 0 3 0x13) ∧
    furrowDecode 0 0x64600008 = some (.brNe 0 3 0 8) ∧ furrowDecode 0 0x48C41F00 = some (.rld 0 6 4 31) ∧ furrowDecode 0 0x4CC51F00 = some (.rst 0 6 5 31) ∧
    furrowDecode 0 0x08E00020 = some (.addi 0 7 0 32) ∧ furrowDecode 0 0x88003906 = some (.endR 0 0 7 0x10) := by
  refine ⟨rfl, rfl, rfl, rfl, rfl, rfl, rfl, rfl, rfl, rfl⟩
/-- 08, Table 8.5: vld.3s, vmmul.m0.3s, vrefresh.a.3s, vst.3s. -/
theorem test_words_of_shares : furrowDecode 0 0xE4830040 = some (.vld 0 4 3 none 2) ∧ furrowDecode 0 0xC9040848 = some (.vmmul 0 0 8 4 1 none 2) ∧
    furrowDecode 0 0xF5080047 = some (.vrefreshA 0 8 8 0 none 2) ∧ furrowDecode 0 0xE5040041 = some (.vst 0 8 4 none 2) := by
  refine ⟨rfl, rfl, rfl, rfl⟩
/-- 06 R127: a reserved bit, an unassigned FUNC. -/
theorem test_words_illegal : furrowDecode 0 0x21010100 = none ∧ furrowDecode 0 0x04000019 = none ∧ furrowDecode 0 0xFC000000 = none := by
  refine ⟨rfl, rfl, rfl⟩

/-! ## Single steps -/

/-- The engine state after one instruction of engine 0 from state t. -/
def ran (c : Instr) (t : EngArch) : EngArch := ((after c (runs t).dev).eng 0).arch

theorem test_add_wraps : (ran (.add 0 3 1 2) { textLen := 64, x := [(1, 0xFFFFFFFFFFFFFFFF), (2, 2)] }).getX 3 = 1 := by decide
theorem test_add_x0 : ran (.add 0 0 1 2) { textLen := 64, x := [(1, 7), (2, 2)] } = { textLen := 64, pc := 4, x := [(1, 7), (2, 2)] } := by decide
theorem test_mulhiS : (ran (.mulhiS 0 3 1 2) { textLen := 64, x := [(1, 0xFFFFFFFFFFFFFFFF), (2, 1)] }).getX 3 = 0xFFFFFFFFFFFFFFFF := by decide
theorem test_sari : (ran (.sari 0 1 1 63) { textLen := 64, x := [(1, 0x8000000000000000)] }).getX 1 = 0xFFFFFFFFFFFFFFFF := by decide
theorem test_clz_zero : (ran (.clz 0 3 1) { textLen := 64 }).getX 3 = 64 := by decide
theorem test_brev : (ran (.brev 0 3 1) { textLen := 64, x := [(1, 0x0102030405060708)] }).getX 3 = 0x0807060504030201 := by decide
theorem test_sxW : (ran (.sxW 0 3 1) { textLen := 64, x := [(1, 0x1234567880000000)] }).getX 3 = 0xFFFFFFFF80000000 := by decide
theorem test_csel_keeps : (ran (.csel 0 3 1 2) { textLen := 64, x := [(1, 5), (3, 9)] }).getX 3 = 9 := by decide
theorem test_ld_sign : (ran (.ld 0 3 1 0 0) { textLen := 64, x := [(1, 0x100)], opm := [(0x100, 0x80)] }).getX 3 = 0xFFFFFFFFFFFFFF80 := by decide
theorem test_ld_zero_extended : (ran (.ld 0 3 1 4 0) { textLen := 64, x := [(1, 0x100)], opm := [(0x100, 0x80)] }).getX 3 = 0x80 := by decide
/-- The lowest byte lies lowest (00 R4). -/
theorem test_st_order : readBytes (ran (.st 0 3 1 1 0x1FFE) { textLen := 64, x := [(1, 0x102), (3, 0x1234)] }).opm 0x100 2 = [0x34, 0x12] := by decide
theorem test_ld_misaligned : ran (.ld 0 3 1 3 0) { textLen := 64, tvec := 16, x := [(1, 0x101)] } =
    { textLen := 64, tvec := 16, x := [(1, 0x101)], cause := 3, tval := 0x101, intrap := true, pc := 16 } := by decide
theorem test_brNe_taken : (ran (.brNe 0 1 0 8) { textLen := 64, pc := 0x14, x := [(1, 1)] }).pc = 0x34 := by decide
theorem test_jlr_links : ran (.jlr 0 1 2 0) { textLen := 64, pc := 8, x := [(2, 32)] } = { textLen := 64, pc := 32, x := [(1, 12), (2, 32)] } := by decide
/-- 06, Table 6.13: an OK with more than OUT_MAX bytes. -/
theorem test_end_too_small : ((after (.endR 0 1 0 0) (runs { textLen := 64, outmax := 31, outcap := 64, x := [(1, 32)] }).dev).cmdOr 0).status = 0x13 ∧
    ((after (.endR 0 1 0 0) (runs { textLen := 64, outmax := 31, outcap := 64, x := [(1, 32)] }).dev).cmdOr 0).outLen = 32 := by decide

/-- 07, Table 7.19: vldx traps at element 4; the four before it are loaded. -/
def gather : EngArch :=
  let idx : Nat := ((List.range 16).map (fun i => (if i = 4 then 0x1000 else if i = 6 then 0x20000 else 8 * i) * 2 ^ (64 * i))).sum;
  let t : EngArch := { textLen := 64, tvec := 32, vtype := 4, vl := 16, x := [(3, 0x3F000)], p := [(1, 0xFFBF)], opm := [(0x3F000, 0xA0), (0x3F018, 0xA3)] };
  { t with v := [(9, { bits := BitVec.ofNat 4096 idx })] }
theorem test_vldx_faults : let t := ran (.vldx 0 8 3 9 (some 1)) gather
    t.vresume = 4 ∧ t.cause = 0x11 ∧ t.tval = 0x40000 ∧ t.epc = 0 ∧ t.pc = 32 ∧ elemOf 64 (t.grp 8 1) 0 = 0xA0 ∧ elemOf 64 (t.grp 8 1) 3 = 0xA3 := by decide

/-- 10, Table 10.10 and the refusal after it: the status words of a job on LIU 9 that has ended at cycle 95, and of one refused at index 3 for reason 2 at cycle 90. -/
def liu9 (j : LiuJob) : Device := { (runs { textLen := 64, jobs := [{ ident := 0, unit := 0 }] }).dev with lius := [(9, { bound := some 0, queue := [j] })] }
theorem test_liu_words :
    ((after (.liuJobEnd 9) (liu9 { ident := 0, arrived := true, finish := 95 })).eng 0).arch.jobs = [{ ident := 0, unit := 0, word := some 0x0000005F09000000 }] ∧
    ((after (.liuJobEnd 9) (liu9 { ident := 0, arrived := true, finish := 90, outcome := some (1, 2, 3) })).eng 0).arch.jobs = [{ ident := 0, unit := 0, word := some 0x0000005A09030201 }] := by decide

/-- 02, Table 2.11: the fields of the entry. -/
def entry17 : Entry := BitVec.ofNat _ (ofBytes [0x51, 0x0A, 3, 2, 0, 0, 8, 0, 0x42, 0, 0, 0x30, 0x2D, 0x0D, 0, 0, 0, 0x10, 0, 0x80, 4, 0, 0, 0,
  0, 0, 0, 0, 0, 0, 0, 0, 0, 0, 0, 0, 0x15, 0x40, 0, 0, 0, 0, 0, 0, 0, 0, 0, 0, 0, 0, 0, 0, 0, 0, 0, 0, 0, 0, 0, 0, 0, 0, 0, 0x80])
theorem test_entry_fields : eTag entry17 = 0x0A51 ∧ eRoutine entry17 = 0x0203 ∧ eParam entry17 = 2 ∧ eKey entry17 = 0x30000042 ∧ eInLen entry17 = 3373 ∧
    eInAddr entry17 = 0x480001000 ∧ eWeir entry17 = 0x015 ∧ ePrio entry17 = 4 ∧ eOwn entry17 = true := by decide
/-- 02, the completion entries of the two worked examples. -/
theorem test_completion_bytes : toBytes 16 (mkCqe 0x0A51 3 0 false 0 0 0).toNat = [0x51, 0x0A, 3, 0, 0, 1, 0, 0, 0, 0, 0, 0, 0, 0, 0, 0] ∧
    toBytes 16 (mkCqe 0x0B03 3 2 true 4 0 0x00010002).toNat = [3, 0x0B, 3, 0, 2, 3, 4, 0, 0, 0, 0, 0, 2, 0, 1, 0] := by decide
/-- 14, Table 14.7 and what follows it: the descriptors' fields, the straddling commit, its DETAIL and its report. -/
def gate12 : Gate := { regions := [(0, BitVec.ofNat 256 (ofBytes [0, 0, 0, 0, 4, 0, 0, 0, 0x1E, 0x80, 3, 0x0C, 1])), (1, BitVec.ofNat 256 (ofBytes [0, 0, 0, 0x80, 4, 0, 0, 0, 0x18, 0, 3, 0x0C, 1]))] }
theorem test_straddling_commit : gateCheck { gates := [(12, gate12)] } 12 12 0x480FFFF80 256 1 true none = .refuse 3 1 true ∧
    violationDetail 4 1 1 true = 0x0001001C ∧ reportParam2 256 1 true false 12 3 = 0x030C1300 := by decide
theorem test_disabled_eighth : gateCheck { gates := [(12, gate12)] } 12 12 0x438000000 16 0 true none = .refuse 1 0xFFFF false ∧
    gateCheck { gates := [(12, gate12)] } 12 12 0x437FFFFF0 16 0 true none = .permit := by decide

/-! ## States that meet the hypotheses of the statements, clause by clause

A statement without hypotheses has no line here: StepsRunAndComplete, ResetLeavesNothing, ScalarRegisterFile, FurrowWords. -/

theorem witness_EmptyQueueAdvancesTime : State.reset.pending = [] := by decide

theorem witness_IntegerInstructions : Issues (runs { textLen := 4, x := [(1, 0x8000000000000000)] }) 0 0 ∧ (1 : BitVec 5) ≠ 0 ∧ (0x100 : BitVec 16).toNat / 256 ≠ 0 := by decide

theorem witness_OperandMemory :
    (let s := runs { textLen := 64, x := [(1, 0x3FFF8)] }; let a := (xOf s 0 1 + (0 : BitVec 13).signExtend 64).toNat;
      Issues s 0 0 ∧ a % 2 ^ (3 % 4) = 0 ∧ a < 0x40000 ∧ Ready s 0 a 8 ∧ (3 : BitVec 3).toNat < 4) ∧
    (let s := runs { textLen := 64, x := [(1, 4)] }; let a := (xOf s 0 1 + (0x1FFC : BitVec 13).signExtend 64).toNat;
      Issues s 0 0 ∧ a = 0 ∧ a % 2 ^ (6 % 4) = 0 ∧ a < 0x40000 ∧ Ready s 0 a 4 ∧ 4 ≤ (6 : BitVec 3).toNat ∧ (6 : BitVec 3).toNat < 7) ∧
    (let s := runs { textLen := 64, x := [(1, 0x40001)] }; let a := (xOf s 0 1 + (0 : BitVec 13).signExtend 64).toNat;
      Issues s 0 0 ∧ a % 2 ^ (1 % 4) ≠ 0) ∧
    (let s := runs { textLen := 64, x := [(1, 0x40000)] }; let a := (xOf s 0 1 + (0 : BitVec 13).signExtend 64).toNat;
      Issues s 0 0 ∧ a % 2 ^ (3 % 4) = 0 ∧ 0x40000 ≤ a) ∧
    (let s := runs { textLen := 64, x := [(1, 0x107)], rlds := [{ rsv := 0, opm := 0x100, len := 8 }] }; let a := (xOf s 0 1 + (0 : BitVec 13).signExtend 64).toNat;
      Issues s 0 0 ∧ a % 2 ^ (0 % 4) = 0 ∧ a < 0x40000 ∧ ¬ Ready s 0 a 1) := by decide

/-- One outstanding list of identifier i. -/
def listOf (i : Nat) : DmaList := { ident := i, descs := [{ opm := 0, len := 16, write := true, unbuf := false, rsv := 0 }] }
/-- Lateral 0's gate lets allotment 0 read and write the first 4 KiB of the Reservoir. -/
def gateOpen : Gate := { regions := [(0, BitVec.ofNat 256 (ofBytes [0, 0, 0, 0, 0, 0, 0, 0, 12, 0, 3, 0, 1]))] }
def runsOpen (t : EngArch) : State := st { (runs t).dev with gates := [(64, gateOpen)] }

theorem witness_ReservoirTransfers :
    (let s := runsOpen { textLen := 64, x := [(1, 0x3FFFF), (2, 0xFF)] };
      Issues s 0 0 ∧ (xOf s 0 1).toNat + 1 ≤ 0x40000 ∧ (xOf s 0 2).toNat < 2 ^ 34 ∧ (xOf s 0 2).toNat % 256 + 1 ≤ 256 ∧ Ready s 0 0x3FFFF 1 ∧
      s.dev.linesOver 0 0 0xFF 1 = false ∧ (rsvAccess s.dev 0 (s.dev.cmdOr 0) 0 [(0xFF, 1)]).1 = .permit ∧ (rsvAccess s.dev 0 (s.dev.cmdOr 0) 1 [(0xFF, 1)]).1 = .permit ∧
      0xFF % 64 + 1 ≤ 64 ∧ (s.dev.lat 0).sb = [] ∧ (s.dev.eng 0).arch.lists = [] ∧ s.dev.linesDrained 0 0 = true) ∧
    (let s := runs { textLen := 64, rlds := [{ rsv := 0, opm := 0, len := 8 }] }; Issues s 0 0 ∧ (s.dev.eng 0).arch.rlds ≠ [] ∧ ¬ Ready s 0 7 1) ∧
    (let s := runs { textLen := 64, x := [(1, 0x3FFFF), (2, 0xFF)] };
      Issues s 0 0 ∧ 0x40000 < (xOf s 0 1).toNat + 2 ∧ (xOf s 0 1).toNat + 1 ≤ 0x40000 ∧ 256 < (xOf s 0 2).toNat % 256 + 2) := by decide

theorem witness_DmaLists :
    (let s := runs { textLen := 64, x := [(1, 0x100)], lists := [listOf 0], opm := [(0x100, 0x10), (0x106, 4)] };
      Issues s 0 0 ∧ (s.dev.eng 0).arch.lists.length < 4 ∧ (xOf s 0 1).toNat % 16 = 0 ∧ Ready s 0 0x100 16 ∧
      ofBytes (readBytes (s.dev.eng 0).arch.opm 0x100 4) = 0x10 ∧ 2 ^ 18 ≤ ofBytes (readBytes (s.dev.eng 0).arch.opm 0x104 4) ∧ ofBytes (readBytes (s.dev.eng 0).arch.opm 0x104 4) < 2 ^ 19 ∧
      (∀ l ∈ (s.dev.eng 0).arch.lists, l.ident ≠ 1) ∧ (∃ l ∈ (s.dev.eng 0).arch.lists, l.ident = 0)) ∧
    (let s := runs { textLen := 64, x := [(1, 0x100)], opm := [(0x107, 1)] };
      Issues s 0 0 ∧ (xOf s 0 1).toNat % 16 = 0 ∧ Ready s 0 0x100 16 ∧ 2 ^ 19 ≤ ofBytes (readBytes (s.dev.eng 0).arch.opm 0x104 4)) ∧
    (let s := runs { textLen := 64, x := [(1, 0x101)] }; Issues s 0 0 ∧ (s.dev.eng 0).arch.lists.length < 4 ∧ (xOf s 0 1).toNat % 16 ≠ 0) ∧
    (let s := runs { textLen := 64, x := [(1, 3)], lists := [listOf 0, listOf 1, listOf 2, listOf 3] };
      Issues s 0 0 ∧ 4 ≤ (s.dev.eng 0).arch.lists.length ∧ (xOf s 0 1).toNat < 8 ∧ ∃ l ∈ (s.dev.eng 0).arch.lists, l.ident = (xOf s 0 1).toNat) ∧
    (let s := runs { textLen := 64, x := [(1, 7)], lists := [listOf 0] }; Issues s 0 0 ∧ (xOf s 0 1).toNat < 8 ∧ ∀ l ∈ (s.dev.eng 0).arch.lists, l.ident ≠ (xOf s 0 1).toNat) := by
  decide

theorem witness_BranchesAndJumps :
    (let s := runs { textLen := 64, pc := 60, x := [(1, 5), (2, 0xFFFFFFFFFFFFFFFF)] }; Issues s 0 0 ∧
      ((w64 60 + (0xFFF1 : BitVec 16).signExtend 64 * 4).toNat = 0) ∧ (w64 60 + (1 : BitVec 16).signExtend 64 * 4).toNat = 64 ∧
      xOf s 0 1 = xOf s 0 1 ∧ xOf s 0 1 ≠ xOf s 0 2 ∧ (xOf s 0 2).toInt < (xOf s 0 1).toInt ∧ (xOf s 0 1).toNat < (xOf s 0 2).toNat ∧
      ((w64 60 + (0x1FFFF1 : BitVec 21).signExtend 64 * 4).toNat = 0) ∧ (xOf s 0 1 + (0xFFFF : BitVec 16).signExtend 64).toNat = 4 ∧ (xOf s 0 1 + (0 : BitVec 16).signExtend 64).toNat % 4 ≠ 0) := by decide

theorem witness_EngineStateRegisters :
    (let s := runs { textLen := 64, x := [(1, 4), (2, 3), (3, 9)], incons := 4, inavail := 8, tvec := 4 }; let v := (xOf s 0 1).toNat;
      Issues s 0 0 ∧ (s.dev.eng 0).arch.incons ≤ v ∧ v ≤ (s.dev.eng 0).arch.inavail ∧ (xOf s 0 2).toNat < (s.dev.eng 0).arch.incons ∧ (s.dev.eng 0).arch.inavail < (xOf s 0 3).toNat ∧
      (0x22 : BitVec 8).toNat = 0x22 ∧ (0x23 : BitVec 8).toNat ∉ [0x02, 0x04, 0x09, 0x0A, 0x1F]) := by decide

theorem witness_TrapVectorWrites :
    (let s := runs { textLen := 64, x := [(1, 60), (2, 64), (3, 0x10000), (4, 2)] }; Issues s 0 0 ∧ (s.dev.eng 0).arch.tvec = 0 ∧
      ¬ ((xOf s 0 1).toNat % 2 ^ 2 ≠ 0 ∨ (xOf s 0 1).toNat / 2 ^ 16 ≠ 0 ∨ ¬ (xOf s 0 1).toNat < 64) ∧ ¬ (xOf s 0 2).toNat < 64 ∧ (xOf s 0 3).toNat / 2 ^ 16 ≠ 0 ∧ (xOf s 0 4).toNat % 2 ^ 2 ≠ 0) := by decide

theorem witness_TrapsAndReturn :
    (let s := runs { textLen := 64, tvec := 4 }; Issues s 0 0 ∧ (s.dev.eng 0).arch.intrap = false ∧ (s.dev.eng 0).arch.tvec ≠ 0 ∧ (s.dev.eng 0).preemptDue = false) ∧
    (let s := runs { textLen := 64, tvec := 4, intrap := true }; Issues s 0 0 ∧ (s.dev.eng 0).arch.intrap = true ∧ (s.dev.eng 0).preemptDue = false) ∧
    (let s := st { up with engs := [(0, { st := .running, slot := some 0, preemptDue := true, arch := { textLen := 64, tvec := 4, intrap := true } })], cmds := [(0, cmd0)] };
      Issues s 0 0 ∧ (s.dev.eng 0).arch.intrap = true ∧ (s.dev.eng 0).preemptDue = true ∧ s.dev.saveSlotsUsed (s.dev.cmdOr 0).allot < 28) ∧
    (let s := runs { textLen := 64 }; Issues s 0 0 ∧ (s.dev.eng 0).arch.intrap = false ∧ (s.dev.eng 0).arch.tvec = 0) := by decide

/-- A key request of the routine with identifier i and an outcome. -/
def keyReq (i : Nat) (o : KeyOutcome) : KeyReqOut := { ident := i, request := i, handle := 5, usage := 1, dest := 0x100, outcome := o }

/-- A lease of key 5 for allotment 0, one share of 64 bytes. -/
def lease5 : Lease := { handle := 5, allot := 0, usage := 1, bytes := zeros 64, ends := 1 }

theorem witness_KeyServices :
    (let s := runs { textLen := 64, x := [(1, 5)], keys := [keyReq 0 .waiting] }; let t := (s.dev.eng 0).arch;
      Issues s 0 0 ∧ isSrl (s.dev.cmdOr 0).attr.routine = false ∧ t.readsDone = true ∧ s.dev.keyTurn (s.dev.cmdOr 0) 5 = true ∧ s.dev.heldKey 0 t (s.dev.cmdOr 0) 5 1 = none ∧
      (∀ r ∈ t.keys, r.ident ≠ 1) ∧ (∀ j < 1, ∃ r ∈ t.keys, r.ident = j) ∧ t.keys.length < 4 ∧ s.dev.requestBusy 0 1 = false ∧ (∀ j < 1, s.dev.requestBusy (0 : Nat) j = true)) ∧
    (∀ b : Bool, let l := { lease5 with revoked := b };
      let s := st { (runs {}).dev with engs := [(0, { st := .running, slot := some 0, leases := if b then [] else [l], arch := { textLen := 64, x := [(1, 5), (2, 0x3FC00 - 64)], given := if b then [l] else [] } })] };
      let t := (s.dev.eng 0).arch; Issues s 0 0 ∧ t.readsDone = true ∧ (∀ r ∈ t.keys, r.ident ≠ 0) ∧ t.keys.length < 4 ∧ (s.dev.cmdOr 0).keyOp 5 = 0 ∧ (s.dev.cmdOr 0).signsStateful = false ∧
      s.dev.heldKey 0 t (s.dev.cmdOr 0) 5 1 = some l ∧ l.stale = false ∧ (xOf s 0 2).toNat + l.bytes.length + l.attr.length = 0x3FC00) ∧
    (let s := runs { textLen := 64, x := [(1, 4)], keys := [keyReq 0 (.delivered 32 none), keyReq 1 .waiting, keyReq 2 (.refused 0x20 1), keyReq 3 .discarded] }; let t := (s.dev.eng 0).arch;
      Issues s 0 0 ∧ 4 ≤ t.keys.length ∧ (∀ i < 4, (firstWhere (fun (x : KeyReqOut) => x.ident == i) t.keys).isSome = true) ∧ (s.dev.cmdOr 0).refusesKey t (keyReq 0 (.delivered 32 none)) 32 = false ∧ (∀ r ∈ t.keys, r.fromLease = none) ∧
      ∀ r ∈ t.keys, r.ident ≠ (xOf s 0 1).toNat) ∧
    (let s := runs { textLen := 64, keys := [keyReq 0 (.delivered 31 none)] } { cmd0 with attr := { cmd0.attr with routine := 0x0D02 } }; Issues s 0 0 ∧
      (s.dev.cmdOr 0).refusesKey (s.dev.eng 0).arch (keyReq 0 (.delivered 31 none)) 31 = true) := by decide

theorem witness_RandomInputAndJobs :
    (let s := runs { textLen := 64, needsRandom := true, x := [(1, 0x3FFFF), (2, 1)], entBytes := [7] }; Issues s 0 0 ∧ (s.dev.eng 0).arch.entBytes.length = (xOf s 0 2).toNat ∧
      (xOf s 0 1).toNat + 1 ≤ 0x40000 ∧ Ready s 0 0x3FFFF 1) ∧
    (let s := runs { textLen := 64, needsRandom := true, x := [(1, 0x3FF00), (2, 256)], entAsked := some (1, 256) }; Issues s 0 0 ∧ (xOf s 0 2).toNat ≤ 256 ∧
      (xOf s 0 1).toNat + 256 ≤ 0x40000 ∧ (s.dev.eng 0).arch.entBytes.length ≠ 256 ∧ (s.dev.eng 0).arch.entAsked.isSome = true ∧ Ready s 0 0x3FF00 256) ∧
    (let s := runs { textLen := 64, needsRandom := true, x := [(2, 256)] }; Issues s 0 0 ∧ (s.dev.eng 0).arch.entBytes.length ≠ (xOf s 0 2).toNat ∧ (s.dev.eng 0).arch.entAsked = none ∧ Ready s 0 0 256) ∧
    (let s := runs { textLen := 64, x := [(1, 9), (2, 257)], inlen := 8, inavail := 8 }; Issues s 0 0 ∧ (s.dev.eng 0).arch.needsRandom = false ∧ 256 < (xOf s 0 2).toNat ∧ min (xOf s 0 1).toNat 8 ≤ 8) ∧
    (let s := runs { textLen := 64, x := [(1, 9)], inlen := 9, inavail := 8 }; Issues s 0 0 ∧ (s.dev.eng 0).arch.inavail < min (xOf s 0 1).toNat 9) ∧
    (let s := st { (runs { textLen := 64, x := [(1, 0x100)], jobs := [{ ident := 0, unit := 0 }] }).dev with boot := { up.boot with unitsTested := true } }; let t := (s.dev.eng 0).arch;
      Issues s 0 0 ∧ t.readsDone = true ∧ t.jobs.length < 8 ∧ (∀ o ∈ t.jobs, o.ident ≠ 1) ∧ (∀ j < 1, ∃ o ∈ t.jobs, o.ident = j) ∧ (∀ r ∈ liuReads 0x100 (liuJobAt t 0x100 1), Ready s 0 r.1 r.2) ∧
      s.dev.liuOf 0 = none ∧ s.dev.liuWait = [] ∧ (s.dev.liuFor (latOf 0)).isSome = true ∧
      (∀ r ∈ digReads 0x100 (digJobAt t 0x100 0 0 1), Ready s 0 r.1 r.2) ∧ ∀ o ∈ t.jobs, o.word = none) ∧
    (let s := runs { textLen := 64, x := [(1, 0)], jobs := (List.range 8).map (fun i => { ident := i, unit := 0, word := if i = 0 then some 0 else none }) }; let t := (s.dev.eng 0).arch;
      Issues s 0 0 ∧ 8 ≤ t.jobs.length ∧ firstWhere (fun (x : JobOut) => x.ident == 0) t.jobs = some { ident := 0, unit := 0, word := some 0 } ∧
      firstWhere (fun (x : JobOut) => x.ident == 7) t.jobs = some { ident := 7, unit := 0 } ∧ ∀ o ∈ t.jobs, o.ident ≠ 8) := by decide

theorem witness_EndOfARoutine :
    (let s := runs { textLen := 64, outmax := 32, outcap := 64, x := [(1, 32), (2, 33), (3, 65), (4, 0xFFFF0000)] }; let t := (s.dev.eng 0).arch;
      Issues s 0 0 ∧ isSrl t.routine = false ∧ (xOf s 0 1).toNat ≤ t.outmax ∧ (xOf s 0 1).toNat ≤ t.outcap ∧ t.outmax < (xOf s 0 2).toNat ∧ (xOf s 0 2).toNat ≤ t.outcap ∧ t.outcap < (xOf s 0 3).toNat ∧
      (xOf s 0 4).toNat % 2 ^ 32 / 2 ^ 16 = 0xFFFF ∧ (xOf s 0 0).toNat % 2 ^ 32 / 2 ^ 16 ≠ 0xFFFF ∧ (0x12 : BitVec 7) ∉ ([0x00, 0x02, 0x03, 0x10, 0x13] : List (BitVec 7))) ∧
    (runs {}).dev.cmd 0 = some cmd0 := by decide

/-- An entry: routine, PARAM_SET, KEY_HANDLE, IN_LEN, AUX_ADDR and the first two words of ROUTINE_ARGS; OUT_MAX is 64. -/
def libEntry (r p key n aux a0 a1 : Nat) : Entry :=
  BitVec.ofNat 512 (pack [(2, 1), (2, r), (4, p * 2 ^ 18), (4, key), (4, n), (8, 0x1000), (8, 0x2000), (4, 64), (4, 0), (8, aux), (4, a0), (4, a1), (4, 0), (4, 0x80000000)])

theorem witness_LibraryRoutineEnds : ∀ x ∈ [(libEntry 0x0E01 0 0 0 0 0 0, 0), (libEntry 0x0F02 0 0 1 0 0 0, 1), (libEntry 0x0F02 0 0 1 0 0 0, 2)],
    let c : Cmd := { cmd0 with entry := x.1, attr := { cmd0.attr with routine := eRoutine x.1, stream := decide (x.2 = 1) } };
    let s := runs { textLen := 64, outmax := 64, outcap := 64, routine := eRoutine x.1, x := [(1, 64)] } c;
    Issues s 0 0 ∧ isSrl (s.dev.eng 0).arch.routine = true ∧ (xOf s 0 1).toNat ≤ (s.dev.eng 0).arch.outcap ∧ (xOf s 0 0).toNat % 2 ^ 32 / 2 ^ 16 ≠ 0xFFFF ∧ s.dev.cmdOr 0 = c ∧ s.dev.cmd 0 = some c ∧
    (x.2 = 0 → c.earlyRefusal = some 4) ∧ (x.2 ≠ 0 → c.earlyRefusal = none) ∧ (x.2 = 1 → (s.dev.srlIn c (s.dev.eng 0).arch).isNone = true) ∧ (x.2 = 2 → (s.dev.srlIn c (s.dev.eng 0).arch).isSome = true) := by decide

/-- What a routine of the library works on, with the key of its KEY_HANDLE. -/
def libIn (e : Entry) (key input aux : List Byte) : SrlIn :=
  { e := e, input := input, aux := aux, key := { material := key }, key2 := {}, tree := [], leaf := 0, rnd := fun _ n => zeros n, secret := [], ctxId := 0, holdTime := 0, now := 0, blob := .inr 1, sealBlob := fun _ => [] }

theorem witness_LibraryResults :
    (∀ r ∈ [0x0103, 0x0105, 0x0603, 0x0703], eRoutine (libIn (libEntry r 1 5 768 0 0 0) [] [] []).e = r) ∧ (zeros 16).length = 16 ∧
    (∀ p ∈ [1, 2, 6], let i := libIn (libEntry 0x0A02 p 5 3 0x3000 0 0) (zeros 32) [1, 2, 3] (zeros 12); let j := libIn (libEntry 0x0A03 p 5 3 0x3000 0 0) (zeros 32) (if p = 2 then [] else [1, 2, 3]) (zeros 12);
      eRoutine i.e = 0x0A02 ∧ eRoutine j.e = 0x0A03 ∧ i.p = p ∧ j.p = p ∧ i.key.material = j.key.material ∧ i.aux = j.aux ∧ i.arg 1 = j.arg 1 ∧ eAux i.e ≠ 0 ∧ i.arg 1 ≤ i.input.length) ∧
    eRoutine (libIn (libEntry 0x0B05 1 0 0 0x3000 0 0) [] [] []).e = 0x0B05 ∧ ofBytes (zeros 32) % 2 ^ 255 % curveX25519.p = ofBytes (zeros 31 ++ [0x80]) % 2 ^ 255 % curveX25519.p ∧
    (let i := libIn (libEntry 0x0904 4 5 32 0 0 0) (zeros 32) (zeros 32) []; eRoutine i.e = 0x0904 ∧ i.p = 4 ∧ toContext i.e = false) := by decide

/-- LIU 0 is bound to command 0, has modulus m and slots, and comes to word c of its job. -/
def liuAt (m : Nat) (slots : Tbl LiuSlot) (c : LiuCmd) : State := st { up with lius := [(0, { bound := some 0, modulus := m, n := 3, slots := slots, queue := [{ ident := 0, arrived := true, cmds := [c] }] })] }
def liuJob (c : LiuCmd) : LiuJob := { ident := 0, arrived := true, cmds := [c] }
def liuVal (s : State) (q : Nat) : Nat := ((s.dev.liu 0).slot q).val.toNat

theorem witness_ModularArithmeticOfTheLiu :
    0 < ((liuAt 15 [] { op := 6 }).dev.liu 0).modulus ∧ (15 : Nat) < 2 ^ 8192 ∧
    (∀ op ∈ [6, 7, 8, 9], let c : LiuCmd := { op := op, dst := 2, src1 := 0, src2 := 1 }; LiuRuns (liuAt 15 [(0, { val := 14 }), (1, { val := 2 })] c) 0 op (liuJob c) c) ∧
    liuVal (liuAt 15 [(0, { val := 14 }), (1, { val := 2 })] { op := 6 }) 0 < 15 ∧ liuVal (liuAt 15 [(0, { val := 15 }), (1, { val := 2 })] { op := 6 }) 0 = 15 ∧
    (let c : LiuCmd := { op := 0x0A, dst := 2, src1 := 1 }; LiuRuns (liuAt 15 [(1, { val := 2 })] c) 0 0x0A (liuJob c) c ∧ liuVal (liuAt 15 [(1, { val := 2 })] c) 1 = 2 ∧ Nat.Coprime 2 15 ∧ ¬ Nat.Coprime 3 15 ∧
      liuVal (liuAt 15 [(1, { val := 3 })] c) 1 = 3 ∧ liuVal (liuAt 15 [(1, { val := 1 })] c) 1 ≤ 1) ∧
    (let c : LiuCmd := { op := 0x0B, dst := 2, src1 := 1, src2 := 0, len := 2 }; LiuRuns (liuAt 15 [(0, { val := 6 }), (1, { val := 2 })] c) 0 0x0B (liuJob c) c ∧
      1 < liuVal (liuAt 15 [(0, { val := 6 }), (1, { val := 2 })] c) 0 % 2 ^ 2 ∧ liuVal (liuAt 15 [(0, { val := 5 })] c) 0 % 2 ^ 2 ≤ 1) := by decide

theorem witness_LiuModulusAndMoves :
    (let c : LiuCmd := { op := 1, src1 := 0, len := 3 }; let s := liuAt 0 [(0, { val := 1 + 2 ^ 128 })] c; let m := liuVal s 0;
      LiuRuns s 0 1 (liuJob c) c ∧ m % 2 = 1 ∧ 2 ^ (64 * (3 - 1)) ≤ m ∧ m < 2 ^ (64 * 3) ∧ Tbl.wf {} (s.dev.liu 0).slots = true) ∧
    (let c : LiuCmd := { op := 1, src1 := 0, len := 3 }; let s := liuAt 0 [(0, { val := 2 ^ 128 })] c; LiuRuns s 0 1 (liuJob c) c ∧ ¬ liuVal s 0 % 2 = 1 ∧ Tbl.wf {} (s.dev.liu 0).slots = true) ∧
    (∀ op ∈ [2, 4, 5], let c : LiuCmd := { op := op, dst := 63, src1 := 0, bytes := [1, 2] }; LiuRuns (liuAt 15 [] c) 0 op (liuJob c) c) ∧
    (let c : LiuCmd := { op := 3, src1 := 0, opm := 0x3FFE0, len := 32, be := true }; let s := st { (runs {}).dev with lius := (liuAt 15 [] c).dev.lius };
      LiuRuns s 0 3 (liuJob c) c ∧ (s.dev.liu 0).bound = some 0 ∧ s.dev.cmd 0 = some cmd0 ∧ cmd0.saved = none ∧ cmd0.engine = some 0) := by decide

theorem witness_LiuJobsBeginAndEnd :
    (let s := st { up with liuWait := [0], boot := { up.boot with unitsTested := true }, cmds := [(0, cmd0)] }; s.dev.stopped = false ∧ s.dev.liuFor (s.dev.cmdOr 0).lateral = some 0) ∧
    (let s := st { up with lius := [(0, { queue := [{ ident := 1 }] })] }; s.dev.stopped = false ∧ (s.dev.liu 0).queue = [{ ident := 1 }] ∧ ({ ident := 1 } : LiuJob).arrived = false ∧ ({ ident := 1 } : LiuJob).outcome = none) ∧
    (let s := st (liu9 { ident := 0, arrived := true }); s.dev.stopped = false ∧ (s.dev.liu 9).faulted = false ∧ (s.dev.liu 9).bound = some 0 ∧ (s.dev.liu 9).queue = [{ ident := 0, arrived := true }] ∧
      s.dev.cmd 0 = some cmd0 ∧ cmd0.saved = none ∧ (s.dev.eng 0).arch.jobs = [{ ident := 0, unit := 0 }]) ∧
    (let s := st (liu9 { ident := 0, arrived := true, outcome := some (1, 2, 3) }); s.dev.stopped = false ∧ (s.dev.liu 9).bound = some 0 ∧ (s.dev.liu 9).queue = [{ ident := 0, arrived := true, outcome := some (1, 2, 3) }]) ∧
    (let s := st (liu9 { ident := 0, arrived := true, release := true }); s.dev.stopped = false ∧ (s.dev.liu 9).faulted = false ∧ (s.dev.liu 9).queue = [{ ident := 0, arrived := true, release := true }] ∧ (s.dev.liu 9).katDue = false ∧
      (s.dev.liu 9).fenceDue = false ∧ NoAdminWaits s.dev) := by decide

/-- A digest job of command 0 with one segment. -/
def digJob : DigJob := { slot := 0, eng := 0, ident := 0, alg := 1, start := true, finish := true, outLen := 32, declLen := 3, segs := [{ kind := 1, addr := 0, len := 3, bytes := [1, 2, 3] }] }
def digRuns (d : Device) : Device := { d with engs := (runs { jobs := [{ ident := 0, unit := 1 }] }).dev.engs, cmds := [(0, cmd0)] }

/-- Stream 0 of command 0 in its slot. -/
def digSaved (z : DigState) : DigSave := { state := z, serial := 1 }

theorem witness_DigestJobsArrive :
    (∀ x ∈ [({ digJob with start := true }, ([] : Tbl DigSave)), ({ digJob with start := false, importB := true }, []), ({ digJob with start := false }, [(0, digSaved { alg := 1 })])], ∀ n ∈ [2, 3, 4], let j := { x.1 with declLen := n };
      let s := st { digRuns { up with digArrive := [j] } with cmds := [(0, { cmd0 with streams := x.2 })] }; s.dev.stopped = false ∧ s.dev.digArrive = [j] ∧ j.skip = false ∧ j.badHeader = false ∧ j.badSegment = false ∧ j.badRange = false ∧
      (j.start = true ∨ j.importB = true ∨ (s.dev.streamOf j).map (fun v => v.state.alg) = some j.alg) ∧ sumBy (fun (x : DigSegment) => x.len) j.segs = 3) ∧
    (∀ j ∈ [{ digJob with badHeader := true }, { digJob with badSegment := true }, { digJob with badRange := true }, { digJob with start := false }], let s := st (digRuns { up with digArrive := [j] });
      s.dev.stopped = false ∧ s.dev.digArrive = [j] ∧ j.skip = false ∧ s.dev.digWait = [] ∧ (s.dev.digMalformed j).isSome = true ∧ jobsOf s.dev j.slot = [{ ident := 0, unit := 1 }]) := by decide

/-- Segments in the Reservoir, the last byte of a line and the first of the next, and in operand memory. -/
def digSegs : List DigSegment := [{ kind := 0, addr := 0xFF, len := 2, bytes := [] }, { kind := 1, addr := 0, len := 3, bytes := [1, 2, 3] }]

theorem witness_DigestJobsStart :
    (∀ x ∈ [(digJob, ([] : Tbl DigSave)), ({ digJob with start := false }, [(0, digSaved { alg := 1 })]), ({ digJob with start := false, save := some (digSaved { alg := 1 }) }, [(0, digSaved { alg := 1 })])],
      ∀ g ∈ [digSegs, [{ kind := 2, addr := 0, len := 3, bytes := [] }]], let j := { x.1 with segs := g };
      let s := st { digRuns { up with digWait := [j], gates := [(81, gateOpen)] } with cmds := [(0, { cmd0 with streams := x.2 })], engs := (runs { inlen := 3, jobs := [{ ident := 0, unit := 1 }] }).dev.engs };
      s.dev.stopped = false ∧ s.dev.digFree 7 = true ∧ s.dev.digStartable j = true ∧ j.importB = false ∧ (j.save = none → j.start = true ∨ (s.dev.streamOf j).isSome = true) ∧ (∀ v ∈ j.save.toList ++ (s.dev.streamOf j).toList, s.dev.accepts j v = true) ∧
      (∀ y ∈ j.segs, (y.kind = 0 → ∀ q < y.len, (checkAll s.dev 81 (s.dev.cmdOr 0).allot 0 false (s.dev.cmdOr 0).window (linePieces (y.addr + q) (y.len - q))).1 = .permit) ∧ (y.kind = 1 → y.bytes.length = y.len)) ∧ j.donePos = 0 ∧
      (s.dev.archOf 0).map (fun t => (t.inavail, t.incons, t.inlen)) = some (0, 0, 3)) := by decide

/-- A wrapped state of stream 0 of allotment 0 is opened again. -/
theorem witness_DigestJobsStart_blob : let z : DigState := { alg := 1 }; let d : Device := { allots := [(0, { blobs := [(0, z)] })] };
    d.importBlob 0 1 (hostBlob (d.keyReg 0 1) 0 z 0) = .inl z := by decide +kernel

def digDone (compare : Bool) : DigJob := { digJob with compare := compare, expect := zeros 32, donePos := 3, state := some { alg := 1, absorbed := [1, 2, 3] } }

theorem witness_DigestJobsEnd :
    (∀ f : Bool, ∀ b : Bool, let j := { digDone b with finish := f, exportB := b && !f }; let s := st (digRuns { up with digs := [(0, { st := 1, job := some j })] }); s.dev.stopped = false ∧ (s.dev.dig 0).faulted = false ∧ (s.dev.dig 0).job = some j ∧
      j.state.isSome = true ∧ j.donePos = sumBy (fun x => x.len) j.segs ∧ (s.dev.dig 0).st = 1 ∧ (s.dev.dig 0).fenceDue = false ∧ NoAdminWaits s.dev ∧ s.dev.cmd j.slot = some cmd0 ∧ jobsOf s.dev j.slot = [{ ident := 0, unit := 1 }] ∧
      (f = true → j.compare = b) ∧ (f = false → j.exportB = b)) ∧
    (let x := { digJob with ident := 1, stream := 1 };
      let s := st { digRuns up with digs := (0, { st := 1, job := some digJob }) :: (List.range 7).map (fun v => (v + 1, { st := 2 })), digWait := [x], regs := [(0x71000, 0x80005014)], time := 20000 };
      s.dev.stopped = false ∧ (s.dev.dig 0).job = some digJob ∧ (s.dev.dig 0).fenceDue = false ∧ NoAdminWaits s.dev ∧ bitOf (s.dev.reg 0x71000) 31 = true ∧ x ∈ s.dev.digWait ∧ s.dev.digStartable x = true ∧
      x.queued + field (s.dev.reg 0x71000) 23 12 * 1000 ≤ s.dev.time ∧ (∀ v < 8, s.dev.digFree v = false) ∧ s.dev.digEligible 0 = true ∧ ∀ v < 8, v ≠ 0 → s.dev.digEligible v = false) ∧
    (let s := st { up with digs := [(0, { st := 3, busyFlag := true, alg := 1, outLen := 32 })] }; s.dev.stopped = false ∧ (s.dev.dig 0).busyFlag = true ∧ (s.dev.dig 0).outLen = digLen 1 ∧ isShake 1 = false ∧
      (checkAll s.dev 81 0 0 false none (linePieces 0 0)).1 = .permit) ∧
    (let s := st { up with digs := [(0, { st := 3 })] }; BarTaken s (0x0007_0004 + 0x100 * 0) ∧ BarTaken s (0x0007_0040 + 0x100 * 0 + 4 * 15) ∧ ((hostAccess 0 s.dev).dig 0).st = 3 ∧ ((hostAccess 0 s.dev).dig 0).busyFlag = false ∧
      ((hostAccess 0 s.dev).dig 1).st ≠ 3 ∧ ((hostAccess 0 s.dev).dig 0).done = false) := by decide

/-- A routine with a vector type (Table 7.2: 3 is width 32 in groups of one) and length. -/
def vec (ty vl : Nat) : EngArch := { textLen := 64, vtype := ty, vl := vl, m := [(0, 17)] }

theorem witness_VectorConfiguration :
    (let s := runs { textLen := 64, x := [(1, 28), (2, 32), (3, 60), (4, 64)] }; Issues s 0 0 ∧
      (∀ y ∈ [1, 28], 1 ≤ y % 8 ∧ y % 8 ≤ 4 ∧ 2 ^ (y / 8) ≤ 2 ^ (y % 8 - 1)) ∧ ¬ (2 ^ (9 / 8) ≤ 2 ^ (9 % 8 - 1)) ∧ ¬ (1 ≤ 0 % 8) ∧ ¬ (5 % 8 ≤ 4) ∧
      (xOf s 0 1).toNat = 28 ∧ (xOf s 0 2).toNat % 32 = 0 ∧ (xOf s 0 3).toNat % 32 = 28 ∧ 32 ≤ (xOf s 0 3).toNat ∧ (xOf s 0 3).toNat < 64 ∧ 64 ≤ (xOf s 0 4).toNat) := by decide

theorem witness_VectorIntegerOperations :
    (∀ y ∈ [1, 2, 3, 4], let s := runs (vec y 2); Issues s 0 0 ∧ VecOk s 0 anyWidth 31 [31, 0] ∧ VecOk s 0 anyWidth 31 [31] ∧ VecOk s 0 anyWidth 31 []) := by decide

theorem witness_ModularVectors :
    (let s := runs (vec 2 2); let w := vWidth 2; Issues s 0 0 ∧ VecOk s 0 anyWidth 4 [8, 12, 4] ∧ (Tbl.get 0 (s.dev.eng 0).arch.m 0).toNat % 2 = 1 ∧ (Tbl.get 0 (s.dev.eng 0).arch.m 0).toNat < 2 ^ (w - 1)) ∧
    (let s := runs { vec 2 2 with m := [(3, 0x7FFF)] }; Issues s 0 0 ∧ VecOk s 0 anyWidth 4 [4, 4, 4] ∧ (Tbl.get 0 (s.dev.eng 0).arch.m 3).toNat < 2 ^ (vWidth 2 - 1)) ∧
    (let s := runs { vec 3 1 with m := [(0, 3)] }; Issues s 0 0 ∧ 3 ≤ (Tbl.get 0 (s.dev.eng 0).arch.m ((4 : BitVec 3).toNat - 4)).toNat ∧ vWidth 3 = 32 ∧ VecOk s 0 [16, 32] 4 [6] ∧
      (4 : BitVec 5).toNat % (2 * 1) = 0 ∧ (8 : BitVec 5).toNat % (2 * 1) = 0 ∧ (∀ r < 2 * 1, (s.dev.eng 0).arch.vTag (8 + r) = 0) ∧ VecOk s 0 [16, 32] 4 [8, 6, 4]) := by decide

theorem witness_HashSamplingCarrylessAndAes :
    (let s := runs (vec 3 2); let t := (s.dev.eng 0).arch; Issues s 0 0 ∧ t.vtype ≠ 0 ∧ vWidth t.vtype ∈ anyWidth ∧ t.vTag 4 = 0 ∧ t.vTag 8 = 0 ∧ VecOk s 0 [16, 32, 64] 4 [8]) ∧
    (let s := runs { vec 3 2 with x := [(1, 509 * 2 ^ 32), (2, 509 * 2 ^ 32 + 1), (3, 511 * 2 ^ 32 + 1)] }; Issues s 0 0 ∧
      (xOf s 0 1).toNat % 2 ^ 32 < 2 ∧ (xOf s 0 1).toNat / 2 ^ 32 + 3 = 512 * 1 ∧ (s.dev.eng 0).arch.grp 8 1 / 2 ^ (8 * 509) % 2 ^ 23 < 8380417 ∧
      (xOf s 0 2).toNat % 2 ^ 32 + 1 = 2 ∧ (xOf s 0 2).toNat / 2 ^ 32 + 3 ≤ 512 * 1 ∧ (xOf s 0 3).toNat % 2 ^ 32 + 1 = 2 ∧ (xOf s 0 3).toNat / 2 ^ 32 + 1 ≤ 512 * 1 ∧
      (s.dev.eng 0).arch.grp 8 1 / 2 ^ (8 * 511) % 16 < 9) ∧
    (let s := runs (vec 4 2); Issues s 0 0 ∧ VecOk s 0 [64] 4 [8, 9]) ∧ (let s := runs (vec 2 2); Issues s 0 0 ∧ VecOk s 0 [16] 4 [8, 9]) := by decide

theorem witness_VectorMovesAndReductions :
    (let s := runs (vec 4 64); Issues s 0 0 ∧ VecOk s 0 anyWidth 4 [8, 9] ∧ (s.dev.eng 0).arch.vresume = 0 ∧ (s.dev.eng 0).arch.active none 0 = true ∧ (s.dev.eng 0).arch.vtype ≠ 0) := by decide

theorem witness_ComparesAndPredicates :
    (let s := runs { vec 1 512 with x := [(1, 0x3FFC0)] }; Issues s 0 0 ∧ VecOk s 0 anyWidth 0 [8, 9] ∧ (s.dev.eng 0).arch.vl ≤ 512 ∧ (xOf s 0 1).toNat % 8 = 0 ∧ (xOf s 0 1).toNat + 64 ≤ 0x40000 ∧
      Ready s 0 (xOf s 0 1).toNat 64) := by decide

theorem witness_VectorMemoryInstructions :
    (let s := runs { vec 4 2 with x := [(1, 0x3FFF0), (2, 8)] }; Issues s 0 0 ∧ VecOk s 0 anyWidth 4 [4] ∧ (8 : BitVec 5).toNat % 1 = 0 ∧
      (∀ i < 2, (0x3FFF0 + i * 8) % 2 ^ 64 % 8 = 0 ∧ (0x3FFF0 + i * 8) % 2 ^ 64 + 8 ≤ 0x40000 ∧ Ready s 0 ((0x3FFF0 + i * 8) % 2 ^ 64) 8) ∧
      (∀ i < 2, vElt (s.dev.eng 0).arch 64 8 1 i = 0) ∧ (∀ i, (s.dev.eng 0).arch.active none i = (decide (0 ≤ i) && decide (i < 2)))) ∧
    (let s := runs { vec 4 2 with x := [(1, 0x3FE00)], vresume := 63 }; Issues s 0 0 ∧ (s.dev.eng 0).arch.vresume < 64 ∧
      (∀ i < 64, 63 ≤ i → (0x3FE00 + 8 * i) % 2 ^ 64 + 8 ≤ 0x40000 ∧ Ready s 0 ((0x3FE00 + 8 * i) % 2 ^ 64) 8) ∧ (s.dev.eng 0).arch.vTag 4 = 0) := by
  refine ⟨⟨by decide, by decide, by decide, by decide, by decide, ?_⟩, by decide⟩
  intro i; simp [EngArch.active, runs, st, Device.eng, Tbl.get, vec]

theorem witness_VectorMemoryFaults :
    (let s := runs { vec 4 3 with x := [(1, 0x3FFF8)] }; Issues s 0 0 ∧ VecOk s 0 anyWidth 4 [4] ∧ (s.dev.eng 0).arch.active none 1 = true ∧ ¬ ((0x3FFF8 + 1 * 8) % 2 ^ 64 + 8 ≤ 0x40000) ∧
      (0x3FFF8 % 2 ^ 64 % 8 = 0) ∧ Ready s 0 0x3FFF8 8) ∧
    (let s := runs { vec 4 1 with x := [(1, 1)] }; Issues s 0 0 ∧ (s.dev.eng 0).arch.active none 0 = true ∧ ¬ ((1 + 0 * 8) % 2 ^ 64 % 8 = 0)) ∧
    (let s := runs { vec 4 1 with rlds := [{ rsv := 0, opm := 7, len := 1 }] }; Issues s 0 0 ∧ VecOk s 0 anyWidth 4 [4] ∧ (s.dev.eng 0).arch.active none 0 = true ∧ ¬ Ready s 0 0 8) := by decide

theorem witness_LongAccumulators :
    (let s := runs { vec 28 512 with x := [(1, 256)] }; let t := (s.dev.eng 0).arch; Issues s 0 0 ∧ vWidth t.vtype = 64 ∧ t.vtype ≠ 0 ∧ (∀ q < 4, t.vTag (28 + q) = 0) ∧ (8 : BitVec 5).toNat % vGroup t.vtype = 0 ∧
      (∀ q < vGroup t.vtype, t.vTag (8 + q) = 0) ∧ ¬ (xOf s 0 1).toNat < 256) := by decide

/-- Registers from n, k of them, shared with tag g. -/
def tagged (n k g : Nat) : Tbl VShare := (List.range k).map (fun q => (n + q, { tag := g }))

theorem witness_SharedElementwise :
    (let s := runs { vec 2 2 with shares := 3, v := tagged 4 4 3 ++ tagged 8 4 3 }; let t := (s.dev.eng 0).arch; Issues s 0 0 ∧ t.shares = (3 : BitVec 2).toNat ∧ VecOk s 0 anyWidth 28 [] ∧
      (28 : BitVec 5).toNat + (t.shares + 1) * vGroup t.vtype ≤ 32 ∧ SharedGroup t 4 ∧ SharedGroup t 8 ∧ (Tbl.get 0 t.m 0).toNat = 17 ∧ (17 : Nat) < 2 ^ (vWidth t.vtype - 1) ∧
      (∀ q < vGroup t.vtype, t.vTag (12 + q) = 0)) := by decide

theorem witness_GadgetsAndTheirGenerator :
    (let s := st { (runs { vec 2 2 with shares := 1, v := tagged 4 2 1 ++ tagged 8 2 1 ++ tagged 12 2 1, m := [(1, 3329)] }).dev with
        engs := [(0, { st := .running, slot := some 0, mg := { seeded := true }, arch := { vec 2 2 with shares := 1, v := tagged 4 2 1 ++ tagged 8 2 1 ++ tagged 12 2 1, m := [(1, 3329)] } })] };
      let t := (s.dev.eng 0).arch; Issues s 0 0 ∧ t.shares = (1 : BitVec 2).toNat ∧ VecOk s 0 anyWidth 12 [] ∧ t.vl ≤ 4096 * vGroup t.vtype / vWidth t.vtype ∧
      (Tbl.get 0 t.m 0).toNat = 0 ∧ (Tbl.get 0 t.m 1).toNat = 3329 ∧ (3329 : Nat) < 2 ^ (vWidth t.vtype - 1) ∧ 3 * (2 * (2 - 1) / 2) * 16 * 2 ≤ mgRoom (s.dev.eng 0).mg ∧ 2 * 16 * 2 ≤ mgRoom (s.dev.eng 0).mg ∧
      SharedGroup t 4 ∧ SharedGroup t 8 ∧ SharedGroup t 12 ∧ (∀ q < vGroup t.vtype, t.vTag (20 + q) = 0)) ∧
    (let s := st { up with engs := [(0, { mg := { seeded := true, blocks := 2 ^ 24 - 2 ^ 20 } }), (1, { mg := { blocks := 2 ^ 24, reqPending := true } }), (2, { mg := { blocks := 2 ^ 24 - 2 ^ 20 - 1 } })] };
      (s.dev.eng 0).mg.seeded = true ∧ 2 ^ 24 - 2 ^ 20 ≤ (s.dev.eng 0).mg.blocks ∧ (s.dev.eng 0).mg.reqPending = false ∧ (s.dev.eng 1).mg.reqPending = true ∧ 2 ^ 24 ≤ (s.dev.eng 1).mg.blocks ∧
      (s.dev.eng 2).mg.blocks < 2 ^ 24 - 2 ^ 20) ∧
    (let s := runs (vec 2 2); Issues s 0 0 ∧ VecOk s 0 anyWidth 4 [] ∧ (s.dev.eng 0).mg.seeded = false) := by decide

theorem witness_TrapOrderAndIllegalWords :
    (let s := runs (vec 10 2); Issues s 0 0 ∧ vGroup 10 = 2 ∧ ¬ (5 : BitVec 5).toNat % vGroup 10 = 0) ∧ (let s := runs { textLen := 64 }; Issues s 0 0 ∧ (s.dev.eng 0).arch.vtype = 0 ∧ (5 : BitVec 5).toNat % vGroup 0 = 0) ∧
    (let s := runs { vec 2 2 with m := [(0, 0x8001)], v := tagged 4 1 1 }; let t := (s.dev.eng 0).arch; Issues s 0 0 ∧ t.vtype ≠ 0 ∧ vWidth t.vtype ∈ anyWidth ∧ ¬ (Tbl.get 0 t.m 0).toNat < 2 ^ (vWidth t.vtype - 1) ∧
      (3 : BitVec 2).toNat ≠ t.shares ∧ (31 : BitVec 5).toNat + (t.shares + 1) * vGroup t.vtype ≤ 32 ∧ t.vTag 4 ≠ 0) ∧
    furrowDecode 0 0x04000019 = none := by decide

/-- An entry from fields of so many bytes. -/
def ent (l : List (Nat × Nat)) : Entry := BitVec.ofNat 512 (pack l)
/-- A gate with one region: 2^40 bytes from 0, read and write, of allotment a. -/
def gateOf (a : Nat) : Gate := { regions := [(0, BitVec.ofNat 256 (pack [(8, 0), (1, 40), (1, 0), (1, 3), (1, a), (1, 1)]))] }
/-- Allotment 12 with its gate open. -/
def host (t : Allot) : Device := { up with allots := [(12, t)], gates := [(12, gateOf 12)] }
def quotas : Allot := { ready := true, inflightQuota := 64, sqQuota := 8, cqQuota := 8, mayUse := 0xFFFF, cisQuota := 8, ctxQuota := 8, rsvPart := 64 }
/-- The admin command of allotment a whose turn it is. -/
def adminOf (a : Nat) (e : Entry) : Device := { up with allots := [(a, { quotas with adm := { enable := true, cmds := [(7, e)] } })], gates := [(a, gateOf a)] }
def queue3 : SubQueue := { present := true, depth := 16, base := 0x10000, cqId := 1, fetchIdx := 15 }

theorem witness_DoorbellsAndScans :
    (let s := st (host quotas); PageTaken s 12 ∧ ((hostAccess 12 s.dev).sq 12 3).present = false) ∧
    (let s := st { host quotas with sqs := [(qKey 12 3, queue3)] }; let d := hostAccess 12 s.dev; let q := d.sq 12 3; PageTaken s 12 ∧ q.present = true ∧ q.disable = false ∧ q.error = false ∧ q.scanning = false ∧
      q.pend = false ∧ d.frozen = false ∧ min 8 (min (q.depth - q.fetchIdx) (d.slotsLeft 12)) = 1 ∧ (∀ i < 1, gateCheck d 12 12 (q.base + (q.fetchIdx + i) * 64) 64 0 true none = .permit)) ∧
    (let s := st { host { quotas with inflightQuota := 0 } with sqs := [(qKey 12 3, queue3)] }; let d := hostAccess 12 s.dev; let q := d.sq 12 3; PageTaken s 12 ∧ q.present = true ∧
      min 8 (min (q.depth - q.fetchIdx) (d.slotsLeft 12)) = 0) ∧
    (let s := st { host { quotas with adm := { enable := true, scanning := true } } with sqs := [(qKey 12 3, { queue3 with scanning := true, pend := true })] }; let d := hostAccess 12 s.dev; PageTaken s 12 ∧
      (d.sq 12 3).scanning = true ∧ (d.adm 12).enable = true ∧ (d.adm 12).error = false ∧ (d.adm 12).scanning = true ∧ (s.dev.sq 12 3).pend = true ∧ (s.dev.sq 12 3).disable = false ∧ (s.dev.sq 12 3).error = false ∧ (s.dev.allot 12).flr = none ∧
      s.dev.stopped = false ∧ s.dev.scansPaused = false ∧ 0 < s.dev.slotsLeft 12) ∧
    (let s := st (host { quotas with adm := { enable := true } }); let d := hostAccess 12 s.dev; let m := d.adm 12; PageTaken s 12 ∧ m.scanning = false ∧ m.error = false ∧ min 8 (m.depth - m.fetchIdx) = 8 ∧
      (∀ i < 8, gateCheck d 12 12 (m.sqBase + (m.fetchIdx + i) * 64) 64 0 true none = .permit)) := by decide

/-- An entry that asks for random bytes, owned by the device. -/
def ownedEntry : Entry := ent [(2, 1), (2, 0x0E01), (20, 0), (8, 0x2000), (4, 64), (24, 0), (4, 0x80000000)]

theorem witness_BurstsAreConsumed :
    (∀ b ∈ [1, 8], ∀ n ∈ [0, 64], let s := st { host { quotas with inflightQuota := n, adm := { enable := true, burst := b } } with sqs := [(qKey 12 3, { queue3 with scanning := true, burst := b })], weirs := [(0, { en := true, allot := 12 })] };
      s.dev.stopped = false ∧ s.dev.scansPaused = false ∧ (s.dev.allot 12).flr = none ∧ 0 < (s.dev.sq 12 3).burst ∧ (s.dev.sq 12 3).disable = false ∧ (s.dev.sq 12 3).error = false ∧ (s.dev.sq 12 3).rescan = false ∧ eOwn 0 = false ∧ eOwn ownedEntry = true ∧
      s.dev.slotsLeft 12 = n ∧ gateCheck s.dev 12 12 ((s.dev.sq 12 3).base + (s.dev.sq 12 3).fetchIdx * 64 + 60) 4 1 true none = .permit ∧ s.dev.freeSlot = some 0 ∧ eBatch ownedEntry = false ∧ eBatchLast ownedEntry = false ∧
      eOneCqe ownedEntry = false ∧ reservedClean ownedEntry = true ∧ (s.dev.sq 12 3).batch = [] ∧ (s.dev.admitLate 12 ownedEntry).2 = none ∧ 0 < (s.dev.adm 12).burst ∧ (s.dev.adm 12).enable = true ∧ (s.dev.adm 12).error = false ∧
      (s.dev.adm 12).rescan = false ∧ gateCheck s.dev 12 12 ((s.dev.adm 12).sqBase + (s.dev.adm 12).fetchIdx * 64 + 60) 4 1 true none = .permit) := by decide

theorem witness_HeadWrites :
    (let s := st { host { quotas with adm := { enable := true, head := 0xFFFF, tail := 1 }, ntc := { enable := true, head := 0xFFFF, tail := 1 } } with cqs := [(qKey 12 1, { present := true, depth := 16, head := 0xFFFF, tail := 1 })] };
      let d := hostAccess 12 s.dev; PageTaken s 12 ∧ (d.cq 12 1).present = true ∧ (d.cq 12 1).waiting = [] ∧ (d.adm 12).cqWaiting = [] ∧ (d.adm 12).enable = true ∧ (d.allot 12).ntc.held = [] ∧ (d.allot 12).ntc.dropped = 0 ∧
      (d.cq 12 1).head = 0xFFFF ∧ (1 + 65536 - 0xFFFF) % 65536 ≤ (1 + 65536 - 0xFFFF) % 65536 ∧ ¬ (2 + 65536 - 0xFFFF) % 65536 ≤ (1 + 65536 - 0xFFFF) % 65536 ∧ ¬ (0xFFFE + 65536 - 0xFFFF) % 65536 ≤ (1 + 65536 - 0xFFFF) % 65536) := by decide

theorem witness_QueueRegisters :
    (let s := st { host quotas with sqs := [(qKey 12 3, queue3), (qKey 12 4, { queue3 with disable := true, idle := true })], cqs := [(qKey 12 1, { present := true, depth := 16, irqEn := true, unsig := 1, coalTime := 1 })], time := 1000 };
      let d := hostAccess 12 s.dev; PageTaken s 12 ∧ (d.sq 12 3).disable = false ∧ d.ofQueue 12 3 = [] ∧ (d.sq 12 4).idle = true ∧ (d.sq 12 4).error = false ∧ (d.allot 12).ready = true ∧ (d.adm 12).enable = false ∧ (d.adm 12).idle = true ∧ (d.sq 12 3).batch = [] ∧ (d.allot 12).ntc.enable = false ∧
      (d.allot 12).ntc.held = [] ∧ (d.allot 12).ntc.dropped = 0 ∧ (∀ u < 32, ((d.allot 12).vec u).pending = false) ∧ (s.dev.sq 12 4).disable = true ∧ (s.dev.sq 12 4).burst = 0 ∧ s.dev.ofQueue 12 4 = [] ∧ NoAdminWaits s.dev ∧
      (s.dev.allot 12).flr = none ∧ (s.dev.cq 12 1).irqEn = true ∧ 0 < (s.dev.cq 12 1).unsig ∧ 0 < (s.dev.cq 12 1).coalTime ∧ (s.dev.cq 12 1).oldest + (s.dev.cq 12 1).coalTime * 1000 ≤ s.dev.time) ∧
    (let s := st (host { quotas with adm := { enable := true }, msixEnable := true, vecs := [(31, { mask := false, pending := true })] }); let d := hostAccess 12 s.dev; PageTaken s 12 ∧ (d.adm 12).enable = true ∧
      (d.adm 12).waits = .none ∧ (d.adm 12).cmds = [] ∧ (d.adm 12).cqWaiting = [] ∧ (d.adm 12).burst = 0 ∧ (d.adm 12).errorDue = false ∧ (d.allot 12).msixEnable = true ∧ ((d.allot 12).vec 31).pending = true ∧ ((d.allot 12).vec 31).mask = false ∧
      (∀ u < 32, u ≠ 31 → ((d.allot 12).vec u).pending = false)) := by decide

def createCqEntry : Entry := ent [(2, 1), (2, 1), (2, 1023), (2, 16), (8, 0x1000), (1, 31), (1, 1), (1, 0), (1, 0), (2, 1023), (42, 0)]
def createSqEntry : Entry := ent [(2, 1), (2, 3), (2, 0), (2, 4096), (8, 0x1000), (2, 1), (1, 1), (45, 0)]
def queueEntry (op n : Nat) : Entry := ent [(2, 1), (2, op), (2, n), (58, 0)]

theorem witness_QueueManagement :
    (let s := st (adminOf 12 createCqEntry); AdminTurn s 12 1 cqParams [(8, 4096)] 7 createCqEntry ∧ bytesAt createCqEntry 4 2 < 1024 ∧ (s.dev.cq 12 1023).present = false ∧ isPow2Between (bytesAt createCqEntry 6 2) 16 4096 = true ∧
      s.dev.cqHeld 12 < (s.dev.allot 12).cqQuota ∧ s.dev.cqs.length < 16384 ∧ bytesAt createCqEntry 16 1 < 32 ∧ bytesAt createCqEntry 18 1 ≤ 1 ∧ bytesAt createCqEntry 20 2 < 1024 ∧ (s.dev.gate 12).close = false ∧ ringPlaced s.dev 12 0x1000 256 false true = true) ∧
    (let e := queueEntry 2 1; let s := st { adminOf 12 e with cqs := [(qKey 12 1, { present := true })] }; AdminTurn s 12 2 (wholeBytes 4 5) [] 7 e ∧ (s.dev.cq 12 1).present = true ∧ s.dev.sqs = []) ∧
    (let s := st { adminOf 12 createSqEntry with cqs := [(qKey 12 1, { present := true })], sqs := [(qKey 12 5, queue3)] }; AdminTurn s 12 3 (wholeBytes 4 18) [(8, 4096)] 7 createSqEntry ∧ (s.dev.sq 12 0).present = false ∧
      isPow2Between (bytesAt createSqEntry 6 2) 16 4096 = true ∧ s.dev.sqHeld 12 < (s.dev.allot 12).sqQuota ∧ (s.dev.cq 12 (bytesAt createSqEntry 16 2)).present = true ∧ bytesAt createSqEntry 18 1 ≤ 1 ∧
      ringPlaced s.dev 12 0x1000 (4096 * 64) true true = true ∧ (∃ x ∈ s.dev.sqs, x.1 / 1024 = 12 ∧ x.2.cqId = 1)) ∧
    (∀ q ∈ [queue3, { queue3 with disable := true }, { queue3 with disable := true, idle := true }], let e := queueEntry 4 3; let s := st { adminOf 12 e with sqs := [(qKey 12 3, q)] }; AdminTurn s 12 4 (wholeBytes 4 5) [] 7 e ∧ bytesAt e 4 2 = 3 ∧
      (s.dev.sq 12 3).present = true ∧ (q.disable = false → ((disableSq 12 3 s.dev).sq 12 3).idle = false)) ∧
    (∀ k ∈ [0, 1], let e := ent [(2, 1), (2, 5), (2, 3), (1, k), (1, 0), (8, 0x40), (48, 0)]; let s := st { adminOf 12 e with sqs := [(qKey 12 3, queue3)], cqs := [(qKey 12 3, { present := true })] }; AdminTurn s 12 5 (wholeBytes 4 6 ++ wholeBytes 8 15) [(8, 64)] 7 e ∧ bytesAt e 4 2 = 3 ∧
      bytesAt e 6 1 = k ∧ (s.dev.sq 12 3).present = true ∧ (s.dev.cq 12 3).present = true ∧ (s.dev.allot 12).flr = none ∧ gateCheck s.dev 12 12 0x40 64 1 true none = .permit) ∧
    (∀ x ∈ [(1, 0), (255, 1023)], let e := ent [(2, 1), (2, 6), (2, 1), (10, 0), (1, 31), (1, 1), (1, x.1), (1, 0), (2, x.2), (42, 0)]; let s := st { adminOf 12 e with cqs := [(qKey 12 1, { present := true })] }; AdminTurn s 12 6 cqParams [] 7 e ∧ (s.dev.cq 12 1).present = true ∧
      bytesAt e 16 1 < 32 ∧ (bytesAt e 18 1 ≤ 1 ∨ bytesAt e 20 2 ≠ 0) ∧ bytesAt e 20 2 < 1024) ∧
    (let e := queueEntry 0x7F 0; admFront 12 (adminOf 12 e) = some (7, e) ∧ opcodeOwner (bytesAt e 2 2) = true) ∧
    (let e := queueEntry 0x7 0; admFront 12 (adminOf 12 e) = some (7, e) ∧ opcodeOwner (bytesAt e 2 2) = false ∧ opcodeAssigned (bytesAt e 2 2) = false) ∧
    (∀ n ∈ [3, 0xFFFF], let e := queueEntry 0x10 n; let s := st { adminOf 12 e with sqs := [(qKey 12 3, queue3)] }; AdminTurn s 12 0x10 (wholeBytes 4 9) [] 7 e ∧ bytesAt e 4 2 = n ∧ (n = 3 → (s.dev.sq 12 n).present = true)) := by decide

/-- Commands of allotment 12 that have ended, on queue 3, which is FIFO or not; its completion queue has room at index 15 or is full. -/
def endedOn (free full : Bool) (l : Tbl Cmd) : State :=
  st { host quotas with sqs := [(qKey 12 3, { queue3 with free := free })], cqs := [(qKey 12 1, { present := true, depth := 16, tail := 15, head := if full then 65535 else 0 })], cmds := l }

def endedCmd (e : Entry) (o : Nat) : Cmd := { entry := e, allot := 12, sq := 3, order := o, phase := .ended }

theorem witness_CompletionEntries :
    (∀ b ∈ [none, some (9, 2)], let c := { endedCmd 0 5 with batch := b, batchSize := 2 }; let s := endedOn false false [(4095, c)];
      s.dev.cmd 4095 = some c ∧ (s.dev.sq c.allot c.sq).cqId = 1 ∧ (s.dev.allot 12).flr = none ∧ s.dev.frozen = false ∧ batchClear c = true ∧ s.dev.parked 4095 = false ∧ c.batchOne = false ∧ c.status = stOk ∧
      (∀ x ∈ s.dev.cmds, x.2.allot = 12 → x.2.sq = c.sq → c.order ≤ x.2.order) ∧ (if c.batch.isSome then c.batchErr else eErrOnly c.entry) = false) ∧
    (let c := endedCmd (ent [(60, 0), (4, 0x04000000)]) 5; eErrOnly c.entry = true ∧ c.batch = none ∧ c.status = stOk) ∧
    (∀ full : Bool, let s := endedOn false full []; let q := s.dev.cq 12 1; q.error = false ∧ q.waiting = [] ∧
      decide ((q.tail + 65536 - q.head) % 65536 < q.depth) = !full ∧ q.present = true ∧ gateCheck s.dev 12 12 (q.base + q.tail % q.depth * 16) 16 1 true none = .permit) ∧
    (let c := endedCmd 0 5; let s := endedOn true false [(1, { endedCmd 0 4 with phase := .running }), (4095, c)]; s.dev.cmd 4095 = some c ∧ (s.dev.sq 12 3).free = true ∧ s.dev.inBarrier c = false) ∧
    (let c := { endedCmd 0 5 with batch := some (9, 1), batchSize := 2, batchOne := true }; let m := { c with order := 6, batch := some (9, 2) }; let s := endedOn false false [(1, m), (4095, c)];
      s.dev.cmd 4095 = some c ∧ batchClear c = true ∧ s.dev.parked 4095 = false ∧ c.batchOne = true ∧ (∀ x ∈ s.dev.cmds, sameBatch c x.2 = true → x.2.phase = .ended) ∧ c.batchErr = false ∧
      (∀ m ∈ s.dev.cmds, ∀ x ∈ s.dev.cmds, 5 ≤ x.2.order ∧ m.2.batchOne = true)) := by decide

/-- Command 0 of allotment 12 in a phase, with routine attributes. -/
def cmdIn (p : Phase) (t : RoutineAttr := {}) (e : Entry := 0) : Cmd := { entry := e, allot := 12, sq := 3, order := 1, phase := p, attr := t }
def holds (c : Cmd) : Device := { host quotas with cmds := [(0, c)], weirs := [(0, { en := true, allot := 12, burst := 4, level := 4096, line := [0] })] }

/-- The members of that batch, in their order of submission. -/
theorem witness_CompletionEntries_members : let c := { endedCmd 0 5 with batch := some (9, 1), batchSize := 2, batchOne := true }; let m := { c with order := 6, batch := some (9, 2) };
    (endedOn false false [(1, m), (4095, c)]).dev.members c = [(4095, c), (1, m)] := by
  simp [Device.members, endedOn, st, host, sameBatch, endedCmd, List.mergeSort, List.MergeSort.Internal.splitInTwo]

theorem witness_WeirsAdmitCommands :
    (let c := cmdIn .waiting; let d := { holds c with weirs := [(0, { en := true, allot := 13 })] }; d.stopped = false ∧ d.cmd 0 = some c ∧ d.barrierClear c = true ∧ batchClear c = true ∧ d.ctxTurn c = true ∧
      c.takesCtx = false ∧ ((expireBefore c d).weir c.weir).allot ≠ c.allot ∧ (expireBefore c d).ctxAnswer c = .go ∧ c.attr.needsRandom = false ∧ c.attr.order = 0) ∧
    (∀ t ∈ [({ cost := 1, needsRandom := true } : RoutineAttr), { order := 1 }], let c := cmdIn .waiting t; let d := { holds c with boot := { up.boot with entropyReady := false } }; d.barrierClear c = true ∧ batchClear c = true ∧ d.ctxTurn c = true ∧ d.ctxAnswer c = .go ∧
      (c.attr.needsRandom = true ∧ d.entropyAvailable = false ∨ c.attr.order ≠ 0 ∧ d.boot.entropyReady = false) ∧ c.entropySince = none) ∧
    (∀ z ∈ [0, 1], let c := cmdIn .waiting { cost := z, routine := 0x1000 }; let d := holds c; d.barrierClear c = true ∧ (d.weir c.weir).en = true ∧ (d.weir c.weir).allot = c.allot ∧ d.costOf c = (z, false) ∧ (d.updCmd 0 (fun c => { c with cost := 0 })).placement 12 = some 0) ∧
    (let c := cmdIn .waiting { takesCtx := true }; let d := holds c; d.ctxTurn c = true ∧ (d.ctx (eCtx c.entry)).st = .free ∧ (expireBefore c d).ctxAnswer c = .fail stCtxAbsent 0) ∧
    (let c := cmdIn .waiting { takesCtx := true }; let d := { holds c with ctxs := [(0, { st := .migrating, allot := 12 })] }; d.stopped = false ∧ d.ctxTurn c = true ∧ (expireBefore c d).ctxAnswer c = .wait) ∧
    (let c := { cmdIn .line with cost := 4 }; let d := { holds c with weirs := [(0, { en := true, allot := 12, burst := 4, level := 4096, rate := 1, line := [0] })] }; let r := refill 0 d; (r.weir 0).line = [0] ∧ (r.weir 0).covers c.cost = true ∧ r.placement 12 = some 0) ∧
    (let c := { cmdIn .line with cost := 4, since := 0 }; let d := { holds c with weirs := [(0, { en := true, allot := 12, burst := 4, level := 4095, maxWait := 1, line := [0] })], time := 1_000_000 };
      let r := refill c.weir d; let w := r.weir c.weir; d.stopped = false ∧ c.phase = .line ∧ c.since + w.maxWait * 1_000_000 ≤ d.time ∧ w.line.head? = some 0 ∧ w.covers (r.cmdOr 0).cost = false) := by decide

/-- A Weir with a line and one without, enabled and disabled. -/
theorem witness_WeirsAdmitCommands_ctrl :
    ∀ l ∈ [[], [0]], let s := st { up with weirs := [(0, { allot := 12, en := true, sRate := some 1, sBurst := some 1, line := l })], cmds := [(0, cmdIn .line)] }; let d := hostAccess 0 s.dev; let w := (refill 0 d).weir 0;
      BarTaken s (0xB000C + 16 * 0) ∧ w.allot = field (0x10C : BitVec 32).toNat 5 0 ∧ w.line = l ∧ bitOf (0x10C : BitVec 32).toNat 8 = true ∧ bitOf (0x00C : BitVec 32).toNat 8 = false ∧ (d.cmd 0).map (fun c => c.weir) = some 0 := by decide

/-- A staging place below every range in use is found: nothing is in use. -/
theorem witness_WeirsAdmitCommands_place : (refill 0 { holds { cmdIn .line with cost := 4 } with weirs := [(0, { en := true, allot := 12, burst := 4, level := 4096, rate := 1, line := [0] })] }).findStage (stageNeed { cmdIn .line with cost := 4 }) = some stagingBase ∧
    (holds (cmdIn .waiting { cost := 0, routine := 0x1000 })).findStage (stageNeed (cmdIn .waiting { cost := 0, routine := 0x1000 })) = some stagingBase := by
  refine ⟨?_, ?_⟩ <;> simp [Device.findStage, Device.stageUsed, holds, cmdIn, refill, refillLevel, firstFit, Device.updWeir, stagingBase, stagingSize, stageNeed, inputRoom, outRoom, objRoom, eInLen] <;> decide

def readyCmd : Cmd := { cmdIn .ready with inDone := true }

theorem witness_EnginesTakeCommands :
    (let d := { holds readyCmd with lats := [(0, { ready := [0] })] }; let free := (enginesOf 0).filter (fun e => d.engineFree e); let can (k : Nat) : Bool := free.any (fun e => d.startable e k);
      d.stopped = false ∧ d.drr 0 ((((d.lat 0).ready.filter can).map (fun k => (d.cmdOr k).allot)).eraseDups) = some (12, []) ∧ d.offer 0 12 can = some 0 ∧ d.bestEngine 0 (free.filter (fun e => d.startable e 0)) = some 0) ∧
    (let d := { holds { readyCmd with lateral := 1 } with lats := [(1, { ready := [0] })], time := 20_000 }; (d.cmdOr 0).readyAt + 20_000 ≤ d.time ∧ d.engineFree 0 = true ∧ latOf 0 ≠ (d.cmdOr 0).lateral ∧ d.mayUse 12 (latOf 0) = true ∧
      d.startable 0 0 = true ∧ (d.cmdOr 0).saved = none ∧ (d.eng 0).lastAllot = none) ∧
    (∀ h : Bool, let a := { cmdIn .running with engine := some 0, order := 0 }; let b := { readyCmd with entry := ent [(36, 0), (4, 0xF000), (24, 0)] };
      let d := { host quotas with cmds := [(0, b), (1, a)], lats := [(0, { ready := [0] })], engs := [(0, { st := .running, slot := some 1, arch := { sliceCycles := 2000, intrap := h } })], regs := [(0x000F_8000, 0x80000001)] };
      d.stopped = false ∧ bitOf (d.reg 0x000F_8000) 31 = true ∧ (d.lat b.lateral).ready.contains 0 = true ∧ b.readyAt + d.sluWait * 1000 ≤ d.time ∧ (d.eng 0).slot = some 1 ∧ (d.eng 0).arch.intrap = h ∧
      leastBy (fun e => 10 ^ 12 - (d.eng e).arch.sliceCycles) ((enginesOf b.lateral).filter (fun e => d.eligible b.lateral e b)) = some 0) ∧
    (let r : SaveRec := { arch := {}, gen := 1, complete := false }; let c := { cmdIn .saved with saved := some r }; let d := { holds c with engs := [(0, { st := .saving, slot := some 0 })], lats := [(0, { busyWith := some 0 })] };
      d.stopped = false ∧ (d.eng 0).slot = some 0 ∧ d.saveReady 0 0 = true ∧ d.cmd 0 = some c ∧ c.saved = some r ∧ (d.lat (latOf 0)).busyWith = some 0 ∧ (∀ g ∈ enginesOf (latOf 0), (d.eng g).fenceDue = false)) ∧
    (let d := (runs { cycles := 2_000_000 }).dev; d.stopped = false ∧ (d.eng 0).slot = some 0 ∧ (d.cmdOr 0).phase = .running ∧ runLimit (d.cmdOr 0) ≤ (d.eng 0).arch.cycles ∧ (d.eng 0).st = .running) := by decide

/-- An entry with IN_ADDR, IN_LEN, OUT_ADDR, OUT_MAX and CONTROL. -/
def ioEntry (ia il oa om ctl : Nat) : Entry := ent [(12, 0), (4, il), (8, ia), (8, oa), (4, om), (24, 0), (4, ctl)]
/-- The buffer 5 of allotment 12, of 4 KiB, which holds n bytes. -/
def withBuf (n : Nat) (d : Device) : Device := { d with allots := [(12, { quotas with bufs := [(5, { place := 0, sizeLog2 := 12, len := n })] })] }

theorem witness_InputIsStaged :
    (∀ x ∈ [0, 16], let c := cmdIn .ready { auxLen := x } (ioEntry 0x1000 1 0 0 0); let d := holds c; d.stopped = false ∧ d.cmd 0 = some c ∧ c.inDone = false ∧ c.earlyRefusal = none ∧ c.attr.stream = false ∧ eInRsv c.entry = false ∧
      d.inputEnd c [] = .done ∧ (∀ p ∈ pieces (eAux c.entry) x, gateCheck d 12 12 p.1 p.2 0 true none = .permit)) ∧
    (let c := { cmdIn .ready { routine := 0x0E01 } (libEntry 0x0E01 0 0 0 0 0 0) with inDone := false }; c.earlyRefusal.isSome = true) ∧
    (let c := cmdIn .ready { stream := true } (ioEntry 0x1000 1 0 0 0); c.earlyRefusal = none ∧ c.attr.stream = true ∧ c.attr.auxLen = 0) ∧
    (let c := cmdIn .ready { auxLen := 16 }; let d := { holds c with gates := [(12, { close := true })] }; d.inputEnd c [] = .done ∧ (d.gate c.allot).close = true ∧ c.earlyRefusal = none) ∧
    (let c := cmdIn .ready {} (ioEntry 0x1000 256 0 0 0); ({ holds c with gates := [(12, { close := true })] } : Device).inputEnd c [] = .wait 0x1000 256 ∧ ({ holds c with gates := [] } : Device).inputEnd c [] = .refused 1 1 0xFFFF false 0x1000 256) ∧
    (let c := cmdIn .ready {} (ioEntry (2 ^ 63 + 1) 8 0 0 0); (holds c).inputEnd c [] = .malformed) ∧
    (∀ r ∈ [RsvRead.clean, .corrected 5, .uncorrectable 63], let c := cmdIn .ready {} (ioEntry 0x10005 64 0 0 0x02000000); let d := withBuf 64 (holds c); eInRsv c.entry = true ∧ (d.bufFor c (eInAddr c.entry)).map (fun x => x.2.len) = some 64 ∧
      (withBuf 65 (holds c)).inputEnd c [] = .long 65 ∧ (withBuf 63 (holds c)).inputEnd c [] = .short 63 ∧ (holds c).inputEnd c [] = .refused 5 0 0xFFFF false 0 0 ∧ (r = .clean → (meetRead r 0 64 d).inputEnd c [] = .done ∧ (meetRead r 0 64 d).cmd 0 = some c)) ∧
    (∀ p ∈ [Phase.running, .saved], let c := { cmdIn p { stream := true } (ioEntry 0x1000 2 0 0 0) with engine := some 0, stageSize := 4096, saved := if p = .saved then some { arch := {}, gen := 1, complete := true } else none };
      let d := { holds c with engs := if p = .saved then [] else [(0, { st := .running, slot := some 0 })] }; c.earlyRefusal = none ∧ (d.archOf 0).map (fun t => t.incons) = some 0 ∧ c.inArrived < eInLen c.entry ∧ eInRsv c.entry = false ∧ bitOf (eInAddr c.entry) 63 = false ∧
      gateCheck d 12 12 (eInAddr c.entry + c.inArrived) 2 0 true none = .permit ∧ ({ d with gates := [(12, { close := true })] }.gate 12).close = true ∧ (∀ u < 8, (d.dig u).job = none)) ∧
    (let c := cmdIn .running { stream := true } (ioEntry (2 ^ 63 + 8) 8 0 0 0); eInRsv c.entry = false ∧ bitOf (eInAddr c.entry) 63 = true ∧ eInAddr c.entry % 16 ≠ 0) ∧
    (∀ n ∈ [0, 64, 65], let c := cmdIn .running { stream := true } (ioEntry 0x10005 64 0 0 0x02000000); let d := withBuf n (holds c); ((d.bufFor c (eInAddr c.entry)).map (fun x => x.2.len)) = some n) := by decide

/-- A gather list of one entry, the last, of so many bytes at 0x2000, and one whose reserved bits are set. -/
def gather1 (n last : Nat) : List GatherEntry := [(0x2000, BitVec.ofNat 32 n, BitVec.ofNat 32 last)]

theorem witness_InputsEnd :
    (let c := cmdIn .ready {} (ioEntry 0 0 0 0 0); eInLen c.entry = 0) ∧
    (let c := cmdIn .ready {} (ioEntry (2 ^ 63 + 0x1000) 8 0 0 0); let d := holds c; 0 < eInLen c.entry ∧ eInRsv c.entry = false ∧ bitOf (eInAddr c.entry) 63 = true ∧ eInAddr c.entry % 2 ^ 63 = 0x1000 ∧ gateCheck d 12 12 0x1000 16 0 true none = .permit ∧
      (∀ n ∈ [7, 8, 9], d.inputEnd c (gather1 n 1) = if n < 8 then .short n else if 8 < n then .long n else .done) ∧ d.inputEnd c (gather1 8 3) = .malformed ∧ (∀ p ∈ pieces 0x2000 8, gateCheck d 12 12 p.1 p.2 0 true none = .permit)) := by decide

theorem witness_RoutinesCommit :
    (let c := { cmdIn .draining with engine := some 0 }; let d := holds c; d.stopped = false ∧ d.cmd 0 = some c ∧ NoAdminWaits d ∧ d.drained 0 = true ∧ c.status = stOk ∧ (d.eng 0).fenceDue = false) ∧
    (∀ e ∈ [none, some 0], let c := { cmdIn .draining with status := 0x49, engine := e }; let d := holds c; d.stopped = false ∧ d.drained 0 = true ∧ c.engine = e ∧ c.status ≠ stOk) ∧
    (let c := { cmdIn .checked {} (ioEntry 0 0 0x2000 256 0) with outLen := 256, stageSize := 4096, target := none }; let d := holds c; d.stopped = false ∧ NoAdminWaits d ∧ eOutMax c.entry ≠ 0 ∧ eOutRsv c.entry = false ∧ 0 < c.outLen ∧ c.outLen ≤ 256 ∧
      d.leafTurn c = true ∧ c.commitBegun = false ∧ d.outputEnd c = .done ∧ (d.allot 12).flr = none ∧ (∀ p ∈ pieces 0x2000 256, gateCheck d 12 12 p.1 p.2 1 true none = .permit) ∧ gateCheck { d with gates := [] } 12 12 0x2000 256 1 true none = .refuse 1 0xFFFF false ∧
      ({ d with gates := [(12, { close := true })] }.gate 12).close = true) ∧
    (let c := { cmdIn .checked with target := some 5 }; (holds c).leafTurn c = true ∧ (holds c).outputEnd c = .done) ∧
    (let c := cmdIn .checked { takesCtx := true } ; eOutMax c.entry = 0 ∧ c.outLen = 0 ∧ eOutRsv c.entry = false ∧ (holds c).leafTurn c = true ∧ (holds c).outputEnd c = .done) ∧
    (let c := { cmdIn .checked {} (ioEntry 0 0 0x10005 64 0x01000000) with outLen := 64 }; let d := withBuf 0 (holds c); eOutRsv c.entry = true ∧ eOutMax c.entry = 64 ∧ (d.bufFor c 0x10005).map (fun x => x.2.sizeLog2) = some 12 ∧ d.outputEnd c = .done ∧
      c.stageBase + c.stageSize ≤ d.partBase 12 ∧ (holds c).bufFor c 0x10005 = none) := by decide

theorem witness_TransfersComplete :
    (let x : SbLine := { line := 1, slot := 0, eng := 0, bytes := [(0, 7), (63, 8)] }; let d := { (runs {}).dev with lats := [(0, { sb := [x] })], gates := [(64, gateOpen)] };
      d.frozen = false ∧ (d.lat 0).sb = [x] ∧ (x.bytes.map (fun b => b.1)).Nodup ∧ gateCheck d (latGate 0) (d.cmdOr 0).allot (lineSpan x).1 (lineSpan x).2 1 false (d.cmdOr 0).window = .permit ∧
      gateCheck { d with gates := [] } (latGate 0) (d.cmdOr 0).allot (lineSpan x).1 (lineSpan x).2 1 false (d.cmdOr 0).window = .refuse 1 0xFFFF false) ∧
    (let d := (runs { rlds := [{ rsv := 0, opm := 0, len := 8 }] }).dev; d.frozen = false ∧ (d.eng 0).arch.rlds = [{ rsv := 0, opm := 0, len := 8 }]) ∧
    (let x : DmaDesc := { opm := 0, len := 256, write := false, unbuf := false, rsv := 256 }; let d := { (runs { lists := [{ ident := 0, descs := [x] }] }).dev with gates := [(64, gateOpen)] };
      d.frozen = false ∧ (d.eng 0).slot = some 0 ∧ x.rsv % 256 + x.len ≤ 256 ∧ d.dmaWaits 0 0 x x.len = false ∧ rsvAccess d (latOf 0) (d.cmdOr 0) 0 [(x.rsv, x.len)] = (.permit, 0, 0)) ∧
    (let x : DmaDesc := { opm := 0, len := 0, write := false, unbuf := false, rsv := 256 }; let d := (runs { lists := [{ ident := 0, descs := [x] }] }).dev; (runDescs 0 0 (descFuel [x]) [x] d).1 matches .done) := by decide

/-! ## Session contexts, the Reservoir, Headgates -/

/-- An admin entry: opcode, 4 parameter bytes, then values of 8, 4 and 4 bytes. -/
def admin2 (op p4 p8 p16 p20 : Nat) : Entry := ent [(2, 1), (2, op), (4, p4), (8, p8), (4, p16), (4, p20), (40, 0)]
def ctxWith (e : Entry) (x : Ctx) (n : Nat := 262143) : State := st { adminOf 12 e with ctxs := [(n, x)] }

theorem witness_ContextCommands :
    (∀ q ∈ [0, 1], let e := admin2 0x20 0 0xAB 86400 0; let s := st { adminOf 12 e with allots := [(12, { quotas with ctxQuota := q, adm := { enable := true, cmds := [(7, e)] } })] };
      AdminTurn s 12 0x20 (wholeBytes 8 19) [] 7 e ∧ (if q = 1 then s.dev.ctxTaken 12 < (s.dev.allot 12).ctxQuota else (s.dev.allot 12).ctxQuota ≤ s.dev.ctxTaken 12)) ∧
    (∀ x ∈ [CtxState.opened, .active], let e := admin2 0x21 262143 0 0 0; let s := ctxWith e { st := x, allot := 12 }; AdminTurn s 12 0x21 ctxParam [] 7 e ∧ s.dev.ctxQuietFor 12 (ctxOf e) 7 = true ∧ (s.dev.ctx (ctxOf e)).st = x ∧
      (s.dev.ctx (ctxOf e)).allot = 12) ∧
    (let e := admin2 0x21 5 0 0 0; let s := ctxWith e {}; AdminTurn s 12 0x21 ctxParam [] 7 e ∧ s.dev.ctxQuietFor 12 (ctxOf e) 7 = true ∧ (s.dev.ctx (ctxOf e)).st = .free) ∧
    (let e := admin2 0x22 262143 0 0 0; let s := ctxWith e { st := .held, allot := 12 }; AdminTurn s 12 0x22 ctxParam [] 7 e ∧ s.dev.ctxQuietFor 12 (ctxOf e) 7 = true ∧ (s.dev.ctx (ctxOf e)).st = .held) ∧
    (∀ x ∈ [CtxState.closed, .active], let e := admin2 0x23 262143 0 0 0; let s := ctxWith e { st := x, allot := 12 }; AdminTurn s 12 0x23 ctxParam [] 7 e ∧ s.dev.ctxQuietFor 12 (ctxOf e) 7 = true ∧ (s.dev.ctx (ctxOf e)).st = x) ∧
    (let e := admin2 0x24 262143 0xCD 0 1; let s := ctxWith e { st := .active, allot := 12 }; AdminTurn s 12 0x24 (ctxParam ++ wholeBytes 8 19 ++ [(20, 3)]) [] 7 e ∧ s.dev.ctxQuietFor 12 (ctxOf e) 7 = true ∧ bytesAt e 20 1 = 1) ∧
    (∀ t ∈ [999_999_999, 1_000_000_000], let e := admin2 0x24 262143 0 1 2; let s := st { adminOf 12 e with ctxs := [(262143, { st := .held, allot := 12 })], time := t };
      AdminTurn s 12 0x24 (ctxParam ++ wholeBytes 8 19 ++ [(20, 3)]) [] 7 e ∧ s.dev.ctxQuietFor 12 (ctxOf e) 7 = true ∧ bytesAt e 20 1 = 2 ∧ bytesAt e 16 4 = 1) ∧
    (let e := admin2 0x25 262143 0x40 1 0; let s := ctxWith e { st := .active, allot := 12 }; AdminTurn s 12 0x25 (ctxParam ++ wholeBytes 8 19) [(8, 64)] 7 e ∧ s.dev.ctxQuietFor 12 (ctxOf e) 7 = true ∧ bytesAt e 16 4 = 1 ∧
      (s.dev.allot 12).flr = none ∧ gateCheck s.dev 12 12 0x40 64 1 true none = .permit) := by decide

/-- The lowest free context of a device that holds none is the first. -/
theorem witness_ContextCommands_alloc : ∃ m, (adminOf 12 (admin2 0x20 0 0xAB 86400 0)).freeCtx = some m := ⟨0, by rfl⟩

theorem witness_HoldsBuffersAndCache :
    (let d : Device := { up with ctxs := [(7, { st := .held, allot := 12, holdExpiry := 5 })], time := 5 }; d.md.mode ≠ .retention ∧ (d.ctx 7).st = .held ∧ (d.ctx 7).holdExpiry ≤ d.time ∧ d.resuming 7 = false ∧ (∀ y ∈ d.cmds, y.2.phase ≠ .line)) ∧
    (let c := cmdIn .line { routine := 0x0C04, takesCtx := true } (ent [(4, 0), (4, 7), (56, 0)]); let d : Device := { up with ctxs := [(7, { st := .held, allot := 12, holdExpiry := 5 })], time := 5, cmds := [(0, c)] };
      (d.ctx 7).st = .held ∧ (d.ctx 7).holdExpiry ≤ d.time ∧ d.resuming 7 = false ∧ d.cmds = [(0, c)] ∧ eCtx c.entry = 7 ∧ c.allot = (d.ctx 7).allot) ∧
    (let d : Device := { up with allots := [(12, { expired := 3, expiredLow := 7 })], time := 200_000_001 }; d.md.mode ≠ .retention ∧ d.lastSweep < d.time / 100_000_000 ∧ d.cmds = [] ∧ d.ctxs = [] ∧ (d.allot 12).expired ≠ 0 ∧ (∀ b < 64, b ≠ 12 → (d.allot b).expired = 0)) ∧
    (let d : Device := { up with ctxs := [(7, { st := .active, allot := 12 })] }; d.frozen = false ∧ (d.ctx 7).st ≠ .free ∧ d.cache.contains 7 = false ∧ d.cache.length < 16384) ∧
    (∀ z ∈ [12, 24], let e := admin2 0x28 z 0 0 0; let s := st (adminOf 12 e); AdminTurn s 12 0x28 (wholeBytes 4 4) [] 7 e ∧ bytesAt e 4 1 = z) ∧
    (∀ p ∈ [Phase.waiting, .ended], let e := admin2 0x29 0 0x10005 0 0; let t : Allot := { quotas with adm := { enable := true, cmds := [(7, e)] }, bufs := [(5, { place := 0, sizeLog2 := 12 })] };
      let s := st { adminOf 12 e with allots := [(12, t)], cmds := [(0, cmdIn p {} (ioEntry 0x10005 64 0 0 0x02000000))], order := 1 };
      AdminTurn s 12 0x29 (wholeBytes 8 15) [] 7 e ∧ (s.dev.allot 12).bufOf (bytesAt e 8 8) = some (5, { place := 0, sizeLog2 := 12 }) ∧ s.dev.bufUsers 12 (bytesAt e 8 8) s.dev.order = decide (p ≠ .ended)) := by decide
/-- The partition of an allotment without buffers has room for one of 2^12 bytes, one of no size for none. -/
theorem witness_HoldsBuffersAndCache_alloc : (∃ b, Tbl.lowestFree ((adminOf 12 (admin2 0x28 12 0 0 0)).allot 12).bufs 0 4096 = some b) ∧ (host quotas).findPlace 12 12 = some 0 ∧
    (host { quotas with rsvPart := 0 }).findPlace 12 24 = none := by
  refine ⟨⟨0, rfl⟩, ?_, ?_⟩ <;> simp [Device.findPlace, host, up, quotas, Device.allot, Tbl.get, firstWhere]

theorem witness_ScrubbingAndRetirement :
    (let d : Device := { up with rsv := { trained := true, opBusy := true, opRetire := true } }; d.rsv.trained = true ∧ d.rsv.selfRefresh = false ∧ d.rsv.opBusy = true ∧ d.rsv.opRetire = true ∧
      ({ d with rsv := { d.rsv with opRetire := false } } : Device).rsv.opRetire = false) ∧
    (let d : Device := { up with rsv := { corrTimes := [(3, [0, 86_399_999_999_999])] }, time := 86_399_999_999_999 }; Tbl.get [] d.rsv.corrTimes (0x3FFF / 4096) = [0, 86_399_999_999_999] ∧
      d.time < 0 + 86_400_000_000_000 ∧ d.rsv.spares ≠ 0 ∧ 3 ∉ d.rsv.retiredPages) ∧
    (let s := st { up with rsv := { retiredPages := [4194303] } }; BarTaken s 0x90018 ∧ (hostAccess 0 s.dev).rsv.opBusy = false ∧ (4194303 : BitVec 22).toNat ∈ (hostAccess 0 s.dev).rsv.retiredPages ∧
      (0 : BitVec 22).toNat ∉ (hostAccess 0 s.dev).rsv.retiredPages ∧ (hostAccess 0 s.dev).rsv.spares ≠ 0) := by decide

theorem witness_HeadgatesCloseAndOpen :
    (∀ l : Bool, let s := st { up with md := { up.md with locked := l } }; BarTaken s 0x80000 ∧ s.dev.isLocked 0x80000 = l ∧ ((hostAccess 0 s.dev).gate 0).close = false) ∧
    (∀ w ∈ [0, 1], let s := st { up with gates := [(83, { close := true, drained := true, written := w })], dselGate := 83 }; BarTaken s (0x80000 + 16 * 83) ∧ BarTaken s 0x81004 ∧ BarTaken s 0x8102C ∧
      s.dev.isLocked (0x80000 + 16 * 83) = false ∧ ((hostAccess 0 s.dev).gate 83).close = true ∧ ((hostAccess 0 s.dev).gate 83).waiting = [] ∧ (s.dev.gate 83).written = w ∧ s.dev.gateQuiet 83 = true ∧
      (hostAccess 0 s.dev).dselRegion < regionCount 83 ∧ (hostAccess 0 s.dev).dselGate = 83 ∧ descValid 83 (BitVec.ofNat 256 (withField (hostAccess 0 s.dev).dstage.toNat 255 224 0)) = true) ∧
    (let s := st { up with gates := [(83, { close := true })], dselGate := 83, dstage := 1 }; BarTaken s 0x8102C ∧ ((hostAccess 0 s.dev).gate 83).drained = false ∧ descValid 83 (BitVec.ofNat 256 (withField (hostAccess 0 s.dev).dstage.toNat 255 224 1)) = false) ∧
    (let d := { up with gates := [(83, { close := true, waiting := [{ who := .input 0, addr := 0, len := 64, kind := 0, arrived := 0 }] })], time := 10 ^ 12 }; (d.gate 83).close = true ∧
      (d.gate 83).waiting = [{ who := .input 0, addr := 0, len := 64, kind := 0, arrived := 0 }] ∧ d.hgLimit ≤ d.time ∧ (d.gate 83).reports < 64) := by decide

theorem witness_FunctionLevelResets :
    (let d := host quotas; d.boot.configReady = true ∧ d.boot.computeReset = false ∧ d.cmds = [] ∧ (d.allot 12).flr = none ∧ d.flt.due = [] ∧ NoAdminWaits d) ∧
    (let d := host { quotas with flr := some { start := 0, viaPf := false, contexts := 0 } }; d.boot.configReady = true ∧ d.boot.computeReset = false ∧ (d.allot 12).flr = some { start := 0, viaPf := false, contexts := 0 }) := by decide

/-! ## Faults, the Levee, the recorder -/

/-- The device with one message on its way to a die. -/
def toCus (m : Msg) (d : Device := up) : Device := { d with fl := { d.fl with toCustody := [{ seq := 0, msg := m }] } }
def toCmp (m : Msg) (d : Device := up) : Device := { d with fl := { d.fl with toCompute := [{ seq := 0, msg := m }] } }

/-- A proxied write of v to word o of function fn, or a read, comes next at the custody die. -/
def writeComes (o fn v : Nat) (d : Device := up) : Device := toCus (.regWrite o fn v 1) { d with fl := { d.fl with proxies := [{ ident := 1, fn := fn, offset := o, write := true, since := 0 }] } }

def readComes (o fn : Nat) (d : Device := up) : Device := toCus (.regRead o fn 1) d

theorem witness_FaultsAreClassified :
    (up.boot.custodyReset = false ∧ up.boot.computeReset = false ∧ up.flt.injPending = false ∧ up.flt.fatal = none ∧ custodySees 183 = true ∧ faultClass 183 = 0 ∧ bitOf up.flt.cPend (faultGroup 183) = false ∧
      custodySees 189 = true ∧ faultClass 189 = 2 ∧ up.flumeRuns = true ∧ up.fl.toCustody = [] ∧ computeSees 2 = true ∧ faultClass 2 = 0 ∧ 2 ∉ [0x00, 0x2C, 0x2D, 0x2E, 0x30, 0x32, 0x33, 0x34, 0x36]) ∧
    (let d := { up with flt := { uPend := 2 ^ faultGroup 118, thermWarn := true } }; custodySees 118 = true ∧ d.flt.fatal = none ∧ faultClass 118 = 1 ∧ bitOf d.flt.uPend (faultGroup 118) = true) ∧
    (let d := { up with flt := { units := [(4 * 256 + 1, { testing := true })] } }; custodySees 117 = true ∧ unitClassOf 117 = some 4 ∧ (d.unit 4 1).testing = true) ∧
    (let d := (runs {}).dev; unitClassOf 2 = some 0 ∧ (∃ x ∈ List.range 190, computeSees x = true ∧ faultClass x = 1 ∧ unitClassOf x = some 0) ∧ (∃ x ∈ List.range 190, computeSees x = true ∧ faultClass x = 2) ∧ (d.unit 0 0).testing = false ∧ (d.unit 0 0).fenced = false ∧
      (d.eng 0).st.inService = true) ∧
    CustodyGets (st (toCus (.faultReport { source := 2 }))) (.faultReport { source := 2 }) := by decide

theorem witness_FaultActions :
    (ComputeGets (st (toCmp (.faultAction (.fence 0 3 9)))) (.faultAction (.fence 0 3 9))) ∧
    (let d := toCmp (.faultAction (.replay 0 9)) { up with cmds := [(0, { cmd0 with engine := none, started := true, replays := 2 })] }; ComputeGets (st d) (.faultAction (.replay 0 9)) ∧ (d.cmdOr 0).phase = .running ∧
      (d.cmdOr 0).started = true ∧ (d.cmdOr 0).replayFor ≠ some 9 ∧ (d.cmdOr 0).contained < 3 ∧ (d.cmdOr 0).replays < 3 ∧ (d.cmdOr 0).leafTaken = false ∧ (d.cmdOr 0).target = none) ∧
    (let d := toCmp (.faultAction .lowFlow) { up with flt := { thermWarn := true } }; ComputeGets (st d) (.faultAction .lowFlow) ∧ d.md.mode = .service ∧ d.lowFlowCond = true) ∧
    (∀ b : Bool, let f : FatalRec := { source := 0, seq := 9, since := 0, drain := b }; let d := toCmp (.faultAction (.stop 9)) { up with flt := { fatal := some f } }; ComputeGets (st d) (.faultAction (.stop 9)) ∧
      d.flt.fatal = some f ∧ f.stage = 0 ∧ d.cmds = []) ∧
    (∀ g ∈ [1, 2], let f : FatalRec := { source := 0, seq := 9, since := 0, drain := true, stage := g }; let d : Device := { up with flt := { fatal := some f }, time := 2_000_000, regs := [(0x000C_0808, 0x0201)] }; d.flt.fatal = some f ∧ d.cmds = [] ∧
      f.double = false ∧ d.autoReset = true ∧ f.dwellFrom + d.fatalDwell * 1_000_000 ≤ d.time) ∧
    (let d := { up with time := 100_000 }; d.fl.trained = true ∧ d.fl.lastBeat + 100_000 ≤ d.time ∧ d.healthy = true) ∧
    (let d := { up with time := 1_000_000_000, md := { mode := .lowFlow } }; d.lowFlowCond = false ∧ d.flt.lowFlowOrdered = false ∧ d.flt.clearSince + 1_000_000_000 ≤ d.time) := by decide

theorem witness_FaultRegisters :
    ((∀ o ∈ [0x000C_0800, 0x000C_0804, 0x000C_083C], BarReached (st up) o) ∧ (∀ o ∈ [0x000C_0800, 0x000C_0804], WriteArrives (st (writeComes o 0 5)) o 0 5 1) ∧ ReadArrives (st (readComes 0x000C_083C 0)) 0x000C_083C 0 1 ∧
      BarTaken (st up) 0x000C_0010 ∧ (hostAccess 0 up).flt.injPending = false ∧ faultMarked 2 = false ∧ faultClass 2 < 2) ∧
    (let d : Device := { up with flt := { acks := [(23, 5)], cPend := 2 ^ 23 }, time := 5 }; d.flt.acks = [(23, 5)] ∧ 5 ≤ d.time) ∧
    (let e := admin2 0x73 0 0x40 0 0; let s := st (adminOf 0 e); AdminTurn s 0 0x73 (wholeBytes 8 15) [(8, 64)] 7 e ∧ (s.dev.allot 0).flr = none ∧ (∀ p ∈ pieces (bytesAt e 8 8) 1024, gateCheck s.dev 0 0 p.1 p.2 1 true none = .permit)) := by decide

theorem witness_UnitOperations :
    (∀ u ∈ [({} : UnitRec), { fenced := true, passed := true }], let s := st { up with flt := { unitCls := 1, unitIdx := 31, units := [(256 + 31, u)] } }; let h := hostAccess 0 s.dev; BarTaken s 0x000C_0024 ∧ h.unitRefusal 1 1 31 = 0 ∧ h.unitRefusal 2 1 31 = 0 ∧
      h.unitRefusal 3 1 31 = (if u.fenced then 0 else 4)) ∧
    (let s := st { up with flt := { unitCls := 6 } }; BarTaken s 0x000C_0024 ∧ ∀ op ∈ [1, 2, 3], (hostAccess 0 s.dev).unitRefusal op 6 0 ≠ 0) ∧
    (∀ op ∈ [0x70, 0x71, 0x72], ∀ u ∈ [({} : UnitRec), { fenced := true, passed := true }], let e := ent [(2, 1), (2, op), (1, 1), (1, 0), (2, 31), (56, 0)]; let s := st { adminOf 0 e with flt := { units := [(256 + 31, u)] } };
      AdminTurn s 0 op [(4, 7), (6, 255), (7, 255)] [] 7 e ∧ field (bytesAt e 4 1) 2 0 = 1 ∧ bytesAt e 6 2 = 31 ∧ s.dev.unitRefusal 1 1 31 = 0 ∧ s.dev.unitRefusal 2 1 31 = 0 ∧ (u.fenced = true → s.dev.unitRefusal 3 1 31 = 0)) ∧
    (∀ op ∈ [1, 2, 3], let e := ent [(2, 1), (2, 0x6F + op), (1, 6), (1, 0), (2, 0), (56, 0)]; let s := st (adminOf 0 e); AdminTurn s 0 (0x6F + op) [(4, 7), (6, 255), (7, 255)] [] 7 e ∧ s.dev.unitRefusal op 6 0 ≠ 0) ∧
    (let d : Device := { up with flt := { units := [(256 + 31, { testing := true, ownerTest := true, fenced := true })] } }; (d.unit 1 31).testing = true ∧ (d.unit 1 31).ownerTest = true) ∧
    (∀ g ∈ [EngState.spare, .fenced], ∀ x ∈ [({} : Engine), { fenceDue := true }, { fenceDue := true, st := .running }, { st := .fenced }], let d : Device := { up with lats := [(15, { spareFor := [(143, 135)] })], engs := [(143, { st := g }), (135, x)] };
      (d.lat 15).spareFor = (143, 135) :: [] ∧ (d.eng 143).st = g ∧ (d.eng 135).fenceDue = x.fenceDue ∧ (d.eng 135).st = x.st ∧ (g = .spare → (exposed d.part ≤ d.latInService 15 ↔ x.st ≠ .fenced))) := by decide

/-- Words of a Levee source. -/
def levWith (src cfg : Nat) (l : Levee := {}) : Device := { up with regs := [(0x0011_0014, 0xF), (0x0011_0100 + 8 * src, cfg), (0x0011_0104 + 8 * src, 1)], lev := l }

theorem witness_LeveeResponds :
    (∀ k ∈ [1, 2], let d := levWith 0 (k * 2 ^ 16); d.levRuns 0 = true ∧ (d.levSrc 0).fired = false ∧ (d.levSrc 0).events = [] ∧ d.lev.onBattery = false ∧ cfgK (d.levCfg 0) = k ∧ d.lev.firings = []) ∧
    (let d := levWith 0 0 { firings := [{ source := 3, set := 5, events := 1 }] }; d.time < d.lev.interval + 1000) ∧ (up.levRuns 0 = false) ∧
    (∀ r ∈ [0x05, 0x07, 0x11, 0x21], let f : Firing := { source := 0, set := r, events := 1 }; let d := levWith 0 0 { firings := [f] }; let d := { d with time := 1000 }; d.lev.firings = [f] ∧ d.lev.interval + 1000 ≤ d.time ∧ d.lev.union = 0 ∧ d.lev.zeroizing = false ∧
      d.md.mode ≠ .debug) ∧
    (let d := levWith 0 0 { zeroizing := true }; d.lev.zeroizing = true ∧ d.fl.clearing = false ∧ d.lev.resetDue = false ∧ d.flt.fatal = none ∧ d.lev.zeroizeAll = false) ∧
    (∀ o ∈ [0x0011_0004, 0x0011_0008, 0x0011_000C, 0x0011_0010], BarReached (st up) o) ∧
    (let s := st (writeComes 0x0011_0004 0 1 (levWith 0 4 { src := [(0, { fired := true })] })); WriteArrives s 0x0011_0004 0 1 1 ∧ (tookCustody s.dev).releaseBlocked = true) ∧
    (∀ u ∈ [4, 0x0C], let s := st (writeComes 0x0011_0004 0 1 (levWith 0 0 { union := u })); WriteArrives s 0x0011_0004 0 1 1 ∧ (tookCustody s.dev).releaseBlocked = false ∧ (tookCustody s.dev).lev.union = u ∧ (tookCustody s.dev).flt.fatal = none) ∧
    (∀ o ∈ [0x0011_0008, 0x0011_000C, 0x0011_0010], ∀ b : Bool, let s := st (writeComes o 0 (2 ^ 17) (levWith 17 0 { src := [(17, { fired := b, testSeen := true })] })); WriteArrives s o 0 (2 ^ 17) 1 ∧ Tbl.wf {} s.dev.lev.src = true ∧ s.dev.md.mode ≠ .bringup ∧
      (s.dev.levSrc 17).fired = b ∧ (s.dev.levSrc 17).events = [] ∧ s.dev.lev.onBattery = false ∧ s.dev.boot.custodyReset = false) ∧
    (let d := levWith 0 0 { svcOpenUntil := some 0 }; d.lev.svcOpenUntil = some 0 ∧ 0 ≤ d.time) ∧
    (let b := 7; let cfg := [0, 0, 0, 0, 0, 0, 0, 0x10100, 0, 0, 0, 0, 0, 0, 0, 1, 0]; let d := levWith 7 0 { onBattery := true, battCfg := cfg, src := [(7, { events := [(0, false)] })] }; (d.levSrc b).fired = false ∧ (d.levSrc b).events ≠ [] ∧
      (∀ z ∈ (d.levSrc b).events, d.inWindow (d.filterOf b).2 z.1 = true) ∧ cfgK (d.filterOf b).1 ≤ (d.levSrc b).events.length ∧ d.lev.alarms.length < 16 ∧ bitOf (d.filterOf b).1 8 = true) := by decide

theorem witness_TheEventRecorder :
    (∀ n ∈ [47, 48], let s := st (toCus (.evrAppend 5) { up with evr := { queued := n } }); CustodyGets s (.evrAppend 5) ∧ s.dev.queuedRecords = n ∧ s.dev.evr.ring.length < 8192) ∧
    (let q : Recorder := { oldest := 0xFFFF_FFFF, next := 1, ring := [1, 2], win := { valid := true, cursor := 0xFFFF_FFFF } }; q.win.area = false ∧ q.oldest < 2 ^ 32 ∧ q.ring.length ≤ 8192 ∧ ((0 : BitVec 32).toNat + 2 ^ 32 - q.oldest) % 2 ^ 32 < q.ring.length ∧ q.win.valid = true ∧
      q.win.atEnd = false ∧ WriteArrives (st (writeComes 0x0012_0004 0 0 { up with evr := q })) 0x0012_0004 0 0 1 ∧ ReadArrives (st (readComes 0x0012_002C 0 { up with evr := q })) 0x0012_002C 0 1) ∧
    (∀ o ∈ [0x0012_0004, 0x0012_002C, 0x0012_0038], BarReached (st up) o) ∧ ((host quotas).barLive = true ∧ (host quotas).asleep = false ∧ ((host quotas).allot 12).flr = none) ∧
    (WriteArrives (st (writeComes (2 ^ 32 + 0x4004) 12 5 (host quotas))) (2 ^ 32 + 0x4004) 12 5 1 ∧ ReadArrives (st (readComes (2 ^ 32 + 0x402C) 12 (host quotas))) (2 ^ 32 + 0x402C) 12 1) ∧
    (∀ v ∈ [0xC1EA, 0xC1EB], ∀ m ∈ [Mode.service, .quarantine], let s := st (writeComes 0x0012_0038 0 (v + 2 ^ 16) { up with md := { mode := m } }); WriteArrives s 0x0012_0038 0 (v + 2 ^ 16) 1 ∧ s.dev.md.mode = m) ∧
    (let d := { up with evr := { next := 1, ring := [BitVec.ofNat 256 (12 * 2 ^ 24)] } }; (cursorWrite d (seenBy (12)) 0 {}).valid = true ∧
      (windowAdvance d (seenBy (12)) { valid := true, cursor := 0xFFFF_FFFF }).valid = true) ∧
    (let d := { up with time := 1_000_000_000 }; d.second < d.time / 1_000_000_000) ∧ up.time / 1_000_000_000 ≤ up.second := by decide

/-! ## The Flume and the Wellhead -/

/-- A device whose Cistern slot 0x42 holds a key of allotment 12, in a state. -/
def keyed (n : Nat) : Device := { up with cis := { kerOk := true, slots := [(0x42, { attr := { st := n, usage := 1, allot := 12, exportable := true }, shareA := [7], shareB := [0] })] } }
def reqOf (u : Nat) : KeyReq := { handle := 0x30000042, allot := 12, usage := u, order := 1 }

theorem witness_KeysOverTheFlume :
    (∀ op ∈ [0, 1, 2, 3, 4], let d := toCus (.keyRequest op (reqOf 1)) (keyed 3); d.cis.waiting = [] ∧ CustodyGets (st d) (.keyRequest op (reqOf 1))) ∧
    (∀ op ∈ [0, 1], (∃ a ∈ [((keyed 3).slot 0x42).attr], (keyed 3).keyCheck op (reqOf 1) = .pass a ∧ a.stateful = false) ∧ handleStore (reqOf 1).handle = false ∧ (reqOf 1).stateful = false ∧ (reqOf 1).reads = false) ∧
    (keyed 1).keyCheck 0 (reqOf 1) = .refuse stKeyAbsent 1 ∧
    (∀ u : Bool, let d := { keyed 1 with whd := { main := { inService := u } } }; (∃ a ∈ [(d.slot 0x42).attr], d.keyCheck 2 (reqOf 1) = .pass a) ∧ d.entropyAvailable = u) ∧
    (let r := { reqOf 1 with allot := 13 }; handleAllot r.handle ≠ r.allot ∧ handleAllot r.handle ≠ 0 ∧ (keyed 3).md.mode ≠ .quarantine) ∧
    (∀ l : Bool, let d := (runs { keys := [keyReq 0 .waiting] }).dev; let m : Msg := .keyDeliver 0 0 0 l 2 none 0 [1] {}; let s := st (toCmp m d); ComputeGets s m ∧ (tookCompute s.dev).keyHolder 0 0 = some (0, keyReq 0 .waiting) ∧
      ((tookCompute s.dev).archOf 0).isSome = true ∧ (keyReq 0 .waiting).dest + 1 ≤ ctxWindow) ∧
    (let m : Msg := .keyDeliver 0 4 0 true 2 none 0 [1] {}; ComputeGets (st (toCmp m)) m) ∧
    (∀ g ∈ [[], [(3, 5, 0)]], let m : Msg := .keyDeliver 0 3 0 true 2 none 0 [1] {}; let s := st (toCmp m { up with engs := [(0, { gone := g })] }); ComputeGets s m ∧ (tookCompute s.dev).keyHolder 0 3 = none ∧ (s.dev.eng 0).gone = g) ∧
    (let d := toCmp (.keyRefuse 0 0 1 2) (runs { keys := [keyReq 0 .waiting] }).dev; ComputeGets (st d) (.keyRefuse 0 0 1 2) ∧ (tookCompute d).keyHolder 0 0 = some (0, keyReq 0 .waiting)) ∧
    (let d := toCmp (.keyRefuse 0 3 1 2); ComputeGets (st d) (.keyRefuse 0 3 1 2) ∧ (tookCompute d).keyHolder 0 3 = none) ∧
    (let c := { cmdIn .checked with commitBegun := true }; let d := toCmp (.keyRefuse 0 4 1 2) (holds c); ComputeGets (st d) (.keyRefuse 0 4 1 2) ∧ d.cmd (4 - 4) = some c) ∧
    ComputeGets (st (toCmp (.keyRevoke 5 1) { up with engs := [(0, { leases := [{ handle := 5, allot := 0 }] })] })) (.keyRevoke 5 1) ∧
    (∀ w ∈ [AdmWait.revoke 1, .none], let x : RevokeRec := { ident := 1, handle := 5, allot := 12 }; let d := host { quotas with adm := { enable := true, waits := w } }; let s := st (toCus (.keyRevokeAck 1) { d with fl := { d.fl with revokes := [x] } });
      CustodyGets s (.keyRevokeAck 1) ∧ s.dev.fl.revokes = [x] ∧ x.ident = 1 ∧ (s.dev.adm 12).waits = w) ∧
    (CustodyGets (st (toCus (.keyRevokeAck 1))) (.keyRevokeAck 1) ∧ up.fl.revokes = []) ∧
    (∀ c ∈ [0, 1, 2], ComputeGets (st (toCmp (.unitKeyLoad 63 c [5]))) (.unitKeyLoad 63 c [5])) ∧ CustodyGets (st (toCus (.entropyRequest 143 0 64 false))) (.entropyRequest 143 0 64 false) ∧
    (∀ c ∈ [1, 3], let s := st (toCmp (.entropyDeliver 0 c [7]) (runs { entAsked := some (c, 1) }).dev); ComputeGets s (.entropyDeliver 0 c [7]) ∧ (s.dev.eng 0).arch.entAsked = some (c, [7].length)) ∧
    ComputeGets (st (toCmp (.entropyDeliver 144 2 [7]))) (.entropyDeliver 144 2 [7]) ∧
    (∀ b : Bool, let s := st (toCmp (.entropyDeliver 0 0 [7]) { up with engs := [(0, { mg := { reqPending := b } })] }); ComputeGets s (.entropyDeliver 0 0 [7]) ∧ (s.dev.eng 0).mg.reqPending = b) := by decide

/-- The gate of the stewards with one region of the whole Reservoir, and one of host memory. -/
def stewGate : Gate := { regions := [(0, BitVec.ofNat 256 (pack [(8, 0), (1, 34), (1, 0), (1, 3), (1, 0), (1, 1)])), (1, BitVec.ofNat 256 (pack [(8, 0), (1, 40), (1, 0), (1, 11), (1, 0), (1, 1)]))] }
theorem witness_StewardAccesses :
    (∀ kind ∈ [0, 1], let d := { up with gates := [(0, gateOf 0), (83, stewGate)] }; gateCheck d 83 0 0x100 256 kind false none = .permit ∧ gateCheck d 83 0 0x100 256 kind true none = .permit ∧ gateCheck d 0 0 0x100 256 kind true none = .permit ∧
      gateCheck { d with gates := [(83, stewGate)] } 0 0 0x100 256 kind true none = .refuse 1 0xFFFF false ∧ (∀ h : Bool, gateCheck { d with gates := [] } 83 0 0x100 1 kind h none = .refuse 1 0xFFFF false) ∧
      ({ d with gates := [(83, { close := true })] }.gate 83).close = true) := by decide

theorem witness_TheFlumeLink :
    (∀ b : Bool, let d := { up with fl := { training := b } }; d.inTraining = true ∧ d.fl.training = b) ∧ (up.inTraining = false ∧ up.boot.custodyReset = false ∧ up.boot.computeReset = false) ∧
    (up.flumeRuns = true ∧ (∀ u ∈ [0, 1], (up.sublink u).up = true) ∧ up.fl.toCompute = [] ∧ nextMsg (toCmp (.keyRevoke 5 1)).fl.toCompute ≠ some (.stwRead 0 0 1 false 5)) ∧
    (∀ m ∈ [Msg.stwRead 0 0 1 false 5, .stwWrite 0 0 true 5 [7]], nextMsg (toCmp m).fl.toCompute = some m ∧ (toCmp m).flumeRuns = true) ∧
    (let f : Flight := { seq := 0, msg := .keyRevokeAck 1 }; f.arrived = false ∧ f.sent + 200 ≤ 200 ∧ ({ f with lost := true } : Flight).lost = true ∧ f.sub = 0 ∧ f.lost = false) ∧
    (∀ l ∈ [[], [0, 999_999]], let d := { up with time := 999_999, fl := { up.fl with sub1 := { up := true, tagFails := l } } }; (d.sublink 1).up = true ∧ (((d.sublink 1).tagFails.filter (fun t => decide (d.time < t + 1_000_000)) ++ [d.time]).length < 3 ↔ l = [])) ∧
    CustodyGets (st (toCus (.heartbeat 5 1 2))) (.heartbeat 5 1 2) ∧ ComputeGets (st (toCmp (.heartbeat 5 1 2))) (.heartbeat 5 1 2) ∧
    (let s := st (toCus (.stwReply 1 true [])); CustodyGets s (.stwReply 1 true []) ∧ s.dev.cis.staged = [] ∧ s.dev.ws.migs = []) ∧
    (let x : StagedRead := { req := { handle := 5, slot := 3 }, at_ := 0, need := 1 }; let s := st (toCus (.stwReply (stagedIdent 3) true [7]) { up with cis := { staged := [x] } }); CustodyGets s (.stwReply (stagedIdent 3) true [7]) ∧
      firstWhere (fun x => decide (stagedIdent x.req.slot = stagedIdent 3)) s.dev.cis.staged = some x) ∧
    (let m : Migration := { request := 1, source := true, ctx := 7, member := 9, allot := 12, began := 0, rid := 4, reads := 1 }; let s := st (toCus (.stwReply 4 true [7]) { up with ws := { migs := [m] } }); CustodyGets s (.stwReply 4 true [7]) ∧ s.dev.ws.migs = m :: [] ∧ m.source = true ∧
      m.reads ≠ 0 ∧ m.rid = 4) ∧
    (let d := { up with time := 8000 }; d.fl.trained = true ∧ (d.sublink 1).up = true ∧ (d.sublink 1).lastRx + 8000 ≤ d.time ∧ (d.sublink 1).lastRxCompute + 8000 ≤ d.time) ∧
    (∀ n ∈ [1, 2], let d := { up with fl := { sub1 := { fenced := true, retraining := true, retrainFails := n } } }; (d.sublink 1).fenced = true ∧ (d.sublink 1).retraining = true ∧ (d.sublink 1).retrainFails = n) ∧
    (let d := { up with fl := { trained := true, downSince := some 0 }, time := 100_000 }; d.fl.downSince = some 0 ∧ d.fl.trained = true ∧ d.fl.sub0.up = false ∧ d.fl.sub1.up = false ∧ 0 + 100_000 ≤ d.time ∧ d.flt.fatal = none) ∧
    ({ up with fl := { up.fl with clearing := true } } : Device).fl.clearing = true ∧ up.boot.computeReset = false ∧ up.fl.fallback = false ∧ up.boot.custodyReset = false := by decide

theorem witness_SourcesAndPool :
    (let d := { up with whd := { main := { inService := true } } }; d.sourceUp = true ∧ d.boot.custodyReset = false ∧ d.captured = false) ∧ (up.sourceUp = false ∧ ({ up with boot := { up.boot with custodyReset := true } } : Device).boot.custodyReset = true) ∧
    (∀ x ∈ [({ inService := true } : Source), { testing := some 0 }, {}, { inService := true, failTimes := [0, 999_999_999] }], let d : Device := { up with whd := { main := x }, time := 999_999_999 }; d.boot.custodyReset = false ∧ d.source false = x ∧
      ((x.failTimes.filter (fun t => decide (d.time < t + 1_000_000_000)) ++ [d.time]).length < 3 ↔ x.failTimes = [])) ∧
    (∀ b : Bool, let d : Device := { up with whd := { fb := { testing := some 0, testBad := b }, main := { inService := b } } }; (d.source true).testing ≠ none ∧ ((true && !(d.source true).testBad) = true ∨ ((d.source (!true)).inService = true ∧ (d.source (!true)).testing = none))) ∧
    ((up.source false).testing = none ∧ up.cmds = []) ∧
    (∀ b : Bool, let e := ent [(2, 1), (2, 0x0E01), (60, 0)]; let c := { cmdIn (if b then .running else .waiting) { needsRandom := true } e with entropySince := some 0, started := b, engine := if b then some 0 else none };
      let d : Device := { up with cmds := [(4095, c)], engs := if b then [(0, { st := .running, slot := some 4095, arch := { entWait := some 0 } })] else [], whd := { outage := some 0 }, regs := [(0x0013_0004, 1)], time := 1_000_000 };
      d.entropyOver 4095 = true ∧ d.whd.outageTest = false ∧ (d.entropyWaitFrom 4095).isSome = true ∧ (d.cmdOr 4095).started = b) ∧
    (up.entropyOver 4095 = false) := by decide

theorem witness_WellheadRegisters :
    (∀ o ∈ [0x0013_0010, 0x0013_0014, 0x0013_0050, 0x0013_0058], BarReached (st up) o) ∧
    (∀ m ∈ [Mode.service, .maintenance], ∀ v ∈ [0, 1, 2], let s := st (writeComes 0x0013_0010 0 v { up with md := { mode := m } }); WriteArrives s 0x0013_0010 0 v 1 ∧ s.dev.md.mode = m ∧ ((tookCustody s.dev).source true).testing = none ∧ (v = 1 ↔ bitOf v 0 = true) ∧ (v = 2 ↔ bitOf v 1 = true)) ∧
    (∀ v ∈ [0, 64, 128], ∀ o ∈ [0x0013_0014, 0x0013_0050], ∀ b : Bool, let s := st (writeComes o 0 v { up with md := { mode := .maintenance }, whd := { rawBusy := b } }); WriteArrives s o 0 v 1 ∧ (tookCustody s.dev).whd.rawBusy = b ∧ (v = 64 ↔ bitOf v 6 = true) ∧ (v = 128 ↔ bitOf v 7 = true)) ∧
    (({ up with whd := { fb := { testing := some 0 } } } : Device).source true).testing ≠ none ∧ ReadArrives (st (readComes 0x0013_0058 0)) 0x0013_0058 0 1 := by decide

/-! ## Keys, the Sealed Store, programs -/

/-- KEY_ALLOC of a key of family 1, ML-KEM, PARAM_SET 1, USAGE 9, for allotment 12, in slot 4095, with flags f. -/
def allocEntry (p4 f allot : Nat) : Entry := ent [(2, 1), (2, 0x30), (1, p4), (3, 0), (4, 4095), (1, 9), (1, f), (1, allot), (1, 0), (1, 1), (1, 0), (1, 1), (1, 0), (4, 0), (40, 0)]
def inMode (m : Mode) (d : Device) : Device := { d with md := { d.md with mode := m } }
/-- The device of `keyed` with an admin command of allotment 12. -/
def keyAdmin (n : Nat) (e : Entry) : Device := { adminOf 12 e with cis := (keyed n).cis }

/-- An attached Sealed Store of 65,536 blocks, with the object 0x32000005 of allotment 12. -/
def storeHandle : Nat := 0x32000005

def sealedOf (attached : Bool) : Sealed := { attached := attached, rootOk := true, blocks := 65536, dataBlocks := dataBlocksOf 65536, nslots := 16, objs := [(12 * 2 ^ 25 + 5, { attr := { st := 3, usage := 1, allot := 12, maskOrder := 1 } })], dirs := [((12 * 2 ^ 25 + 5) / 256, 0)] }

/-- The same with slot 0x42 changed. -/
def slotAdmin (e : Entry) (f : CisSlot → CisSlot) (entropy : Bool := false) : Device := { (keyAdmin 3 e).updSlot 0x42 f with whd := { main := { inService := entropy } } }

theorem witness_KeyCommands :
    (let e := allocEntry 0 0x20 12; let s := st (inMode .debug (adminOf 12 e)); AdminTurn s 12 0x30 ((4, 1) :: wholeBytes 8 23) [] 7 e ∧ (allocAttr e).persistent = true) ∧
    (let e := allocEntry 0 0 13; let s := st (adminOf 12 e); AdminTurn s 12 0x30 ((4, 1) :: wholeBytes 8 23) [] 7 e ∧ s.dev.md.mode ≠ .debug ∧ (allocAttr e).allot ≠ 12 ∧ s.dev.allocRefusal 12 e ≠ 0) ∧
    (∀ f ∈ [0, 0x20], ∀ b : Bool, let e := allocEntry 0 f 12; let s := st { adminOf 12 e with whd := { main := { inService := b } } }; AdminTurn s 12 0x30 ((4, 1) :: wholeBytes 8 23) [] 7 e ∧ s.dev.allocRefusal 12 e = 0 ∧
      bitOf (bytesAt e 4 1) 0 = false ∧ (allocAttr e).stateful = false ∧ (allocAttr e).persistent = decide (f = 0x20) ∧ s.dev.entropyAvailable = b ∧ bytesAt e 8 4 = 4095) ∧
    (let e := allocEntry 1 0x20 12; let s := st { adminOf 12 e with ss := sealedOf true }; AdminTurn s 12 0x30 ((4, 1) :: wholeBytes 8 23) [] 7 e ∧ s.dev.allocRefusal 12 e = 0 ∧ bitOf (bytesAt e 4 1) 0 = true ∧ s.dev.ss.change = none ∧ bytesAt e 8 4 = 4095) ∧
    (∀ x ∈ [(0x31, wholeBytes 4 7), (0x32, wholeBytes 4 15), (0x33, wholeBytes 4 7 ++ [(8, 3), (9, 255)])], let e := admin2 x.1 0x30000042 0 0 0; AdminTurn (st (adminOf 12 e)) 12 x.1 x.2 (if x.1 = 0x32 then [(8, 64)] else []) 7 e ∧ (adminOf 12 e).keyAttr (bytesAt e 4 4) = none ∧
      (∃ k ∈ [(((keyed 3).slot 0x42).attr)], (keyAdmin 3 e).keyAttr (bytesAt e 4 4) = some k ∧ k.allot = 12 ∧ k.persistent = false ∧ k.stateful = false) ∧
      AdminTurn (st (inMode .debug (slotAdmin e (fun y => { y with attr := { y.attr with persistent := true } })))) 12 x.1 x.2 (if x.1 = 0x32 then [(8, 64)] else []) 7 e ∧
      (slotAdmin e (fun y => { y with unreadable := true })).keyAttr (bytesAt e 4 4) = some ((keyed 3).slot 0x42).attr ∧ ((slotAdmin e (fun y => { y with unreadable := true })).slot 0x42).unreadable = true) ∧
    (let e := admin2 0x31 0x30000042 0 0 0; let s := st { adminOf 13 e with cis := (keyed 3).cis }; AdminTurn s 13 0x31 (wholeBytes 4 7) [] 7 e ∧ (∃ k ∈ [(s.dev.slot 0x42).attr], s.dev.keyAttr (bytesAt e 4 4) = some k ∧ k.allot ≠ 13)) ∧
    (∀ n ∈ [2, 3], let e := admin2 0x31 0x30000042 0 0 0; let s := st (keyAdmin n e); AdminTurn s 12 0x31 (wholeBytes 4 7) [] 7 e ∧ s.dev.keyAttr (bytesAt e 4 4) = some (s.dev.slot 0x42).attr ∧ (s.dev.slot 0x42).attr.allot = 12 ∧ s.dev.md.mode ≠ .debug ∧
      handleStore (bytesAt e 4 4) = false ∧ (s.dev.slot 0x42).attr.stateful = false ∧ (s.dev.slot 0x42).attr.st = n) ∧
    (∀ x ∈ [(0x31, wholeBytes 4 7), (0x33, wholeBytes 4 7 ++ [(8, 3), (9, 255)])], ∀ b : Bool, let e := admin2 x.1 storeHandle 0 0 0; let s := st { adminOf 12 e with ss := sealedOf b }; AdminTurn s 12 x.1 x.2 [] 7 e ∧ handleStore (bytesAt e 4 4) = true ∧ s.dev.ss.attached = b ∧
      (∃ k ∈ (Tbl.find s.dev.ss.objs (objKey storeHandle)).toList, s.dev.keyAttr (bytesAt e 4 4) = some k.attr ∧ k.attr.allot = 12 ∧ k.attr.st ≠ 2)) ∧
    (let e := admin2 0x31 storeHandle 0 0 0; let d := { adminOf 12 e with ss := sealedOf true }; d.ss.change = none ∧ (ssBegin [] [objKey storeHandle] [] (.revoke 12 storeHandle true) (admWait 12 .exchange d)).isSome = true) ∧
    (let e := admin2 0x32 0x30000042 0x40 0 0; let s := st (keyAdmin 3 e); AdminTurn s 12 0x32 (wholeBytes 4 15) [(8, 64)] 7 e ∧ s.dev.keyAttr (bytesAt e 4 4) = some (s.dev.slot 0x42).attr ∧ (s.dev.slot 0x42).unreadable = false ∧
      (s.dev.allot 12).flr = none ∧ gateCheck s.dev 12 12 0x40 64 1 true none = .permit) ∧
    (∀ m ∈ [3, 4, 0xFF], ∀ b : Bool, let e := admin2 0x33 0x30000042 (3 + 256 * m) 0 0; let s := st (slotAdmin e id b); AdminTurn s 12 0x33 (wholeBytes 4 7 ++ [(8, 3), (9, 255)]) [] 7 e ∧ s.dev.keyAttr (bytesAt e 4 4) = some (s.dev.slot 0x42).attr ∧
      bytesAt e 9 1 = m ∧ (s.dev.slot 0x42).attr.maskOrder ≤ m ∧ (s.dev.slot 0x42).attr.persistent = false ∧ (s.dev.slot 0x42).attr.st = 3 ∧ s.dev.entropyAvailable = b) ∧
    (∀ g ∈ [0xFFFF_FFFE, 0xFFFF_FFFF], let e := admin2 0x33 0x30000042 0xFF00 0 0; let s := st (slotAdmin e (fun y => { y with gen := g, attr := { y.attr with persistent := true } })); AdminTurn s 12 0x33 (wholeBytes 4 7 ++ [(8, 3), (9, 255)]) [] 7 e ∧
      s.dev.keyAttr (bytesAt e 4 4) = some (s.dev.slot 0x42).attr ∧ (s.dev.slot 0x42).attr.persistent = true ∧ (s.dev.slot 0x42).gen = g) := by decide

/-- Allotment 0 with an admin command, its gate and that of the Sealed Store open, the store attached, and one exchange slot in use. -/
def storeOf (e : Entry) (x : Option XSlot) : Device :=
  let ss : Sealed := { attached := true, nslots := 16, xslots := (match x with
    | some x => [(15, x)]
    | none => []) };
  { adminOf 0 e with ss := ss, gates := [(0, gateOf 0), (83, stewGate)] }

/-- A fresh object finds its place in an attached store without objects, and a directory block is started for it. -/
theorem witness_KeyCommands_place : let d : Device := { adminOf 12 (allocEntry 1 0x20 12) with ss := { sealedOf true with objs := [], dirs := [] } }; let o := emptyObj (allocAttr (allocEntry 1 0x20 12)) false;
    (ssBegin [(12 * 2 ^ 25 + 4095, o)] [] [] (.admin 12 0) (admWait 12 .exchange d)).isSome = true := by
  intro d o
  have h1 : (admWait 12 .exchange d).ssPlace [] 1 1 = some 0 := by
    simp [Device.ssPlace, Device.ssUsed, admWait, d, sealedOf, firstWhere, Device.updAdm, Device.updAllot]; decide
  have h2 : (admWait 12 .exchange d).ssPlace [(0, 1)] 32 32 = some 32 := by
    simp [Device.ssPlace, Device.ssUsed, admWait, d, sealedOf, firstWhere, Device.updAdm, Device.updAllot, List.mergeSort, List.MergeSort.Internal.splitInTwo, roundUp, overlaps]; decide
  have h3 : placeObjs (admWait 12 .exchange d) [(12 * 2 ^ 25 + 4095, o)] [] [] = some ([(12 * 2 ^ 25 + 4095, { o with pos := 0 })], [((12 * 2 ^ 25 + 4095) / 256, 1)]) := by
    simp only [placeObjs, show o.units = 1 from rfl, h1, List.nil_append, Device.dirOf, h2]; rfl
  simp only [ssBegin, h3]
  decide

theorem witness_SealedStoreCommands :
    (∀ b ∈ [2 ^ 16 - 1, 2 ^ 16, 2 ^ 30], ∀ n ∈ [0, 1], ∀ m ∈ [Mode.service, .debug], let e := ent [(2, 1), (2, 0x38), (4, b), (8, 0x1000), (2, 1024), (1, n), (45, 0)]; let s := st (inMode m { adminOf 0 e with ss := { blocks := 2 ^ 30 } }); AdminTurn s 0 0x38 (wholeBytes 4 17 ++ [(18, 1)]) [(8, 4096)] 7 e ∧
      s.dev.md.mode = m ∧ bytesAt e 4 4 = b ∧ bytesAt e 16 2 = 1024 ∧ bitOf (bytesAt e 18 1) 0 = decide (n = 1) ∧ s.dev.ss.change = none ∧ s.dev.ss.waiting = [] ∧ s.dev.ss.blocks = 2 ^ 30) ∧
    (({ change := some { finish := .admin 0 0 } } : Sealed).change ≠ none) ∧
    (∀ o ∈ [0x39, 0x3A], ∀ m ∈ [Mode.service, .debug], let e := admin2 o (if o = 0x39 then 9 else 0) 15 0 0; let s := st (inMode m (adminOf 0 e)); AdminTurn s 0 o (if o = 0x39 then wholeBytes 4 9 else wholeBytes 8 9) [] 7 e ∧ s.dev.md.mode = m ∧ s.dev.ss.attached = false) ∧
    (∀ x ∈ [none, some { block := 9, store := true, posted := 0 }, some { block := 9, store := false, posted := 0 }, some { block := 9, store := false, posted := 0, retried := true }], let e := admin2 0x39 9 15 0 0; let s := st (storeOf e x); AdminTurn s 0 0x39 (wholeBytes 4 9) [] 7 e ∧
      s.dev.ss.attached = true ∧ bytesAt e 8 2 = 15 ∧ bytesAt e 4 4 = 9 ∧ Tbl.find s.dev.ss.xslots 15 = x ∧ (s.dev.slotAccess 15 0).1 = .permit ∧ (({ s.dev with gates := [] } : Device).slotAccess 15 0).1 = .refuse 1 0xFFFF false) ∧
    (∀ x ∈ [none, some { block := 9, store := true, posted := 0 }, some { block := 9, store := false, posted := 0 }], let e := admin2 0x3A 0 15 0 0; let s := st (storeOf e x); AdminTurn s 0 0x3A (wholeBytes 8 9) [] 7 e ∧ s.dev.md.mode ≠ .debug ∧ s.dev.ss.attached = true ∧
      bytesAt e 8 2 = 15 ∧ Tbl.find s.dev.ss.xslots 15 = x ∧ s.dev.ss.waiting = [] ∧ s.dev.ss.change = none ∧ s.dev.ss.toSend = [] ∧ 0 + s.dev.ssTimeout ≤ s.dev.time) ∧
    (let w : SsWait := { block := 9, op := 0, req := { reqOf 1 with handle := storeHandle }, since := 0 }; let d : Device := { up with cis := { kerOk := true }, ss := { sealedOf true with waiting := [w] } }; d.ss.waiting = [w] ∧ w.block < d.ss.dataBlocks ∧ d.keyCheck w.op w.req = .pass { st := 3, usage := 1, allot := 12, maskOrder := 1 } ∧
      Tbl.find d.ss.xslots 3 = none ∧ d.ss.xslots = [] ∧ w.since + d.ssTimeout ≤ d.time ∧ d.ss.change = none) ∧
    (let c : SsChange := { finish := .admin 0 0 }; let d : Device := { up with ss := { sealedOf true with change := some c } }; d.ss.waiting = [] ∧ d.ss.change = some c ∧ c.since + d.ssTimeout ≤ d.time) ∧
    (dataBlocksOf (2 ^ 30) + nodeBlocks (dataBlocksOf (2 ^ 30)) ≤ 2 ^ 30 ∧ 2 ^ 30 < dataBlocksOf (2 ^ 30) + 1 + nodeBlocks (dataBlocksOf (2 ^ 30) + 1)) := by decide

/-- FIPS 202: SHA3-256 of the empty message. -/
theorem test_sha3 : sha3_256 [] = 0x4a43f8804b0ad882fa493be44dff80f562d661a05647c15166d71ebff8c6ffa7 := by decide +kernel

/-- Images with zeros for all but their header and the digest of their signer's key: an owner routine 0x1FFF of version v, of 16 KiB, and a bundle of no image. -/
def imgOf (v : Nat) : List Byte :=
  toBytes 256 (pack [(4, 0x31575246), (2, 1), (2, 256), (2, 0x1FFF), (2, 0), (4, v), (4, 16), (4, 0), (4, 0), (4, 0), (4, 0), (4, 0), (4, 0), (8, 1), (204, 0)]) ++ zeros (3840 + 4096 + 4627) ++
    toBytes 32 0x4a43f8804b0ad882fa493be44dff80f562d661a05647c15166d71ebff8c6ffa7 ++ zeros 3533
def bundleOf (digest : Nat) : List Byte := toBytes 16 (pack [(4, 0x42575246), (4, 1), (4, 0), (4, 12288)]) ++ zeros (4080 + 4627) ++ toBytes 32 digest ++ zeros 3533
/-- The profile names slot 0x42, with no material, as the program key. -/
def progOf (e : Entry) (t : Tbl OwnerRoutine) : Device :=
  let p : Profile := { keys := some (0x42, 0) };
  { adminOf 0 e with routines := t, md := { up.md with prof := some p }, cis := { slots := [(0x42, { attr := { st := 3, usage := 7 } })] } }
def oldRoutine : OwnerRoutine := { attr := { routine := 0x1FFF, version := 6 }, allotMask := 1, digest := 0 }
def regEntry (r len : Nat) : Entry := ent [(2, 1), (2, 0x40), (2, r), (2, 0), (8, 0x1000), (4, len), (4, 0), (8, 1), (32, 0)]

theorem imgOf_form (v : Nat) (h : v = 6 ∨ v = 7) : (imgHeader (imgOf v)).fieldsOk = true ∧ imgClean (imgOf v) (imgHeader (imgOf v)) true = true ∧ (imgHeader (imgOf v)).length = 16384 ∧ (imgHeader (imgOf v)).version = v ∧
    (imgOf v).length = 16384 ∧ (imgHeader (imgOf v)).routine = 0x1FFF ∧ (imgHeader (imgOf v)).signer = 0 ∧ word ((imgOf v).drop ((imgOf v).length - 8192)) 4627 32 = (sha3_256 []).toNat := by
  rcases h with rfl | rfl <;> decide +kernel

theorem witness_ProgramCommands :
    (∀ op ∈ [0x40, 0x41], ∀ r ∈ [0xFFF, 0x2000], let e := if op = 0x40 then regEntry r 0 else admin2 0x41 r 0 0 0; AdminTurn (st (adminOf 0 e)) 0 op (if op = 0x40 then wholeBytes 4 5 ++ wholeBytes 8 19 ++ wholeBytes 24 31 else wholeBytes 4 5) (if op = 0x40 then [(8, 4096)] else []) 7 e ∧ bytesAt e 4 2 = r) ∧
    (∀ n ∈ [16383, 344065], let e := regEntry 0x1FFF n; AdminTurn (st (adminOf 0 e)) 0 0x40 (wholeBytes 4 5 ++ wholeBytes 8 19 ++ wholeBytes 24 31) [(8, 4096)] 7 e ∧ bytesAt e 4 2 = 0x1FFF ∧ bytesAt e 16 4 = n) ∧
    (∀ t ∈ [[], [(0x1FFF, oldRoutine)]], let e := regEntry 0x1FFF 16384; let s := st (progOf e t); AdminTurn s 0 0x40 (wholeBytes 4 5 ++ wholeBytes 8 19 ++ wholeBytes 24 31) [(8, 4096)] 7 e ∧ bytesAt e 4 2 = 0x1FFF ∧
      bytesAt e 16 4 = 16384 ∧ (checkAll s.dev 0 0 0 true none (pieces (bytesAt e 8 8) 16384)).1 = .permit ∧ s.dev.programKey = some [] ∧ s.dev.ownerUsed = 0 ∧ Tbl.find s.dev.routines 0x1FFF = Tbl.find t 0x1FFF) ∧
    (∀ op ∈ [0x41, 0x42], ∀ t ∈ [[], [(0x1FFF, oldRoutine)]], ∀ v ∈ [5, 6], let e := admin2 op 0x1FFF (if op = 0x41 then 0 else 0x40) 0 0; let d := progOf e t; let c := cmdIn .running { routine := 0x1FFF, version := v }; let s := st { d with cmds := [(0, c)] };
      AdminTurn s 0 op (if op = 0x41 then wholeBytes 4 5 else wholeBytes 4 5 ++ wholeBytes 8 15) (if op = 0x41 then [] else [(8, 64)]) 7 e ∧ bytesAt e 4 2 = 0x1FFF ∧ isSrl 0x1FFF = false ∧ s.dev.boundTo 0x1FFF 6 = decide (v = 6) ∧
      (s.dev.allot 0).flr = none ∧ gateCheck s.dev 0 0 0x40 64 1 true none = .permit) ∧
    (∀ b : Bool, let e := admin2 0x42 0x0101 0x40 0 0; let s := st { adminOf 0 e with boot := { up.boot with srlReady := b } }; AdminTurn s 0 0x42 (wholeBytes 4 5 ++ wholeBytes 8 15) [(8, 64)] 7 e ∧ bytesAt e 4 2 = 0x0101 ∧ isSrl 0x0101 = true ∧ s.dev.boot.srlReady = b) ∧
    (∀ len ∈ [12287, 12288, 0x200_0001], ∀ b : Bool, let e := ent [(2, 1), (2, 0x43), (4, 0), (8, 0x1000), (4, len), (44, 0)]; let s := st { adminOf 0 e with boot := { up.boot with srlReady := b, srlVersion := if b then 1 else 0 } };
      AdminTurn s 0 0x43 (wholeBytes 8 19) [(8, 4096)] 7 e ∧ bytesAt e 16 4 = len ∧ (len = 12288 → (checkAll s.dev 0 0 0 true none (pieces (bytesAt e 8 8) len)).1 = .permit) ∧ s.dev.boot.srlReady = b ∧ (s.dev.boot.srlVersion = 1 ↔ b = true)) := by decide

theorem exactly_len (l : List Byte) (n : Nat) (h : l.length = n) : exactly n l = l := by
  subst h; simp [exactly, zeros]
theorem witness_ProgramCommands_bound : (progOf (regEntry 0x1FFF 16384) [(0x1FFF, oldRoutine)]).boundTo 0x1FFF 6 = false ∧ ({ progOf (regEntry 0x1FFF 16384) [(0x1FFF, oldRoutine)] with cmds := [(0, cmdIn .running { routine := 0x1FFF, version := 6 })] } : Device).boundTo 0x1FFF 6 = true := by decide

theorem signatureEnd_zero (pk img : List Byte) (h : mldsa87 "KQ FURROW IMAGE" pk (img.take (img.length - 8192)) ((img.drop (img.length - 8192)).take 4627) = 0)
    (w : word (img.drop (img.length - 8192)) 4627 32 = (sha3_256 pk).toNat) : signatureEnd pk img = 0 := by
  unfold signatureEnd
  dsimp only
  rw [h]
  exact if_pos w

/-- Image 7 keeps every condition where the free verification says so of it, with an older image of the routine or without one; image 6 is no newer than the old one. -/
theorem witness_ProgramCommands_image (h : mldsa87 "KQ FURROW IMAGE" [] ((imgOf 7).take ((imgOf 7).length - 8192)) (((imgOf 7).drop ((imgOf 7).length - 8192)).take 4627) = 0) (t : Tbl OwnerRoutine) (ht : t = [] ∨ t = [(0x1FFF, oldRoutine)]) :
    (progOf (regEntry 0x1FFF 16384) t).imageRefusal 0x1FFF 16384 (exactly 16384 (imgOf 7)) = none ∧ (imgHeader (exactly 16384 (imgOf 6))).version ≤ oldRoutine.attr.version := by
  obtain ⟨f7, c7, n7, v7, l7, r7, s7, w7⟩ := imgOf_form 7 (.inr rfl)
  obtain ⟨-, -, -, v6, l6, -, -, -⟩ := imgOf_form 6 (.inl rfl)
  rw [exactly_len _ _ l7, exactly_len _ _ l6]
  have k : (progOf (regEntry 0x1FFF 16384) t).programKey = some [] ∧ (progOf (regEntry 0x1FFF 16384) t).ownerUsed = 0 := by rcases ht with rfl | rfl <;> decide
  have g : signatureEnd [] (imgOf 7) = 0 := signatureEnd_zero [] (imgOf 7) h w7
  refine ⟨?_, by rw [v6]; decide⟩
  have q : Tbl.find (progOf (regEntry 0x1FFF 16384) t).routines 0x1FFF = Tbl.find t 0x1FFF := rfl
  simp only [Device.imageRefusal, f7, c7, n7, v7, r7, s7, k.1, k.2, g, q]
  rcases ht with rfl | rfl <;> decide

theorem word_left (a b : List Byte) (o n : Nat) (h : o + n ≤ a.length) : word (a ++ b) o n = word a o n := by
  rw [word, word, List.drop_append_of_le_length (by omega), List.take_append_of_le_length (by simp; omega)]
theorem zeroBytes_left (a b : List Byte) (o n : Nat) (h : o + n ≤ a.length) : zeroBytes (a ++ b) o n = zeroBytes a o n := by
  rw [zeroBytes, zeroBytes, List.drop_append_of_le_length (by omega), List.take_append_of_le_length (by simp; omega)]

/-- A bundle of no image, whatever the digest in its signature page. -/
theorem bundleOf_form (x : Nat) : (bundleOf x).length = 12288 ∧ bundleOk (bundleOf x) = true ∧ word (bundleOf x) 4 4 = 1 ∧ word ((bundleOf x).drop ((bundleOf x).length - 8192)) 4627 32 = x % 256 ^ 32 := by
  let a : List Byte := toBytes 16 (pack [(4, 0x42575246), (4, 1), (4, 0), (4, 12288)]) ++ zeros 8707
  have la : a.length = 8723 := by simp [a, zeros]
  have e : bundleOf x = a ++ (toBytes 32 x ++ zeros 3533) := by simp only [bundleOf, a, List.append_assoc]
  have l : (bundleOf x).length = 12288 := by simp [e, la, zeros]
  have w (o n : Nat) (h : o + n ≤ 8723) : word (bundleOf x) o n = word a o n := by rw [e, word_left _ _ _ _ (by omega)]
  have d : (bundleOf x).drop 8723 = toBytes 32 x ++ zeros 3533 := by rw [e, List.drop_append_of_le_length (by omega), ← la, List.drop_length, List.nil_append]
  have z : zeroBytes (bundleOf x) 8755 3533 = true := by
    rw [zeroBytes, show 8755 = 8723 + 32 from rfl, ← List.drop_drop, d, List.drop_left' (by simp)]
    simp [zeros]
  have z' : zeroBytes (bundleOf x) 16 4080 = true := by rw [e, zeroBytes_left _ _ _ _ (by omega)]; decide +kernel
  have h0 : word a 0 4 = 0x42575246 ∧ word a 4 4 = 1 ∧ word a 8 4 = 0 ∧ word a 12 4 = 12288 := by decide +kernel
  refine ⟨l, ?_, by rw [w _ _ (by omega)]; exact h0.2.1, ?_⟩
  · simp only [bundleOk, l, w _ _ (show 0 + 4 ≤ 8723 by omega), w _ _ (show 8 + 4 ≤ 8723 by omega), w _ _ (show 12 + 4 ≤ 8723 by omega), h0.1, h0.2.2.1, h0.2.2.2, z', bundleImages, List.length_drop, z]
    rfl
  · rw [l, word, List.drop_drop, show 12288 - 8192 + 4627 = 8723 from rfl, d, List.take_left' (by simp)]
    exact ofBytes_toBytes 32 x

/-- Every bundle of no image has its form; the digest in its page is that of the library's key in one and not in another. -/
theorem witness_ProgramCommands_bundle : (∀ x, bundleOk (exactly 12288 (bundleOf x)) = true ∧ word (exactly 12288 (bundleOf x)) 4 4 = 1 ∧ bundleOk (exactly 12288 []) = false) ∧
    (∃ x, word ((bundleOf x).drop ((bundleOf x).length - 8192)) 4627 32 ≠ (sha3_256 srlKeyBytes).toNat) ∧
    (∃ x, word ((bundleOf x).drop ((bundleOf x).length - 8192)) 4627 32 = (sha3_256 srlKeyBytes).toNat) := by
  refine ⟨fun x => ?_, ?_, (sha3_256 srlKeyBytes).toNat, ?_⟩
  · rw [exactly_len _ _ (bundleOf_form x).1]
    exact ⟨(bundleOf_form x).2.1, (bundleOf_form x).2.2.1, by decide +kernel⟩
  · by_cases h : (sha3_256 srlKeyBytes).toNat = 0
    · exact ⟨1, by rw [(bundleOf_form 1).2.2.2, h]; decide⟩
    · exact ⟨0, by rw [(bundleOf_form 0).2.2.2]; exact fun w => h w.symm⟩
  · rw [(bundleOf_form _).2.2.2, Nat.mod_eq_of_lt (show (sha3_256 srlKeyBytes).toNat < 256 ^ 32 from (sha3_256 srlKeyBytes).isLt)]

/-! ## Host registers, modes, the profile -/

theorem witness_ReadsThatClear :
    (∀ o ∈ [0x0002_0008, 0x0016_0004, 0x0006_4004, 0x0007_1008, 0x0007_1010, 0x000F_4008 + 0x100 * 15], BarTaken (st up) o) ∧ rcWord .qmStallsRead = some 0x0002_0008 ∧ isCustody 0x0002_0008 = false ∧ rcWord .evrDroppedRead = some 0x0012_003C ∧ isCustody 0x0012_003C = true ∧
    (∀ o ∈ [0x0012_003C, 0x0015_001C, 0x0013_0030 + 4 * 3], BarReached (st up) o ∧ ReadArrives (st (readComes o 0)) o 0 1) ∧ PageTaken (st (host quotas)) 63 := by decide

theorem witness_HostRegisterAccesses :
    up.barLive = true ∧ ({ up with boot := { up.boot with configReady := false } } : Device).barLive = false ∧ (8 < (9 : BitVec 8).toNat) ∧ (8 < 4 % 8 + (8 : BitVec 8).toNat) ∧
    (let n := 0x0009_0019; BarTaken (st up) (n - n % 4) ∧ isCustody (n - n % 4) = false ∧ n % 4 + (3 : BitVec 8).toNat ≤ 4) ∧ BarTaken (st up) 0x000E_0008 ∧
    (∀ l : Bool, let s := st { up with md := { up.md with locked := l } }; 0x80000 % 4 = 0 ∧ BarTaken s 0x80000 ∧ (hostAccess 0 s.dev).proxyBusy 0 = false ∧ isCustody 0x80000 = false ∧ isRwl 0x80000 = true ∧ (hostAccess 0 s.dev).isLocked 0x80000 = l) ∧
    (let s := st up; isRwl 0x0009_0018 = false ∧ isCustody 0x0010_0000 = true ∧ wideRo 0x0004_0010 = true ∧ wideRo 0x0004_0014 = false ∧ isCustody 0x0004_0010 = false ∧ BarTaken s 0x0004_0010 ∧ (s.dev.allot 0).latch64 = none ∧
      (hostAccess 0 s.dev).proxyBusy 0 = false) ∧
    (let s := st { up with allots := [(0, { latch64 := some (0x0004_0014, 7) })] }; isCustody 0x0004_0014 = false ∧ BarTaken s 0x0004_0014 ∧ (s.dev.allot 0).latch64 = some (0x0004_0014, 7) ∧ (hostAccess 0 s.dev).proxyBusy 0 = false) ∧
    (let s := st (host quotas); PageTaken s 12 ∧ (hostAccess 12 s.dev).proxyBusy 12 = false) ∧
    CustodyGets (st (toCus (.regRead 0x0010_0004 0 1))) (.regRead 0x0010_0004 0 1) ∧
    (∀ l : Bool, let p : ProxyAcc := { ident := 1, fn := 0, offset := 0x0011_0100, write := true, since := 0 }; let s := st (toCus (.regWrite 0x0011_0100 0 5 1) { up with fl := { up.fl with proxies := [p] }, md := { up.md with locked := l } });
      CustodyGets s (.regWrite 0x0011_0100 0 5 1) ∧ (tookCustody s.dev).proxyOf 1 ≠ none ∧ isRwl 0x0011_0100 = true ∧ (tookCustody s.dev).isLocked 0x0011_0100 = l) ∧
    (∀ t ∈ [9_999, 10_000], let p : ProxyAcc := { ident := 1, fn := 0, offset := 0x0010_0004, write := false, since := 0 }; let s := st (toCmp (.regReply 1 7 true) { up with fl := { up.fl with proxies := [p] }, time := t });
      ComputeGets s (.regReply 1 7 true) ∧ (tookCompute s.dev).fl.proxies = [p] ∧ s.dev.fl.proxies = [p] ∧ p.ident = 1 ∧ p.write = false ∧ p.here = false ∧ (t = 10_000 → p.since + 10_000 ≤ s.dev.time) ∧ (t = 9_999 → s.dev.time < p.since + 10_000))  ∧
    (let s := st { up with fl := { up.fl with proxies := [{ ident := 1, fn := 0, offset := 0x0010_0004, write := true, since := 0 }] } }; BarReached s 0x80000 ∧ (hostAccess 0 s.dev).proxyBusy 0 = true) ∧
    (let s := st (inMode .retention up); s.dev.blockLive 0x80000 = true ∧ s.dev.barLive = true ∧ s.dev.asleep = true) ∧ ({ up with boot := { up.boot with rsvReady := false, serviceReady := false, configReady := false } } : Device).blockLive 0x80000 = false ∧
    (isCustody 0x0010_0000 = true ∧ BarReached (st up) 0x0010_0000) ∧ (let d := host quotas; d.barLive = true ∧ d.asleep = false ∧ (d.allot 12).flr = none) ∧
    (CustodyGets (st (readComes (2 ^ 32 + 0x402C) 12 (host quotas))) (.regRead (2 ^ 32 + 0x402C) 12 1) ∧ CustodyGets (st (writeComes (2 ^ 32 + 0x4004) 12 5)) (.regWrite (2 ^ 32 + 0x4004) 12 5 1) ∧ (tookCustody (writeComes (2 ^ 32 + 0x4004) 12 5)).proxyOf 1 ≠ none ∧
      (tookCustody (toCus (.regWrite 0x0011_0100 0 5 1))).proxyOf 1 = none) ∧
    (let p : ProxyAcc := { ident := 1, fn := 0, offset := 0x0010_0004, write := true, since := 0 }; let q : ProxyAcc := { ident := 2, fn := 0, offset := 0x80000, write := true, since := 0, here := true }; let s := st (toCmp (.regReply 1 7 true) { up with fl := { up.fl with proxies := [p, q] } });
      ComputeGets s (.regReply 1 7 true) ∧ (tookCompute s.dev).fl.proxies = [p, q] ∧ (tookCompute (toCmp (.regReply 1 7 true))).proxyOf 1 = none) := by decide

def changing (t : Mode) (ph : Nat) (by_ : Bool := false) : ModeChange := { target := t, phase := ph, cause := 1, since := 0, byAdmin := by_ }
def withChange (c : ModeChange) (d : Device := up) : Device := { d with md := { d.md with change := some c } }
def modeEntry (op : Nat) : Entry := ent [(2, 1), (2, op), (60, 0)]

theorem witness_ModeChanges :
    (let x : Triple := { offset := 0x000F_8000, value := 1, mask := 1 }; ∀ b : Bool, let s := st (toCmp (.modeApply 2 0 [x] b) (withChange (changing .lowFlow 1))); ComputeGets s (.modeApply 2 0 [x] b) ∧ (tookCompute s.dev).md.change ≠ none ∧ ComputeGets (st (toCmp (.modeApply 2 0 [x] b))) (.modeApply 2 0 [x] b) ∧ up.md.change = none) ∧
    (let c := changing .lowFlow 1; let s := st (toCus (.modeDone 3 0) (withChange c)); CustodyGets s (.modeDone 3 0) ∧ s.dev.md.change = some c ∧ c.phase = 1 ∧ 3 = c.target.code ∧ c.byAdmin = false ∧ c.target ≠ .service) ∧
    (let c := changing .lowFlow 1; let s := st (toCus (.modeDone 3 1) (withChange c)); CustodyGets s (.modeDone 3 1) ∧ s.dev.md.change = some c ∧ c.phase ≠ 2) ∧ (CustodyGets (st (toCus (.modeDone 3 1))) (.modeDone 3 1) ∧ up.md.change = none) ∧
    (let c := changing .lowFlow 2; let s := st (toCus (.modeDone 2 1) (withChange c)); CustodyGets s (.modeDone 2 1) ∧ s.dev.md.change = some c ∧ c.phase = 2 ∧ 2 = s.dev.md.mode.code ∧ (s.dev.overlay c.target.code).triples = []) ∧
    (∀ t ∈ [999_999, 1_000_000], let c := changing .lowFlow 1; let d := { withChange c with time := t }; d.md.change = some c ∧ c.target ≠ .retention ∧ (t = 1_000_000 → c.since + 1_000_000 ≤ d.time) ∧ (t = 999_999 → d.time < c.since + 1_000_000)) ∧
    (∀ op ∈ [0x52, 0x53], let e := modeEntry op; AdminTurn (st (withChange (changing .lowFlow 1) (adminOf 0 e))) 0 op [] [] 7 e) ∧
    (let e := modeEntry 0x54; AdminTurn (st (inMode .maintenance (withChange (changing .lowFlow 1) (adminOf 0 e)))) 0 0x54 [] [] 7 e) ∧
    (∀ t ∈ [Mode.retention, .lowFlow], (withChange (changing t 0)).md.change = some (changing t 0) ∧ (withChange (changing t 0)).md.mode ≠ .retention) ∧
    (let e := modeEntry 0x52; ∀ w : Bool, let s := st { adminOf 0 e with flt := { thermWarn := w } }; AdminTurn s 0 0x52 [] [] 7 e ∧ s.dev.md.change = none ∧ s.dev.lowFlowCond = w ∧ s.dev.retainIdle = true) ∧
    (let e := modeEntry 0x52; let s := st { adminOf 0 e with cmds := [(0, cmdIn .waiting)] }; AdminTurn s 0 0x52 [] [] 7 e ∧ s.dev.md.change = none ∧ s.dev.lowFlowCond = false ∧ s.dev.retainIdle = false) ∧
    (let c := changing .retention 0; let d := withChange c; d.md.change = some c ∧ c.target = .retention ∧ (d.overlay d.md.mode.code).triples = [] ∧ (d.overlay 4).triples = [] ∧ (∀ x ∈ d.ws.peers, x.2.up = false ∧ x.2.join = 0) ∧ d.md.mode ≠ .retention) ∧
    (∀ b : Bool, let d := { inMode .retention up with fl := { up.fl with sbStop := b } }; d.md.mode = .retention ∧ d.fl.sbStop = b ∧ d.md.waking = false) ∧ up.keysLoaded = false ∧
    (∀ w ∈ [0x80000, 0x0010_0000], ∀ b : Bool, let d := { up with boot := { up.boot with entropyReady := false }, rsv := { keys := 2 ^ 65 - 1, wrapKeys := 2 ^ 64 - 1, saveKeys := 2 ^ 64 - 1 }, md := { mode := .retention, waking := true, heldWrites := if b then [(0, w, 5)] else [], heldReads := if b then [] else [(0, w)] } };
      d.md.waking = true ∧ d.keysLoaded = true ∧ isCustody w = decide (w = 0x0010_0000) ∧ (wakeMode (wakeUp { d with md := { d.md with heldWrites := [], heldReads := [] } })).proxyBusy 0 = false) ∧
    (let e := modeEntry 0x53; ∀ o ∈ [none, some 0, some 1], let s := st { adminOf 0 e with lev := { svcOpenUntil := o } }; AdminTurn s 0 0x53 [] [] 7 e ∧ s.dev.md.change = none ∧ s.dev.lev.svcOpenUntil = o ∧ (o = some 1 → s.dev.time < 1) ∧ (o = some 0 → 0 ≤ s.dev.time) ∧ (s.dev.overlay s.dev.md.mode.code).triples = [] ∧
      (s.dev.overlay 5).triples = []) ∧
    (let e := modeEntry 0x54; let s := st (inMode .service (adminOf 0 e)); AdminTurn s 0 0x54 [] [] 7 e ∧ s.dev.md.mode ≠ .maintenance) ∧
    (let e := modeEntry 0x54; let s := st (inMode .maintenance (adminOf 0 e)); s.dev.md.mode = .maintenance ∧ AdminTurn s 0 0x54 [] [] 7 e ∧ s.dev.md.change = none ∧ (s.dev.overlay s.dev.md.mode.code).triples = [] ∧ (s.dev.overlay s.dev.serviceOrLow.code).triples = []) := by decide

/-- A debug token for this device, a profile of one empty section. -/
def tokenOf : List Byte := toBytes 8 (pack [(4, 0x5444514B), (2, 1), (2, 0)]) ++ (toBytes 8 Config.serial.toNat ++ (toBytes 16 (pack [(8, 5), (4, 0), (4, 0)]) ++ zeros 4627))
def profImg : List Byte := toBytes 64 (pack [(4, 0x5042514B), (2, 1), (2, 1), (4, 9), (4, 4699), (8, 0), (8, 0), (32, 0)]) ++ toBytes 8 6 ++ zeros 4627
def lenEntry (op len : Nat) : Entry := ent [(2, 1), (2, op), (4, 0), (8, 0x1000), (4, len), (4, 0), (40, 0)]

theorem witness_ProvisioningAndProfile :
    (∀ l ∈ [0, 4659], let e := lenEntry 0x55 l; let s := st { adminOf 0 e with md := { debugPause := some 0 } }; AdminTurn s 0 0x55 (wholeBytes 8 19) [] 7 e ∧ bytesAt e 16 4 = l ∧ (checkAll s.dev 0 0 0 true none (pieces (bytesAt e 8 8) (min l 4659))).1 = .permit) ∧
    (up.tokenCheck 0 []).isSome = true ∧
    (∀ t ∈ [59_999_999_999, 60_000_000_000], let d : Device := { up with md := { up.md with debugPause := some 0 }, time := t }; d.md.debugPause = some 0 ∧ (t = 60_000_000_000 → 0 + 60_000_000_000 ≤ d.time) ∧ (t = 59_999_999_999 → d.time < 0 + 60_000_000_000)) ∧
    (∀ w : Bool, let e := ent [(2, 1), (2, 0x50), (4, 0), (8, 0x1000), (8, 9), (40, 0)]; let s := st { adminOf 0 e with md := { mode := .provisioning, owner := w } }; AdminTurn s 0 0x50 (wholeBytes 8 23) [] 7 e ∧ s.dev.md.mode = .provisioning ∧ s.dev.md.owner = w ∧
      s.dev.boot.entropyReady = true ∧ Tbl.wf {} s.dev.cis.slots = true ∧ (checkAll s.dev 0 0 0 true none (pieces (bytesAt e 8 8) 2592)).1 = .permit) ∧
    (∀ w : Bool, let e := lenEntry 0x51 4699; let s := st { adminOf 0 e with md := { mode := .provisioning, owner := w } }; AdminTurn s 0 0x51 (wholeBytes 8 19) [] 7 e ∧ s.dev.md.mode = .provisioning ∧ s.dev.md.owner = w ∧ s.dev.md.change = none ∧
      (checkAll s.dev 0 0 0 true none (pieces (bytesAt e 8 8) (min 4699 196609))).1 = .permit) ∧
    (up.md.debugPause = none ∧ ({ up with boot := { up.boot with entropyReady := false } } : Device).boot.entropyReady = false ∧ (withChange (changing .lowFlow 1)).md.change ≠ none) ∧
    (parseProfile [] = none) ∧
    (let d := { up with md := { up.md with profPending := some {} } }; d.md.mode ≠ .bringup ∧ d.md.mode ≠ .debug ∧ d.md.profPending = some {} ∧ (∀ g < 84, d.gateQuiet g = true) ∧ up.md.profPending = none) ∧
    (let d := { up with md := { up.md with profPending := some {} }, allots := [(63, { adm := { burst := 1 } })] }; d.md.profPending = some {} ∧ d.gateQuiet 63 = false) ∧
    (∀ w : Bool, ∀ m ∈ [Mode.bringup, .debug], let q : List Profile := if w then [{ gen := 1 }, { gen := 2 }] else []; let d := { up with boot := { up.boot with stepReached := 10, unitsTested := true, serviceReady := false }, md := { mode := m, owner := w, copies := q }, cis := { kerOk := true } };
      (d.md.mode = .bringup ∨ (d.md.mode = .debug ∧ d.boot.serviceReady = false)) ∧ d.boot.stepReached = 10 ∧ d.boot.unitsTested = true ∧ d.md.owner = w ∧ d.cis.kerOk = true ∧ d.md.copies = q ∧ ({ d with boot := { d.boot with stepReached := 9 } } : Device).boot.stepReached ≠ 10) := by decide

/-- The token passes and the profile is taken, where the free verification says so of them. -/
theorem witness_ProvisioningAndProfile_token (h : mldsa87 "KQ DEBUG TOKEN" up.md.ownerKey (tokenOf.take 32) (tokenOf.drop 32) = 0) : up.tokenCheck 4659 (exactly 4659 tokenOf) = none := by
  have l : tokenOf.length = 4659 := by simp [tokenOf, zeros]
  have a : (toBytes 8 (pack [(4, 0x5444514B), (2, 1), (2, 0)])).length = 8 := length_toBytes 8 _
  have b : (toBytes 8 Config.serial.toNat).length = 8 := length_toBytes 8 _
  have d8 : tokenOf.drop 8 = toBytes 8 Config.serial.toNat ++ (toBytes 16 (pack [(8, 5), (4, 0), (4, 0)]) ++ zeros 4627) := List.drop_left' a
  have w0 (o n : Nat) (h : o + n ≤ 8) : word tokenOf o n = word (toBytes 8 (pack [(4, 0x5444514B), (2, 1), (2, 0)])) o n := word_left _ _ o n (by rw [a]; omega)
  have w8 : word tokenOf 8 8 = Config.serial.toNat := by
    rw [word, d8, List.take_left' b, ofBytes_toBytes]; exact Nat.mod_eq_of_lt Config.serial.isLt
  have w16 (o n : Nat) : word tokenOf (16 + o) n = word (toBytes 16 (pack [(8, 5), (4, 0), (4, 0)]) ++ zeros 4627) o n := by
    rw [word, word, show 16 + o = 8 + (8 + o) by omega, ← List.drop_drop, d8, ← List.drop_drop, List.drop_left' b]
  have k : word (toBytes 16 (pack [(8, 5), (4, 0), (4, 0)]) ++ zeros 4627) 0 8 = 5 ∧ word (toBytes 16 (pack [(8, 5), (4, 0), (4, 0)]) ++ zeros 4627) 8 4 = 0 ∧ word (toBytes 16 (pack [(8, 5), (4, 0), (4, 0)]) ++ zeros 4627) 12 4 = 0 := by decide +kernel
  have g : word (toBytes 8 (pack [(4, 0x5444514B), (2, 1), (2, 0)])) 0 4 = 0x5444514B ∧ word (toBytes 8 (pack [(4, 0x5444514B), (2, 1), (2, 0)])) 4 2 = 1 ∧ word (toBytes 8 (pack [(4, 0x5444514B), (2, 1), (2, 0)])) 6 2 = 0 := by decide +kernel
  rw [exactly_len _ _ l]
  simp only [Device.tokenCheck, tokenLen, w0 0 4 (by omega), w0 4 2 (by omega), w0 6 2 (by omega), w8, (w16 0 8 : word tokenOf 16 8 = _), (w16 8 4 : word tokenOf 24 4 = _), (w16 12 4 : word tokenOf 28 4 = _), k.1, k.2.1, k.2.2, h, g.1, g.2.1, g.2.2]
  simp [up]

theorem profImg_form : (parseProfile profImg).isSome = true ∧ ((parseProfile profImg).getD {}).version = 9 ∧ (up.profContent ((parseProfile profImg).getD {})).isNone = true ∧ word profImg 32 32 = 0 ∧ word profImg 16 8 = 0 ∧ profImg.length = 4699 := by decide +kernel
theorem witness_ProvisioningAndProfile_profile (h : mldsa87 "KQ BASE PROFILE" up.md.ownerKey (profImg.take (profImg.length - 4627)) (profImg.drop (profImg.length - 4627)) = 0) : ∃ p, up.profCheck (exactly 4699 profImg) = .ok p := by
  obtain ⟨s, v, c, o, i, l⟩ := profImg_form
  rw [exactly_len _ _ l]
  obtain ⟨p, e⟩ := Option.isSome_iff_exists.mp s
  rw [e] at v c
  refine ⟨p, ?_⟩
  simp only [Device.profCheck, e, o, i, h, show up.profContent p = none from Option.isNone_iff_eq_none.mp c, show p.version = 9 from v]
  simp [up]

/-! ## Power, bring-up, the board -/

theorem witness_PowerAndResets :
    (∀ p : Bool, ∀ b : Bool, ∀ t : Bool, let d : Device := { boot := { pwrgood := p, resetN := b, testHeld := t } }; d.boot.pwrgood = p ∧ d.boot.resetN = b ∧ d.boot.testHeld = t) ∧
    (let x : CisSlot := { attr := { st := 3, persistent := true } }; let d : Device := { up with cis := { slots := [(7, x)] } }; d.boot.pwrgood = true ∧ d.boot.resetN = true ∧ d.boot.testHeld = false ∧ Tbl.wf {} d.cis.slots = true ∧ (d.slot 7).attr.persistent = true ∧ (d.slot 7).attr.st = 3) ∧
    (∀ b : Bool, ({ up with boot := { up.boot with serviceReady := b, perstHold := b, pcieLink := b } } : Device).boot.serviceReady = b ∧ ({ up with boot := { up.boot with serviceReady := b, perstHold := b, pcieLink := b } } : Device).boot.perstHold = b ∧
      ({ up with boot := { up.boot with serviceReady := b, perstHold := b, pcieLink := b } } : Device).boot.pcieLink = b) ∧ NoAdminWaits up ∧
    (let d := { host { quotas with adm := { enable := true, burst := 1 } } with sqs := [(qKey 12 3, { queue3 with burst := 8 })], cmds := [(4095, cmdIn .ready)] }; d.stopped = false ∧ (d.sq 12 3).burst ≠ 0 ∧ (d.adm 12).burst ≠ 0 ∧
      d.cmd 4095 = some (cmdIn .ready) ∧ (cmdIn .ready).inDone = false) ∧ (up.sq 12 3).burst = 0 ∧ (up.adm 12).burst = 0 ∧ up.cmd 4095 = none ∧ ({ up with fl := { up.fl with sbStop := true } } : Device).stopped = true ∧ up.boot.computeReset = false ∧ ({} : Device).boot.computeReset = true := by decide

/-- A device that comes up, after some step. -/
def rising (b : Boot) : Device := { boot := { b with pwrgood := true, custodyReset := false } }

theorem witness_BringUpSteps :
    (let d := rising {}; (d.boot.pwrgood = true ∧ d.boot.resetN = true ∧ d.boot.custodyReset = false) ∧ d.flt.fatal = none ∧ d.md.owner = false ∧ d.boot.computeReset = true ∧ d.boot.perstHold = false ∧ d.boot.cusReady = false ∧ d.md.debugStrap = false ∧ d.boot.entropyReady = false ∧ d.whd = {}) ∧
    (let d := { rising {} with md := { debugStrap := true, owner := true } }; d.boot.cusReady = false ∧ d.md.debugStrap = true ∧ d.md.owner = true) ∧
    (let d := { rising { cusReady := true, computeReset := false } with fl := { training := true, trainSeen := true } }; d.fl.trained = false ∧ d.boot.cusReady = true ∧ d.boot.custodyReset = false ∧ d.boot.computeReset = false ∧ d.fl.training = true ∧
      d.fl.trainSeen = true ∧ d.cis.durOk = false) ∧
    (let d := rising { cusReady := true, computeReset := false, flumeUp := true }; d.boot.flumeUp = true ∧ d.boot.unitsTested = false ∧ d.boot.computeReset = false ∧ d.boot.cusReady = true ∧ (∀ c < 3, ∀ i < 144, (d.unit c i).fenced = false ∧ (d.unit c i).retired = false) ∧
      d.boot.rsvReady = false) ∧
    (∀ l ∈ [[], [(1, 5)], [(1, 5), (2, 6)]], let d := { rising { stepReached := 9, unitKeys := true, srl := l } with rsv := { keys := 2 ^ 65 - 1, wrapKeys := 2 ^ 64 - 1, saveKeys := 2 ^ 64 - 1 } }; d.keysLoaded = true ∧ d.boot.unitKeys = true ∧ d.boot.stepReached < 10 ∧ d.boot.serviceReady = false ∧
      d.boot.srl = l ∧ ((2 : BitVec 2).getLsbD 0 = false ∧ ∀ x ∈ l.zipIdx, (3 : BitVec 2).getLsbD x.2 = true)) ∧
    (let d := rising { stepReached := 11, unitsTested := true }; 11 ≤ d.boot.stepReached ∧ d.boot.serviceReady = false ∧ d.boot.unitsTested = true ∧ d.boot.fail = false ∧ d.flt.fatal = none) ∧ (rising { stepReached := 10 }).boot.stepReached < 11 ∧
    (let d := rising { cusReady := true, perstN := true, computeReset := false }; d.boot.cusReady = true ∧ d.boot.perstN = true ∧ d.boot.pcieLink = false ∧ d.boot.computeReset = false)  ∧
    (let d : Device := {}; ¬ (d.boot.pwrgood = true ∧ d.boot.resetN = true ∧ d.boot.custodyReset = false) ∧ d.fl.training = false ∧ d.boot.flumeUp = false ∧ d.keysLoaded = false ∧ d.boot.cusReady = false) ∧
    (let x : FatalRec := { source := 0, seq := 9, since := 0, drain := false }; x.stage ≠ 4 ∧ ({ rising {} with flt := { fatal := some x } } : Device).flt.fatal = some x) := by decide +kernel

theorem witness_BoardInterfaces : ({ up with boot := { up.boot with rails := 0x1FF } } : Device).bmcRuns = true ∧ up.bmcRuns = false ∧ up.md.mode ≠ .debug ∧ up.levRuns 17 = true ∧ (inMode .debug up).md.mode = .debug ∧
    (5 : Nat) < (6 : BitVec 8).toNat ∧ (10 : Nat) < (11 : BitVec 8).toNat ∧ (6 : BitVec 8) ≠ 1 ∧ (6 : BitVec 8) ≠ 0xFF := by decide

/-! ## The Watershed -/

/-- The device is member 5 of a Watershed, with a credential; member 9's peer is p, who may have sent a message. -/
def wsUp (p : Peer) (msgs : List (Nat × List Byte) := []) (d : Device := up) : Device :=
  let q : Peer := { p with en := true, inbox := msgs };
  { d with ws := { d.ws with cred := true, credOk := true, member := 5, peers := [(9, q)] }, regs := [(0x000D_0000, 5), (0x000D_0100, 2)] }

/-- The same with class 2 entropy at hand. -/
def wsLive (p : Peer) (msgs : List (Nat × List Byte) := []) (d : Device := up) : Device := wsUp p msgs { d with whd := { main := { inService := true } } }

/-- Link 0 is up, template 0 leads to it, and the packet gate is open. -/
def wired (d : Device) : Device :=
  let t : Tmpl := { len := 14, valid := true };
  { d with gates := (82, gateOf 0) :: d.gates, ws := { d.ws with linkUp := [(0, true)], tmpls := [(0, t)], peers := mapWhere (fun x => x.1 == 9) (fun x => (9, { x.2 with useP0 := true })) d.ws.peers } }

/-- No channel is free. -/
def crowded (d : Device) : Device := { d with ws := { d.ws with peers := d.ws.peers ++ (List.range 64).map (fun i => (i + 10, { en := true, up := true })) } }

theorem witness_JoiningTheWatershed :
    (let s := st (wsLive {} [(1, [])]); WsGets s 9 1 [] ∧ s.dev.entropyAvailable = true ∧ (s.dev.peer 9).up = false ∧ (s.dev.peer 9).join = 0 ∧
      (let x := (wsTook 9 1 [] s.dev).updPeer 9 (fun p => { p with join := 0 }); x.channelsTaken < 64 ∧ (freeChannel x).isSome = true ∧ (x.joinRefusal 9 (word [] 0 8) (([] : List Byte).drop 1256) [] true false true).isSome = true)) ∧
    (let s := st (crowded (wsLive {} [(1, [])])); WsGets s 9 1 [] ∧ s.dev.entropyAvailable = true ∧ (s.dev.peer 9).up = false ∧ (s.dev.peer 9).join = 0 ∧
      (let x := (wsTook 9 1 [] s.dev).updPeer 9 (fun p => { p with join := 0 }); (freeChannel x).isNone = true ∧ (x.joinRefusal 9 (word [] 0 8) (([] : List Byte).drop 1256) [] true false false).isSome = true)) ∧
    (let s := st (wsLive { up := true } [(1, [])]); WsGets s 9 1 [] ∧ (s.dev.peer 9).up = true ∧ (s.dev.peer 9).join = 0) ∧
    (∀ j ∈ [1, 2], let s := st (wsLive { join := j } [(1, [])]); WsGets s 9 1 [] ∧ s.dev.entropyAvailable = true ∧ (s.dev.peer 9).join = j ∧ s.dev.wsMember < 9) ∧
    (∀ j ∈ [0, 1, 2, 3], let s := st (wsLive { join := j } [(2, [])]); WsGets s 9 2 [] ∧ s.dev.entropyAvailable = true ∧ (s.dev.peer 9).join = j ∧ ((wsTook 9 2 [] s.dev).joinRefusal 9 s.dev.wsOwnId [] [] false true true).isSome = true) ∧
    (∀ j ∈ [1, 2], let s := st (wsUp { join := j } [(3, [])]); WsGets s 9 3 [] ∧ (s.dev.peer 9).join = j ∧ finSigned (s.dev.peer 9).hs [] = false) ∧
    (∀ j ∈ [0, 3], let s := st (wsUp { join := j } [(4, [])]); WsGets s 9 4 [] ∧ (s.dev.peer 9).join = j) ∧
    (∀ j ∈ [0, 3], let s := st (wsUp { join := j } [(5, [6])]); WsGets s 9 5 [6] ∧ (s.dev.peer 9).join = j) ∧
    (∀ n ∈ [2, 3], ∀ t ∈ [19_999_999, 20_000_000], let d := { wsUp { join := 1, joinTries := n } with time := t }; (d.peer 9).join ≠ 0 ∧ (t = 20_000_000 → (d.peer 9).joinAt + 20_000_000 ≤ d.time) ∧ (t ≠ 20_000_000 → d.time < (d.peer 9).joinAt + 20_000_000) ∧ (d.peer 9).joinTries = n) ∧
    (∀ t ∈ [0, 1], let d := wsUp { retryAt := some t, waiting := [.migQuery 1] }; (d.peer 9).retryAt = some t ∧ (d.peer 9).waiting ≠ [] ∧ d.time = 0) ∧
    (let d := wsUp { retryAt := some 0 }; (d.peer 9).retryAt = some 0 ∧ (d.peer 9).waiting = [] ∧ d.ws.replicas = [] ∧ d.ws.rehoming = none ∧ d.time = 0) ∧
    (let d := wired (wsLive {}); (d.portFor 9).isSome = true ∧ (∀ n ∈ [24, 1024], (checkAll d 82 0 0 false none (linePieces (wsTxAt 9) n)).1 = .permit)) ∧
    (∀ o ∈ [(0x60, wholeBytes 8 15, [(8, 64)]), (0x63, wholeBytes 4 8 ++ [(9, 3)] ++ wholeBytes 12 15, []), (0x64, wholeBytes 4 8 ++ [(9, 3)] ++ wholeBytes 12 15, []), (0x65, [(4, 255), (5, 3), (6, 1)], []), (0x66, [(4, 255), (5, 3)] ++ wholeBytes 8 15, [(8, 64)])],
      let e := admin2 o.1 (if o.1 = 0x60 then 0 else 9) (if o.1 = 0x65 then 0 else 0x40) 0 0; let s := st (inMode .debug (adminOf 0 e)); s.dev.md.mode = .debug ∧ AdminTurn s 0 o.1 o.2.1 o.2.2 7 e) ∧
    (∀ l ∈ [0, 4691], let e := lenEntry 0x61 l; ∀ m ∈ [Mode.debug, .service], let s := st (inMode m (adminOf 0 e)); AdminTurn s 0 0x61 (wholeBytes 8 19) [] 7 e ∧ s.dev.md.mode = m ∧ bytesAt e 16 4 = l ∧ (checkAll s.dev 0 0 0 true none (pieces (bytesAt e 8 8) l)).1 = .permit) ∧
    (∀ b ∈ [0, 1], let e := ent [(2, 1), (2, 0x65), (2, 9), (1, b), (57, 0)]; let s := st (adminOf 0 e); AdminTurn s 0 0x65 [(4, 255), (5, 3), (6, 1)] [] 7 e ∧ s.dev.md.mode ≠ .debug ∧ bitOf (bytesAt e 6 1) 0 = decide (b = 1)) ∧
    (∀ x ∈ (wsUp {}).ws.peers, x.2.up = false) ∧ (let d := wsUp { up := true }; (∀ x ∈ d.ws.peers, x.2.up = true ∧ d.time ≤ x.2.notAfter) ∧ d.credDates = true) ∧
    (∀ t ∈ [0, 5], let d := { wsUp { up := true, notAfter := t } with time := 1 }; (d.peer 9).up = true ∧ d.credDates = false) ∧
    (let d := { wsUp { up := true, notAfter := 4 } with time := 5 }; let d := { d with ws := { d.ws with notAfter := 9 } }; d.credDates = true ∧ (d.peer 9).up = true ∧ (d.peer 9).notAfter < d.time) := by
  and_intros <;> decide

/-- A credential of member m with the digest of its identity key. -/
def credOf (m : Nat) (pk : List Byte) : List Byte := toBytes 32 (pack [(4, 0x4D57514B), (2, m), (2, 0), (8, 0), (8, 0), (8, 9)]) ++ (toBytes 32 (sha3_256 pk).toNat ++ zeros 4627)
theorem credOf_form (m : Nat) (hm : m = 0 ∨ m = 9) (pk : List Byte) : let c := credOf m pk; c.length = 4691 ∧ word c 0 4 = 0x4D57514B ∧ word c 4 2 = m ∧ word c 6 2 = 0 ∧ word c 8 8 = 0 ∧ word c 16 8 = 0 ∧ word c 24 8 = 9 ∧ word c 32 32 = (sha3_256 pk).toNat := by
  intro c
  have a : (toBytes 32 (pack [(4, 0x4D57514B), (2, m), (2, 0), (8, 0), (8, 0), (8, 9)])).length = 32 := length_toBytes 32 _
  have b : (toBytes 32 (sha3_256 pk).toNat).length = 32 := length_toBytes 32 _
  have w (o n : Nat) (h : o + n ≤ 32) : word c o n = word (toBytes 32 (pack [(4, 0x4D57514B), (2, m), (2, 0), (8, 0), (8, 0), (8, 9)])) o n := word_left _ _ o n (by rw [a]; omega)
  have v : word c 32 32 = (sha3_256 pk).toNat := by
    rw [word, show c.drop 32 = _ from List.drop_left' a, List.take_left' b, ofBytes_toBytes]; exact Nat.mod_eq_of_lt (sha3_256 pk).isLt
  have l : c.length = 4691 := by simp only [c, credOf, List.length_append, a, b]; simp [zeros]
  rw [w 0 4 (by omega), w 4 2 (by omega), w 6 2 (by omega), w 8 8 (by omega), w 16 8 (by omega), w 24 8 (by omega), v, l]
  rcases hm with rfl | rfl <;> simp only [and_true, true_and] <;> decide +kernel

/-- The Watershed authority key is that of slot 0x42. -/
def authority (d : Device) : Device :=
  let p : Profile := { keys := some (0, 0x42) };
  { d with md := { d.md with prof := some p }, cis := { slots := [(0x42, { attr := { st := 3, usage := 7 } })] } }
/-- The X25519 share 9, the base point. -/
def share9 : List Byte := 9 :: zeros 31

/-- A JOIN_INIT with the credential and the key of member 9 and the share 9, all else zero. -/
def initOf (pk : List Byte) : List Byte := zeros 1224 ++ (share9 ++ (credOf 9 pk ++ pk))

/-- The JOIN_RESP likewise. -/
def respOf (pk : List Byte) : List Byte := zeros 1120 ++ (share9 ++ (credOf 9 pk ++ (pk ++ zeros 3309)))

/-- A join passes every check of every side, a credential is taken, where the free verification says so. -/
theorem witness_JoiningTheWatershed_passes (pk : List Byte) (hp : pk.length = 1952) (h : ∀ s p m x, Config.mldsaVerify s p m x = 0) :
    (authority (wsUp {})).joinRefusal 9 0 (credOf 9 pk) pk true true true = none ∧ (authority up).credSigned (exactly 4691 (credOf 0 up.identityKey)) = true ∧
    word (initOf pk) 0 8 = 0 ∧ ((initOf pk).drop 1256).take credLen = credOf 9 pk ∧ (initOf pk).drop 5947 = pk ∧ (kem768Ok (((initOf pk).drop 40).take 1184) && x25519Ok (((initOf pk).drop 1224).take 32)) = true ∧
    ((respOf pk).drop 1152).take credLen = credOf 9 pk ∧ ((respOf pk).drop 5843).take 1952 = pk ∧ (∀ init, respSigned init (respOf pk) = true) ∧ x25519Ok (((respOf pk).drop 1120).take 32) = true ∧
    (∀ hs, finSigned hs (zeros 3309) = true) ∧
    (let c := exactly 4691 (credOf 0 up.identityKey); word c 0 4 = 0x4D57_514B ∧ word c 6 2 = 0 ∧ word c 4 2 = (authority up).wsMember ∧ word c 8 8 = (authority up).wsOwnId ∧ word c 16 8 ≤ up.time ∧ up.time ≤ word c 24 8 ∧
      word c 32 32 = (sha3_256 up.identityKey).toNat) := by
  obtain ⟨l, c0, c4, c6, c8, c16, c24, c32⟩ := credOf_form 9 (.inr rfl) pk
  obtain ⟨l', e0, e4, e6, e8, e16, e24, e32⟩ := credOf_form 0 (.inl rfl) up.identityKey
  have sh : share9.length = 32 := by simp [share9, zeros]
  have ok : x25519Ok share9 = true := by decide +kernel
  have sg (d : Device) (c : List Byte) (hd : d.md.prof.bind (fun p => p.keys) = some (0, 0x42)) (hk : d.keyAttr 0x42 = some { st := 3, usage := 7 }) (hl : c.length = 4691) : d.credSigned c = true := by
    have : ¬(c.drop 64).length ≠ sigLen 2 3 := by simp [hl]; decide
    simp only [Device.credSigned, hd, hk, mldsa87, mldsaVerify, if_neg this, h]; decide
  have dr : (initOf pk).drop 1224 = share9 ++ (credOf 9 pk ++ pk) := List.drop_left' (by simp [zeros])
  have er : (respOf pk).drop 1120 = share9 ++ (credOf 9 pk ++ (pk ++ zeros 3309)) := List.drop_left' (by simp [zeros])
  have di : (initOf pk).drop 1256 = credOf 9 pk ++ pk := by rw [show 1256 = 1224 + 32 from rfl, ← List.drop_drop, dr]; exact List.drop_left' sh
  have ei : (respOf pk).drop 1152 = credOf 9 pk ++ (pk ++ zeros 3309) := by rw [show 1152 = 1120 + 32 from rfl, ← List.drop_drop, er]; exact List.drop_left' sh
  have ek : (respOf pk).drop 5843 = pk ++ zeros 3309 := by rw [show 5843 = 1152 + 4691 from rfl, ← List.drop_drop, ei]; exact List.drop_left' l
  have es : (respOf pk).drop 7795 = zeros 3309 := by rw [show 7795 = 5843 + 1952 from rfl, ← List.drop_drop, ek]; exact List.drop_left' hp
  have k : word (zeros 1224) 0 8 = 0 ∧ kem768Ok (((zeros 1224).drop 40).take 1184) = true := by decide +kernel
  have sl : ¬(zeros 3309).length ≠ sigLen 2 2 := by simp [zeros]; decide
  refine ⟨?_, ?_, ?_, ?_, ?_, ?_, ?_, ?_, ?_, ?_, ?_, ?_⟩
  · have f : (authority (wsUp {})).wsOwnId = 0 ∧ ((authority (wsUp {})).peer 9).en = true ∧ (authority (wsUp {})).ws.revoked.contains 9 = false ∧ (authority (wsUp {})).wsActive = true ∧ (authority (wsUp {})).time = 0 := by decide
    simp only [Device.joinRefusal, credNow, c0, c4, c6, c8, c16, c24, c32, sg (authority (wsUp {})) _ rfl (by decide) l, f.1, f.2.1, f.2.2.1, f.2.2.2.1, f.2.2.2.2]
    simp
  · exact sg _ _ rfl (by decide) (by rw [exactly_len _ _ l']; exact l')
  · rw [initOf, word_left _ _ _ _ (by simp [zeros])]; exact k.1
  · rw [di]; exact List.take_left' l
  · rw [show 5947 = 1256 + 4691 from rfl, ← List.drop_drop, di]; exact List.drop_left' l
  · rw [dr, List.take_left' sh, ok, Bool.and_true, initOf, List.drop_append_of_le_length (by simp [zeros]), List.take_append_of_le_length (by simp [zeros])]; exact k.2
  · rw [ei]; exact List.take_left' l
  · rw [ek]; exact List.take_left' hp
  · intro init; simp only [respSigned, mldsaVerify, es, if_neg sl, h]; rfl
  · rw [er, List.take_left' sh]; exact ok
  · intro hs; simp only [finSigned, mldsaVerify, if_neg sl, h]; rfl
  · rw [exactly_len _ _ l']
    exact ⟨e0, e6, by rw [e4]; decide, by rw [e8]; decide, by rw [e16]; decide, by rw [e24]; decide, e32⟩

/-- A frame of member 9 in the raw form: its header and what follows it, filled up to 60 bytes. -/
def rawFrame (head body : List Byte) : List Byte := let f := zeros 12 ++ [0x8A, 0x5C] ++ head ++ body; f ++ zeros (60 - f.length)

/-- A KEEPALIVE of member 9 with that sequence number, sealed under a key of zeros. -/
def keepFrame (seq : Nat) : List Byte := let h := wsHead 0x10 9 0 true true 0 seq 0; rawFrame h (gcmSeal (zeros 32) (wsNonce 0 seq) h [])

/-- A JOIN_REJECT of member 9; a frame of a version that there is not. -/
def rejectFrame : List Byte := rawFrame (wsHead 0x05 9 0 true true 1 0 0) [6]

def strangeFrame : List Byte := rawFrame (0x4B :: 0x57 :: zeros 22) []

def late (t : Nat) (d : Device) : Device := { d with time := t }

/-- A device that receives: its channel is up under keys of zeros. -/
def wsRx (p : Peer) : Device := wired (wsUp { p with up := true, keys := zeros 96 })

theorem witness_ChannelsAndFrames_keep :
    (∀ x ∈ [(1, 0), (1, 1), (3, 0)], let d := wsRx { rxSeq := x.2 }; let f := keepFrame x.1; d.wsFilter f = some 14 ∧ (d.wsHeader f 14).map (fun h => (h.typ, h.src, h.seq, h.first, h.last)) = some (0x10, 9, x.1, true, true) ∧
      ((d.wsHeader f 14).bind d.wsOpened) = some [] ∧ wsClear 0x10 = false ∧ wsLenOk 0x10 0 = true ∧ 60 ≤ f.length ∧ f.length ≤ 9212) ∧
    (let d := wired (wsUp { up := true }); ((d.wsHeader (rawFrame (wsHead 0x10 9 0 true true 0 1 0) []) 14).bind d.wsOpened) = none ∧ (d.wsHeader (rawFrame (wsHead 0x10 9 0 true true 0 1 0) []) 14).isSome = true) := by decide +kernel

theorem witness_ChannelsAndFrames_reject : (let d := { wired (wsUp {}) with regs := [(0x000D_0000, 5), (0x000D_0024, 1), (0x000D_0100, 2)] }; field (d.reg 0x000D_0100) 2 0 ≠ 0 ∧ d.wsFilter rejectFrame = some 14 ∧ (d.wsHeader rejectFrame 14).map (fun h => (h.typ, h.src, h.first, h.last, h.body)) = some (5, 9, true, true, [6]) ∧ wsClear 5 = true ∧ wsLenOk 5 1 = true ∧
    60 ≤ rejectFrame.length ∧ rejectFrame.length ≤ 9212 ∧ d.wsFilter strangeFrame = some 14 ∧ d.wsHeader strangeFrame 14 = none ∧ d.wsFilter (zeros 60) = none) := by decide +kernel

theorem witness_ChannelsAndFrames :
    (∀ q ∈ [0, 1], let d := wsRx { rxSeq := q }; d.boot.computeReset = false ∧ d.boot.cdReady = true ∧ d.asleep = false ∧ field (d.reg 0x000D_0100) 2 0 ≠ 0 ∧ (checkAll d 82 0 1 false none (linePieces (wsRxAt 0) 40)).1 = .permit ∧
      (d.peer 9).unacked = [] ∧ (d.peer 9).early = [] ∧ (d.peer 9).part = none ∧ (q = 0 → 1 = (d.peer 9).rxSeq + 1 ∧ (d.peer 9).rxSeq + 1 < 3 ∧ 3 ≤ (d.peer 9).rxSeq + 257) ∧ (q = 1 → 1 ≤ (d.peer 9).rxSeq)) ∧ field (up.reg 0x000D_0100) 2 0 = 0 ∧
    (let s := st (wsUp {} [(0x10, [])]); WsGets s 9 0x10 []) ∧ (∀ u : Bool, let s := st (wsUp { up := u } [(0x11, [])]); WsGets s 9 0x11 [] ∧ (s.dev.peer 9).up = u) ∧
    (let d := wsUp { up := true }; (d.peer 9).up = true ∧ d.time < (d.peer 9).lastTx + 1_000_000 ∧ d.time < (d.peer 9).lastTraffic + 60_000_000_000 ∧ (d.peer 9).txSeq < 2 ^ 32 ∧ (d.peer 9).rxSeq < 2 ^ 32 ∧ d.time < (d.peer 9).since + 3_600_000_000_000 ∧ (d.peer 9).unacked = [] ∧
      d.time < (d.peer 9).lastRx + 5_000_000) ∧
    (let d := late 3_600_000_000_000 (wsUp { up := true }); (d.peer 9).up = true ∧ (d.peer 9).lastTx + 1_000_000 ≤ d.time ∧ (d.peer 9).lastTraffic + 60_000_000_000 ≤ d.time ∧ (d.peer 9).since + 3_600_000_000_000 ≤ d.time ∧ (d.peer 9).unacked = [] ∧
      (d.peer 9).lastRx + 5_000_000 ≤ d.time) ∧
    (∀ x ∈ [(2 ^ 32, 0), (0, 2 ^ 32)], let d := wsUp { up := true, txSeq := x.1, rxSeq := x.2 }; (d.peer 9).up = true ∧ (2 ^ 32 ≤ (d.peer 9).txSeq ∨ 2 ^ 32 ≤ (d.peer 9).rxSeq)) ∧
    (∀ n ∈ [7, 8], ∀ t ∈ [1_999_999, 2_000_000], let w : WsFrame := { seq := 1, sealed := zeros 40, msg := .keepalive, last := true, sent := 0, tries := n }; let d := late t (wired (wsUp { up := true, unacked := [w] })); (d.peer 9).up = true ∧ (d.peer 9).unacked = [w] ∧
      decide (w.sent + 2_000_000 ≤ d.time) = decide (t = 2_000_000) ∧ (d.portFor 9).isSome = true ∧ (checkAll d 82 0 0 false none (linePieces (wsTxAt 9) w.sealed.length)).1 = .permit ∧
      (n = 7 → t = 2_000_000 → firstWhere (fun x => decide (x.sent + 2_000_000 ≤ d.time) && decide (x.tries < 8)) (d.peer 9).unacked = some w)) ∧
    (let d := wsUp {}; Tbl.get false d.ws.linkUp 0 = false ∧ 0 % 4 < linksOf (field (d.reg 0x000D_0100) 2 0) ∧ (d.unit 5 0).fenced = false ∧ d.boot.computeReset = false ∧ d.boot.cdReady = true ∧ d.asleep = false ∧ linksOf (field (d.reg 0x000D_0100) 2 0) ≤ 3 % 4) ∧
    Tbl.get false ({ up with ws := { linkUp := [(7, true)] } } : Device).ws.linkUp 7 = true ∧ Tbl.get false up.ws.linkUp 7 = false ∧
    (let e := admin2 0x66 9 0x40 0 0; let s := st (adminOf 0 e); AdminTurn s 0 0x66 ([(4, 255), (5, 3)] ++ wholeBytes 8 15) [(8, 64)] 7 e ∧ s.dev.md.mode ≠ .debug ∧ (s.dev.allot 0).flr = none ∧ gateCheck s.dev 0 0 (bytesAt e 8 8) 64 1 true none = .permit) ∧
    (let e := admin2 0x60 0 0x40 0 0; AdminTurn (st (adminOf 0 e)) 0 0x60 (wholeBytes 8 15) [(8, 64)] 7 e) ∧ BarTaken (st up) 0x000D_0204 := by
  and_intros <;> decide

/-- The pieces of WS_IDENTITY pass the gate. -/
theorem witness_ChannelsAndFrames_identity :
    (checkAll (adminOf 0 (admin2 0x60 0 0x40 0 0)) 0 0 1 true none (pieces (bytesAt (admin2 0x60 0 0x40 0 0) 8 8) (up.identityKey ++ toBytes 32 Config.identity.toNat).length)).1 = .permit := by
  rw [List.length_append, show up.identityKey.length = 1952 from length_toBytes _ _, length_toBytes]; decide

/-- MIG_PULL of context 7 of allotment 12. -/
def pull : List Byte := toBytes 20 (pack [(4, 1), (4, 7), (4, 12), (8, 0xAB)])
theorem witness_MovesOfContexts :
    (∀ x ∈ [CtxState.opened, .active, .held, .migrating], let d := wsUp {} [(0x20, pull)] { up with ctxs := [(7, { st := x, allot := 12, label := 0xAB })] };
      ((∀ y ∈ d.ws.migs, y.outcome = none) ∧ d.ws.migs.length < 256 ∧ d.wsActive = true) ∧ (d.peer 9).inbox = [(0x20, pull)] ∧ pullFields pull = (1, 7, 12, 0xAB) ∧ (d.ctx 7).st = x ∧ (d.ctx 7).allot = 12 ∧ (d.ctx 7).label = 0xAB ∧ d.ctxQuietFor 12 7 d.order = true) ∧
    (∀ b : Bool, let d := wsUp {} [(0x20, pull)] { up with ctxs := [(7, { st := .closed, migratedOut := b, allot := 12, label := 0xAB })] };
      d.ws.migs = [] ∧ d.wsActive = true ∧ (d.peer 9).inbox = [(0x20, pull)] ∧ (d.ctx 7).st = .closed ∧ (d.ctx 7).migratedOut = b ∧ (d.ctx 7).allot = 12 ∧ (d.ctx 7).label = 0xAB ∧ d.ctxQuietFor 12 7 d.order = true) ∧
    (let d := wsUp {} [(0x20, pull)] { up with order := 5, cmds := [(0, cmdIn .running { takesCtx := true } (ent [(4, 0), (4, 7), (56, 0)]))], ctxs := [(7, { st := .active, allot := 12, label := 0xAB })] };
      (d.ctx 7).st = .active ∧ (d.ctx 7).allot = 12 ∧ (d.ctx 7).label = 0xAB ∧ d.ctxQuietFor 12 7 d.order = false ∧ d.wsActive = true) ∧
    (let d := wsUp {} [(0x20, pull)]; (d.ctx 7).st = .free ∧ (d.peer 9).inbox = [(0x20, pull)] ∧ d.wsActive = true) ∧
    (∀ b : Bool, let x : Migration := { request := 1, source := true, ctx := 7, member := 9, allot := 12, began := 0 }; let d := wsUp {} [(0x22, toBytes 8 1)] up; let d := { d with ws := { d.ws with migs := if b then [x] else [] } };
      ((∀ y ∈ d.ws.migs, y.outcome = none) ∧ d.ws.migs.length < 256 ∧ d.wsActive = true) ∧ WsGets (st d) 9 0x22 (toBytes 8 1) ∧ d.migAt true 9 (word (toBytes 8 1) 0 4) = (if b then some x else none) ∧ x.admin = false) ∧
    (∀ o ∈ [none, some (0, 0)], let x : Migration := { request := 1, source := true, ctx := 7, member := 9, allot := 12, began := 0, outcome := o }; let d := wsUp {} [(0x25, toBytes 4 1)] up; let d := { d with ws := { d.ws with migs := [x] } };
      WsGets (st d) 9 0x25 (toBytes 4 1) ∧ d.migAt true 9 (word (toBytes 4 1) 0 4) = some x ∧ (o = some (0, 0) → ∀ y ∈ d.ws.migs, y.outcome = some (0, d.time)) ∧ (o = none → (∀ y ∈ d.ws.migs, y.outcome = none) ∧ d.ws.migs.length < 256 ∧ d.wsActive = true)) ∧
    (∀ q ∈ [0, 1], let bs := toBytes 13 (pack [(4, 1), (4, 0), (4, 0), (1, 12)]); let d := wsUp {} [(0x21, bs)] { up with allots := [(12, { quotas with ctxQuota := q })] }; WsGets (st d) 9 0x21 bs ∧ d.wsActive = true ∧ d.ws.migs = [] ∧ word bs 12 1 % 64 = 12 ∧
      (d.allot 12).flr = none ∧ (q = 0 → (d.allot 12).ctxQuota ≤ d.ctxTaken 12) ∧ (q = 1 → d.ctxTaken 12 < (d.allot 12).ctxQuota)) ∧
    (∀ v ∈ [0, 1], let bs := toBytes 13 (pack [(4, 1), (4, 7), (4, 0), (1, 12)]); let x : Migration := { request := 1, source := false, ctx := 7, member := 9, allot := 12, began := 0, st := v };
      let d := wsUp {} [(0x21, bs)] { up with allots := [(12, quotas)] }; let d := { d with ws := { d.ws with migs := [x] } };
      ((∀ y ∈ d.ws.migs, y.outcome = none) ∧ d.ws.migs.length < 256 ∧ d.wsActive = true) ∧ WsGets (st d) 9 0x21 bs ∧ d.migAt false 9 (word bs 0 4) = some x ∧ x.ctx = word bs 4 4 ∧ word bs 12 1 % 64 = 12 ∧ (d.allot 12).flr = none ∧ d.ctxTaken 12 < (d.allot 12).ctxQuota) ∧
    (let bs := toBytes 13 (pack [(4, 1), (4, 7), (4, 0), (1, 12)]); let d := wsUp {} [(0x21, bs)] { up with allots := [(12, { quotas with flr := some ⟨0, false, 0⟩ })] }; WsGets (st d) 9 0x21 bs ∧ d.ws.migs = [] ∧ d.wsActive = true ∧ (d.allot 12).flr.isSome = true) ∧
    (∀ t ∈ [0x23, 0x24], let bs := toBytes 5 1; let d := wsUp {} [(t, bs)]; WsGets (st d) 9 t bs ∧ d.ws.migs = []) ∧
    (∀ t ∈ [0x23, 0x24], ∀ st_ ∈ [0, 1], ∀ r ∈ [1, 2, 3, 4], let bs := toBytes 5 (pack [(4, 1), (1, r)]); let x : Migration := { request := 1, source := false, ctx := 7, member := 9, allot := 12, began := 0, st := st_, dest := 8 };
      let d := wsUp {} [(t, bs)] up; let d := { d with ws := { d.ws with migs := [x] } }; WsGets (st d) 9 t bs ∧ d.migAt false 9 (word bs 0 4) = some x ∧ x.st = st_ ∧ x.outcome = none ∧ x.admin = false ∧ word bs 4 1 = r) ∧
    (let bs := toBytes 5 (pack [(4, 1), (1, 1)]); let x : Migration := { request := 1, source := true, ctx := 7, member := 9, allot := 12, began := 0 }; let d := wsUp {} [(0x24, bs)] { up with ctxs := [(7, { st := .migrating, before := .active })] };
      let d := { d with ws := { d.ws with migs := [x] } }; WsGets (st d) 9 0x24 bs ∧ d.migAt false 9 (word bs 0 4) = none ∧ d.migAt true 9 (word bs 0 4) = some x ∧ (d.ctx x.ctx).st = .migrating) ∧
    (∀ l ∈ [1, 2], ∀ b : Bool, let x : Migration := { request := 1, source := b, ctx := 7, member := 9, allot := 12, began := 0, st := 1 }; let d : Device := { up with ws := { migs := [x] }, regs := [(0x000D_0014, l)], time := 1_000_000 };
      d.migAt b 9 1 = some x ∧ x.st = 1 ∧ x.outcome = none ∧ x.lastQuery + 1_000_000 ≤ d.time ∧ (d.adm 0).waits = .none ∧ (l = 1 → x.began + d.migLimit ≤ d.time) ∧ (l = 2 → d.time < x.began + d.migLimit)) ∧
    (∀ m ∈ [8, 9], ∀ x ∈ [CtxState.opened, .active, .held, .migrating], let e := admin2 0x26 7 m 0 0; let s := st (wsUp {} [] { adminOf 12 e with ctxs := [(7, { st := x, allot := 12 })] });
      AdminTurn s 12 0x26 (ctxParam ++ [(8, 255), (9, 3)]) [] 7 e ∧ s.dev.ws.migs = [] ∧ s.dev.wsActive = true ∧ s.dev.ctxQuietFor 12 (ctxOf e) 7 = true ∧ (s.dev.ctx (ctxOf e)).allot = 12 ∧ (s.dev.ctx (ctxOf e)).st = x ∧ s.dev.wsPeerOk (bytesAt e 8 2) = decide (m = 9)) ∧
    (∀ m ∈ [8, 9], let e := admin2 0x27 m 7 0xAB 0; let s := st (wsUp {} [] (adminOf 12 e)); AdminTurn s 12 0x27 ([(4, 255), (5, 3), (8, 255), (9, 255), (10, 3)] ++ wholeBytes 16 23) [] 7 e ∧ s.dev.ws.migs = [] ∧ s.dev.wsActive = true ∧
      s.dev.wsPeerOk (bytesAt e 4 2) = decide (m = 9)) := by
  and_intros <;> decide

theorem witness_MovesOfContexts_offer : ∃ k, (wsUp {}).freeCtx = some k := ⟨0, rfl⟩

/-- A device of the Watershed, with entropy, whose slot 0x42 is of allotment 12 with attributes k; a message may have come from member 9. -/
def wsKey (k : KeyAttr) (msgs : List (Nat × List Byte)) (f : Watershed → Watershed) (d : Device := up) : Device :=
  let d := wsUp {} msgs { d with whd := { main := { inService := true } }, cis := { kerOk := true, slots := [(0x42, { attr := k })] } };
  { d with ws := f d.ws }
def emptyKey : KeyAttr := { usage := 9, allot := 12, st := 1, family := 1, paramSet := 1 }
def treeKey (n : Nat) : KeyAttr := { usage := 6, allot := 12, st := 3, family := 5, persistent := true, stateful := true, extra := 1, nextLeaf := n }
def msg4 (a b c d : Nat) : List Byte := toBytes 20 (pack [(4, a), (4, b), (4, c), (4, 0), (4, d)])
def hk : Nat := 0x30000042

theorem witness_ReplicasAndGrants :
    (∀ h ∈ [5, hk], let s := st (wsKey emptyKey [(0x30, msg4 h 0 0 0)] id); replParts ((s.dev.peer 9).keyOf 2) (msg4 h 0 0 0) emptyKey = none ∧ WsGets s 9 0x30 (msg4 h 0 0 0) ∧ word (msg4 h 0 0 0) 0 4 = h ∧ s.dev.keyAttr h = (if h = hk then some emptyKey else none) ∧ emptyKey.st = 1 ∧ handleStore hk = false ∧ emptyKey.stateful = false ∧ emptyKey.persistent = false) ∧
    (let s := st (wsKey { emptyKey with st := 3 } [(0x30, msg4 hk 0 0 0)] id); WsGets s 9 0x30 (msg4 hk 0 0 0) ∧ s.dev.keyAttr hk = some { emptyKey with st := 3 }) ∧
    (let r : Replica := { handle := 5, member := 9, target := hk }; let bs := toBytes 5 (pack [(4, hk), (1, 0)]); let s := st (wsKey emptyKey [(0x31, bs)] (fun w => { w with replicas := [r] }) { adminOf 0 0 with allots := [(0, { adm := { waits := .replicate 9 5 } })] });
      WsGets s 9 0x31 bs ∧ s.dev.ws.replicas = [r] ∧ r.target = word bs 0 4 ∧ r.done = false ∧ (s.dev.adm 0).waits = .replicate 9 r.handle ∧ word bs 4 1 = 0) ∧
    (let s := st (wsKey emptyKey [(0x32, toBytes 4 hk)] id); WsGets s 9 0x32 (toBytes 4 hk) ∧ s.dev.ssIdle = true ∧ s.dev.ws.homes = []) ∧
    (∀ c ∈ [0, 8], let s := st (wsKey (treeKey 0) [(0x40, msg4 hk 1 c 0)] (fun w => { w with replicas := if c = 0 then [{ handle := hk, member := 9, target := 5 }] else [] })); WsGets s 9 0x40 (msg4 hk 1 c 0) ∧ s.dev.entropyAvailable = true ∧ s.dev.ws.grantsOut = [] ∧ s.dev.homeOf hk = none ∧
      s.dev.keyAttr hk = some (treeKey 0) ∧ word (msg4 hk 1 c 0) 8 4 = c ∧ (c ≠ 0 → s.dev.ws.replicas = [])) ∧
    (∀ z ∈ [(8, treeKey 0), (9, { emptyKey with st := 3 })], let x : HomeRef := { handle := hk, member := z.1, home := 5 }; let bs := msg4 5 hk 7 0; let s := st (wsKey z.2 [(0x43, bs)] (fun w => { w with homes := [x] })); WsGets s 9 0x43 bs ∧ s.dev.entropyAvailable = true ∧
      s.dev.homeOf (word bs 4 4) = some x ∧ s.dev.keyAttr (word bs 4 4) = some z.2 ∧ (x.member ≠ 9 ∨ z.2.stateful = false)) ∧
    (∀ op ∈ [0x63, 0x64], let e := admin2 op hk (9 + 5 * 2 ^ 32) 0 0; let d := wsKey { emptyKey with st := 3 } [] id (adminOf 0 e); AdminTurn (st d) 0 op (wholeBytes 4 8 ++ [(9, 3)] ++ wholeBytes 12 15) [] 7 e ∧ d.md.mode ≠ .debug ∧ d.wsActive = true ∧ d.wsPeerOk (bytesAt e 8 2) = true ∧
      handleAllot (bytesAt e 12 4) ≠ handleAllot hk ∧ ({ d with regs := [] } : Device).wsActive = false ∧ AdminTurn (st { d with regs := [] }) 0 op (wholeBytes 4 8 ++ [(9, 3)] ++ wholeBytes 12 15) [] 7 e) ∧
    (let d := wsKey (treeKey 0) [] (fun w => { w with replicas := [{ handle := hk, member := 9, target := hk, done := true, since := 3 }] }); { handle := hk, member := 9, target := hk, done := true, since := 3 } ∈ d.ws.replicas ∧ (d.peer 9).up = false) ∧
    (∀ v ∈ [0, 1], let r : Replica := { handle := 5, member := 9, target := hk }; let bs := toBytes 5 (pack [(4, hk), (1, v)]); let s := st (wsKey emptyKey [(0x31, bs)] (fun w => { w with replicas := [r] })); WsGets s 9 0x31 bs ∧ s.dev.ws.replicas = [r] ∧
      r.target = word bs 0 4 ∧ r.done = false ∧ (s.dev.adm 0).waits = .none ∧ word bs 4 1 = v) ∧
    (let s := st (wsKey { emptyKey with st := 3 } [(0x32, toBytes 4 hk)] (fun w => { w with homes := [{ handle := hk, member := 9, home := 1 }] })); WsGets s 9 0x32 (toBytes 4 hk) ∧ s.dev.ssIdle = true ∧ (∃ x ∈ s.dev.ws.homes, x.handle = word (toBytes 4 hk) 0 4 ∧ x.member = 9) ∧
      s.dev.keyAttr hk = some { emptyKey with st := 3 }) ∧
    (∀ h ∈ [5, hk], ∀ n ∈ [1023, 1024], let s := st (wsKey (treeKey n) [(0x40, msg4 h 1 8 0)] (fun w => { w with replicas := [{ handle := hk, member := 9, target := 5 }] })); WsGets s 9 0x40 (msg4 h 1 8 0) ∧ s.dev.entropyAvailable = true ∧ s.dev.ws.grantsOut = [] ∧
      s.dev.keyAttr h = (if h = hk then some (treeKey n) else none) ∧ (treeKey n).stateful = true ∧ s.dev.homeOf h = none ∧ (∃ x ∈ s.dev.ws.replicas, x.handle = hk ∧ x.member = 9 ∧ x.destroying = false) ∧ 0 < word (msg4 h 1 8 0) 8 4 ∧ (s.dev.slot 0x42).gen < 0xFFFF_FFFF ∧
      (n = 1023 → n < leafLimit (treeKey n)) ∧ (n = 1024 → leafLimit (treeKey n) ≤ n)) ∧
    (let x : GrantOut := { handle := hk, member := 9, request := 1, first := 0, count := 8 }; let s := st (wsKey (treeKey 8) [(0x40, msg4 hk 1 8 0)] (fun w => { w with grantsOut := [x] })); WsGets s 9 0x40 (msg4 hk 1 8 0) ∧ s.dev.ws.grantsOut = [x] ∧ x.handle = word (msg4 hk 1 8 0) 0 4 ∧
      x.request = word (msg4 hk 1 8 0) 4 4) ∧
    (∀ t ∈ [0x41, 0x42], ∀ q ∈ [1, 2], ∀ r ∈ [0, 1], let g : GrantIn := { handle := hk, asked := some 1 }; let w : GrantWait := { req := { handle := hk }, since := 0 }; let bs := msg4 5 q r 4;
      let s := st (wsKey (treeKey 0) [(t, bs)] (fun x => { x with homes := [{ handle := hk, member := 9, home := 5 }], grantsIn := [g], grantWaits := if t = 0x41 then [] else [w] })); WsGets s 9 t bs ∧ s.dev.entropyAvailable = true ∧
      s.dev.grantAsked 9 (word bs 4 4) = (if q = 1 then some g else none) ∧ 0 < word bs 16 4 ∧ word bs 8 1 = r ∧ s.dev.ws.grantWaits = (if t = 0x41 then [] else [w])) ∧
    (∀ t ∈ [0, 1_000_000], let w : GrantWait := { req := { handle := hk }, since := 0 }; let d : Device := { up with ws := { grantWaits := [w] }, regs := [(0x000D_0020, 1)], time := t }; d.ws.grantWaits = [w] ∧ w.req.handle = (0x30000042 : BitVec 32).toNat ∧
      (t = 0 → d.time < w.since + d.grantWaitNs) ∧ (t = 1_000_000 → w.since + d.grantWaitNs ≤ d.time)) ∧
    (let x : HomeRef := { handle := hk, member := 9, home := 5 }; let bs := msg4 5 hk 7 0; let s := st (wsKey (treeKey 0) [(0x43, bs)] (fun w => { w with homes := [x] })); WsGets s 9 0x43 bs ∧ s.dev.entropyAvailable = true ∧ s.dev.homeOf (word bs 4 4) = some x ∧
      s.dev.keyAttr (word bs 4 4) = some (treeKey 0) ∧ s.dev.ws.grantWaits = []) ∧
    (∀ m ∈ [8, 9], ∀ k ∈ [{ emptyKey with st := 3 }, treeKey 0], ∀ op ∈ [0x63, 0x64], let e := admin2 op hk (m + hk * 2 ^ 32) 0 0; let s := st (wsKey k [] id (adminOf 0 e)); AdminTurn s 0 op (wholeBytes 4 8 ++ [(9, 3)] ++ wholeBytes 12 15) [] 7 e ∧ s.dev.md.mode ≠ .debug ∧ s.dev.wsActive = true ∧
      s.dev.wsPeerOk (bytesAt e 8 2) = decide (m = 9) ∧ s.dev.keyAttr (bytesAt e 4 4) = some k ∧ (s.dev.slot 0x42).unreadable = false ∧ k.st = 3 ∧ s.dev.homeOf hk = none ∧ s.dev.ws.moved.contains hk = false ∧ handleAllot (bytesAt e 12 4) = handleAllot hk) ∧
    (let d := wsKey (treeKey 0) [] (fun w => { w with replicas := [{ handle := hk, member := 9, target := hk, done := true, since := 3 }], peers := [(9, { en := true, up := true })] }); { handle := hk, member := 9, target := hk, done := true, since := 3 } ∈ d.ws.replicas ∧
      (d.peer 9).up = true ∧ d.entropyAvailable = true) := by
  and_intros <;> decide

/-- A KEY_REPL for the empty target, its object wrapped under a key of zeros. -/
def replBytes : List Byte := toBytes 4 hk ++ wrapObject (zeros 32) (objHeader 9 0 12 1 0 1 64 0 0) (zeros 64)

theorem witness_ReplicasAndGrants_material : ∀ b : Bool, let d := wsKey emptyKey [(0x30, replBytes)] (fun w => { w with peers := [(9, { en := true, up := true, keys := zeros 96, inbox := [(0x30, replBytes)] })] });
    let s := st (if b then d else { d with whd := {} }); (s.dev.peer 9).keyOf 2 = zeros 32 ∧ WsGets s 9 0x30 replBytes ∧ word replBytes 0 4 = hk ∧ replParts (zeros 32) replBytes emptyKey = some ({ emptyKey with st := 3, len := 64, nextLeaf := 0 }, zeros 64, []) ∧
      (zeros 64).length ≤ 64 ∧ s.dev.keyAttr hk = some emptyKey ∧ s.dev.entropyAvailable = b := by decide +kernel

/-! ## The round trip and the invariant -/

theorem witness_FurrowRoundTrip : (furrowEncode (.addi 143 31 30 0xFFFF)).isSome = true ∧ (Instr.addi 143 31 30 0xFFFF).wellFormed = true ∧ (furrowEncode (.ld 0 1 2 6 0)).isSome = true ∧ (Instr.ld 0 1 2 6 0).wellFormed = true := by decide

/-- A device with a byte in the Reservoir and one in an operand memory is canonical, and a step leads on from it. -/
theorem witness_StepsKeepTablesCanonical : (let d := { (runs { opm := [(5, 1)] }).dev with rsv := { mem := [(3, 7)] } }; Canonical d ∧ ∃ t, step (st d) = .next t) := by
  refine ⟨?_, _, rfl⟩
  unfold Canonical
  decide

end Sys2Proof.Tests
end

section
/-!
HEAD writes (02 R33). HeadWrites fails in its clause of the admin completion ring. A valid write of ADM_CQ_HEAD settles the admin queue
(02, Table 2.19), and a queue in ERROR that has drained without having been settled then becomes IDLE, where the clause keeps every field but HEAD.
Such a queue arises when a gate opens: the completion entry that waited there is written (14 R298), and nothing settles the queue.
-/
namespace Sys2Proof.Proofs
open Sys2Proof Sys2Proof.Machine Sys2Proof.Claims

/-- A command leads to one device only. -/
theorem gives_unique {i : Instr} {s : State} {d d' : Device} (h : Gives i s d) (h' : Gives i s d') : d = d' := by
  have hnext : Host.Outcome.next { s with dev := d } = Host.Outcome.next { s with dev := d' } := h.symm.trans h'
  injection hnext with hstate
  exact congrArg State.dev hstate

/-- What a command is said to do holds of the device that it gives. -/
theorem of_does_of_gives {i : Instr} {s : State} {d : Device} {p : Device → Prop} (hg : Gives i s d) (hp : Does i s p) : p d := by
  obtain ⟨d', hg', hd'⟩ := hp
  exact gives_unique hg' hg ▸ hd'

/-- A command that acts on the device by f gives what f makes of it. -/
theorem gives_of_on {i : Instr} {s : State} {f : Device → Device} {d : Device} (hexec : exec i s = s.on f) (hd : f s.dev = d) : Gives i s d :=
  hd ▸ hexec

/-- A write of ADM_CQ_HEAD that reaches the page is carried out after the access itself (02 R36). -/
theorem admCqHeadWrite_gives {s : State} {a : Fin 64} (head : BitVec 16) (h : PageTaken s a) :
    Gives (.admCqHeadWrite a head) s (admCqHeadWrite a head.toNat (hostAccess a s.dev)) := by
  obtain ⟨hlive, hawake, hflr, hproxy⟩ := h
  exact gives_of_on (f := fun d => pageWrite a 0x0020 head.toNat d (admCqHeadWrite a head.toNat)) rfl
    (pageWrite_taken _ _ _ _ _ hlive hawake hflr (by decide) hproxy)

/-- By the clause of the admin completion ring a valid write, with no entry waiting, leaves IDLE as it is. -/
theorem idle_kept_of_headWrites (h : Obligations.HeadWrites) {d : Device} {a : Fin 64} {head : BitVec 16} (hpage : PageTaken { dev := d, pending := [] } a) :
    let m := (hostAccess a d).adm a
    (head.toNat + 65536 - m.head) % 65536 ≤ (m.tail + 65536 - m.head) % 65536 → m.cqWaiting = [] → m.enable = true →
      ((admCqHeadWrite a head.toNat (hostAccess a d)).adm a).idle = m.idle := by
  intro m hwithin hwaiting henable
  obtain ⟨hclauses, -⟩ := h
  obtain ⟨-, -, hvalid, -⟩ := hclauses _ a 0 head hpage
  obtain ⟨hadm, -⟩ := of_does_of_gives (admCqHeadWrite_gives head hpage) (hvalid hwithin hwaiting henable)
  exact (congrArg AdmQueue.idle hadm :)

/-- A write that clears CLOSE of a gate whose word is live and not locked opens the gate (14 R298). -/
theorem hgOpen_gives {s : State} {g : Fin 84} (hreached : BarReached s (gateCtrlAt g)) (hcustody : proxied (gateCtrlAt g) = false)
    (hproxy : (hostAccess 0 s.dev).proxyBusy 0 = false) (hlock : (hostAccess 0 s.dev).isLocked (gateCtrlAt g) = false) :
    Gives (.hgOpen g) s (openGate g (hostAccess 0 s.dev)) :=
  gives_of_on (f := fun d => barWrite (gateCtrlAt g) 0 true d (openGate g)) rfl (barWrite_taken _ _ _ _ _ hreached.1 hreached.2 hcustody hproxy (by simp [hlock]))

/-- The admin queue of allotment 12 in ERROR, a burst read having failed (cause 3), with nothing left but a completion entry that waits at the closed gate 12
(so it stands when the gate closes before the last command completes and the read fails after). -/
def entryAtGate : Device :=
  { boot := { computeReset := false, configReady := true, cdReady := true }
    allots := [(12, { ready := true, adm := { enable := true, idle := false, error := true, cause := 3, errorDue := true, cqWaiting := [1] } })]
    gates := [(12, { close := true
                     regions := [(0, BitVec.ofNat 256 (pack [(8, 0), (1, 40), (1, 0), (1, 3), (1, 12), (1, 1)]))]
                     waiting := [{ who := .admCqe 12, addr := 0, len := 16, kind := 1, arrived := 0 }] })] }

/-- The device after gate 12 has opened: the entry is written, the queue has drained and is not IDLE. -/
def drainedInError : Device := openGate (12 : Fin 84) (hostAccess 0 entryAtGate)

/-- The HG_CTRL write of gate 12 reaches its word, which is neither the proxy's nor locked. -/
theorem barReached_entryAtGate : BarReached { dev := entryAtGate, pending := [] } (gateCtrlAt (12 : Fin 84)) ∧ proxied (gateCtrlAt (12 : Fin 84)) = false ∧
    (hostAccess 0 entryAtGate).proxyBusy 0 = false ∧ (hostAccess 0 entryAtGate).isLocked (gateCtrlAt (12 : Fin 84)) = false := by decide

/-- The host's HG_CTRL write leads there. -/
theorem hgOpen_gives_drainedInError : Gives (.hgOpen 12) { dev := entryAtGate, pending := [] } drainedInError := by
  obtain ⟨hreached, hcustody, hproxy, hlock⟩ := barReached_entryAtGate
  exact hgOpen_gives (s := { dev := entryAtGate, pending := [] }) (g := 12) hreached hcustody hproxy hlock

theorem pageTaken_drainedInError : PageTaken { dev := drainedInError, pending := [] } 12 := by decide

/-- One entry is written and none released, so that HEAD may become 1; the other hypotheses of the clause hold as well, and the queue is not IDLE. -/
theorem adm_drainedInError : let m := (hostAccess (12 : Fin 64) drainedInError).adm (12 : Fin 64)
    ((1 : BitVec 16).toNat + 65536 - m.head) % 65536 ≤ (m.tail + 65536 - m.head) % 65536 ∧ m.cqWaiting = [] ∧ m.enable = true ∧ m.idle = false := by decide

/-- The HEAD write settles the queue. -/
theorem admCqHeadWrite_drainedInError_idle :
    ((admCqHeadWrite (12 : Fin 64) (1 : BitVec 16).toNat (hostAccess (12 : Fin 64) drainedInError)).adm (12 : Fin 64)).idle = true := by decide

/-- Refutes O31: in `drainedInError`, ADM_CQ_HEAD going from 0 to 1 with TAIL 1 is valid, and the write sets IDLE beside HEAD (`admSettle`). -/
theorem not_headWrites : ¬ Obligations.HeadWrites := by
  intro h
  obtain ⟨hwithin, hwaiting, henable, hidle⟩ := adm_drainedInError
  have hkept := idle_kept_of_headWrites h pageTaken_drainedInError hwithin hwaiting henable
  exact Bool.false_ne_true (hidle.symm.trans (hkept.symm.trans admCqHeadWrite_drainedInError_idle))

end Sys2Proof.Proofs
end

section
/-!
Issue of an instruction (05 R121; 06 R137, R147): what an instruction that its engine issues comes to, for those that change the engine's own state.
-/
namespace Sys2Proof.Proofs
open Sys2Proof Sys2Proof.Machine Sys2Proof.Claims

variable {i : Instr} {s : State} {e : Fin 144} {k : Nat}

/-- An instruction of the engine's own state, once issued, ends as its meaning says. -/
theorem gives_of_engOp (hi : Issues s e k) {f : EngArch → EngRes} (hexec : exec i s = s.on (engOp e f)) :
    Gives i s (retire e k (f (s.dev.eng e).arch) s.dev) := by
  obtain ⟨hissuer, hcycles, htext⟩ := hi
  exact gives_of_on hexec (engOp_issues hissuer hcycles htext f)

theorem retires_of_engOp (hi : Issues s e k) {f : EngArch → EngRes} (hexec : exec i s = s.on (engOp e f)) {t : EngArch}
    (hf : f (s.dev.eng e).arch = .ok t) : Retires i s e t := by
  have hgives := gives_of_engOp hi hexec
  rwa [hf, retire_ok] at hgives

theorem traps_of_engOp (hi : Issues s e k) {f : EngArch → EngRes} (hexec : exec i s = s.on (engOp e f)) {cause tval : Nat}
    (hf : f (s.dev.eng e).arch = .trap cause tval) : Traps i s e k cause tval := by
  have hgives := gives_of_engOp hi hexec
  rwa [hf, retire_trap] at hgives

/-- An instruction of one scalar register, once issued, writes what its meaning computes. -/
theorem writesX_of_engX (hi : Issues s e k) {rd : BitVec 5} {f : EngArch → W64} (hexec : exec i s = s.on (engX e rd f)) {v : W64}
    (hv : f (s.dev.eng e).arch = v) : WritesX i s e rd v :=
  retires_of_engOp hi hexec (by rw [hv])

end Sys2Proof.Proofs
end

section
/-!
Trap vectors (06 R139, R146): the writes of ES_EPC and ES_TVEC, and the end of a trap that finds no handler.
-/
namespace Sys2Proof.Proofs
open Sys2Proof Sys2Proof.Machine Sys2Proof.Claims

theorem textOffset_eq_true_iff (t : EngArch) (v : Nat) : textOffset t v = true ↔ v % 4 = 0 ∧ v < 65536 ∧ v < t.textLen := by
  simp [textOffset, and_assoc]

/-- The values that ES_TVEC and ES_EPC take are those with bits [1:0] and [63:16] zero below TEXT_LEN. -/
theorem textOffset_eq_false_iff (t : EngArch) (v : Nat) : textOffset t v = false ↔ v % 2 ^ 2 ≠ 0 ∨ v / 2 ^ 16 ≠ 0 ∨ ¬ v < t.textLen := by
  rw [← Bool.not_eq_true, textOffset_eq_true_iff]
  omega

theorem esWrite_epc (t : EngArch) (v : Nat) : t.esWrite 0x02 v = if textOffset t v then .ok { t with epc := v } else .trap 0x07 0x02 := rfl
theorem esWrite_tvec (t : EngArch) (v : Nat) : t.esWrite 0x04 v = if textOffset t v then .ok { t with tvec := v } else .trap 0x07 0x04 := rfl

/-- 06 R139: an offset outside the text is refused before anything is written. -/
theorem esw_traps_of_bad_offset {s : State} {e : Fin 144} {k : Nat} {rs1 : BitVec 5} (hi : Issues s e k)
    (hbad : textOffset (s.dev.eng e).arch (xOf s e rs1).toNat = false) :
    Traps (.esw e 0x02 rs1) s e k 0x07 0x02 ∧ Traps (.esw e 0x04 rs1) s e k 0x07 0x04 :=
  ⟨traps_of_engOp hi rfl ((esWrite_epc _ _).trans (if_neg (Bool.eq_false_iff.mp hbad))),
   traps_of_engOp hi rfl ((esWrite_tvec _ _).trans (if_neg (Bool.eq_false_iff.mp hbad)))⟩

/-- 06 R139: an offset within the text is written. -/
theorem esw_retires_of_good_offset {s : State} {e : Fin 144} {k : Nat} {rs1 : BitVec 5} (hi : Issues s e k)
    (hgood : textOffset (s.dev.eng e).arch (xOf s e rs1).toNat = true) :
    Retires (.esw e 0x02 rs1) s e { (s.dev.eng e).arch with epc := (xOf s e rs1).toNat } ∧
    Retires (.esw e 0x04 rs1) s e { (s.dev.eng e).arch with tvec := (xOf s e rs1).toNat } :=
  ⟨retires_of_engOp hi rfl ((esWrite_epc _ _).trans (if_pos hgood)), retires_of_engOp hi rfl ((esWrite_tvec _ _).trans (if_pos hgood))⟩

/-- The watchdog's trap finds no handler and is counted (06 R147). -/
theorem takeTrap_watchdog (e k tval : Nat) (d : Device) : takeTrap e k 0x09 tval d = (trapEnd e k 0x09 d).bump 0x000F_800C := by
  unfold takeTrap
  exact if_pos rfl

/-- Settles O10: a write is refused exactly where `textOffset` fails, and `takeTrap_ends` and `takeTrap_watchdog` are the ends of a trap without a handler. -/
theorem trapVectorWrites : Obligations.TrapVectorWrites := by
  intro s e k rs1 hi t v bad
  have hbad : bad ↔ textOffset t v = false := (textOffset_eq_false_iff t v).symm
  refine ⟨fun h => esw_traps_of_bad_offset hi (hbad.mp h), fun h => esw_retires_of_good_offset hi ?_, fun htvec c x hc => ?_, fun x => takeTrap_watchdog e k x s.dev⟩
  · exact eq_true_of_ne_false (mt hbad.mpr h)
  · exact takeTrap_ends e k c x s.dev hc (.inr (.inr htvec))

end Sys2Proof.Proofs
end

section
/-!
Values of the integer instructions (06 R129, Tables 6.3 and 6.4): the operations of the model on 64-bit words as arithmetic on numbers.
-/
namespace Sys2Proof.Proofs
open Sys2Proof Sys2Proof.Machine Sys2Proof.Claims

/-! ### Sums, products and comparisons -/

theorem sub_eq_w64 (a b : W64) : a - b = w64 (a.toNat + (2 ^ 64 - b.toNat)) := by
  rw [BitVec.sub_def, Nat.add_comm]
  rfl

theorem add_signExtend_eq_ofInt (a : W64) (imm : BitVec 16) : a + imm.signExtend 64 = BitVec.ofInt 64 (a.toInt + imm.toInt) := by
  rw [BitVec.ofInt_add, BitVec.ofInt_toInt]
  rfl

theorem flagWord_decide (p : Prop) [Decidable p] : flagWord (decide p) = if p then 1 else 0 := by
  by_cases hp : p <;> simp [flagWord, hp]

theorem flagWord_ltS (a b : W64) : flagWord (ltS a b) = if a.toInt < b.toInt then 1 else 0 := flagWord_decide _
theorem flagWord_ltU (a b : W64) : flagWord (ltU a b) = if a.toNat < b.toNat then 1 else 0 := flagWord_decide _

theorem flagWord_ltS_signExtend (a : W64) (imm : BitVec 16) : flagWord (ltS a (imm.signExtend 64)) = if a.toInt < imm.toInt then 1 else 0 := by
  rw [flagWord_ltS, BitVec.toInt_signExtend_of_le (by decide)]

theorem flagWord_ltU_zeroExtend (a : W64) (imm : BitVec 16) : flagWord (ltU a (imm.zeroExtend 64)) = if a.toNat < imm.toNat then 1 else 0 := by
  rw [flagWord_ltU, BitVec.toNat_setWidth_of_le (by decide)]

theorem ite_ltS (a b : W64) {α : Type} (x y : α) : (if ltS a b then x else y) = if a.toInt < b.toInt then x else y := by
  simp [ltS, BitVec.slt]

theorem ite_ltU (a b : W64) {α : Type} (x y : α) : (if ltU a b then x else y) = if a.toNat < b.toNat then x else y := by
  simp [ltU, BitVec.ult]

/-- The smaller of two words, by a comparison of the numbers that f reads them as and g makes words of again. -/
theorem ite_lt_eq_min {α : Type} [LinearOrder α] (f : W64 → α) (g : α → W64) (hgf : ∀ x, g (f x) = x) (a b : W64) :
    (if f a < f b then a else b) = g (min (f a) (f b)) := by
  by_cases h : f a < f b
  · rw [if_pos h, min_eq_left h.le, hgf]
  · rw [if_neg h, min_eq_right (not_lt.mp h), hgf]

theorem ite_lt_eq_max {α : Type} [LinearOrder α] (f : W64 → α) (g : α → W64) (hgf : ∀ x, g (f x) = x) (a b : W64) :
    (if f a < f b then b else a) = g (max (f a) (f b)) := by
  by_cases h : f a < f b
  · rw [if_pos h, max_eq_right h.le, hgf]
  · rw [if_neg h, max_eq_left (not_lt.mp h), hgf]

theorem w64_toNat (a : W64) : w64 a.toNat = a := BitVec.eq_of_toNat_eq (Nat.mod_eq_of_lt a.isLt)

theorem ite_ltS_eq_min (a b : W64) : (if ltS a b then a else b) = BitVec.ofInt 64 (min a.toInt b.toInt) :=
  (ite_ltS a b a b).trans (ite_lt_eq_min BitVec.toInt (BitVec.ofInt 64) (fun _ => BitVec.ofInt_toInt) a b)
theorem ite_ltS_eq_max (a b : W64) : (if ltS a b then b else a) = BitVec.ofInt 64 (max a.toInt b.toInt) :=
  (ite_ltS a b b a).trans (ite_lt_eq_max BitVec.toInt (BitVec.ofInt 64) (fun _ => BitVec.ofInt_toInt) a b)
theorem ite_ltU_eq_min (a b : W64) : (if ltU a b then a else b) = w64 (min a.toNat b.toNat) :=
  (ite_ltU a b a b).trans (ite_lt_eq_min BitVec.toNat w64 w64_toNat a b)
theorem ite_ltU_eq_max (a b : W64) : (if ltU a b then b else a) = w64 (max a.toNat b.toNat) :=
  (ite_ltU a b b a).trans (ite_lt_eq_max BitVec.toNat w64 w64_toNat a b)

/-! ### Shifts and rotations -/

theorem shiftLeft_eq_w64 (a : W64) (m : Nat) : a <<< m = w64 (a.toNat * 2 ^ m) := by
  apply BitVec.eq_of_toNat_eq
  rw [BitVec.toNat_shiftLeft, Nat.shiftLeft_eq]
  rfl

theorem ushiftRight_eq_w64 (a : W64) (m : Nat) : a >>> m = w64 (a.toNat / 2 ^ m) := by
  apply BitVec.eq_of_toNat_eq
  rw [BitVec.toNat_ushiftRight, Nat.shiftRight_eq_div_pow]
  exact (Nat.mod_eq_of_lt ((Nat.div_le_self _ _).trans_lt a.isLt)).symm

theorem sshiftRight_eq_ofInt (a : W64) (m : Nat) : a.sshiftRight m = BitVec.ofInt 64 (a.toInt / 2 ^ m) := by
  rw [BitVec.sshiftRight, Int.shiftRight_eq_div_pow]
  rfl

/-- The two parts of a rotation have no bit in common. -/
theorem ushiftRight_and_shiftLeft_eq_zero (a : W64) {m : Nat} (hm : m < 64) : a >>> m &&& a <<< (64 - m) = 0 := by
  ext i hi
  by_cases hlow : i < 64 - m
  · simp [hlow]
  · simp [show 64 ≤ m + i by omega]

theorem rotateRight_eq_w64 (a : W64) {m : Nat} (hm : m < 64) : a.rotateRight m = w64 (a.toNat / 2 ^ m + a.toNat * 2 ^ (64 - m)) := by
  rw [BitVec.rotateRight_def, Nat.mod_eq_of_lt hm, ← BitVec.add_eq_or_of_and_eq_zero _ _ (ushiftRight_and_shiftLeft_eq_zero a hm),
    ushiftRight_eq_w64, shiftLeft_eq_w64]
  exact (BitVec.ofNat_add _ _).symm

/-! ### Counts -/

theorem bitOf_eq_testBit (x i : Nat) : bitOf x i = x.testBit i := by
  rw [Nat.testBit_eq_decide_div_mod_eq, ← Nat.shiftRight_eq_div_pow]
  rfl

theorem onesOf_eq_countP (a : W64) (n : Nat) : onesOf a.toNat n = (List.range n).countP (fun i => a.getLsbD i) := by
  simp only [onesOf, bitOf_eq_testBit, List.countP_eq_length_filter]
  rfl

theorem leadZeros_of_ne_zero {a : W64} (ha : a ≠ 0) : leadZeros a = 63 - Nat.log2 a.toNat := by
  simp only [leadZeros, if_neg ha]
  omega

/-- The leading zeros of a lie above its highest one bit. -/
theorem leadZeros_spec (a : W64) : leadZeros a ≤ 64 ∧ a.toNat < 2 ^ (64 - leadZeros a) ∧ (leadZeros a < 64 → 2 ^ (63 - leadZeros a) ≤ a.toNat) := by
  by_cases ha : a = 0
  · subst ha
    decide
  · have hnat : a.toNat ≠ 0 := fun h => ha (BitVec.eq_of_toNat_eq h)
    have hlog : Nat.log2 a.toNat < 64 := (Nat.log2_lt hnat).mpr a.isLt
    rw [leadZeros_of_ne_zero ha]
    refine ⟨by omega, ?_, fun _ => ?_⟩
    · rw [show 64 - (63 - Nat.log2 a.toNat) = Nat.log2 a.toNat + 1 by omega]
      exact Nat.lt_log2_self
    · rw [show 63 - (63 - Nat.log2 a.toNat) = Nat.log2 a.toNat by omega]
      exact Nat.log2_self_le hnat

/-- A power of two that divides a does so once more where the bit is clear. -/
theorem two_pow_succ_dvd_iff {a i : Nat} (h : 2 ^ i ∣ a) : 2 ^ (i + 1) ∣ a ↔ bitOf a i = false := by
  obtain ⟨q, rfl⟩ := h
  have hpos : 0 < 2 ^ i := Nat.two_pow_pos i
  rw [Nat.pow_succ, Nat.mul_dvd_mul_iff_left hpos, bitOf_eq_testBit, Nat.testBit_eq_decide_div_mod_eq, Nat.mul_div_cancel_left _ hpos,
    decide_eq_false_iff_not]
  omega

/-- The search for the lowest one bit stops at it, or at the end of the bits looked at. -/
theorem trailZerosFrom_spec (a fuel : Nat) : ∀ i, 2 ^ i ∣ a →
    trailZerosFrom a fuel i ≤ i + fuel ∧ 2 ^ trailZerosFrom a fuel i ∣ a ∧
      (trailZerosFrom a fuel i < i + fuel → ¬ 2 ^ (trailZerosFrom a fuel i + 1) ∣ a) := by
  induction fuel with
  | zero => intro i h; exact ⟨le_rfl, h, fun hlt => absurd hlt (lt_irrefl i)⟩
  | succ fuel ih =>
    intro i h
    by_cases hbit : bitOf a i = true
    · rw [trailZerosFrom, if_pos hbit]
      exact ⟨by omega, h, fun _ hdvd => by simp [(two_pow_succ_dvd_iff h).mp hdvd] at hbit⟩
    · rw [trailZerosFrom, if_neg hbit, show i + (fuel + 1) = i + 1 + fuel by omega]
      exact ih (i + 1) ((two_pow_succ_dvd_iff h).mpr (Bool.not_eq_true _ ▸ hbit))

theorem trailZeros_spec (a : W64) : trailZeros a ≤ 64 ∧ 2 ^ trailZeros a ∣ a.toNat ∧ (trailZeros a < 64 → ¬ 2 ^ (trailZeros a + 1) ∣ a.toNat) := by
  have h := trailZerosFrom_spec a.toNat 64 0 (by simp)
  rwa [Nat.zero_add] at h

/-! ### Bytes, halfwords and words -/

theorem getElem_toBytes (n x i : Nat) (hi : i < (toBytes n x).length) : (toBytes n x)[i] = BitVec.ofNat 8 (x / 256 ^ i) := by
  induction n generalizing x i with
  | zero => simp at hi
  | succ n ih =>
    cases i with
    | zero => simp [toBytes]
    | succ i =>
      simp only [toBytes, List.getElem_cons_succ]
      rw [ih, Nat.div_div_eq_div_mul, Nat.pow_succ']

theorem extractLsb'_byte (a : W64) {i : Nat} (hi : i < 8) : a.extractLsb' (8 * i) 8 = (toBytes 8 a.toNat)[i]'(by simpa using hi) := by
  rw [getElem_toBytes, show (256 : Nat) = 2 ^ 8 by rfl, ← Nat.pow_mul, ← Nat.shiftRight_eq_div_pow]
  rfl

/-- The bytes of the word that eight bytes spell are those bytes. -/
theorem extractLsb'_ofBytes {bs : List Byte} (hlen : bs.length = 8) {i : Nat} (hi : i < 8) :
    (BitVec.ofNat 64 (ofBytes bs)).extractLsb' (8 * i) 8 = bs[i]'(hlen ▸ hi) := by
  have hlt : ofBytes bs < 2 ^ 64 := (ofBytes_lt bs).trans_eq (by rw [hlen]; rfl)
  have hbytes : toBytes 8 (ofBytes bs) = bs := hlen ▸ toBytes_ofBytes bs
  rw [extractLsb'_byte _ hi]
  simp only [BitVec.toNat_ofNat, Nat.mod_eq_of_lt hlt, hbytes]

theorem extractLsb'_reversed_bytes (a : W64) {i : Nat} (hi : i < 8) :
    (BitVec.ofNat 64 (ofBytes (toBytes 8 a.toNat).reverse)).extractLsb' (8 * i) 8 = a.extractLsb' (8 * (7 - i)) 8 := by
  rw [extractLsb'_ofBytes (by simp) hi, extractLsb'_byte a (by omega), List.getElem_reverse]
  simp

theorem zeroExtend_truncate_eq_w64 (a : W64) {n : Nat} (hn : n ≤ 64) : (a.truncate n).zeroExtend 64 = w64 (a.toNat % 2 ^ n) := by
  apply BitVec.eq_of_toNat_eq
  rw [BitVec.toNat_setWidth_of_le hn, BitVec.toNat_setWidth]
  exact (Nat.mod_eq_of_lt ((Nat.mod_le _ _).trans_lt a.isLt)).symm

theorem signExtend_truncate_eq_ofInt (a : W64) : (a.truncate 32).signExtend 64 = BitVec.ofInt 64 (BitVec.ofNat 32 a.toNat).toInt := by
  rw [BitVec.ofNat_toNat]
  rfl

theorem zeroExtend_shiftLeft_eq_w64 (imm : BitVec 16) (m : Nat) : imm.zeroExtend 64 <<< m = w64 (imm.toNat * 2 ^ m) := by
  rw [shiftLeft_eq_w64, BitVec.toNat_setWidth_of_le (by decide)]

theorem getLsbD_andn (a b : W64) {i : Nat} (hi : i < 64) : (a &&& ~~~b).getLsbD i = (a.getLsbD i && !b.getLsbD i) := by
  rw [BitVec.getLsbD_and, BitVec.getLsbD_not, decide_eq_true hi, Bool.true_and]

theorem getLsbD_zeroExtend (imm : BitVec 16) {i : Nat} (hi : i < 64) : (imm.zeroExtend 64).getLsbD i = imm.getLsbD i := by
  rw [BitVec.getLsbD_setWidth, decide_eq_true hi, Bool.true_and]

theorem getLsbD_halfMask (j : Nat) : (0xFFFF : W64).getLsbD j = decide (j < 16) := by
  rw [show (0xFFFF : W64) = (BitVec.allOnes 16).setWidth 64 by rfl, BitVec.getLsbD_setWidth, BitVec.getLsbD_allOnes]
  by_cases hj : j < 16 <;> simp [hj]
  omega

/-- Halfword h of d becomes imm, the other bits stay. -/
theorem getLsbD_insert_halfword (d : W64) (imm : BitVec 16) (h i : Nat) (hi : i < 64) :
    ((d &&& ~~~((0xFFFF : W64) <<< (16 * h))) ||| (imm.zeroExtend 64 <<< (16 * h))).getLsbD i =
      if i / 16 = h then imm.getLsbD (i % 16) else d.getLsbD i := by
  simp only [BitVec.getLsbD_or, BitVec.getLsbD_and, BitVec.getLsbD_not, BitVec.getLsbD_shiftLeft, getLsbD_halfMask, BitVec.getLsbD_setWidth]
  by_cases hbelow : i < 16 * h
  · simp [hi, hbelow, show i / 16 ≠ h by omega]
  · by_cases hin : i / 16 = h
    · simp [hi, hbelow, hin, show i - 16 * h = i % 16 by omega, show i % 16 < 64 by omega, Nat.mod_lt]
    · simp [hi, hbelow, hin, show ¬ i - 16 * h < 16 by omega, show 16 ≤ i - 16 * h by omega]

end Sys2Proof.Proofs
end

section
/-!
Words with non-zero bits in a field that their instruction does not have (06 R129, Table 6.4): the fields of a word put together in format A or I, and what the decoder makes of them.
-/
namespace Sys2Proof.Proofs
open Sys2Proof Sys2Proof.Machine Sys2Proof.Claims

/-! ### Fields of a word as digits of its number -/

theorem toNat_append_eq_mul_add {m n : Nat} (x : BitVec m) (y : BitVec n) : (x ++ y).toNat = x.toNat * 2 ^ n + y.toNat := by
  rw [BitVec.toNat_append, Nat.shiftLeft_eq, Nat.mul_comm, Nat.two_pow_add_eq_or_of_lt y.isLt]

theorem wordField_eq_iff {w : W32} {lo n : Nat} {x : BitVec n} : wordField w lo n = x ↔ w.toNat / 2 ^ lo % 2 ^ n = x.toNat := by
  rw [← BitVec.toNat_inj, wordField, BitVec.extractLsb'_toNat, Nat.shiftRight_eq_div_pow]

section
variable (major : BitVec 6) (rd rs1 rs2 : BitVec 5) (func : BitVec 11) (imm : BitVec 16)

theorem toNat_wordA : (wordA major rd rs1 rs2 func).toNat =
    (((major.toNat * 2 ^ 5 + rd.toNat) * 2 ^ 5 + rs1.toNat) * 2 ^ 5 + rs2.toNat) * 2 ^ 11 + func.toNat := by
  simp only [wordA, toNat_append_eq_mul_add]

theorem toNat_wordI : (wordI major rd rs1 imm).toNat = ((major.toNat * 2 ^ 5 + rd.toNat) * 2 ^ 5 + rs1.toNat) * 2 ^ 16 + imm.toNat := by
  simp only [wordI, toNat_append_eq_mul_add]

theorem wordA_major : wordField (wordA major rd rs1 rs2 func) 26 6 = major := by
  rw [wordField_eq_iff, toNat_wordA]
  omega

theorem wordA_rd : wordField (wordA major rd rs1 rs2 func) 21 5 = rd := by
  rw [wordField_eq_iff, toNat_wordA]
  omega

theorem wordA_rs1 : wordField (wordA major rd rs1 rs2 func) 16 5 = rs1 := by
  rw [wordField_eq_iff, toNat_wordA]
  omega

theorem wordA_rs2 : wordField (wordA major rd rs1 rs2 func) 11 5 = rs2 := by
  rw [wordField_eq_iff, toNat_wordA]
  omega

theorem wordA_func : wordField (wordA major rd rs1 rs2 func) 0 11 = func := by
  rw [wordField_eq_iff, toNat_wordA]
  omega

/-- FUNC of a service word is ARG above the service number (06, Table 6.12). -/
theorem wordA_service (arg : BitVec 7) (service : BitVec 4) : wordField (wordA major rd rs1 rs2 (arg ++ service)) 0 4 = service := by
  rw [wordField_eq_iff, toNat_wordA, toNat_append_eq_mul_add]
  omega

theorem wordA_arg (arg : BitVec 7) (service : BitVec 4) : wordField (wordA major rd rs1 rs2 (arg ++ service)) 4 7 = arg := by
  rw [wordField_eq_iff, toNat_wordA, toNat_append_eq_mul_add]
  omega

theorem wordI_major : wordField (wordI major rd rs1 imm) 26 6 = major := by
  rw [wordField_eq_iff, toNat_wordI]
  omega

theorem toNat_wordI_immHigh : (wordField (wordI major rd rs1 imm) 8 8).toNat = imm.toNat / 256 := by
  rw [← wordField_eq_iff.mp rfl, toNat_wordI]
  omega
end

/-! ### The decoder on words of format A and I -/

variable (e : Fin 144) (rd rs1 rs2 : BitVec 5)

theorem furrowDecode_reg (func : BitVec 11) : furrowDecode e (wordA 0x01 rd rs1 rs2 func) = decodeReg e rd rs1 rs2 func := by
  simp [furrowDecode, wordA_major, wordA_rd, wordA_rs1, wordA_rs2, wordA_func]

theorem furrowDecode_dma (func : BitVec 11) : furrowDecode e (wordA 0x14 rd rs1 rs2 func) = decodeDma e rd rs1 rs2 func := by
  simp [furrowDecode, wordA_major, wordA_rd, wordA_rs1, wordA_rs2, wordA_func]

theorem furrowDecode_service (arg : BitVec 7) (service : BitVec 4) :
    furrowDecode e (wordA 0x22 rd rs1 rs2 (arg ++ service)) = decodeService e rd rs1 rs2 service arg := by
  simp [furrowDecode, wordA_major, wordA_rd, wordA_rs1, wordA_rs2, wordA_service, wordA_arg]

/-- A shift takes a 6-bit immediate and a 2-bit function; bits [15:8] of its word are zero (06, Table 6.4). -/
theorem furrowDecode_shift_immHigh {imm : BitVec 16} (himm : imm.toNat / 256 ≠ 0) : furrowDecode e (wordI 0x08 rd rs1 imm) = none := by
  have hhigh : wordField (wordI 0x08 rd rs1 imm) 8 8 ≠ 0 := fun h => himm (by rw [← toNat_wordI_immHigh 0x08 rd rs1 imm, h]; rfl)
  simp only [furrowDecode, wordI_major]
  exact if_pos hhigh

/-! ### Instructions that take no rs2 -/

variable {rs2}

theorem decodeReg_eq_none_of_rs2_ne_zero (h : rs2 ≠ 0#5) :
    ∀ f ∈ ([0x011, 0x012, 0x013, 0x014, 0x015, 0x016, 0x017, 0x018] : List (BitVec 11)), decodeReg e rd rs1 rs2 f = none := by
  simp [decodeReg, given, h]

theorem decodeDma_eq_none_of_rs2_ne_zero (h : rs2 ≠ 0#5) :
    ∀ f ∈ ([0x000, 0x001, 0x002, 0x003] : List (BitVec 11)), decodeDma e rd rs1 rs2 f = none := by
  simp [decodeDma, given, h]

theorem decodeService_eq_none_of_rs2_ne_zero (h : rs2 ≠ 0#5) (arg : BitVec 7) :
    ∀ f ∈ ([0x2, 0x4, 0x5, 0x7, 0x8, 0x9, 0xA] : List (BitVec 4)), decodeService e rd rs1 rs2 f arg = none := by
  simp [decodeService, given, h]

theorem unusedRegisterFields : UnusedRegisterFields := by
  intro e rd rs1 rs2 arg imm hrs2
  refine ⟨fun f hf => ?_, fun f hf => ?_, fun f hf => ?_, furrowDecode_shift_immHigh e rd rs1, furrowDecode_reg e rd rs1 0 _, furrowDecode_reg e rd rs1 0 _⟩
  · exact (furrowDecode_reg e rd rs1 rs2 f).trans (decodeReg_eq_none_of_rs2_ne_zero e rd rs1 hrs2 f hf)
  · exact (furrowDecode_dma e rd rs1 rs2 f).trans (decodeDma_eq_none_of_rs2_ne_zero e rd rs1 hrs2 f hf)
  · exact (furrowDecode_service e rd rs1 rs2 arg f).trans (decodeService_eq_none_of_rs2_ne_zero e rd rs1 hrs2 arg f hf)

end Sys2Proof.Proofs
end

section
/-!
The integer instructions (06 R129, Tables 6.3 and 6.4): each writes its value to rd and nothing else.
-/
namespace Sys2Proof.Proofs
open Sys2Proof Sys2Proof.Machine Sys2Proof.Claims

theorem integerArithmetic : IntegerArithmetic := by
  intro s e k rd rs1 rs2 imm hi a b
  exact ⟨
    writesX_of_engX hi rfl (BitVec.add_def _ _),
    writesX_of_engX hi rfl (sub_eq_w64 a b),
    writesX_of_engX hi rfl (add_signExtend_eq_ofInt a imm),
    writesX_of_engX hi rfl (BitVec.mul_def),
    writesX_of_engX hi rfl rfl,
    writesX_of_engX hi rfl rfl,
    writesX_of_engX hi rfl (flagWord_ltS a b),
    writesX_of_engX hi rfl (flagWord_ltU a b),
    writesX_of_engX hi rfl (flagWord_ltS_signExtend a imm),
    writesX_of_engX hi rfl (flagWord_ltU_zeroExtend a imm),
    writesX_of_engX hi rfl (ite_ltS_eq_min a b),
    writesX_of_engX hi rfl (ite_ltS_eq_max a b),
    writesX_of_engX hi rfl (ite_ltU_eq_min a b),
    writesX_of_engX hi rfl (ite_ltU_eq_max a b),
    writesX_of_engX hi rfl (ite_not _ _ _).symm⟩

theorem shiftsAndRotations : ShiftsAndRotations := by
  intro s e k rd rs1 rs2 n hi a m
  have hm : m < 64 := Nat.mod_lt _ (by decide)
  exact ⟨
    writesX_of_engX hi rfl (shiftLeft_eq_w64 a m),
    writesX_of_engX hi rfl (ushiftRight_eq_w64 a m),
    writesX_of_engX hi rfl (sshiftRight_eq_ofInt a m),
    writesX_of_engX hi rfl (rotateRight_eq_w64 a hm),
    writesX_of_engX hi rfl (shiftLeft_eq_w64 a n.toNat),
    writesX_of_engX hi rfl (ushiftRight_eq_w64 a n.toNat),
    writesX_of_engX hi rfl (sshiftRight_eq_ofInt a n.toNat),
    writesX_of_engX hi rfl (rotateRight_eq_w64 a n.isLt)⟩

theorem bitwiseInstructions : BitwiseInstructions := by
  intro s e k rd rs1 rs2 imm hw hi a b d
  obtain ⟨hclzLe, hclz⟩ := leadZeros_spec a
  obtain ⟨hctzLe, hctz⟩ := trailZeros_spec a
  exact ⟨
    ⟨a &&& b, writesX_of_engX hi rfl rfl, fun _ _ => BitVec.getLsbD_and⟩,
    ⟨a ||| b, writesX_of_engX hi rfl rfl, fun _ _ => BitVec.getLsbD_or⟩,
    ⟨a ^^^ b, writesX_of_engX hi rfl rfl, fun _ _ => BitVec.getLsbD_xor⟩,
    ⟨a &&& ~~~b, writesX_of_engX hi rfl rfl, fun _ => getLsbD_andn a b⟩,
    ⟨a &&& imm.zeroExtend 64, writesX_of_engX hi rfl rfl, fun _ hbit => by rw [BitVec.getLsbD_and, getLsbD_zeroExtend imm hbit]⟩,
    ⟨a ||| imm.zeroExtend 64, writesX_of_engX hi rfl rfl, fun _ hbit => by rw [BitVec.getLsbD_or, getLsbD_zeroExtend imm hbit]⟩,
    ⟨a ^^^ imm.zeroExtend 64, writesX_of_engX hi rfl rfl, fun _ hbit => by rw [BitVec.getLsbD_xor, getLsbD_zeroExtend imm hbit]⟩,
    ⟨leadZeros a, hclzLe, writesX_of_engX hi rfl rfl, hclz⟩,
    ⟨trailZeros a, hctzLe, writesX_of_engX hi rfl rfl, hctz⟩,
    writesX_of_engX hi rfl (congrArg w64 (onesOf_eq_countP a 64)),
    ⟨BitVec.ofNat 64 (ofBytes (toBytes 8 a.toNat).reverse), writesX_of_engX hi rfl rfl, fun _ => extractLsb'_reversed_bytes a⟩,
    writesX_of_engX hi rfl (zeroExtend_truncate_eq_w64 a (by decide)),
    writesX_of_engX hi rfl (zeroExtend_truncate_eq_w64 a (by decide)),
    writesX_of_engX hi rfl (zeroExtend_truncate_eq_w64 a (by decide)),
    writesX_of_engX hi rfl (signExtend_truncate_eq_ofInt a),
    writesX_of_engX hi rfl (zeroExtend_shiftLeft_eq_w64 imm _),
    ⟨(d &&& ~~~((0xFFFF : W64) <<< (16 * hw.toNat))) ||| (imm.zeroExtend 64 <<< (16 * hw.toNat)), writesX_of_engX hi rfl rfl, getLsbD_insert_halfword d imm hw.toNat⟩⟩

/-- Settles O5: every instruction's meaning is `engX` of a value, and the lemmas above say what that value is. -/
theorem integerInstructions : Obligations.IntegerInstructions :=
  ⟨integerArithmetic, shiftsAndRotations, bitwiseInstructions, unusedRegisterFields⟩

end Sys2Proof.Proofs
end
